-- ==== Sys2Proof/Word.lean ====
section
/-! DEFINITION. The word types of the part and the shape of its sparse tables. -/

namespace Sys2Proof

/-- One byte of memory, of a packet or of a message. -/
abbrev Byte := BitVec 8

/-- One lane of a vector register, one scalar register, one 32-bit register of a register block. -/
abbrev Word := BitVec 32

/-- A vector register and a 256-byte granule alike: 2,048 bits, lane 0 lowest (R157). -/
abbrev Vec := BitVec 2048

/-- A house address (R187). -/
abbrev HouseAddr := BitVec 40

/-- A fabric address: x, y, z, w in four 4-bit fields from the low end (R256). -/
abbrev FabricAddr := BitVec 16

/-- A bundle of the instruction buffer (R89). -/
abbrev Bundle := BitVec 256

/-- A sparse table: keys strictly rising, and no entry equal to what an unlisted key reads as. -/
abbrev Tab (α : Type) := List (Nat × α)

/-- What a DMA reads from host memory: runs of bytes by host address. An address in no run cannot be
read and completes with an error. -/
abbrev HostMem := List (Nat × List Byte)

end Sys2Proof
end

