-- ==== Sys2Proof/Syntax.lean ====
section
/-! DEFINITION. The commands of the block: one constructor of Instr per row of spec/opcode_table.json,
with the operands the manual gives the row. -/

namespace Sys2Proof

/-- Fields of the MX slot (Table 5-2), the opcode apart. -/
structure MxFields where
  acc : BitVec 2
  accumulate : Bool
  held : BitVec 1
  stream : BitVec 1
  fmtA : BitVec 4
  fmtB : BitVec 4
  mxA : Bool
  mxB : Bool
  mask : BitVec 3
  sat : Bool
  pieceA : BitVec 2
  pieceB : BitVec 2
  scaleA : BitVec 5
  scaleB : BitVec 5
  shift : BitVec 6
  deriving DecidableEq, Repr

/-- Fields of the VX slot (Tables 4-4 and 7-1), the opcode apart. -/
structure VxFields where
  vd : BitVec 5
  va : BitVec 5
  vb : BitVec 5
  mask : BitVec 3
  zeroing : Bool
  vc : BitVec 5
  rnd : BitVec 2
  ftz : Bool
  sat : Bool
  bs : Bool
  sb : BitVec 5
  cs : Bool
  sc : BitVec 5
  fmt : BitVec 4
  fmt2 : BitVec 4
  aux : BitVec 8
  deriving DecidableEq, Repr

/-- Fields of the LD slot (Table 4-5), the opcode apart. -/
structure LdFields where
  reach : BitVec 2
  dst : BitVec 5
  base : BitVec 4
  offset : BitVec 16
  aux : BitVec 8
  deriving DecidableEq, Repr

/-- Fields of the ST slot (Table 4-7), the opcode apart. -/
structure StFields where
  reach : BitVec 2
  src : BitVec 5
  base : BitVec 4
  offset : BitVec 16
  mask : BitVec 3
  digest : Bool
  deriving DecidableEq, Repr

/-- The VX opcodes other than NOP (Table 7-2). -/
inductive VxOp where
  | vmov | iadd | isub | imul | imin | imax | band | bor | bxor | shl | shr | sar | key | vcmp | vsel
  | vperm | vrda | vwra | vgath | vscat | fadd | fsub | fmul | ffma | fmax | fmin | vcvt | vscan | vscanx
  | vred | vhist | vfirst | vacc | vscana | exp2 | log2 | rcp | rsqrt | sin | cos
  deriving DecidableEq, Repr

/-- The LD opcodes other than NOP (Table 4-6). -/
inductive LdOp where
  | lds | ldv | ldo | ldi
  deriving DecidableEq, Repr

/-- A fabric packet: the header fields of Table 11-2, the per-kind bits [127:73] of Table 11-4, and the
payload (256 bytes, byte 0 lowest; bytes from length on are not sent). -/
structure Packet where
  kind : BitVec 4
  cls : BitVec 2
  vc : BitVec 1
  epoch : BitVec 2
  mark : Bool
  untagged : Bool
  dest : FabricAddr
  source : FabricAddr
  slice : BitVec 8
  tagBell : BitVec 8
  tagAttempt : BitVec 4
  length : BitVec 9
  rest : BitVec 55
  payload : Vec
  deriving DecidableEq, Repr

/-- The payload of a TRAIN link-control flit (Table 10-8). -/
structure TrainFlit where
  state : Byte
  versions : List (Byte × Byte)
  stepping : Byte
  rxOk : BitVec 8
  txOk : BitVec 8
  width : Byte
  txFirst : Byte
  deriving DecidableEq, Repr

/-- The payload of a STATUS link-control flit (Table 10-4). -/
structure StatusFlit where
  ackSeq : BitVec 12
  ackValid : Bool
  nakSeq : BitVec 12
  nak : Bool
  credits : List (BitVec 16)
  rxOk : BitVec 8
  deriving DecidableEq, Repr

/-- The payload of a NEIGHBOUR packet (Table 12-4), the type apart. -/
structure Neighbour where
  link : Byte
  address : FabricAddr
  hasPlan : Bool
  verified : Bool
  stepping : Byte
  serial : BitVec 64
  digest : BitVec 64
  cookie : Word
  turnaround : Word
  deriving DecidableEq, Repr

/-- A distribution frame (Table 13-7) with its 64 KiB of data. -/
structure Frame where
  objKind : Byte
  format : Byte
  object : Word
  generation : BitVec 16
  index : BitVec 24
  tag : BitVec 128
  pass : Byte
  sequence : Word
  digest : BitVec 64
  data : List Byte
  deriving DecidableEq, Repr

/-- A bundle frame (Table 17-10): the header piece and its granules. -/
structure BundleFrame where
  ftype : Byte
  format : Byte
  member : BitVec 16
  set : Word
  first : BitVec 16
  digest : BitVec 64
  granules : List Vec
  deriving DecidableEq, Repr

/-- What the surroundings answer to the part while it performs a recess, a service tick or a pre-start
step: the consumed words read from the mirrors (by function), host memory as DMA reads it, and the mean
input power of the attempt just ended in watts. -/
structure Surroundings where
  consumed : List (Nat × Word)
  /-- Functions of whose ring or mirror a write was reported in error since the last recess or tick (EG_STATUS). -/
  dmaErrors : List Nat
  host : HostMem
  meanPower : Nat
  deriving DecidableEq, Repr

/-- What VSB finds when it becomes good: the straps, and the copies in the record journal that decayed while the part
stood without power (by stack, record type and sequence number; log 76). -/
structure PowerOn where
  straps : BitVec 3
  failing : List (BitVec 2 × Byte × BitVec 64)
  deriving DecidableEq, Repr

/-- The next piece of a region at a cycle of its die's islands. -/
structure PieceArrival where
  region : BitVec 11
  now : Nat
  deriving DecidableEq, Repr

/-- Work on an erase block of a stack, and whether its erase fails. -/
structure EraseWork where
  block : Nat
  eraseFails : Bool
  deriving DecidableEq, Repr

/-- A link at a time of its own clock, in ns. -/
structure LinkTime where
  link : BitVec 5
  nanosecond : Nat
  deriving DecidableEq, Repr

/-- A packet at a cycle of its router. -/
structure PacketArrival where
  packet : Packet
  now : Nat
  deriving DecidableEq, Repr

/-- A reader names itself to the parts of a box (R315). -/
structure ReaderBox where
  reader : FabricAddr
  low : FabricAddr
  high : FabricAddr
  deriving DecidableEq, Repr

/-- A block of a distribution, and the programs of it that failed before one held. -/
structure BlockOutcome where
  index : BitVec 24
  failures : Nat
  deriving DecidableEq, Repr

/-- How far a DMA transfer goes on, in granules, and what its surroundings answer. -/
structure PutRun where
  granules : Nat
  env : Surroundings
  deriving DecidableEq, Repr

/-- The messages that firmware sends to firmware in FW_REQ and FW_RESP packets (R410, Table 11-3), the
distribution messages of Table 13-8 apart. -/
inductive FwMessage where
  /-- A job command's effect carried from the root: slice assignment with box, member map, root, the root's epoch
  and the gather time limit. -/
  | assign (job : BitVec 16) (slice : BitVec 8) (low high : FabricAddr) (members : List Nat)
      (root : FabricAddr) (epoch : BitVec 2) (limitUs : Word)
  /-- The job record's creation, with the root's seed, replay limit and recess minimum. -/
  | create (job : BitVec 16) (seed : BitVec 64) (replayLimit : Byte) (recessMin : Word)
  /-- A job command carried from the root to a member: opcode and request body (R410). -/
  | order (opcode : BitVec 16) (body : List Byte)
  /-- The image metadata at TT_LOAD (R421): directory, and each section's bytes with its SHA3-512; a bundle
  set carries no bytes. -/
  | image (directory : List Byte) (sections : List (List Byte × BitVec 512))
  /-- A member's answer to the root: a command of this opcode completed with this status and response body.
  Opcode 0 says that one bundle frame has been processed. -/
  | done (member : FabricAddr) (opcode : BitVec 16) (status : BitVec 16) (body : List Byte)
  /-- A member's lesson digest (R438). -/
  | digest (member : Nat) (bell : BitVec 40) (value : BitVec 64)
  /-- A member's flags of a committed lesson (R185): flag number and the lowest part tile number that set it. -/
  | flags (bell : BitVec 40) (lowest : List (Nat × BitVec 10))
  /-- The job has ended, or a member asks the root to end it: phase and fault code (R59, R60). -/
  | jobEnd (phase : Byte) (code : Byte)
  /-- A member reports a page in which it read an uncorrectable error (R359). -/
  | damagedPage (page : Nat)
  /-- A member's scrub has found an uncorrectable word outside the weight map, at a local key (R206). -/
  | scrubbed (member : FabricAddr) (key : Nat)
  /-- A job stop or release carried from the root. -/
  | stop (job : BitVec 16) (release : Bool)
  /-- Re-verification of a relay part's links at a part beside it (R284): 0 it begins, 1 every entry is MATCH,
  2 an entry is another kind. -/
  | reverify (member : FabricAddr) (step : Byte)
  /-- A part refuses a distribution with a status of Table 13-9 (R322). -/
  | refusal (member : FabricAddr) (status : BitVec 16)
  /-- After a dirty verdict a relay part tells the smallest width of its links on the slice's routes (R59, R285). -/
  | width (member : FabricAddr) (lanes : Nat)
  /-- A reader names itself before the first MANIFEST frame (R314): its mode, and the box of the distribution. -/
  | reader (repairing : Bool) (low high : FabricAddr)
  /-- The distribution of a manifest digest has ended without commit (R317). -/
  | distEnd (digest : BitVec 64)
  /-- The registrar names an adapter generation in a slot of every member (R360). -/
  | bound (slot : Nat) (adapter : Word) (generation : BitVec 16) (tenant : BitVec 12)
  /-- A member's restore of a slot has met a lost block (R361). -/
  | slotLost (slot : Nat)
  /-- The notice of an input failure sent to the root (R494). -/
  | inputFailure (member : FabricAddr)
  deriving DecidableEq, Repr

/-- A placement that a lock-step leader sends for one request (R440): an admission, a refusal, a cancel or a
pause, and what the leader assigned. -/
inductive PlacementKind where
  | admission | refuse | cancel | pause
  deriving DecidableEq, Repr

/-- One placement record. -/
structure PlacementRec where
  kind : PlacementKind
  function : BitVec 6
  id : Word
  context : Nat
  block : Nat
  row : Nat
  slot : BitVec 16
  pages : List Nat
  detail : Byte
  deriving DecidableEq, Repr

/-- The messages of a lock-step pair over the service port (R437 to R439). -/
inductive LockMessage where
  /-- The sender names the receiver as its partner, with the image digest (0 before TT_LOAD), job seed, determinism
  profile and replay limit of its job. -/
  | offer (image : BitVec 512) (seed : BitVec 64) (determinism : List Byte) (replayLimit : BitVec 4)
  /-- The sender no longer names the receiver. -/
  | withdraw
  /-- The slice lesson digest of a bell and the lesson digests of the members. -/
  | digest (bell : BitVec 40) (value : BitVec 64) (members : List (BitVec 64))
  deriving DecidableEq, Repr

/-- A test access port operation (R454). -/
inductive TapOp where
  /-- TRST_N low: the port is in reset. -/
  | reset
  /-- Load an instruction. -/
  | bypass | idcode | samplePreload | extest | internalScan
  /-- Shift bits (TDI) through the selected register. -/
  | shift (tdi : List Bool)
  deriving DecidableEq, Repr

/-- The commands of the block. -/
inductive Instr where
  -- tile sequencer
  | bundleFetch (tile : BitVec 10)
  | lessonEnd (tile : BitVec 10)
  -- matrix slot
  | mxb (tile : BitVec 10) (f : MxFields)
  | mxc (tile : BitVec 10) (f : MxFields)
  -- vector slot
  | vmov (tile : BitVec 10) (f : VxFields)
  | iadd (tile : BitVec 10) (f : VxFields)
  | isub (tile : BitVec 10) (f : VxFields)
  | imul (tile : BitVec 10) (f : VxFields)
  | imin (tile : BitVec 10) (f : VxFields)
  | imax (tile : BitVec 10) (f : VxFields)
  | vand (tile : BitVec 10) (f : VxFields)
  | vor (tile : BitVec 10) (f : VxFields)
  | vxor (tile : BitVec 10) (f : VxFields)
  | shl (tile : BitVec 10) (f : VxFields)
  | shr (tile : BitVec 10) (f : VxFields)
  | sar (tile : BitVec 10) (f : VxFields)
  | key (tile : BitVec 10) (f : VxFields)
  | vcmp (tile : BitVec 10) (f : VxFields)
  | vsel (tile : BitVec 10) (f : VxFields)
  | vperm (tile : BitVec 10) (f : VxFields)
  | vrda (tile : BitVec 10) (f : VxFields)
  | vwra (tile : BitVec 10) (f : VxFields)
  | vgath (tile : BitVec 10) (f : VxFields)
  | vscat (tile : BitVec 10) (f : VxFields)
  | fadd (tile : BitVec 10) (f : VxFields)
  | fsub (tile : BitVec 10) (f : VxFields)
  | fmul (tile : BitVec 10) (f : VxFields)
  | ffma (tile : BitVec 10) (f : VxFields)
  | fmax (tile : BitVec 10) (f : VxFields)
  | fmin (tile : BitVec 10) (f : VxFields)
  | vcvt (tile : BitVec 10) (f : VxFields)
  | vscan (tile : BitVec 10) (f : VxFields)
  | vscanx (tile : BitVec 10) (f : VxFields)
  | vred (tile : BitVec 10) (f : VxFields)
  | vhist (tile : BitVec 10) (f : VxFields)
  | vfirst (tile : BitVec 10) (f : VxFields)
  | vacc (tile : BitVec 10) (f : VxFields)
  | vscana (tile : BitVec 10) (f : VxFields)
  | exp2 (tile : BitVec 10) (f : VxFields)
  | log2 (tile : BitVec 10) (f : VxFields)
  | rcp (tile : BitVec 10) (f : VxFields)
  | rsqrt (tile : BitVec 10) (f : VxFields)
  | sin (tile : BitVec 10) (f : VxFields)
  | cos (tile : BitVec 10) (f : VxFields)
  -- load slot
  | lds (tile : BitVec 10) (f : LdFields)
  | ldv (tile : BitVec 10) (f : LdFields)
  | ldo (tile : BitVec 10) (f : LdFields)
  | ldi (tile : BitVec 10) (f : LdFields)
  -- store slot
  | sts (tile : BitVec 10) (f : StFields)
  | stv (tile : BitVec 10) (f : StFields)
  -- transfer slot
  | sendv (tile : BitVec 10) (src due : BitVec 5) (dest : BitVec 10) (destReg : BitVec 5)
  | sends (tile : BitVec 10) (src due : BitVec 5) (dest : BitVec 10) (destReg : BitVec 5)
  | red (tile : BitVec 10) (src due : BitVec 5) (group : BitVec 8)
  | put (tile : BitVec 10) (src : BitVec 5) (region : BitVec 8)
  -- control slot
  | loop (tile : BitVec 10) (trips : BitVec 16) (endIndex : BitVec 10)
  | brc (tile : BitVec 10) (level : BitVec 2) (value : BitVec 15) (target : BitVec 10)
  | endl (tile : BitVec 10)
  | sets (tile : BitVec 10) (sd : BitVec 5) (imm : BitVec 20) (mode : BitVec 2)
  | seta (tile : BitVec 10) (ad : BitVec 4) (imm : BitVec 20) (mode : BitVec 3)
  | salu (tile : BitVec 10) (sd sa sb : BitVec 5) (fn : BitVec 4)
  | rdctl (tile : BitVec 10) (sd : BitVec 5) (selector : BitVec 5)
  | mset (tile : BitVec 10) (md : BitVec 3) (sa sb : BitVec 5)
  | rand (tile : BitVec 10) (vd sa : BitVec 5) (stream form : BitVec 2)
  | dgsel (tile : BitVec 10) (tensor : BitVec 16)
  -- writes, hinges and stretching
  | resultWriteback (tile : BitVec 10)
  | mxRowWrite (tile : BitVec 10)
  | hingeEntryArrival (tile : BitVec 10) (entry : Nat)
  | hingeDueRelease (tile : BitVec 10)
  | droopDetect (island : BitVec 16)
  | stretchDebtRecovery (island : BitVec 16)
  -- crossbar, reductions, regions
  | sliceRequestServe (die : BitVec 2) (slice : BitVec 8) (write : Bool) (now : Nat)
  | sliceRequestDrop (die : BitVec 2) (slice : BitVec 8) (write : Bool) (now : Nat)
  | collisionWindowExpiry (die : BitVec 2) (slice : BitVec 8) (now : Nat)
  | reductionContribution (die : BitVec 2) (group : BitVec 8) (now : Nat)
  | reductionClose (die : BitVec 2) (group : BitVec 8) (now : Nat)
  | pieceLanding (piece : PieceArrival)
  -- bell
  | gatherStatusSend
  | bellGather (p : Packet)
  | gatherTimeout
  | bellVerdict (p : Packet) (env : Surroundings)
  | readySend (env : Surroundings)
  | bellReady (p : Packet)
  | releaseIssue (elapsed : Nat)
  | bellRelease (p : Packet)
  | tileRelease
  | bellNotice (p : Packet)
  | drainQuiet
  -- temperature and power
  | temperatureSample (readings : List (BitVec 16))
  | thermalStepRise
  | cooldownReady
  | powerSample (watts : Nat) (voltage : BitVec 16)
  | p1IdleEntry
  | inputGood
  | storeMount
  | domainAPowerUp
  | selfTestComplete (failures : List (BitVec 10 × BitVec 4))
  | startupRestoreComplete
  | inputFailure
  | vsbLoss
  | refclkLoss
  | partReset (cause : BitVec 4)
  | perstN
  | flr (fn : BitVec 6)
  | trialWatchdogExpiry
  | trialConfirm
  -- persistent store, stacks and half-layers
  | recordCommitDone (failed : List (Nat × Nat))
  | restoreBlockRead (ldpcFailed : Nat) (corrected : Nat)
  | readDisturbRelocate (stack : BitVec 3) (work : EraseWork)
  | retentionRefresh (stack : BitVec 3) (work : EraseWork)
  | scrubIdleTick
  | halfLayerClosed (die : BitVec 2) (half : BitVec 3)
  | halfLayerOpened (die : BitVec 2) (half : BitVec 3)
  -- link layer
  | codewordReceive (link : BitVec 5) (lane : BitVec 3) (message : BitVec 5140) (parity : BitVec 300)
      (nanosecond : Nat)
  | dataFlit (link : BitVec 5) (first : Bool) (body : BitVec 480) (crc : Word)
  | statusFlit (link : BitVec 5) (f : StatusFlit) (nanosecond : Nat)
  | flitSlotTransmit (link : BitVec 5)
  | replayTimeout (at_ : LinkTime)
  | linkLightDetect (link : BitVec 5)
  | linkCodewordLock (link : BitVec 5)
  | linkDetectTimeout (link : BitVec 5)
  | linkLockDone (link : BitVec 5) (locked : BitVec 8)
  | train (at_ : LinkTime) (f : TrainFlit)
  | linkCheckDone (link : BitVec 5) (failed : BitVec 8)
  | laneFail (link : BitVec 5) (lane : BitVec 3) (transmit : Bool)
  | degradeTimeout (link : BitVec 5)
  | linkDown (link : BitVec 5) (reason : BitVec 4)
  -- fabric
  | packetRoute (die : BitVec 2) (port : BitVec 4) (a : PacketArrival)
  | putPacket (p : Packet)
  | getReqIssue (now : Nat)
  | getReq (p : Packet) (now : Nat)
  | getResp (p : Packet)
  | mcast (p : Packet)
  | ringStart (ring : BitVec 6) (now : Nat)
  | rf (link : BitVec 5) (p : Packet)
  -- roll call
  | announce (link : BitVec 5) (n : Neighbour)
  | announceRepeat (link : BitVec 5)
  | echoReq (link : BitVec 5) (n : Neighbour) (arrival departure : Nat)
  | echoResp (link : BitVec 5) (n : Neighbour) (roundTrip : Nat)
  | rollCallWindowClose
  | linkWindowClose (link : BitVec 5)
  | relayReverifyTimeout
  -- distribution
  | readerNotice (box : ReaderBox) (repairing : Bool)
  | manifestFrame (f : Frame)
  | blockFrame (f : Frame)
  | blockProgramDone (object : Word) (generation : BitVec 16) (block : BlockOutcome)
  | endOfPass (f : Frame)
  | storeNak (source : FabricAddr) (pass : Byte) (more : Bool) (digest : BitVec 64) (ranges : List (Nat × Nat))
  | endOfPassResend
  | prepared (source : FabricAddr) (digest : BitVec 64)
  | commit (source : FabricAddr) (digest : BitVec 64)
  | commitResend
  | committed (source : FabricAddr) (digest : BitVec 64)
  -- host records
  | ingressWrite (fn : BitVec 6) (offset : BitVec 20) (bytes : List Byte)
  | serviceTick (env : Surroundings)
  | reqOpen (fn : BitVec 6)
  | reqAppend (fn : BitVec 6)
  | reqCancel (fn : BitVec 6)
  | dataPut (fn : BitVec 6) (run : PutRun)
  | ttBlock (env : Surroundings)
  | fence (fn : BitVec 6)
  | transferComplete (fn : BitVec 6)
  | bundleFrame (f : BundleFrame)
  -- mailbox
  | mailboxRequest (tr : BitVec 7) (offset : BitVec 12) (bytes : List Byte)
  | mailboxResponse (tr : BitVec 7)
  | mbOutRelease (tr : BitVec 7)
  | hello (tr : BitVec 7)
  | identify (tr : BitVec 7)
  | caps (tr : BitVec 7)
  | jobCreate (tr : BitVec 7)
  | sliceAssign (tr : BitVec 7)
  | ttLoad (tr : BitVec 7) (host : HostMem)
  | ttRelocate (tr : BitVec 7)
  | ttPatch (tr : BitVec 7)
  | jobStart (tr : BitVec 7)
  | jobStop (tr : BitVec 7)
  | weightsProgram (tr : BitVec 7) (host : HostMem)
  | weightsRestore (tr : BitVec 7)
  | adapterStore (tr : BitVec 7) (host : HostMem)
  | adapterBind (tr : BitVec 7)
  | keyringSet (tr : BitVec 7) (host : HostMem)
  | powerStep (tr : BitVec 7)
  | powerLimit (tr : BitVec 7)
  | bankPower (tr : BitVec 7)
  | routeDrain (tr : BitVec 7)
  | routeSet (tr : BitVec 7)
  | countersEnable (tr : BitVec 7)
  | countersRead (tr : BitVec 7)
  | debugAuth (tr : BitVec 7) (host : HostMem)
  | debugProbe (tr : BitVec 7)
  | debugBreak (tr : BitVec 7)
  | lockstep (tr : BitVec 7)
  | attest (tr : BitVec 7)
  | updateStatus (tr : BitVec 7)
  | padlock (tr : BitVec 7) (host : HostMem)
  -- service port
  | serviceIdentify (mac : Nat) (sequence : Word)
  | plan (mac : Nat) (sequence : Word) (bytes : List Byte)
  | updateBegin (mac : Nat) (sequence : Word) (bytes : List Byte)
  | updateData (mac : Nat) (sequence : Word) (offset : Word) (bytes : List Byte)
  | updateEnd (mac : Nat) (sequence : Word)
  | updateActivate (mac : Nat) (sequence : Word) (slot : Byte)
  | serviceUpdateStatus (mac : Nat) (sequence : Word)
  | lockstepDigest (partner : FabricAddr) (m : LockMessage)
  | lockstepPlacement (partner : FabricAddr) (bell : BitVec 40) (records : List PlacementRec)
  -- management bus
  | i3cDynamicAddress (address : BitVec 7) (provisionedId : BitVec 48)
  | i3cResetDynamicAddress
  | setEndpointId (eid : Byte)
  -- register writes
  | egCtrlEnable (fn : BitVec 6)
  | tsSampleTake
  | tsSampleDone
  | pwCtrlEnterP2
  | pwCtrlLeaveP2
  | pwCtrlEnterP3
  | pwResetCompute (value : Word)
  | pwResetPart (value : Word)
  | accessViolation (fn : BitVec 6) (bar2 : Bool) (offset : Word) (kind : BitVec 3)
  | registerWrite (fn : BitVec 6) (bar2 : Bool) (offset : Word) (value : Word)
  | firmwareMessage (source : FabricAddr) (m : FwMessage)
  -- board
  | vsbGood (on : PowerOn)
  | partRstNRelease
  | refclkPresent
  | pciExpressLinkChange (speed : BitVec 3) (width : BitVec 5) (flit : Bool)
  | holdupStoreCharged
  | opticalReadingsRefresh (link : BitVec 5) (lane : BitVec 3) (tx rx feed ber : BitVec 16)
  | testAccessPort (op : TapOp)
  deriving DecidableEq, Repr

end Sys2Proof
end

