-- ==== Sys2Proof/Machine/Tab.lean ====
section
/-! DEFINITION. The operations of sparse tables. -/

namespace Sys2Proof.Machine

/-- The value at a key; d where no entry names it. -/
def tabGet (d : α) : Tab α → Nat → α
  | [], _ => d
  | (j, x) :: t, k => if k = j then x else tabGet d t k

/-- The table without a key. -/
def tabErase (t : Tab α) (k : Nat) : Tab α := t.filter fun e => e.1 != k

/-- The table with an entry put in its place. -/
def tabInsert : Tab α → Nat → α → Tab α
  | [], k, x => [(k, x)]
  | (j, y) :: t, k, x =>
    if k = j then (k, x) :: t
    else if k < j then (k, x) :: (j, y) :: t
    else (j, y) :: tabInsert t k x

/-- Set one entry; the default value is not listed. -/
def tabSet [DecidableEq α] (d : α) (t : Tab α) (k : Nat) (x : α) : Tab α :=
  if x = d then tabErase t k else tabInsert t k x

/-- Change one entry. -/
def tabMod [DecidableEq α] (d : α) (t : Tab α) (k : Nat) (f : α → α) : Tab α :=
  tabSet d t k (f (tabGet d t k))

/-- Keys strictly rising and no default listed. -/
def tabWf [DecidableEq α] (d : α) : Tab α → Bool
  | [] => true
  | [(_, x)] => x != d
  | (j, x) :: (k, y) :: t => x != d && j < k && tabWf d ((k, y) :: t)

/-- Change every value of the list in place of its keys. -/
def tabMap (f : Nat → α → α) : Tab α → Tab α
  | [] => []
  | (k, x) :: t => (k, f k x) :: tabMap f t

end Sys2Proof.Machine
end

