-- ==== Sys2Proof/Machine/ReedSolomon.lean ====
section
/-! DEFINITION. The RS(544,514) code of a lane (R233): the 10-bit field, the encoder and the decoder. The spec names
the generator polynomial and the symbol ordering of IEEE 802.3 Clause 91 and gives neither (log 141). -/

namespace Sys2Proof.Machine

/-! ## The field of 1,024 elements -/

/-- Twice an element: the field polynomial is x^10 + x^3 + 1. -/
def gfTwice (a : Nat) : Nat := if a < 512 then 2 * a else (2 * a) ^^^ 0x409

/-- Product, over the n lowest bits of the second factor. -/
def gfMulBits (a b : Nat) : Nat → Nat
  | 0 => 0
  | n + 1 => gfTwice (gfMulBits a (b / 2) n) ^^^ (if b % 2 = 1 then a else 0)

/-- Product. -/
def gfMul (a b : Nat) : Nat := gfMulBits a b 10

/-- The n-th power of 2. -/
def gfExp : Nat → Nat
  | 0 => 1
  | n + 1 => gfTwice (gfExp n)

/-- The inverse of an element other than 0: its power 2 + 4 + … + 512. -/
def gfInv (a : Nat) : Nat :=
  ((List.range 9).foldl (fun (r : Nat × Nat) _ =>
    let q := gfMul r.1 r.1
    (q, gfMul r.2 q)) (a, 1)).2

/-! ## Polynomials, lowest coefficient first -/

/-- Value at a point. -/
def gfEval (l : List Nat) (x : Nat) : Nat := l.foldr (fun c v => gfMul v x ^^^ c) 0

/-- Sum. -/
def gfAdd : List Nat → List Nat → List Nat
  | [], l => l
  | l, [] => l
  | a :: s, b :: t => (a ^^^ b) :: gfAdd s t

/-- A polynomial times an element. -/
def gfScale (l : List Nat) (a : Nat) : List Nat := l.map (gfMul · a)

/-- The generator: the product of x + 2^j for j = 0 to 29. -/
def rsGenerator : List Nat :=
  (List.range 30).foldl (fun g j => gfAdd (0 :: g) (gfScale g (gfExp j))) [1]

/-! ## Symbols -/

/-- Parity symbols of a message given highest coefficient first: the remainder of its product with x^30, highest
coefficient first. -/
def rsParity (g : List Nat) (m : List Nat) : List Nat :=
  m.foldl (fun r s =>
    match r with
    | [] => []
    | top :: rest => gfAdd (rest ++ [0]) (gfScale g (s ^^^ top))) (List.replicate 30 0)

/-- Symbols of a bit string, its lowest bits first. -/
def symbolsOf (w : BitVec n) (k : Nat) : List Nat := (List.range k).map fun i => (w.extractLsb' (10 * i) 10).toNat

/-- The codeword of a message: its 514 symbols, the first the highest coefficient, then the 30 parity symbols. -/
def rsEncode (m : BitVec 5140) : BitVec 5440 :=
  let p := rsParity (rsGenerator.reverse.drop 1) (symbolsOf m 514)
  m.setWidth 5440 ||| (BitVec.ofNat 5440 (p.foldr (fun x v => x + 1024 * v) 0) <<< (5140 : Nat))

/-! ## Decoding -/

/-- Syndromes of a received word given highest coefficient first. -/
def rsSyndromes (r : List Nat) : List Nat :=
  (List.range 30).map fun j =>
    let x := gfExp j
    r.foldl (fun v s => gfMul v x ^^^ s) 0

/-- Progress of the search for the error locator. -/
structure Locator where
  poly : List Nat
  last : List Nat
  size : Nat
  lastGap : Nat
  deriving DecidableEq, Repr

/-- One syndrome more: n syndromes have been taken. -/
def Locator.take (x : Locator) (s : List Nat) (n : Nat) : Locator :=
  let d := (List.range (x.size + 1)).foldl (fun v i => v ^^^ gfMul (x.poly.getD i 0) (s.getD (n - i) 0)) 0
  let shifted := 0 :: x.last
  if d = 0 then { x with last := shifted }
  else
    let new := gfAdd x.poly (gfScale shifted (gfMul d (gfInv x.lastGap)))
    if 2 * x.size ≤ n then { poly := new, last := x.poly, size := n + 1 - x.size, lastGap := d }
    else { x with poly := new, last := shifted }

/-- The error locator of the syndromes (Berlekamp and Massey). -/
def rsLocator (s : List Nat) : Locator :=
  (List.range 30).foldl (fun x n => x.take s n) { poly := [1], last := [1], size := 0, lastGap := 1 }

/-- Degrees below 544 at whose inverse power of 2 the locator is 0. -/
def rsDegrees (l : List Nat) : List Nat := (List.range 544).filter fun i => gfEval l (gfExp ((1023 - i) % 1023)) == 0

/-- The value to add at a degree (Forney). -/
def rsValue (s l : List Nat) (i : Nat) : Nat :=
  let x := gfExp i
  let y := gfInv x
  let omega := (List.range 30).map fun k => (List.range (k + 1)).foldl (fun v j => v ^^^ gfMul (l.getD j 0) (s.getD (k - j) 0)) 0
  let slope := (List.range 30).map fun k => if k % 2 = 0 then l.getD (k + 1) 0 else 0
  gfMul x (gfMul (gfEval omega y) (gfInv (gfEval slope y)))

/-- The message of a received codeword and the number of symbols corrected, at most 15; none: uncorrectable. -/
def rsDecode (w : BitVec 5440) : Option (BitVec 5140 × Nat) :=
  let s := rsSyndromes (symbolsOf w 544)
  if s.all (· == 0) then some (w.setWidth 5140, 0)
  else
    let x := rsLocator s
    let at_ := rsDegrees x.poly
    if 15 < x.size || at_.length ≠ x.size then none
    else
      let fix := at_.foldl (fun (v : BitVec 5440) i =>
        v ^^^ (BitVec.ofNat 5440 (rsValue s x.poly i) <<< (10 * (543 - i)))) w
      some (fix.setWidth 5140, x.size)

end Sys2Proof.Machine
end

