-- ==== Sys2Proof/Config.lean ====
section
/-! DEFINITION. What the manual leaves to published standards or does not give: uninterpreted functions.
No proof can see a value of any of them. -/

namespace Sys2Proof

/-- ML-DSA-87 verification (R5, R459): public key, message, signature. -/
opaque Config.mlDsaVerify : List Byte → List Byte → List Byte → Bool

/-- ML-DSA-87 key generation from a seed (R456): the public key. -/
opaque Config.mlDsaPublic : List Byte → List Byte

/-- ML-DSA-87 signing with the key of a seed (R413, R460): seed, message. -/
opaque Config.mlDsaSign : List Byte → List Byte → List Byte

/-- ML-KEM-1024 key generation from a seed (R456): the public key. -/
opaque Config.mlKemPublic : List Byte → List Byte

/-- ML-KEM-1024 decapsulation with the key of a seed (R313): seed, ciphertext. -/
opaque Config.mlKemDecaps : List Byte → List Byte → List Byte

/-- X.509 certificates (R458): issuer's seed, subject serial, subject public key, extension fields; DER bytes. -/
opaque Config.certificate : List Byte → BitVec 64 → List Byte → List Byte → List Byte

/-- The public key of a signing certificate that chains to the vendor's root (R471); none for any other. -/
opaque Config.vendorKey : List Byte → Option (List Byte)

/-- The vendor's debug key (Table 19-7). -/
opaque Config.debugKey : List Byte

/-- AES-256-GCM opening: key, nonce, additional data, ciphertext, tag. -/
opaque Config.gcmOpen : List Byte → List Byte → List Byte → List Byte → List Byte → Option (List Byte)

/-- AES-256-GCM sealing: key, nonce, additional data, plaintext; ciphertext and tag. -/
opaque Config.gcmSeal : List Byte → List Byte → List Byte → List Byte → List Byte × List Byte

/-- SHA3-512 of a byte string. -/
opaque Config.sha3 : List Byte → BitVec 512

/-- KMAC128 of NIST SP 800-185 with 256 bits of output: key, message, customisation. -/
opaque Config.kmac128 : List Byte → List Byte → List Byte → BitVec 256

/-- The status number of a plan refusal (Table 12-3), by its place in the table; the manual gives names only. -/
opaque Config.planStatus : Nat → BitVec 16

/-- Body of a record whose layout the manual does not give (Table 13-11): type and sequence number. -/
opaque Config.recordBody : Nat → Nat → List Byte

/-- The 64 KiB SRAM block of an adapter slot's block (R360): slot, block; bits [36:16] of its house address. -/
opaque Config.slotBlock : Nat → Nat → Nat

/-- The record majors that a firmware image reads (R333), by its digest: the one it writes, and the others. -/
opaque Config.recordMajors : BitVec 512 → Byte × List Byte

/-- A free value of w bits: what the manual does not state, fresh for each count. -/
opaque Config.freeBits : (w : Nat) → Nat → BitVec w

end Sys2Proof
end

