-- ==== Sys2Proof/Machine/Bits.lean ====
section
/-! DEFINITION. Byte order, lanes and fields: how wide words are cut and joined. -/

namespace Sys2Proof.Machine

/-- Sign of a bit as a Bool. -/
def bit (x : BitVec w) (n : Nat) : Bool := x.getLsbD n

/-- One bit as a vector. -/
def ofBit (b : Bool) : BitVec 1 := BitVec.ofBool b

/-- k fields of w bits, field 0 lowest, from a function of the index. -/
def packFields (w : Nat) : Nat → (Nat → BitVec w) → BitVec n
  | 0, _ => 0
  | k + 1, f => packFields w k f ||| ((f k).setWidth n <<< (w * k))

/-- Lane n of a vector register (R157). -/
def lane (v : Vec) (n : Nat) : Word := v.extractLsb' (32 * n) 32

/-- A vector register from its 64 lanes. -/
def ofLanes (f : Nat → Word) : Vec := packFields 32 64 f

/-- The same word in every lane. -/
def splat (x : Word) : Vec := ofLanes fun _ => x

/-- A 64-bit mask from a predicate of the lane. -/
def ofMask (f : Nat → Bool) : BitVec 64 := packFields 1 64 fun n => ofBit (f n)

/-- The bits of the lanes that a 64-bit mask names. -/
def laneMask (m : BitVec 64) : Vec := ofLanes fun n => if bit m n then 0xFFFFFFFF else 0

/-- All 2,048 bits. -/
def allBits : Vec := BitVec.allOnes 2048

/-- The bits of a mask from x, the others from old. -/
def blend (mask x old : BitVec w) : BitVec w := (x &&& mask) ||| (old &&& ~~~mask)

/-- Byte n of a word. -/
def byteOf (x : BitVec w) (n : Nat) : Byte := x.extractLsb' (8 * n) 8

/-- The n lowest bytes of a word, lowest first (R5). -/
def toBytes : Nat → BitVec w → List Byte
  | 0, _ => []
  | n + 1, x => x.extractLsb' 0 8 :: toBytes n (x >>> 8)

/-- A number from bytes, lowest first. -/
def natOfBytes : List Byte → Nat
  | [] => 0
  | b :: t => b.toNat + 256 * natOfBytes t

/-- Bytes of a number, lowest first. -/
def natToBytes : Nat → Nat → List Byte
  | 0, _ => []
  | n + 1, x => BitVec.ofNat 8 x :: natToBytes n (x / 256)

/-- A word from bytes, lowest first. -/
def ofBytes (w : Nat) (l : List Byte) : BitVec w := BitVec.ofNat w (natOfBytes l)

/-- n bytes of a list from an offset; bytes past its end read as zero. -/
def bytesAt (l : List Byte) (off n : Nat) : List Byte :=
  let t := (l.drop off).take n
  t ++ List.replicate (n - t.length) 0

/-- An unsigned little-endian field of a byte list. -/
def natAt (l : List Byte) (off n : Nat) : Nat := natOfBytes ((l.drop off).take n)

/-- A field as a vector. -/
def fieldAt (w : Nat) (l : List Byte) (off : Nat) : BitVec w := BitVec.ofNat w (natAt l off (w / 8))

/-- The first k naturals that satisfy a predicate, in order. -/
def pick (k : Nat) (p : Nat → Bool) : List Nat := (List.range k).filter p

/-- Number of bits set among the low k. -/
def popcount (x : BitVec w) : Nat → Nat
  | 0 => 0
  | k + 1 => popcount x k + (if bit x k then 1 else 0)

end Sys2Proof.Machine
end

