-- ==== Sys2Proof/Machine/State.lean ====
section
/-! DEFINITION. The state of one part, as plain data: every register, memory, queue and mode the manual
gives it, the queue of waiting commands, and the logs of what leaves the part. -/

namespace Sys2Proof.Machine

/-! ## Identity -/

/-- The orderable variants (Table 1-9). -/
inductive Variant where
  | m4n8x3 | m4n8x4 | m4n4x3 | m2n8x3 | m2n4x2
  deriving DecidableEq, Repr

/-- The two steppings (00, Variants). -/
inductive Stepping where
  | a0 | b0
  deriving DecidableEq, Repr

/-- What is fixed at manufacture (R1, Table 19-1). -/
structure Fused where
  variant : Variant
  stepping : Stepping
  /-- Speed grade: false G1, true G2. -/
  gradeG2 : Bool
  serial : BitVec 64
  deviceSecret : BitVec 256
  deviceCert : List Byte
  deriving DecidableEq, Repr

/-! ## Islands -/

/-- The stretching of one island (R73 to R75). -/
structure Stretch where
  /-- Stretched cycles since part reset, modulo 2^32. -/
  stretched : Word
  /-- Stretched cycles since the release, up to the lesson's last cycle. -/
  lessonStretch : Nat
  debt : Nat
  /-- The cycle last stretched: the count never shows an earlier one. -/
  floor : Nat
  /-- The first cycle of the present run of cycles with no droop and no recovery (R74). -/
  calm : Nat
  deriving DecidableEq, Repr

/-- The counts of one island (R71 to R75, R80 to R82). -/
structure Island where
  /-- Cycles since the most recent release, unsaturated. -/
  count : Nat
  /-- Bell number of the lesson released most recently on this island. -/
  bell : BitVec 40
  stretch : Stretch
  /-- The clock is stopped by a trip, a gate or the debug logic. -/
  stopped : Bool
  /-- The cycle at whose end a debug stop reaches the island (R450). -/
  stopAt : Option Nat
  deriving DecidableEq, Repr

/-- The counts since one release of the islands whose cycles follow the reference (R71, R73 to R75, R80). -/
structure Epoch where
  /-- Stretching of the islands other than tiles, by island id. -/
  isles : Tab Stretch
  /-- Reference cycles since the release, and the bell number of that release. -/
  ticks : Nat
  bell : BitVec 40
  /-- The reference cycle at which a stop of the stepped islands took hold. -/
  halted : Option Nat
  /-- The reference cycle at which P1 gated the tiles and crossbar stages, and the cycles they have lost so. -/
  gated : Option Nat
  missed : Nat
  deriving DecidableEq, Repr

/-! ## A tile -/

/-- The slots of a bundle in ascending priority (Table 4-3, R101). -/
inductive Slot where
  | mx | vx | ld | st | tx | ct
  deriving DecidableEq, Repr

/-- What an instruction writes in its write cycle. A mask names the bits (or bytes) written; the others
keep what they hold at the start of that cycle (R100). -/
inductive WriteOp where
  | sreg (r : BitVec 5) (x : Word)
  | areg (r : BitVec 4) (x : BitVec 40)
  | vreg (r : BitVec 5) (x mask : Vec)
  | mreg (r : BitVec 3) (x mask : BitVec 64)
  | acc (bank : BitVec 2) (row : BitVec 6) (x mask : Vec)
  | buf (buffer : BitVec 2) (row : BitVec 5) (x mask : Vec)
  /-- A bundle granule of the inactive instruction half. -/
  | ib (half : BitVec 1) (granule : BitVec 7) (x : Vec)
  /-- Bytes of one granule of the tile's own store. -/
  | store (granule : Nat) (x : Vec) (bytes : BitVec 256)
  deriving DecidableEq, Repr

/-- A write that takes effect at the end of cycle `due` (R100, R101). -/
structure PendWrite where
  due : Nat
  slot : Slot
  /-- Issue cycle of the instruction. -/
  issue : Nat
  /-- Order among the writes of one slot: the higher is kept (R95, R101). -/
  rank : Nat
  op : WriteOp
  /-- Sticky flags the result sets when it is written (R184). -/
  flags : BitVec 4
  deriving DecidableEq, Repr

/-- Where a receiving hinge delivers an entry. -/
inductive HingeDest where
  | s (r : BitVec 5)
  | v (r : BitVec 5)
  | buf (buffer : BitVec 2) (row : BitVec 5) (mask : Vec)
  /-- A transposed row taken from the fill of this number: form 3 or not, half, mask. -/
  | transposed (buffer : BitVec 2) (row : BitVec 5) (fill : Nat) (wide : Bool) (half : BitVec 1)
  | ib (half : BitVec 1) (granule : BitVec 7)
  deriving DecidableEq, Repr

/-- How far an entry has come. -/
inductive HingeStatus where
  /-- Parts still to be read at slices. -/
  | awaiting (parts : Nat)
  /-- On its way to the receiving hinge. -/
  | flight
  /-- Held in the hinge. -/
  | held
  /-- Never to be delivered (full hinge, dropped request, wrong tag). -/
  | lost
  deriving DecidableEq, Repr

/-- An entry of a receiving hinge, from its issue to its due cycle (R48, R76 to R79). -/
structure HingeItem where
  id : Nat
  /-- Issue cycle in the issuing tile. -/
  issue : Nat
  due : Nat
  slot : Slot
  dest : HingeDest
  /-- Part tile number of the sender, or of the reading tile itself. -/
  source : BitVec 10
  tagBell : BitVec 8
  tagAttempt : BitVec 4
  data : Vec
  status : HingeStatus
  deriving DecidableEq, Repr

/-- An open loop level (R98). -/
structure LoopLevel where
  start : Nat
  endIndex : Nat
  trips : Nat
  index : Nat
  deriving DecidableEq, Repr

/-- An MX instruction in progress: what it has read so far (R126) and what it will write (R127). -/
structure MxRun where
  issue : Nat
  f : MxFields
  /-- The row mask read at issue. -/
  mask : BitVec 64
  scaleA0 : Vec
  scaleA1 : Vec
  scaleB0 : Vec
  scaleB1 : Vec
  /-- Held values by cell row, from the named buffer and, for FP32, from the other one. -/
  held : Tab (BitVec 1024)
  heldLo : Tab (BitVec 1024)
  /-- Stream data by 8 m + g: the 16-byte part of stream row m that meets cell group g. -/
  str : Tab (BitVec 128)
  strLo : Tab (BitVec 128)
  /-- Accumulator rows as they were in their snapshot cycles. -/
  snaps : Tab Vec
  deriving DecidableEq, Repr

/-- The last MX instruction that executed (R128, R136). -/
structure LastMx where
  cycle : Nat
  convolution : Bool
  base : BitVec 1
  shift : BitVec 6
  deriving DecidableEq, Repr

/-- An accumulator-stream instruction in progress (R169). -/
structure StreamRun where
  issue : Nat
  scan : Bool
  f : VxFields
  a : Vec
  b : Vec
  mask : BitVec 64
  seg : BitVec 64
  /-- The running values of the 64 columns (VSCANA). -/
  running : Vec
  deriving DecidableEq, Repr

/-- A fill of the transpose buffer (R196): the block and the granules that have arrived. -/
structure TransposeFill where
  block : Nat
  granules : Tab Vec
  missing : Bool
  deriving DecidableEq, Repr

/-- A memory access kept for the hall monitor (R448): local granule number, the 4-byte words touched, the
cycle in which memory serves it, write or read, and whether it goes through a slice. -/
structure Access where
  granule : Nat
  words : BitVec 64
  cycle : Nat
  write : Bool
  slice : Bool
  deriving DecidableEq, Repr

/-- One tile (Table 4-1). Tables default to zero; m0 is not stored. -/
structure Tile where
  s : Tab Word
  a : Tab (BitVec 40)
  v : Tab Vec
  m : Tab (BitVec 64)
  /-- Accumulator rows by 64 bank + row. -/
  acc : Tab Vec
  flags : BitVec 4
  /-- Operand-buffer rows by 32 buffer + row: held 0, held 1, stream 0, stream 1. -/
  buf : Tab Vec
  /-- The cells' held values by cell row, column n in bits [16n+15:16n]. -/
  cells : Tab (BitVec 1024)
  mx : List MxRun
  lastMx : Option LastMx
  streams : List StreamRun
  lastStream : Option Nat
  pend : List PendWrite
  hinge : List HingeItem
  nextId : Nat
  /-- Index of the bundle of the current cycle, 1,024 after the last one (R97). -/
  pc : Nat
  loops : List LoopLevel
  branch : Option Nat
  /-- ENDL has issued. -/
  drained : Bool
  /-- The bundle of the current cycle has issued. -/
  issued : Bool
  /-- The lesson has ended on this tile, or none has begun. -/
  ended : Bool
  /-- Bundles issued from the instruction buffer in the lesson (selector 0x0001, R449). -/
  bundles : Nat
  transpose : Option (Nat × Nat)
  fills : Tab TransposeFill
  tensor : BitVec 16
  isle : Island
  /-- The island's counts at the end of the cycle before its last release (R85). -/
  before : Island
  /-- Entries its receiving hinges have discarded and counted (R48, R78, R79). -/
  discards : Nat
  active : BitVec 1
  /-- Bundles by 1,024 half + index. -/
  ib : Tab Bundle
  /-- Valid bits by 128 half + granule. -/
  ibValid : Tab Bool
  /-- Instruction-buffer words (4 x bundle key + word) with an uncorrectable error. -/
  ibUe : List Nat
  /-- Uncorrectable errors read so far, by word, since power-up (R112): tile store, instruction buffer. -/
  storeUeSeen : List Nat
  ibUeSeen : List Nat
  /-- A fence of this cause takes effect at the bell (R113); 0 none. -/
  fenceDue : BitVec 4
  counters : Tab (BitVec 64)
  totals : Tab (BitVec 64)
  accesses : List Access
  deriving DecidableEq, Repr

/-! ## Lesson, bell and job -/

/-- A cause event (R52): cycle offset, place and cause bit. -/
structure CauseRec where
  cycle : BitVec 24
  part : FabricAddr
  die : BitVec 2
  unit : BitVec 8
  bit : BitVec 4
  source : BitVec 2
  deriving DecidableEq, Repr

/-- A gather status (Table 11-5). -/
structure GatherStatus where
  causes : BitVec 16
  first : Option CauseRec
  deriving DecidableEq, Repr

/-- A ready status (Table 11-5). -/
structure ReadyStatus where
  complete : Bool
  quiet : Bool
  step : BitVec 3
  deriving DecidableEq, Repr

/-- A release (Table 11-5). -/
structure Release where
  targetNs : BitVec 16
  step : BitVec 3
  attempt : BitVec 4
  index : Word
  bell : BitVec 40
  deriving DecidableEq, Repr

/-- The phases of BL_STATUS.phase (Table 2-10). -/
inductive Phase where
  | idle | lesson | gather | recess | ready | complete | stopped | faulted
  deriving DecidableEq, Repr

/-- The bell register block (R66) and the bell in progress (R37). -/
structure Bell where
  number : BitVec 40
  causes : BitVec 16
  attempt : BitVec 4
  replayLimit : BitVec 4
  phase : Phase
  firstWhere : Word
  firstCycle : BitVec 24
  recessMin : BitVec 20
  limitUs : Word
  delayNs : BitVec 16
  targetNs : BitVec 16
  replays : Word
  faultCode : Byte
  faulted : Bool
  seq : Word
  /-- Causes of the lesson in progress on this part. -/
  lessonCauses : BitVec 16
  lessonFirst : Option CauseRec
  /-- The part has sent (or, at the root, counted) its own gather status. -/
  gathered : Bool
  childGather : List (FabricAddr × GatherStatus)
  /-- The verdict in force: set when the root issues it or when it arrives. -/
  verdict : Option GatherStatus
  ownReady : Option ReadyStatus
  childReady : List (FabricAddr × ReadyStatus)
  /-- The release received or issued and not yet performed on the tiles. -/
  release : Option Release
  /-- Causes from bell notices not yet merged into a verdict (R515). -/
  noticeCauses : BitVec 16
  noticeFirst : Option CauseRec
  /-- The last bell packets sent, for resending (R275). -/
  sent : List Packet
  /-- Bell packets held for the current bell: kind, tag, source (R275). -/
  seen : List (BitVec 4 × BitVec 8 × BitVec 4 × FabricAddr)
  /-- Lesson length, stretch budget and lesson-table index of the lesson in progress. -/
  lessonLength : Nat
  stretchBudget : Nat
  index : Nat
  /-- 64 KiB blocks (house address [36:16]) in which a lesson read met an uncorrectable error (R57). -/
  ueBlocks : List Nat
  /-- Root: parts that re-verify their links to a relay part after its part reset; while one is listed, the
  check of R59 and the release are held (R46, R284). -/
  reverify : List FabricAddr
  /-- The dirty lesson just ended has fenced a tile here; read by a check that is held. -/
  newFence : Bool
  /-- Steps 2 to 8 of a dirty recess wait for the restores of its step 1 (R43, R57). -/
  recessDue : Bool
  /-- Bell number and attempt of the last RELEASE that this part issued or forwarded (R252, R515). -/
  relNumber : BitVec 40
  relAttempt : BitVec 4
  /-- Bell notices that this part has sent or forwarded, and payloads of those that the root has taken (R515). -/
  notices : List Packet
  noticed : List Vec
  /-- Root: relay parts that have not yet told the width of their links after a dirty verdict (R59, R285). -/
  widthsDue : List FabricAddr
  /-- A debug stop withholds the ready (R451). -/
  withheld : Bool
  /-- The lesson most recently ended was dirty. -/
  lastDirty : Bool
  deriving DecidableEq, Repr

/-- One section of the loaded image: its entry (Table 17-2), this member's relocated bytes (a bundle set
keeps none) and, for a bundle set, the set digest. -/
structure Section where
  kind : BitVec 16
  member : BitVec 16
  id : Word
  place : Nat
  dies : BitVec 8
  bundles : Nat
  length : Nat
  bytes : List Byte
  digest : BitVec 512
  deriving DecidableEq, Repr

/-- The loaded image: directory fields (Table 17-1) and sections. -/
structure Image where
  digest : BitVec 512
  profileB1 : Bool
  determinism : List Byte
  minWidth : Nat
  elpMinor : Nat
  layers : Nat
  axes : Nat
  extent : List Nat
  full : BitVec 8
  serving : Bool
  members : Nat
  prologue : Nat
  term : Nat
  epilogue : Nat
  sections : List Section
  deriving DecidableEq, Repr

/-- A symbol of the image and its value once known (R425). -/
structure SymbolValue where
  symbol : Word
  value : Option (BitVec 64)
  deriving DecidableEq, Repr

/-- A request of a transport taken by firmware (Table 16-1). -/
structure MailRequest where
  opcode : BitVec 16
  sequence : Word
  cookie : BitVec 64
  major : Byte
  minor : Byte
  /-- Body bytes after the header. -/
  body : List Byte
  deriving DecidableEq, Repr

/-- A response ready to be written (Table 16-1). -/
structure MailResponse where
  opcode : BitVec 16
  sequence : Word
  cookie : BitVec 64
  status : BitVec 16
  major : Byte
  minor : Byte
  body : List Byte
  deriving DecidableEq, Repr

/-- A started command whose answer waits (R404): its transport and the header it answers. -/
structure Waiting where
  transport : BitVec 7
  opcode : BitVec 16
  sequence : Word
  cookie : BitVec 64
  /-- The life of the transport's mailbox in which it started: an answer to an earlier life is discarded. -/
  life : Nat
  deriving DecidableEq, Repr

/-- The states of the job record (R410). -/
inductive JobState where
  | none | created | assigned | loaded | relocated | inSession | ended
  deriving DecidableEq, Repr

/-- One flag of the flag summary (R185). -/
structure FlagSummary where
  set : Bool
  bell : BitVec 40
  part : FabricAddr
  tile : BitVec 10
  deriving DecidableEq, Repr

/-- The job record and its slice (R410, R280). -/
structure Job where
  state : JobState
  id : BitVec 16
  seed : BitVec 64
  attach : BitVec 64
  termCount : Word
  termsDone : Nat
  /-- JOB_STOP accepted: release asked. -/
  stop : Option Bool
  low : FabricAddr
  high : FabricAddr
  /-- Bit i: member index i is a member. -/
  members : BitVec 4096
  root : FabricAddr
  image : Option Image
  symbols : List SymbolValue
  /-- Granules of bundle sets written so far: set id, granule. -/
  setGranules : List (Nat × Nat)
  /-- Bytes of bundle-set granules as streamed, before relocation: set id, granule, data. -/
  setBytes : List (Nat × Nat × Vec)
  completeSets : List Nat
  restored : Bool
  discardedFrames : Nat
  /-- The job command that the root carries out with its members, the parts whose answer is missing, and the
  answers: part, status, response body. -/
  order : BitVec 16
  /-- What the order carries. -/
  orderBody : List Byte
  awaiting : List FabricAddr
  results : List (FabricAddr × BitVec 16 × List Byte)
  waits : List Waiting
  flagSummary : Tab FlagSummary
  modelTag : BitVec 64
  /-- Last committed bell number plus one, zero for none. -/
  committed : Nat
  deriving DecidableEq, Repr

/-! ## Memory and crossbar -/

/-- Where a slice's read delivers its data. -/
inductive ReadDest where
  | hinge (tile : BitVec 10) (id : Nat) (shift : Nat)
  | fill (tile : BitVec 10) (fill granule : Nat)
  | reduction (group : BitVec 8)
  /-- A get's response: the request packet it answers. -/
  | get (p : Packet)
  deriving DecidableEq, Repr

/-- The width of a read request. -/
inductive ReadSize where
  | word | half | granule
  deriving DecidableEq, Repr

/-- A read waiting at a slice (R192). -/
structure ReadReq where
  arrival : Nat
  port : Nat
  /-- Part tile number of the reading tile; none for the crossbar and the I/O dies. -/
  tile : Option (BitVec 10)
  /-- House address [36:0] of the first byte. -/
  addr : Nat
  size : ReadSize
  dest : ReadDest
  deriving DecidableEq, Repr

/-- The source of a write (R193). -/
inductive WriteSource where
  | tile (t : BitVec 10)
  | group (g : BitVec 8)
  | landing (region : Nat)
  | port (p : Nat)
  deriving DecidableEq, Repr

/-- A write waiting at a slice or held in its collision window (R192, R193). -/
structure WriteReq where
  arrival : Nat
  port : Nat
  source : WriteSource
  /-- House address [36:0] of the granule. -/
  addr : Nat
  data : Vec
  bytes : BitVec 256
  deriving DecidableEq, Repr

/-- One memory slice of a die: its queues, and the writes in its window with their acceptance cycle. -/
structure Slice where
  reads : List ReadReq
  writes : List WriteReq
  window : List (Nat × WriteReq)
  /-- Slice cycles in which the last read was served and the last write accepted. -/
  readAt : Option Nat
  writeAt : Option Nat
  deriving DecidableEq, Repr

/-- A contribution on its way to its reduction group, or in an open instance (R200). -/
structure Contribution where
  tile : BitVec 10
  due : Nat
  tagBell : BitVec 8
  tagAttempt : BitVec 4
  data : Vec
  deriving DecidableEq, Repr

/-- A reduction group's open instance (R200, R201). -/
structure RedInstance where
  due : Nat
  contributions : List Contribution
  /-- The destination's value, read for mode 1. -/
  base : Option Vec
  /-- That read was dropped or met an uncorrectable word: nothing is written. -/
  failed : Bool
  deriving DecidableEq, Repr

/-- The crossbar registers of one compute die (R210). -/
structure DieRegs where
  ceCount : Word
  ueCount : Word
  ueAddr : BitVec 35
  ueKind : BitVec 2
  ueMapped : Bool
  late : Word
  collide : Word
  red : Word
  /-- Contributions discarded and counted by lesson tag (R36), which XB_RED leaves out. -/
  redStale : Word
  scrubPasses : BitVec 16
  scrubQuantum : BitVec 6
  deriving DecidableEq, Repr

/-- A power request of a half-layer waiting for its recess (R208). -/
structure GateRequest where
  die : BitVec 2
  half : BitVec 3
  up : Bool
  deriving DecidableEq, Repr

/-- The part's memory and crossbar. -/
structure Mem where
  /-- SRAM layers and tile stores by house address [36:0]; an unlisted byte is zero (R491). -/
  bytes : List Host.Cell
  /-- 64-bit words (address div 8) that read as uncorrectable, and as correctable (R203, R204). -/
  ue : List Nat
  ce : List Nat
  select : BitVec 2
  dies : Tab DieRegs
  /-- Half-layer states by 8 die + k (Table 8-6), 0 ON. -/
  gate : Tab (BitVec 2)
  gateRequests : List GateRequest
  /-- OPENING half-layers, 8 die + k, whose words are all zero: ON at the end of the next recess step 2 (R208). -/
  gateOpened : List Nat
  gateWaits : List (GateRequest × Waiting)
  /-- Slices by 256 die + slice. -/
  slices : Tab Slice
  /-- Reduction group descriptors by 1,024 bank + 256 die + group. -/
  groups : Tab (BitVec 64)
  groupBank : BitVec 1
  /-- Open instances and contributions in flight by 256 die + group. -/
  instances : Tab (Option RedInstance)
  redFlight : Tab (List Contribution)
  deriving DecidableEq, Repr

/-! ## Circular regions -/

/-- Kinds of a region entry (Table 9-5). -/
inductive RegionKind where
  | off | localRegion | forward
  deriving DecidableEq, Repr

/-- One entry of the region table (R211 to R217). -/
structure Region where
  kind : RegionKind
  base : HouseAddr
  slotsLog : BitVec 5
  slotLog : BitVec 3
  producerPart : FabricAddr
  producerTile : BitVec 10
  producerEngine : Bool
  producerFirmware : Bool
  consumerTile : BitVec 10
  consumerFirmware : Bool
  homePart : FabricAddr
  homeRegion : Byte
  head : Word
  tail : Word
  headSh : Word
  tailSh : Word
  overrun : Bool
  /-- A piece of this lesson was dropped at a slice: later pieces are ignored (R216). -/
  dropped : Bool
  /-- Cycle of the last landing, and of the last move of the shadow head, each with the pointer as that cycle
  began (R218, R219). -/
  tailWas : Option (Nat × Word)
  headWas : Option (Nat × Word)
  deriving DecidableEq, Repr

/-- A piece waiting to land (R216): its producer and its lesson tag. -/
structure Piece where
  region : BitVec 11
  data : Vec
  part : FabricAddr
  tile : BitVec 10
  engine : Bool
  firmware : Bool
  untagged : Bool
  tagBell : BitVec 8
  tagAttempt : BitVec 4
  /-- Slice cycle of arrival, once it is known: a tile's PUT fixes it. -/
  arrival : Option Nat
  /-- Crossbar port by which it enters. -/
  port : Nat
  deriving DecidableEq, Repr

/-- The region table and its registers (R225). -/
structure Regions where
  select : BitVec 11
  table : Tab Region
  underruns : Word
  overruns : Word
  discards : Word
  pieces : List Piece
  deriving DecidableEq, Repr

/-! ## Links -/

/-- The states of a link (Table 10-7). -/
inductive LinkPhase where
  | down | detect | lock | negotiate | check | active | degrade | failed | disabled
  deriving DecidableEq, Repr

/-- A data flit kept for resending: its sequence number, channel, body, and the packet tag it belongs to. -/
structure SentFlit where
  seq : BitVec 12
  first : Bool
  channel : BitVec 3
  body : BitVec 480
  cls : BitVec 2
  tagBell : BitVec 8
  tagAttempt : BitVec 4
  deriving DecidableEq, Repr

/-- The optical readings of one lane (Table 10-13). -/
structure Optics where
  tx : BitVec 16
  rx : BitVec 16
  feed : BitVec 16
  ber : BitVec 16
  deriving DecidableEq, Repr

/-- One optical link (R239 to R255). -/
structure Link where
  phase : LinkPhase
  width : Nat
  txFirst : BitVec 3
  rxFirst : BitVec 3
  reason : BitVec 4
  minor : Byte
  major : Byte
  peerStepping : Byte
  rxOk : BitVec 8
  /-- This end's feed check, and the peer's report of its receiving lanes. -/
  feedOk : BitVec 8
  peerRxOk : BitVec 8
  peerTxOk : BitVec 8
  crcErrors : Word
  fecCorrected : Word
  fecUncorrectable : Word
  replays : Word
  marks : Word
  retrains : Word
  /-- The link has been ACTIVE since part reset. -/
  wasActive : Bool
  /-- The link has been FAILED since part reset (R473). -/
  wasFailed : Bool
  optics : Tab Optics
  nextSeq : BitVec 12
  replayBuffer : List SentFlit
  /-- Flits to be sent again, oldest first. -/
  resend : List SentFlit
  /-- The sequence number from which the latest resend began, and when in nanoseconds (R240). -/
  lastResend : Option (BitVec 12 × Nat)
  expected : BitVec 12
  accepted : Bool
  nakSet : Bool
  /-- Flits sent and freed by the peer, per channel; flits freed here, per channel. -/
  sent : Tab (BitVec 16)
  returned : Tab (BitVec 16)
  freed : Tab (BitVec 16)
  /-- Flits of packets waiting in the receive buffer, per channel. -/
  rxHeld : Tab Nat
  /-- Packets waiting to be sent, and the flits of the packet being sent. -/
  txQueue : List Packet
  txFlits : List SentFlit
  /-- Bodies of the packet being received. -/
  rxBodies : List (BitVec 480)
  storedTag : Option (BitVec 8 × BitVec 4)
  replayCount : Nat
  /-- Slots since the last link-control flit (R238). -/
  sinceControl : Nat
  /-- Microseconds of the uncorrectable codewords of each lane (R250). -/
  badCodewords : List (Nat × Nat)
  peerTrain : Option TrainFlit
  /-- Width in force before the current DEGRADE. -/
  oldWidth : Nat
  /-- Codewords received and not yet dealt, by lane, oldest first; none: an uncorrectable one (R234, R237). -/
  lanes : Tab (List (Option (BitVec 5140)))
  /-- Link slots sent since the codewords in hand began, and their messages so far by lane of the group (R234). -/
  txSlot : Nat
  txWords : Tab (BitVec 5140)
  deriving DecidableEq, Repr

/-! ## Fabric -/

/-- The router of one I/O die (Tables 11-9, 11-10). -/
structure Router where
  coord : BitVec 4
  extent : BitVec 5
  low : BitVec 4
  high : BitVec 4
  full : Bool
  dir : Word
  linkmap : BitVec 16
  /-- The link map of the bell tree, fixed at slice assignment (R276). -/
  bellmap : BitVec 16
  packets : Word
  epochDrops : Word
  sliceDrops : Word
  otherDrops : Word
  rfDrops : Word
  deriving DecidableEq, Repr

/-- Progress of one ring on this part (R272). -/
structure RingRun where
  received : Nat
  sentPieces : Nat
  deriving DecidableEq, Repr

/-- A packet waiting at a router: I/O die, input port, and when it arrived (R263). -/
structure Queued where
  die : BitVec 2
  port : BitVec 4
  arrival : Nat
  packet : Packet
  deriving DecidableEq, Repr

/-- What the FABRIC record holds of the routing table and the slice assignment (Table 13-11, R284). -/
structure FabricRecord where
  address : FabricAddr
  /-- Recorded hop delays by link (R293). -/
  hops : Tab Nat
  slice : Byte
  role : BitVec 2
  routers : Tab Router
  job : BitVec 16
  root : FabricAddr
  deriving DecidableEq, Repr

/-- Fabric state of the part. -/
structure Fabric where
  select : BitVec 2
  epoch : BitVec 2
  drain : Bool
  slice : Byte
  /-- 0 none, 1 member, 2 relay. -/
  role : BitVec 2
  routers : Tab Router
  /-- Packets waiting at a router, oldest first, and the latest cycle of an arrival. -/
  queue : List Queued
  now : Nat
  /-- Packets of classes 1 to 3 that this part would inject, kept back while it drains (R277); those of roll call by
  link. -/
  kept : List Queued
  keptLinks : List (Nat × Packet)
  /-- Packets delivered to this part and not yet taken. -/
  inbox : List Packet
  /-- Granules of the get list already requested, and outstanding transaction tags with their regions. -/
  getIssued : Nat
  nextTag : Nat
  outstanding : List (Nat × Byte)
  /-- Ring descriptors by 64 bank + ring, and the bank in use. -/
  rings : Tab (BitVec 128)
  ringBank : BitVec 1
  ringRuns : Tab RingRun
  /-- A drain was asked while a job is in session (R279), and the table waiting for recess step 9. -/
  drainWaits : List Waiting
  /-- The parts of the slice that have not yet told this part of their quiet; the parts that wait for this one's. -/
  drainAwaiting : List FabricAddr
  drainAskers : List FabricAddr
  routeWaits : List (Waiting × List Byte)
  deriving DecidableEq, Repr

/-! ## Roll call and management bus -/

/-- A part entry of the cabling plan (Table 12-2). -/
structure PlanEntry where
  serial : BitVec 64
  address : FabricAddr
  used : Word
  deriving DecidableEq, Repr

/-- The cabling plan held (R287 to R289). -/
structure Plan where
  axes : Nat
  extent : List Nat
  serial : BitVec 64
  campus : BitVec 64
  digest : BitVec 64
  entries : List PlanEntry
  /-- The plan as delivered, its signature included (R460). -/
  bytes : List Byte
  deriving DecidableEq, Repr

/-- Roll call on one link (R292 to R298). -/
structure RollEntry where
  /-- The latest ANNOUNCE since the last entry to ACTIVE (R294). -/
  heard : Option Neighbour
  window : Bool
  echoes : List Nat
  /-- Measured hop delay in nanoseconds, 0 none; and the recorded one. -/
  hop : Nat
  recorded : Nat
  /-- A part reset of the peer is being re-verified (R284). -/
  reverify : Bool
  deriving DecidableEq, Repr

/-- Roll call and the management bus. -/
structure RollCall where
  plan : Option Plan
  address : FabricAddr
  window : Bool
  links : Tab RollEntry
  straps : BitVec 3
  dynamic : Option (BitVec 7)
  eid : Byte
  deriving DecidableEq, Repr

/-! ## Weight store and persistent store -/

/-- States of a stack (Table 13-14). -/
inductive StackState where
  | absent | online | readOnly | failed
  deriving DecidableEq, Repr

/-- One weight stack (R305, R336 to R340). -/
structure Stack where
  state : StackState
  free : Nat
  maxErase : Nat
  /-- Erase blocks replaced from the spares. -/
  retired : Nat
  /-- Erase blocks retired with no spare left to replace them. -/
  gone : List Nat
  ce : Word
  ue : Word
  tagFail : Word
  refresh : Word
  disturb : Word
  deriving DecidableEq, Repr

/-- One erase block: erase cycles, and reads since its last erase. -/
structure EraseBlock where
  erases : Nat
  reads : Nat
  deriving DecidableEq, Repr

/-- A store block holding data (R306, R309). -/
structure StoreBlock where
  kind : Byte
  object : Word
  generation : BitVec 16
  index : BitVec 24
  stack : Nat
  /-- The block within the stack, bits [20:0] of its store block number. -/
  number : Nat
  eraseBlock : Nat
  ciphertext : List Byte
  tag : BitVec 128
  deriving DecidableEq, Repr

/-- States of a generation (Table 13-17). -/
inductive GenState where
  | prepared | committed | superseded | highWater
  deriving DecidableEq, Repr

/-- A generation entry of a weight image or an adapter (Tables 13-11, 13-17). -/
structure GenEntry where
  adapter : Bool
  object : Word
  generation : BitVec 16
  state : GenState
  tenant : BitVec 12
  digest : BitVec 512
  /-- This part's share: ranges of block indices. -/
  share : List (Nat × Nat)
  deriving DecidableEq, Repr

/-- A decision entry (Table 13-18). -/
structure Decision where
  adapter : Bool
  complete : Bool
  object : Word
  generation : BitVec 16
  /-- Number of receiving parts. -/
  parts : Nat
  boxLow : FabricAddr
  boxHigh : FabricAddr
  digest : BitVec 512
  /-- Parts that have not yet answered COMMITTED. -/
  unanswered : List FabricAddr
  deriving DecidableEq, Repr

/-- States of NV_DIST (Table 13-15). -/
inductive DistState where
  | idle | manifest | pass | waitNak | prepared | committing | incomplete
  deriving DecidableEq, Repr

/-- The distribution in progress on the part (R316 to R322). -/
structure Dist where
  state : DistState
  reader : Bool
  readerPart : FabricAddr
  pass : BitVec 4
  repair : Bool
  keepCopy : Bool
  fromCopy : Bool
  adapter : Bool
  object : Word
  generation : BitVec 16
  tenant : BitVec 12
  blocks : Nat
  digest : BitVec 512
  /-- Manifest bytes assembled so far, by 64 KiB frame index. -/
  manifest : Tab (List Byte)
  /-- Reader: the manifest as fetched, and the host memory and address of the blocks. -/
  manifestBytes : List Byte
  host : HostMem
  hostAddr : Nat
  key : List Byte
  /-- This part's shard and the tag table of the manifest. -/
  shard : List (Nat × Nat)
  tags : Tab (BitVec 128)
  durable : List Nat
  /-- Blocks accepted and being programmed. -/
  programming : List StoreBlock
  /-- A refusal of this part (Table 13-9), 0 none. -/
  refusal : BitVec 16
  boxLow : FabricAddr
  boxHigh : FabricAddr
  /-- Reader: parts of the box, parts that answered this pass, ranges asked, resends made. -/
  parts : List FabricAddr
  answered : List FabricAddr
  asked : List (Nat × Nat)
  preparedParts : List FabricAddr
  resends : Nat
  /-- Frames sent in all, and in this pass. -/
  framesSent : Nat
  passFrames : Nat
  refusing : Option (FabricAddr × BitVec 16)
  waits : List Waiting
  deriving DecidableEq, Repr

/-- One block of the restore map (R324). -/
structure MapEntry where
  /-- House address [36:16] of the 64 KiB SRAM block. -/
  block : Nat
  adapter : Bool
  object : Word
  generation : BitVec 16
  /-- Block index, as the weight map gives it; an object has no block beyond 24 bits. -/
  index : BitVec 32
  deriving DecidableEq, Repr

/-- Durable blocks of a distribution that ended before its commit (Table 13-11). -/
structure Progress where
  adapter : Bool
  object : Word
  generation : BitVec 16
  digest : BitVec 512
  durable : List Nat
  deriving DecidableEq, Repr

/-- A restore into an adapter slot that waits (R360): the slot, its block, and the store block to read. -/
structure SlotRead where
  slot : Nat
  /-- A block that the slot held already is repaired (R361). -/
  repair : Bool
  entry : MapEntry
  deriving DecidableEq, Repr

/-- A key-ring entry (Table 19-8). -/
structure KeyEntry where
  tenant : BitVec 12
  functions : BitVec 64
  adapterKey : List Byte
  prefixKey : Option (List Byte)
  deriving DecidableEq, Repr

/-- The padlock states (Table 19-5). -/
inductive Padlock where
  | opened | owned | locked
  deriving DecidableEq, Repr

/-- States of a firmware slot (Table 19-9). -/
inductive SlotState where
  | empty | good | trial | bad
  deriving DecidableEq, Repr

/-- A firmware slot (R468). -/
structure FirmwareSlot where
  state : SlotState
  version : Word
  security : BitVec 64
  digest : BitVec 512
  image : List Byte
  failedTrials : Nat
  activate : Bool
  /-- Record majors that the image reads (R333); the first is the one it writes. -/
  majors : List Byte
  deriving DecidableEq, Repr

/-- The content of a record (Table 13-11); firmware slots and the anti-rollback counters by the state that holds
them. -/
inductive Content where
  | plan (p : Option Plan)
  | fabric (r : FabricRecord)
  | owner (state : Padlock) (key : List Byte) (mask : BitVec 64)
  | keyRing (entries : List KeyEntry)
  | adapters (entries : List GenEntry)
  | weights (entries : List GenEntry) (decisions : List Decision)
  | restoreMap (entries : List MapEntry)
  | slots (a b : FirmwareSlot)
  | antiRollback (owner security : BitVec 64)
  /-- By stack: state, highest erase count, blocks replaced, blocks gone. -/
  | wear (l : List (StackState × Nat × Nat × List Nat))
  | fences (fenced : Tab (BitVec 4))
  | progress (l : List Progress)
  deriving DecidableEq, Repr

/-- A record copy on a stack of the journal (R327, R328). -/
structure RecordCopy where
  /-- Journal erase block, 0 to 31, and program pages taken. -/
  block : Nat
  pages : Nat
  type : Byte
  sequence : BitVec 64
  major : Byte
  /-- The 64-byte header and the encrypted body. -/
  bytes : List Byte
  content : Content
  verifies : Bool
  deriving DecidableEq, Repr

/-- What a record commit makes durable (Table 13-11), applied when it completes (R329). -/
inductive Effect where
  /-- The key ring replaced, with the owner counter of the object (R463). -/
  | keyRing (entries : List KeyEntry) (counter : BitVec 64)
  | padlock (state : Padlock) (owner : List Byte) (mask : BitVec 64) (counter : BitVec 64) (erase : Bool)
      (clearRing : Bool)
  /-- Debug mode entered: the empty key ring (R446). -/
  | debug (counter : BitVec 64)
  | plan (p : Plan)
  | fences (fenced : Tab (BitVec 4))
  | restoreMap (entries : List MapEntry)
  | generations (entries : List GenEntry)
  | decisions (entries : List Decision)
  /-- The firmware slots, with the owner counter of an AUTHORISATION consumed (R463). -/
  | slots (a b : FirmwareSlot) (counter : BitVec 64)
  | confirm
  /-- The durable blocks of a distribution (R334). -/
  | progress (p : Progress)
  /-- The FABRIC record: address, hop delays, slice assignment and routing table as they stand. -/
  | fabric (r : FabricRecord)
  /-- The wear of the stacks. -/
  | wear
  /-- Records written again as they are (R331 to R333). -/
  | rewrite (types : List Byte)
  deriving DecidableEq, Repr

/-- What follows a completed record commit. -/
inductive After where
  | nothing
  | respond (w : Waiting) (body : List Byte)
  | respondAll (l : List Waiting) (body : List Byte)
  /-- The answer of an order of the job's root, from this part. -/
  | reply (op : BitVec 16) (body : List Byte)
  /-- A WEIGHTS_RESTORE whose map this is (R324). -/
  | endRestore
  /-- Compaction: the erase blocks of superseded copies are erased (R332). -/
  | eraseJournal
  | service (mac : Nat) (sequence : Word) (type : Byte) (body : List Byte)
  /-- UPDATE_ACTIVATE: the response, then a part reset. -/
  | activate (mac : Nat) (sequence : Word)
  | sendPrepared (target : FabricAddr) (digest : BitVec 64)
  | sendCommitted (target : FabricAddr) (digest : BitVec 64)
  | sendCommits
  deriving DecidableEq, Repr

/-- A record commit (R328 to R330): the records of one commit take sequence numbers from `sequence` on; one that waits
for the hold-up store has not started (R334). -/
structure Commit where
  type : Byte
  sequence : BitVec 64
  started : Bool
  effect : Effect
  after : After
  deriving DecidableEq, Repr

/-- The weight store and the persistent store (R340). -/
structure Store where
  select : BitVec 3
  stackTab : Tab Stack
  eraseBlocks : Tab EraseBlock
  blocks : List StoreBlock
  generations : List GenEntry
  decisions : List Decision
  dist : Option Dist
  /-- Lost store blocks: kind, object, generation, index. -/
  lost : List (Byte × Word × BitVec 16 × BitVec 24)
  repairs : BitVec 16
  degraded : Bool
  storeFault : Bool
  charged : Bool
  chargePct : BitVec 7
  /-- The persistent store: the record copies on stacks 0 to 2, oldest first (R327). -/
  journal : Tab (List RecordCopy)
  /-- The first commit with fewer than three copies has been signalled. -/
  degradedTold : Bool
  nextSequence : BitVec 64
  commits : List Commit
  restoreMap : List MapEntry
  /-- Restores waiting, oldest first, and the WEIGHTS_RESTORE answer that waits for them. -/
  restores : List MapEntry
  slotReads : List SlotRead
  /-- Slot restores that the term recess in progress may still begin (R360). -/
  slotBudget : Nat
  restoreWaits : List Waiting
  restoredCount : Nat
  lostMet : Nat
  /-- A WEIGHTS_RESTORE runs on this part. -/
  restoring : Bool
  /-- Durable blocks named by the DIST_PROGRESS record (R335). -/
  progress : List Progress
  fabric : FabricRecord
  deriving DecidableEq, Repr

/-! ## Serving -/

/-- Context states (Table 14-3). -/
inductive CtxState where
  | free | prefill | decode | ended
  deriving DecidableEq, Repr

/-- A context record (Table 14-2). -/
structure Ctx where
  requestId : Word
  function : BitVec 6
  state : CtxState
  endReason : Byte
  includeStop : Bool
  logprob : Bool
  acceptMode : Bool
  prefixReuse : Bool
  paused : Bool
  damaged : Bool
  tenant : BitVec 12
  adapterGen : BitVec 16
  adapterId : Word
  slot : BitVec 16
  held : Nat
  specK : Nat
  specKmax : Nat
  shrinkRun : Nat
  growRun : Nat
  zeroCount : Nat
  fullCount : Nat
  block : Nat
  row : Nat
  rows : Nat
  promptLen : Nat
  prompt : List Word
  position : Nat
  emitted : Nat
  maxNew : Nat
  maxTotal : Nat
  seq : Word
  pages : List Nat
  /-- Page-table blocks of the request, first one first. -/
  tables : List Nat
  pagesReserved : Nat
  chainHash : BitVec 96
  temperature : Word
  topP : Word
  topK : Word
  admitted : BitVec 64
  stopIds : List Word
  stopSeqs : List (List Word)
  /-- The last generated tokens, oldest first, at most 15, with what each needs when released. -/
  recent : List (Word × Word × Byte × BitVec 64)
  /-- Tokens generated so far (for pages and the next input token). -/
  generated : List Word
  deriving DecidableEq, Repr

/-- A released entry on its way to a function's egress ring (Tables 14-9, 15-14). -/
structure Entry where
  function : BitVec 6
  context : Nat
  id : Word
  seq : Word
  value : Word
  extra : Word
  kind : Byte
  logprobValid : Bool
  reason : Byte
  detail : Byte
  stamp : BitVec 64
  /-- COMPLETE and FENCE: the window slot of the record that the entry consumes. -/
  slot : Option Nat
  deriving DecidableEq, Repr

/-- An entry of the prefix table (R356). -/
structure PrefixEntry where
  tenant : BitVec 12
  hash : BitVec 96
  page : Nat
  tokens : List Word
  lastHit : BitVec 40
  deriving DecidableEq, Repr

/-- An adapter slot (R360). -/
structure AdapterSlot where
  adapter : Word
  generation : BitVec 16
  tenant : BitVec 12
  references : Nat
  pins : Nat
  lastBound : Nat
  /-- Blocks restored so far, and complete. -/
  restored : Nat
  loaded : Bool
  /-- A restore met a lost block (R361). -/
  lost : Bool
  deriving DecidableEq, Repr

/-- A step end awaiting the next term recess (Table 14-9): context, advance, proposed, accepted. -/
structure StepEnd where
  context : Nat
  advance : Nat
  proposed : Nat
  accepted : Nat
  deriving DecidableEq, Repr

/-- A pin or unpin waiting for step 7 of the term recess (R414). -/
structure PinRequest where
  pin : Bool
  adapter : Word
  tenant : BitVec 12
  wait : Waiting
  deriving DecidableEq, Repr

/-- The registrar (chapter 14). -/
structure Serving where
  /-- Committed contexts and, during a lesson, the contexts the stop matcher changes in shadow. -/
  contexts : Tab Ctx
  shadow : Tab Ctx
  /-- Released entries: staged by the lesson, and committed and not yet sent. -/
  staged : List Entry
  committed : List Entry
  stepEndsStaged : List StepEnd
  stepEnds : List StepEnd
  prefixes : List PrefixEntry
  slots : Tab AdapterSlot
  pinRequests : List PinRequest
  admittedOrder : BitVec 64
  admittedCount : BitVec 64
  prefixHits : BitVec 64
  prefixMisses : BitVec 64
  /-- TOKEN entries moved to the ring of each function. -/
  tokensSent : Tab (BitVec 64)
  ignoredCancels : Word
  bindOrder : Nat
  /-- Tenants whose key-ring entry was removed, and functions taken from a tenant's mask (R465, R467). -/
  removedTenants : List (BitVec 12)
  changedPrefixes : List (BitVec 12)
  /-- Words that a scrub has found uncorrectable outside the weight map, as the members have reported them since
  the last term recess: member and local key (R206). -/
  scrubReports : List (FabricAddr × Nat)
  deriving DecidableEq, Repr

/-! ## Host interface -/

/-- A DATA_PUT or TT_BLOCK in progress (R391, R392). -/
structure Transfer where
  ttBlock : Bool
  tag : Word
  mode : Byte
  region : BitVec 16
  dest : HouseAddr
  source : BitVec 64
  bytes : Nat
  /-- Bytes written so far. -/
  done : Nat
  /-- Window slot of the record. -/
  slot : Nat
  /-- TT_BLOCK: members whose processing of a frame is outstanding, once for each frame. -/
  awaiting : List FabricAddr
  /-- Final status, none while it runs. -/
  status : Option Byte
  deriving DecidableEq, Repr

/-- The ingress window, egress ring and counters of one function (R382 to R394). -/
structure Func where
  /-- Bytes landed in the window by slot, and the slots' landing masks. -/
  slotBytes : Tab (BitVec 512)
  slotMask : Tab (BitVec 64)
  /-- Slots the head has passed. -/
  consumed : Word
  /-- Slots of visible records ahead of the head. -/
  visible : Nat
  /-- Order numbers of the visible records: slot, order number. -/
  order : List (Nat × Nat)
  /-- Records consumed behind an unconsumed one, by slot. -/
  doneRecords : List Nat
  iqThreshold : BitVec 15
  iqErrors : Word
  egEnable : Bool
  egBaseLo : Word
  egBaseHi : Word
  egSize : BitVec 5
  egThresh : BitVec 21
  mirrorLo : Word
  mirrorHi : Word
  produced : Word
  badConsumed : Bool
  dmaError : Bool
  consumedWord : Word
  /-- Free slots at the last recess or tick (R395). -/
  lastFree : Nat
  /-- The egress vector was signalled in this recess or tick, and a FENCE entry waits for the next signal (R395). -/
  egSignalled : Bool
  egFence : Bool
  /-- Entries waiting for ring space, oldest first: request holds, and COMPLETE and FENCE entries. -/
  hold : List Entry
  transfers : List Transfer
  /-- Requests of the function that an FLR cancelled (R397). -/
  flrCancel : Bool
  deriving DecidableEq, Repr

/-- The host interface of the part. -/
structure HostIf where
  ready : Bool
  debug : Bool
  linkSpeed : BitVec 3
  linkWidth : BitVec 5
  linkFlit : Bool
  fnEnable : BitVec 64
  viol : BitVec 64
  violFn : BitVec 6
  violKind : BitVec 3
  violBar2 : Bool
  violAddr : Word
  /-- Order number of the next record to become visible (R350). -/
  nextOrder : Nat
  fns : Tab Func
  deriving DecidableEq, Repr

/-! ## Mailbox -/

/-- The mailbox of one transport: functions 0 to 63, and 64 the I3C transport (R398 to R408). -/
structure Mailbox where
  inBytes : Tab Byte
  inMask : Tab Bool
  inFree : Bool
  outValid : Bool
  outBytes : List Byte
  session : Bool
  expected : Word
  minor : Byte
  major : Byte
  discards : Word
  queue : List MailRequest
  /-- Requests started and not yet answered. -/
  running : Nat
  /-- How often the mailbox has been reset (R407). -/
  life : Nat
  responses : List MailResponse
  /-- A report built by ATTEST, with the nonce and tenant it was built for (R413). -/
  report : Option (List Byte × BitVec 16 × List Byte)
  deriving DecidableEq, Repr

/-! ## Determinism and debug -/

/-- A breakpoint (R449). -/
structure Breakpoint where
  kind : BitVec 2
  tile : BitVec 16
  value : BitVec 64
  deriving DecidableEq, Repr

/-- Instructions of the test access port (R454). -/
inductive TapInstr where
  | bypass | idcode | samplePreload | extest | internalScan
  deriving DecidableEq, Repr

/-- Digests, counters and debug state (chapter 18). -/
structure Debug where
  digestBell : BitVec 40
  digestValid : Bool
  digestLesson : BitVec 64
  digestRun : BitVec 64
  tensors : Tab (Option (BitVec 64))
  /-- Terms of the attempt in progress. -/
  terms : Tab (Option (BitVec 64))
  lockBell : BitVec 40
  lockMismatch : Bool
  lockMember : BitVec 12
  /-- The partner named by LOCKSTEP op 1, and whether the pairing is in force. -/
  partner : Option FabricAddr
  paired : Bool
  /-- What the root that has named this one last said of its job: its address and the message (R437). -/
  offer : Option (FabricAddr × LockMessage)
  unpairAtBell : List Waiting
  ownDigests : List (Nat × BitVec 64)
  ownSlice : Option (BitVec 40 × BitVec 64)
  partnerSlice : Option (BitVec 40 × BitVec 64)
  partnerMembers : List (BitVec 64)
  /-- The leader's placement records by bell number, and whether those of this term recess are applied (R440). -/
  placements : List (Nat × List PlacementRec)
  placed : Bool
  cntOn : BitVec 4
  cntStamp : BitVec 64
  /-- Selectors by 8 scope + i. -/
  cntSel : Tab (BitVec 16)
  cntTiles : BitVec 1024
  /-- Counts and their readable copies by scope, instance and counter: 256 (64 scope + instance) + i. -/
  cnt : Tab (BitVec 64)
  cntCopy : Tab (BitVec 64)
  cntWaits : List (Waiting × List Byte)
  debugMode : Bool
  debugMark : Bool
  stopped : Bool
  hazard : Bool
  breakpoints : List Breakpoint
  stopTile : BitVec 10
  stopCode : BitVec 6
  stopKind : BitVec 2
  stopCycle : BitVec 24
  stopBell : BitVec 40
  stopAttempt : BitVec 4
  stopTag : BitVec 64
  stopDetail : Word
  stopAddr : HouseAddr
  inspect : BitVec 10
  probes : Tab (BitVec 16)
  /-- The instruction of the test access port, and what was last shifted through its data register. -/
  tapIr : TapInstr
  tapData : List Bool
  deriving DecidableEq, Repr

/-! ## Security -/

/-- The update in progress (R472): its package header and the pieces of its delta by offset, newest first. -/
structure Update where
  header : List Byte
  pieces : List (Nat × List Byte)
  deriving DecidableEq, Repr

/-- The response to a service request (R470). -/
structure ServiceAnswer where
  sequence : Word
  type : Byte
  status : BitVec 16
  body : List Byte
  deriving DecidableEq, Repr

/-- What an attestation report is built from, as it stood at one moment (R459, Table 19-4). -/
structure Snapshot where
  padlock : Byte
  flags : Byte
  version : Word
  security : BitVec 64
  bell : BitVec 40
  /-- Weight entries; adapter entries with their tenants. -/
  weights : List (List Byte)
  adapters : List (BitVec 12 × List Byte)
  firmware : BitVec 512
  configuration : BitVec 512
  deriving DecidableEq, Repr

/-- Identity, padlock and firmware (chapter 19). -/
structure Security where
  padlock : Padlock
  owner : List Byte
  ownerCounter : BitVec 64
  lockMask : BitVec 64
  keyRing : List KeyEntry
  slotA : FirmwareSlot
  slotB : FirmwareSlot
  antiRollback : BitVec 64
  /-- The running slot: 0 A, 1 B; and whether the image runs in TRIAL. -/
  running : BitVec 1
  trial : Bool
  recovery : Bool
  /-- The boot ROM has derived keys and locked the device secret (R456, R457). -/
  secretLocked : Bool
  update : Option Update
  /-- The response to the last service request answered, by source address (R470). -/
  answered : Tab (Option ServiceAnswer)
  /-- Links that were MATCH under the previous image (R473). -/
  matchBefore : List Nat
  /-- The debug flag of the alias certificate issued at the last boot (R458). -/
  bootDebug : Bool
  /-- The state at the end of the most recent recess step 3 of the job in session (R459). -/
  snapshot : Option Snapshot
  deriving DecidableEq, Repr

/-! ## Power and pins -/

/-- Power states (Table 20-2). -/
inductive PowerState where
  | p0 | p1 | p2 | p3
  deriving DecidableEq, Repr

/-- Power, start-up, time-stamp and tile-control registers, and pins. -/
structure Power where
  state : PowerState
  step : BitVec 3
  requested : BitVec 3
  thermalStep : BitVec 3
  limit : BitVec 2
  /-- A lowered limit waiting for the next release (R484). -/
  nextLimit : Option (BitVec 2)
  limitWaits : List Waiting
  stepWaits : List Waiting
  tripped : Bool
  refused : Bool
  voltage : BitVec 16
  samples : List Nat
  /-- Input energy since part reset in microjoules. -/
  energy : Nat
  sensorSel : BitVec 7
  temps : Tab (BitVec 16)
  /-- A compute-die sensor has asked for a lower thermal step at the next recess (Table 20-4). -/
  throttleDue : Bool
  riseDue : Bool
  /-- Programming suspended by a stack sensor. -/
  stacksHot : Bool
  thermalTrip : Bool
  /-- A power trip in the lesson in progress (R483, R486). -/
  powerTrip : Bool
  throttles : Word
  thermalTrips : BitVec 16
  powerTrips : BitVec 16
  lastReset : BitVec 4
  /-- The power-cut procedure has recorded the cause, which stays through the P3 that follows (Table 20-8). -/
  causeStays : Bool
  /-- Mean power and step of the last committed attempt, by lesson-table index. -/
  measured : Tab (Nat × Nat)
  /-- Start-up: the last step of Table 20-6 completed, 0 to 7. -/
  startup : Nat
  firmware : Bool
  domainA : Bool
  domainB : Bool
  domainC : Bool
  /-- A part reset 1 ms after a PW_RESET write (R489). -/
  resetPending : Bool
  /-- The boot ROM has started: from then on the open-drain outputs are driven (R503). -/
  rom : Bool
  deriving DecidableEq, Repr

/-- The board's pins and supplies (R476, R500, R503). -/
structure Pins where
  vsb : Bool
  inputGood : Bool
  partRst : Bool
  refclk : Bool
  /-- THERM_TRIP_N is driven low until the compute dies are cool. -/
  thermTrip : Bool
  /-- THERM_TRIP_N is driven low by a shutdown to P3, until the next part reset or cold start. -/
  hotTrip : Bool
  deriving DecidableEq, Repr

/-- The time-stamp block (R84) and the tile control block (R116). -/
structure Stamps where
  select : BitVec 16
  /-- A sample under way, by island. -/
  sampling : Option (BitVec 16)
  done : Bool
  stopped : Bool
  stamp : BitVec 64
  stretch : Word
  lessonStretch : BitVec 13
  debt : Byte
  tcSelect : BitVec 10
  discards : Word
  profileB1 : Bool
  /-- The counts since the last release, and what they were when it came (R85). -/
  now : Epoch
  before : Epoch
  /-- Fence causes by part tile number, 0 not fenced. -/
  fences : Tab (BitVec 4)
  deriving DecidableEq, Repr

/-! ## What leaves the part -/

/-- Outputs of the part, newest last. -/
inductive Output where
  | dataFlit (link : BitVec 5) (seq : BitVec 12) (first : Bool) (body : BitVec 480)
  | statusFlit (link : BitVec 5) (f : StatusFlit)
  /-- A TRAIN flit on each of the lanes of the current set (R247). -/
  | trainFlit (link : BitVec 5) (lanes : List Nat) (f : TrainFlit)
  /-- A codeword on a lane (R233). -/
  | codeword (link : BitVec 5) (lane : Nat) (word : BitVec 5440)
  | firmware (target : FabricAddr) (m : FwMessage)
  | storeNak (target : FabricAddr) (pass : Byte) (more : Bool) (digest : BitVec 64) (ranges : List (Nat × Nat))
  | distribution (target : FabricAddr) (type : Byte) (digest : BitVec 64)
  | frame (f : Frame)
  /-- A frame for one part alone (R317). -/
  | frameTo (target : FabricAddr) (f : Frame)
  | bundleFrame (f : BundleFrame)
  | hostWrite (fn : BitVec 6) (address : Nat) (bytes : List Byte)
  | msix (fn : BitVec 6) (vector : Nat)
  | i3cResponse (bytes : List Byte)
  | service (mac : Nat) (type : Byte) (sequence : Word) (status : BitVec 16) (bytes : List Byte)
  | lockstep (target : FabricAddr) (m : LockMessage)
  | placement (target : FabricAddr) (bell : BitVec 40) (records : List PlacementRec)
  /-- Die 0 bytes that the registrar multicasts to every member (R343). -/
  | tables (offset : Nat) (bytes : List Byte)
  /-- The advances that the registrar multicasts: context, first new position, advance (R362). -/
  | advances (l : List (Nat × Nat × Nat))
  | tdo (bits : List Bool)
  /-- An event signal drives probe pin PRB<n> high (R453). -/
  | probe (pin : Nat)
  deriving DecidableEq, Repr

/-! ## The whole -/

/-- The state of one part. -/
structure State where
  /-- Commands waiting, first in, first out. -/
  pending : List Instr
  fused : Fused
  tiles : Tab Tile
  bell : Bell
  job : Job
  mem : Mem
  cq : Regions
  lkSelect : BitVec 5
  lkLane : BitVec 3
  links : Tab Link
  rt : Fabric
  rc : RollCall
  nv : Store
  sv : Serving
  hi : HostIf
  mb : Tab Mailbox
  dg : Debug
  sec : Security
  pw : Power
  pins : Pins
  ts : Stamps
  out : List Output
  /-- Counter of the free values drawn so far; the model's own field. -/
  free : Nat
  deriving DecidableEq, Repr

/-- Reasons to stop with a fault. The manual gives the block no such event. -/
inductive Fault where
  /-- Answered by no command of this model; safe. -/
  | unused
  deriving DecidableEq, Repr

/-- Reasons not to give a command a meaning. -/
inductive Refusal where
  /-- A command without a meaning in this model, by the name of its row; safe. -/
  | notModelled (mnemonic : String)
  deriving DecidableEq, Repr

/-! ## Reset -/

/-- An island that has never stretched. -/
def Stretch.reset : Stretch := { stretched := 0, lessonStretch := 0, debt := 0, floor := 0, calm := 0 }

/-- An island after reset. -/
def Island.reset : Island := { count := 0, bell := 0, stretch := .reset, stopped := false, stopAt := none }

/-- The counts after part reset. -/
def Epoch.reset : Epoch := { isles := [], ticks := 0, bell := 0, halted := none, gated := none, missed := 0 }

/-- A tile after reset: no lesson, every register zero. -/
def Tile.reset : Tile :=
  { s := [], a := [], v := [], m := [], acc := [], flags := 0, buf := [], cells := [], mx := [],
    lastMx := none, streams := [], lastStream := none, pend := [], hinge := [], nextId := 0, pc := 0,
    loops := [], branch := none, drained := false, issued := false, ended := true, bundles := 0, transpose := none,
    fills := [], tensor := 0, isle := .reset, before := .reset, discards := 0, active := 0, ib := [], ibValid := [], ibUe := [],
    storeUeSeen := [], ibUeSeen := [], fenceDue := 0, counters := [], totals := [], accesses := [] }

/-- The bell block after part reset and at JOB_CREATE (Tables 2-10 to 2-14). -/
def Bell.reset : Bell :=
  { number := 0, causes := 0, attempt := 0, replayLimit := 3, phase := .idle, firstWhere := 0,
    firstCycle := 0, recessMin := 2048, limitUs := 10000, delayNs := 0, targetNs := 0, replays := 0,
    faultCode := 0, faulted := false, seq := 0, lessonCauses := 0, lessonFirst := none,
    gathered := false, childGather := [], verdict := none, ownReady := none, childReady := [],
    release := none, noticeCauses := 0, noticeFirst := none, sent := [], seen := [],
    lessonLength := 0, stretchBudget := 0, index := 0, ueBlocks := [], reverify := [], newFence := false,
    recessDue := false, withheld := false, lastDirty := false, relNumber := 0, relAttempt := 0, notices := [],
    noticed := [], widthsDue := [] }

/-- No job record (R410). -/
def Job.reset : Job :=
  { state := .none, id := 0, seed := 0, attach := 0, termCount := 0, termsDone := 0, stop := none,
    low := 0, high := 0, members := 0, root := 0, image := none, symbols := [], setGranules := [],
    setBytes := [], completeSets := [], restored := false, discardedFrames := 0, order := 0, orderBody := [],
    awaiting := [], results := [], waits := [], flagSummary := [], modelTag := 0, committed := 0 }

/-- Crossbar registers of a die after part reset (Tables 8-8, 8-9). -/
def DieRegs.reset : DieRegs :=
  { ceCount := 0, ueCount := 0, ueAddr := 0, ueKind := 0, ueMapped := false, late := 0, collide := 0,
    red := 0, redStale := 0, scrubPasses := 0, scrubQuantum := 0 }

/-- An idle slice. -/
def Slice.reset : Slice := { reads := [], writes := [], window := [], readAt := none, writeAt := none }

/-- Memory after self-test: every word zero (R491). -/
def Mem.reset : Mem :=
  { bytes := [], ue := [], ce := [], select := 0, dies := [], gate := [], gateRequests := [], gateOpened := [],
    gateWaits := [], slices := [], groups := [], groupBank := 0, instances := [], redFlight := [] }

/-- A region entry of kind OFF (Tables 9-5, 9-6). -/
def Region.reset : Region :=
  { kind := .off, base := 0, slotsLog := 0, slotLog := 0, producerPart := 0, producerTile := 0,
    producerEngine := false, producerFirmware := false, consumerTile := 0, consumerFirmware := false,
    homePart := 0, homeRegion := 0, head := 0, tail := 0, headSh := 0, tailSh := 0, overrun := false,
    dropped := false, tailWas := none, headWas := none }

/-- The region block after part reset. -/
def Regions.reset : Regions :=
  { select := 0, table := [], underruns := 0, overruns := 0, discards := 0, pieces := [] }

/-- A lane without readings (Table 10-13). -/
def Optics.reset : Optics := { tx := 0x8000, rx := 0x8000, feed := 0x8000, ber := 0 }

/-- A link after part reset: DOWN (Tables 10-7, 10-12, 10-13). -/
def Link.reset : Link :=
  { phase := .down, width := 0, txFirst := 0, rxFirst := 0, reason := 0, minor := 0, major := 0,
    peerStepping := 0, rxOk := 0xFF, feedOk := 0xFF, peerRxOk := 0xFF, peerTxOk := 0xFF, crcErrors := 0,
    fecCorrected := 0, fecUncorrectable := 0, replays := 0, marks := 0, retrains := 0, wasActive := false, wasFailed := false,
    optics := [], nextSeq := 0, replayBuffer := [], resend := [], lastResend := none, expected := 0,
    accepted := false, nakSet := false, sent := [], returned := [], freed := [], rxHeld := [],
    txQueue := [], txFlits := [], rxBodies := [], storedTag := none, replayCount := 0, sinceControl := 0,
    badCodewords := [], peerTrain := none, oldWidth := 0, lanes := [],
    txSlot := 0, txWords := [] }

/-- A router after part reset: every destination discarded, identity link map (Table 11-10). -/
def Router.reset : Router :=
  { coord := 0, extent := 1, low := 0, high := 0, full := false, dir := 0xFFFFFFFF, linkmap := 0xE4E4,
    bellmap := 0xE4E4, packets := 0, epochDrops := 0, sliceDrops := 0, otherDrops := 0, rfDrops := 0 }

/-- A ring that has moved nothing. -/
def RingRun.reset : RingRun := { received := 0, sentPieces := 0 }

/-- The fabric of a part in no slice (log 3). -/
def Fabric.reset : Fabric :=
  { select := 0, epoch := 0, drain := false, slice := 0, role := 0, routers := [], queue := [], now := 0, kept := [],
    keptLinks := [], inbox := [], getIssued := 0, nextTag := 0, outstanding := [], rings := [], ringBank := 0,
    ringRuns := [], drainWaits := [], drainAwaiting := [], drainAskers := [], routeWaits := [] }

/-- Roll call on a link before any exchange. -/
def RollEntry.reset : RollEntry :=
  { heard := none, window := false, echoes := [], hop := 0, recorded := 0, reverify := false }

/-- A part without a plan (R296, R299; log 3). -/
def RollCall.reset : RollCall :=
  { plan := none, address := 0, window := false, links := [], straps := 0,
    dynamic := none, eid := 0 }

/-- A new stack: all user capacity free (Table 13-1; log 3). -/
def Stack.reset : Stack :=
  { state := .online, free := 2097152, maxErase := 0, retired := 0, gone := [], ce := 0, ue := 0, tagFail := 0,
    refresh := 0, disturb := 0 }

/-- An erase block never used. -/
def EraseBlock.reset : EraseBlock := { erases := 0, reads := 0 }

/-- The FABRIC record of a part never placed. -/
def FabricRecord.reset : FabricRecord :=
  { address := 0, hops := [], slice := 0, role := 0, routers := [], job := 0, root := 0 }

/-- The store of a part as shipped without weights (log 3). -/
def Store.reset : Store :=
  { select := 0, stackTab := [], eraseBlocks := [], blocks := [], generations := [], decisions := [],
    dist := none, lost := [], repairs := 0, degraded := false, storeFault := false, charged := false,
    chargePct := 0, journal := [], degradedTold := false, nextSequence := 1, commits := [], restoreMap := [], restores := [],
    slotReads := [], slotBudget := 0, restoreWaits := [], restoredCount := 0, lostMet := 0,
    restoring := false, progress := [], fabric := .reset }

/-- A FREE context. -/
def Ctx.reset : Ctx :=
  { requestId := 0, function := 0, state := .free, endReason := 0, includeStop := false, logprob := false,
    acceptMode := false, prefixReuse := false, paused := false, damaged := false, tenant := 0,
    adapterGen := 0, adapterId := 0, slot := 0xFFFF, held := 0, specK := 0, specKmax := 0, shrinkRun := 4,
    growRun := 2, zeroCount := 0, fullCount := 0, block := 0, row := 0, rows := 0, promptLen := 0,
    prompt := [], position := 0, emitted := 0, maxNew := 0, maxTotal := 0, seq := 0, pages := [], tables := [],
    pagesReserved := 0, chainHash := 0, temperature := 0, topP := 0, topK := 0, admitted := 0,
    stopIds := [], stopSeqs := [], recent := [], generated := [] }

/-- An empty adapter slot. -/
def AdapterSlot.reset : AdapterSlot :=
  { adapter := 0, generation := 0, tenant := 0, references := 0, pins := 0, lastBound := 0, restored := 0,
    loaded := false, lost := false }

/-- No requests. -/
def Serving.reset : Serving :=
  { contexts := [], shadow := [], staged := [], committed := [], stepEndsStaged := [], stepEnds := [],
    prefixes := [], slots := [], pinRequests := [], admittedOrder := 0,
    admittedCount := 0, prefixHits := 0, prefixMisses := 0, tokensSent := [], ignoredCancels := 0,
    bindOrder := 0, removedTenants := [], changedPrefixes := [], scrubReports := [] }

/-- A function's registers after reset (Table 15-8). -/
def Func.reset : Func :=
  { slotBytes := [], slotMask := [], consumed := 0, visible := 0, order := [], doneRecords := [],
    iqThreshold := 0, iqErrors := 0, egEnable := false, egBaseLo := 0, egBaseHi := 0, egSize := 0,
    egThresh := 0, mirrorLo := 0, mirrorHi := 0, produced := 0, badConsumed := false, dmaError := false,
    consumedWord := 0, lastFree := 16384, egSignalled := false, egFence := false, hold := [], transfers := [], flrCancel := false }

/-- The host interface after part reset (Tables 15-6, 15-16). -/
def HostIf.reset : HostIf :=
  { ready := false, debug := false, linkSpeed := 0, linkWidth := 0, linkFlit := false,
    fnEnable := 0xFFFFFFFFFFFFFFFF, viol := 0, violFn := 0, violKind := 0, violBar2 := false,
    violAddr := 0, nextOrder := 0, fns := [] }

/-- A mailbox after part reset (Table 16-3). -/
def Mailbox.reset : Mailbox :=
  { inBytes := [], inMask := [], inFree := true, outValid := false, outBytes := [], session := false,
    expected := 0, minor := 0, major := 0, discards := 0, queue := [], running := 0, life := 0, responses := [],
    report := none }

/-- Digest, counter and debug registers after part reset (Tables 18-5, 18-7). -/
def Debug.reset : Debug :=
  { digestBell := 0, digestValid := false, digestLesson := 0, digestRun := 0, tensors := [], terms := [],
    lockBell := 0, lockMismatch := false, lockMember := 0, partner := none, paired := false, offer := none,
    unpairAtBell := [], ownDigests := [], ownSlice := none, partnerSlice := none, partnerMembers := [],
    placements := [], placed := false, cntOn := 0, cntStamp := 0, cntSel := [], cntTiles := 0, cnt := [],
    cntCopy := [], cntWaits := [], debugMode := false, debugMark := false, stopped := false,
    hazard := false, breakpoints := [], stopTile := 0, stopCode := 0, stopKind := 0, stopCycle := 0,
    stopBell := 0, stopAttempt := 0, stopTag := 0, stopDetail := 0, stopAddr := 0, inspect := 0,
    probes := [], tapIr := .idcode, tapData := [] }

/-- A firmware slot without an image (Table 19-9). -/
def FirmwareSlot.reset : FirmwareSlot :=
  { state := .empty, version := 0, security := 0, digest := 0, image := [], failedTrials := 0,
    activate := false, majors := [1] }

/-- An OPEN part running a confirmed image in slot A (log 3). -/
def Security.reset : Security :=
  { padlock := .opened, owner := [], ownerCounter := 0, lockMask := 0, keyRing := [],
    slotA := { FirmwareSlot.reset with state := .good }, slotB := .reset, antiRollback := 0, running := 0,
    trial := false, recovery := false, secretLocked := false, update := none,
    answered := [], matchBefore := [], bootDebug := false,
    snapshot := none }

/-- Power registers after part reset (Table 20-8); start-up has not begun. -/
def Power.reset : Power :=
  { state := .p0, step := 6, requested := 6, thermalStep := 7, limit := 3, nextLimit := none,
    limitWaits := [], stepWaits := [], tripped := false, refused := false, voltage := 0, samples := [],
    energy := 0, sensorSel := 0, temps := [], throttleDue := false, riseDue := false, stacksHot := false,
    thermalTrip := false, powerTrip := false, throttles := 0, thermalTrips := 0, powerTrips := 0, lastReset := 0, causeStays := false,
    measured := [], startup := 0, firmware := false, domainA := false, domainB := false, domainC := false,
    resetPending := false, rom := false }

/-- Pins before any supply is good; the open-drain outputs are released (R503). -/
def Pins.reset : Pins :=
  { vsb := false, inputGood := false, partRst := false, refclk := false, thermTrip := false, hotTrip := false }

/-- The time-stamp and tile control blocks after part reset (Tables 3-8, 3-9, 4-16, 4-17). -/
def Stamps.reset : Stamps :=
  { select := 0, sampling := none, done := false, stopped := false, stamp := 0, stretch := 0,
    lessonStretch := 0, debt := 0, tcSelect := 0, discards := 0, profileB1 := false, now := .reset,
    before := .reset, fences := [] }

/-- The part this model's reset names: a serial number of zero, M4N8X3, B0, G2 (log 1). -/
def Fused.reset : Fused :=
  { variant := .m4n8x3, stepping := .b0, gradeG2 := true, serial := 0, deviceSecret := 0, deviceCert := [] }

/-- The part right after a cold reset, every register at the value the manual states. -/
def State.reset : State :=
  { pending := [], fused := .reset, tiles := [], bell := .reset, job := .reset, mem := .reset,
    cq := .reset, lkSelect := 0, lkLane := 0, links := [], rt := .reset, rc := .reset, nv := .reset,
    sv := .reset, hi := .reset, mb := [], dg := .reset, sec := .reset, pw := .reset, pins := .reset,
    ts := .reset, out := [], free := 0 }

end Sys2Proof.Machine
end

