-- ==== Sys2Proof/Machine/Image.lean ====
section
/-! DEFINITION. Reading the loaded image (chapter 17): lessons, tile maps, bundle sets, placement. -/

namespace Sys2Proof.Machine

/-- The section of a kind and id that serves a member (R418). -/
def sectionOf (im : Image) (kind member id : Nat) : Option Section :=
  im.sections.find? fun x =>
    x.kind.toNat == kind && x.id.toNat == id && (x.member.toNat == member || x.member.toNat == 0xFFFF)

/-- The bytes of a section, empty when the image has none. -/
def sectionBytes (im : Image) (kind member id : Nat) : List Byte :=
  match sectionOf im kind member id with
  | some x => x.bytes
  | none => []

/-- Number of lessons of the table (R28). -/
def lessonCount (im : Image) : Nat := im.prologue + im.term + im.epilogue

/-- The lesson-table entry of an index (Table 17-4). -/
def lessonEntry (im : Image) (i : Nat) : List Byte := bytesAt (sectionBytes im 0x01 0 0) (32 * i) 32

/-- Declared length of a lesson. -/
def lessonLength (im : Image) (i : Nat) : Nat := natAt (lessonEntry im i) 0 4

/-- Stretch budget of a lesson. -/
def lessonStretch (im : Image) (i : Nat) : Nat := natAt (lessonEntry im i) 4 2

/-- Bundle-set id that a lesson gives a tile of a member; none for idle bundles (R419). -/
def tileSet (im : Image) (member lesson tile : Nat) : Option Nat :=
  let map := natAt (lessonEntry im lesson) 16 4
  let b := sectionBytes im 0x02 member map
  if b.length ≤ 4 * tile then none
  else
    let id := natAt b (4 * tile) 4
    if id == 0xFFFFFFFF then none else some id

/-- The bundle set of an id for a member. -/
def bundleSet (im : Image) (member id : Nat) : Option Section := sectionOf im 0x03 member id

/-- Declared bundle count of a tile in a lesson (R105, R419). -/
def bundleCount (im : Image) (member lesson tile : Nat) : Nat :=
  match tileSet im member lesson tile with
  | none => 0
  | some id =>
    match bundleSet im member id with
    | some x => x.bundles
    | none => 0

/-- The index of the lesson-table entry after an index; none after the last (R28). `left` is how many
runs of the term are still to come after the one in progress, none for an unbounded term. -/
def lessonAfter (im : Image) (i : Nat) (left : Option Nat) : Option Nat :=
  let firstTerm := im.prologue
  let firstEpi := im.prologue + im.term
  if i + 1 < firstTerm then some (i + 1)
  else if i + 1 < firstEpi then some (i + 1)
  else if i + 1 = firstEpi && im.term != 0 && i ≥ firstTerm then
    match left with
    | none => some firstTerm
    | some (_ + 1) => some firstTerm
    | some 0 => if im.epilogue = 0 then none else some firstEpi
  else if i + 1 < lessonCount im then some (i + 1)
  else none

/-- Bytes of a member's PLACEMENT section (R420). -/
def placement (im : Image) (member : Nat) : List Byte := bytesAt (sectionBytes im 0x0C member 0) 0 128

/-- Die offset of the bundle area of a die. -/
def areaOffset (im : Image) (member die : Nat) : Nat := natAt (placement im member) (16 * die) 5 % 2 ^ 35

/-- size_log of the bundle area of a die; 0 for no area. -/
def areaLog (im : Image) (member die : Nat) : Nat := natAt (placement im member) (16 * die + 5) 1

/-- Mask of half-layers that the image declares in use on a die. -/
def declaredHalves (im : Image) (member die : Nat) : Nat := natAt (placement im member) (16 * die + 6) 1

/-- The serving descriptor (Table 17-6), empty when the image has none. -/
def servingBytes (im : Image) : List Byte := if im.serving then sectionBytes im 0x0B 0xFFFF 0 else []

/-- Decode blocks, prefill blocks and draft sub-steps of each term iteration. -/
def servingD (im : Image) : Nat := natAt (servingBytes im) 0 2
def servingP (im : Image) : Nat := natAt (servingBytes im) 2 1
def servingS (im : Image) : Nat := natAt (servingBytes im) 3 1
/-- Vocabulary and the largest total length. -/
def servingVocab (im : Image) : Nat := natAt (servingBytes im) 4 4
def servingMaxTotal (im : Image) : Nat := natAt (servingBytes im) 8 4
/-- Attention pages and the bytes of one page. -/
def servingPool (im : Image) : Nat := natAt (servingBytes im) 12 4
def servingPageBytes (im : Image) : Nat := natAt (servingBytes im) 16 4
/-- Adapter slots and their 64 KiB blocks. -/
def servingSlots (im : Image) : Nat := natAt (servingBytes im) 20 2
def servingSlotBlocks (im : Image) : Nat := natAt (servingBytes im) 22 2
/-- Egress stage regions and append regions. -/
def servingStages (im : Image) : List Nat :=
  ((bytesAt (servingBytes im) 24 8).map BitVec.toNat).filter (· != 0xFF)
def servingAppends (im : Image) : List Nat :=
  ((bytesAt (servingBytes im) 32 64).map BitVec.toNat).filter (· != 0xFF)
/-- Die 0 offsets of the step table, the page tables and the registrar area, and the restore time. -/
def servingStepTable (im : Image) : Nat := natAt (servingBytes im) 96 5 % 2 ^ 35
def servingPageTables (im : Image) : Nat := natAt (servingBytes im) 104 5 % 2 ^ 35
def servingPageBlocks (im : Image) : Nat := natAt (servingBytes im) 112 4
def servingArea (im : Image) : Nat := natAt (servingBytes im) 116 5 % 2 ^ 35
def servingRestoreUs (im : Image) : Nat :=
  let n := natAt (servingBytes im) 121 1
  if n = 0 then 8 else n

/-- Timetable store region of a member, and its store region where present (R420). -/
def timetableRegion (im : Image) (member : Nat) : Nat := natAt (placement im member) 64 1
def storeRegion (im : Image) (member : Nat) : Option Nat :=
  if natAt (placement im member) 66 1 % 2 = 1 then some (natAt (placement im member) 65 1) else none

/-- Granules of a bundle set. -/
def setGranules (x : Section) : Nat := (x.bundles + 7) / 8

/-- A member's coordinates on an axis of a fabric address. -/
def coord (a : FabricAddr) (axis : Nat) : Nat := (a.extractLsb' (4 * axis) 4).toNat

/-- Extent of a box on an axis. -/
def boxExtent (low high : FabricAddr) (axis : Nat) : Nat := coord high axis - coord low axis + 1

/-- A part's member index in a box (R180). -/
def memberIndex (low high a : FabricAddr) : Nat :=
  let d (k : Nat) := coord a k - coord low k
  let n (k : Nat) := boxExtent low high k
  d 0 + n 0 * (d 1 + n 1 * (d 2 + n 2 * d 3))

/-- The fabric address of a member index in a box. -/
def memberAddress (low high : FabricAddr) (i : Nat) : FabricAddr :=
  let n (k : Nat) := boxExtent low high k
  let x := coord low 0 + i % n 0
  let y := coord low 1 + i / n 0 % n 1
  let z := coord low 2 + i / (n 0 * n 1) % n 2
  let w := coord low 3 + i / (n 0 * n 1 * n 2)
  BitVec.ofNat 16 (x + 16 * y + 256 * z + 4096 * w)

/-- Inside a box. -/
def inBox (low high a : FabricAddr) : Bool :=
  (List.range 4).all fun k => coord low k ≤ coord a k && coord a k ≤ coord high k

end Sys2Proof.Machine
end

