-- ==== Sys2Proof/Machine/Ops.lean ====
section
/-! DEFINITION. The named operations over the state: tiles, memory, causes, counters, digests. -/

namespace Sys2Proof.Machine

/-! ## Tiles -/

/-- A tile by its part tile number (R87). -/
def State.tile (s : State) (t : Nat) : Tile := tabGet .reset s.tiles t

/-- Put a tile back. -/
def State.setTile (s : State) (t : Nat) (x : Tile) : State :=
  { s with tiles := tabSet .reset s.tiles t x }

/-- Change one tile. -/
def State.modTile (s : State) (t : Nat) (f : Tile → Tile) : State := s.setTile t (f (s.tile t))

/-- Fence cause of a tile (R112), 0 for none. -/
def State.fenceOf (s : State) (t : Nat) : BitVec 4 := tabGet 0 s.ts.fences t

/-- The tile is fenced. -/
def State.fenced (s : State) (t : Nat) : Bool := s.fenceOf t != 0

/-- The tile issues bundles in its current cycle (R33, R80, R97, R114). -/
def State.tileRuns (s : State) (t : Nat) : Bool :=
  let x := s.tile t
  s.bell.phase == .lesson && !s.fenced t && !x.isle.stopped && !x.ended && x.isle.count < s.bell.lessonLength

/-- The current lesson tag (R36). -/
def State.tagBell (s : State) : BitVec 8 := s.bell.number.setWidth 8

/-- A lesson tag is that of the lesson in progress. -/
def State.tagNow (s : State) (b : BitVec 8) (a : BitVec 4) : Bool := b == s.tagBell && a == s.bell.attempt

/-! ## Logs -/

/-- Append an output. -/
def State.emit (s : State) (o : Output) : State := { s with out := s.out ++ [o] }

/-- Append outputs. -/
def State.emitAll (s : State) (l : List Output) : State := { s with out := s.out ++ l }

/-! ## Address decoding (R186 to R190) -/

/-- A house address without its part position. -/
def localKey (a : HouseAddr) : Nat := a.toNat % 2 ^ 37

/-- House position of an address. -/
def houseOf (a : HouseAddr) : Nat := a.toNat / 2 ^ 37

/-- Compute die of a local key. -/
def dieOf (k : Nat) : Nat := k / 2 ^ 35 % 4

/-- Die offset of a local key. -/
def offsetOf (k : Nat) : Nat := k % 2 ^ 35

/-- The offset lies in the SRAM layers. -/
def inLayers (off : Nat) : Bool := off < 0x200000000

/-- The offset lies in the tile stores. -/
def inStores (off : Nat) : Bool := 0x400000000 ≤ off && off < 0x408000000

/-- First local key of a tile's store. -/
def storeBase (t : Nat) : Nat := (t / 256) * 2 ^ 35 + 0x400000000 + (t % 256) * 0x80000

/-- The tile whose store a local key lies in. -/
def storeTile (k : Nat) : Nat := 256 * dieOf k + (offsetOf k - 0x400000000) / 0x80000

/-- Half-layer of a layer offset (R207). -/
def halfOf (off : Nat) : Nat := off / 2 ^ 30

/-- Memory slice of a layer offset (R190). -/
def sliceOf (off : Nat) : Nat :=
  (((off / 2 ^ 8) % 256) ^^^ ((off / 2 ^ 16) % 256)) ^^^ ((off / 2 ^ 24) % 128)

/-- SRAM layers per die of a variant (Table 1-9). -/
def layersOf : Variant → Nat
  | .m4n8x3 => 4
  | .m4n8x4 => 4
  | .m4n4x3 => 4
  | .m2n8x3 => 2
  | .m2n4x2 => 2

/-- Weight stacks of a variant. -/
def stacksOf : Variant → Nat
  | .m4n8x3 => 8
  | .m4n8x4 => 8
  | .m4n4x3 => 4
  | .m2n8x3 => 8
  | .m2n4x2 => 4

/-- I/O dies of a variant. -/
def ioDiesOf : Variant → Nat
  | .m4n8x3 => 3
  | .m4n8x4 => 4
  | .m4n4x3 => 3
  | .m2n8x3 => 3
  | .m2n4x2 => 2

/-- Links of a variant. -/
def linksOf (v : Variant) : Nat := 8 * ioDiesOf v

/-- The position of a part in its house (R257). -/
def housePosition (v : Variant) (a : FabricAddr) : Nat :=
  if ioDiesOf v = 2 then coord a 0 % 2 + 2 * (coord a 1 % 4)
  else coord a 0 % 2 + 2 * (coord a 1 % 2) + 4 * (coord a 2 % 2)

/-- This part's position in its house. -/
def State.position (s : State) : Nat := housePosition s.fused.variant s.rc.address

/-- State of a half-layer as XB_GATE shows it (R207, R210). -/
def State.gateOf (s : State) (die half : Nat) : BitVec 2 :=
  if 2 * layersOf s.fused.variant ≤ half then 2 else tabGet 0 s.mem.gate (8 * die + half)

/-- Crossbar registers of a die. -/
def State.dieRegs (s : State) (d : Nat) : DieRegs := tabGet .reset s.mem.dies d

/-- Change the crossbar registers of a die. -/
def State.modDie (s : State) (d : Nat) (f : DieRegs → DieRegs) : State :=
  { s with mem := { s.mem with dies := tabMod .reset s.mem.dies d f } }

/-! ## Counters (R441 to R443) -/

/-- Add to the continuous counters of an instance of a scope that count an event. -/
def State.countEvent (s : State) (scope inst ev n : Nat) : State :=
  if bit s.dg.cntOn scope then
    let one (c : Tab (BitVec 64)) (i : Nat) : Tab (BitVec 64) :=
      if (tabGet 0 s.dg.cntSel (8 * scope + i)).toNat = ev then
        tabMod 0 c (256 * (64 * scope + inst) + i) (· + BitVec.ofNat 64 n)
      else c
    { s with dg := { s.dg with cnt := (List.range 8).foldl one s.dg.cnt } }
  else s

/-- Add to the lesson counters of a tile that count an event (R442). -/
def State.countTile (s : State) (t ev n : Nat) : State :=
  if bit s.dg.cntOn 0 && bit s.dg.cntTiles t && s.bell.phase == .lesson then
    let one (c : Tab (BitVec 64)) (i : Nat) : Tab (BitVec 64) :=
      if (tabGet 0 s.dg.cntSel i).toNat = ev then tabMod 0 c i (· + BitVec.ofNat 64 n) else c
    s.modTile t fun x => { x with counters := (List.range 8).foldl one x.counters }
  else s

/-! ## Causes (R51, R52) -/

/-- Order of cause records of one part (R52). -/
def causeKey (c : CauseRec) : Nat :=
  (((c.cycle.toNat * 4 + c.die.toNat) * 4 + c.source.toNat) * 256 + c.unit.toNat) * 16 + c.bit.toNat

/-- The earlier of two records of one part. -/
def firstCause (a : Option CauseRec) (b : CauseRec) : Option CauseRec :=
  match a with
  | none => some b
  | some a => if causeKey b < causeKey a then some b else some a

/-- A cycle offset as it is reported, saturating (Table 2-12). -/
def satCycle (c : Nat) : BitVec 24 := BitVec.ofNat 24 (min c 0xFFFFFF)

/-- A lesson is still open to causes on this part. -/
def State.causeOpen (s : State) : Bool :=
  (s.bell.phase == .lesson || s.bell.phase == .gather) && !s.bell.gathered

/-- Mark the lesson dirty: cause bit, cycle offset, die, unit and source of BL_FIRST_WHERE. -/
def State.cause (s : State) (b cycle die unit source : Nat) : State :=
  if s.causeOpen then
    let r : CauseRec :=
      { cycle := satCycle cycle, part := s.rc.address, die := BitVec.ofNat 2 die,
        unit := BitVec.ofNat 8 unit, bit := BitVec.ofNat 4 b, source := BitVec.ofNat 2 source }
    { s with bell := { s.bell with
        lessonCauses := s.bell.lessonCauses ||| BitVec.ofNat 16 (2 ^ b)
        lessonFirst := firstCause s.bell.lessonFirst r } }
  else s

/-- Cause bits of Table 2-4. -/
def cLate : Nat := 0
def cUnderrun : Nat := 1
def cOverrun : Nat := 2
def cMissing : Nat := 3
def cLinkReplay : Nat := 4
def cOverstretch : Nat := 5
def cUncorrectable : Nat := 6
def cClockStop : Nat := 7
def cRelay : Nat := 8

/-- A cause raised by a tile (source 0). -/
def State.tileCause (s : State) (b t cycle : Nat) : State := s.cause b cycle (t / 256) (t % 256) 0

/-- A cause raised at a place of memory: the slice of a layer offset, or the tile of a tile store. -/
def State.memCause (s : State) (b key cycle : Nat) : State :=
  if inStores (offsetOf key) then s.tileCause b (storeTile key) cycle
  else s.cause b cycle (dieOf key) (sliceOf (offsetOf key)) 1

/-! ## Members of the job -/

/-- This part's member index (R180). -/
def State.member (s : State) : Nat := memberIndex s.job.low s.job.high s.rc.address

/-- Terms still to run after the one in progress; none for an unbounded term (R28). -/
def State.termsLeft (s : State) : Option Nat :=
  if s.job.termCount == 0 then none else some (s.job.termCount.toNat - 1 - s.job.termsDone)

/-- The lesson after the one in progress, were it to commit. -/
def State.nextIndex (s : State) : Option Nat :=
  match s.job.image with
  | none => none
  | some im => lessonAfter im s.bell.index s.termsLeft

/-- The lesson after the next one. -/
def State.afterNextIndex (s : State) : Option Nat :=
  match s.job.image, s.nextIndex with
  | some im, some j =>
    let wrapped := s.bell.index + 1 == im.prologue + im.term && im.term != 0 && im.prologue ≤ s.bell.index
    lessonAfter im j (match s.termsLeft with
      | none => none
      | some n => some (if wrapped then n - 1 else n))
  | _, _ => none

/-- The lesson that the part runs next: before bell 0 the first one, in a lesson the one after it, in recess the one
the coming release names (after a dirty verdict, the same again). -/
def State.comingIndex (s : State) : Option Nat :=
  match s.bell.phase with
  | .idle => s.job.image.map fun _ => 0
  | .lesson => s.nextIndex
  | .gather => s.nextIndex
  | .recess => some s.bell.index
  | .ready => some s.bell.index
  | _ => none

/-- Declared bundle count of a tile in a lesson of the loaded image. -/
def State.declared (s : State) (lesson : Option Nat) (t : Nat) : Nat :=
  match s.job.image, lesson with
  | some im, some i => bundleCount im s.member i t
  | _, _ => 0

/-- The bundle tag of the bundle at a tile's fetch index (R449). -/
def State.bundleTag (s : State) (t : Nat) : BitVec 64 :=
  match s.job.image with
  | none => 0
  | some im =>
    match tileSet im s.member s.bell.index t with
    | none => 0
    | some id => BitVec.ofNat 64 (id + 2 ^ 32 * ((s.tile t).pc % 1024))

/-! ## Debug stops (R448 to R450) -/

/-- Stretching of an island. -/
def Island.stretched (i : Island) : Word := i.stretch.stretched
def Island.lessonStretch (i : Island) : Nat := i.stretch.lessonStretch
def Island.debt (i : Island) : Nat := i.stretch.debt

/-- The stepped islands stop (R80, R450): crossbar stages, layer controls, tiles (island kinds 0 to 2, Table 3-1). -/
def Epoch.halt (e : Epoch) : Epoch := { e with halted := some (e.halted.getD e.ticks) }

/-- P1 gates the tiles and the crossbar stages (Table 20-2). -/
def Epoch.gate (e : Epoch) : Epoch := { e with gated := some (e.gated.getD e.ticks) }

/-- P1 ends: what the gated islands have not counted stays lost. -/
def Epoch.ungate (e : Epoch) : Epoch :=
  { e with gated := none, missed := e.missed + (e.ticks - e.gated.getD e.ticks) }

/-- Reference cycles since the release in which islands of a kind have been clocked. -/
def Epoch.clocked (e : Epoch) (kind : Nat) : Nat :=
  let n := if kind ≤ 2 then e.halted.getD e.ticks else e.ticks
  if kind ≤ 1 then min n (e.gated.getD n) - e.missed else n

/-- The cycle count of an island that follows the reference: the reference count less its debt (R71, R74); a
stretched cycle counts as one cycle for both its periods (R73). -/
def Epoch.count (e : Epoch) (kind : Nat) (x : Stretch) : Nat := max x.floor (e.clocked kind - x.debt)

/-- The counts of an island other than a tile. -/
def Epoch.isle (e : Epoch) (id : Nat) : Island :=
  let x := tabGet .reset e.isles id
  { count := e.count (id / 8192) x, bell := e.bell, stretch := x
    stopped := id / 8192 ≤ 2 && e.halted.isSome, stopAt := none }

/-- The counts of a tile's island. In a lesson the tile's own cycles are its count; outside, its count goes on with
the reference (R82). -/
def State.tileIsle (s : State) (t : Nat) : Island :=
  let x := s.tile t
  { x.isle with
    count := if s.bell.phase == .lesson && !x.ended then x.isle.count
             else max x.isle.count (s.ts.now.count 0 x.isle.stretch)
    stopped := x.isle.stopped || (s.ts.now.halted.isSome && x.isle.stopAt.isNone) }

/-- Part tile number of a tile's island id. -/
def islandTile (id : Nat) : Nat := 256 * (id / 2048 % 4) + id % 2048

/-- The counts of an island. -/
def State.isle (s : State) (id : Nat) : Island :=
  if id < 8192 then s.tileIsle (islandTile id) else s.ts.now.isle id

/-- The cycles of this part's reference since the release: the count from which the I/O dies take their step counts,
which no droop stretches (R268). -/
def State.ioCount (s : State) (_die : Nat) : Nat := s.ts.now.ticks

/-- Stop the clocks of every stepped island at once (R80). -/
def State.stopClocks (s : State) : State :=
  { s with
    tiles := tabMap (fun _ x => { x with isle := { x.isle with stopped := true } }) s.tiles
    ts := { s.ts with now := s.ts.now.halt } }

/-- A debug stop spreads: the firing tile stops at the end of its cycle, every other island 1 to 32 of its
cycles later, by a free value (R450, log 5). -/
def State.spreadStop (s : State) (fire : Option Nat) : State :=
  { s with
    tiles := tabMap (fun k x =>
      let d := if fire == some k then 0 else 1 + (Config.freeBits 5 (s.free + k)).toNat
      let c := (s.tileIsle k).count
      { x with isle := { x.isle with count := c, stopAt := some (c + d) } }) s.tiles
    ts := { s.ts with now := s.ts.now.halt }
    free := s.free + 1024 }

/-- The report of a stop (Table 18-7). -/
def State.noteStop (s : State) (hazard : Bool) (tile code kind cycle : Nat) (tag : BitVec 64)
    (detail : Nat) (addr : Nat) : State :=
  { s with dg := { s.dg with
      stopped := true
      hazard := hazard
      stopTile := BitVec.ofNat 10 tile
      stopCode := BitVec.ofNat 6 code
      stopKind := BitVec.ofNat 2 kind
      stopCycle := satCycle cycle
      stopBell := s.bell.number
      stopAttempt := s.bell.attempt
      stopTag := tag
      stopDetail := BitVec.ofNat 32 detail
      stopAddr := BitVec.ofNat 40 addr } }

/-- Record a stop and mark the lesson CLOCKSTOP (R450, R451). -/
def State.debugStop (s : State) (hazard : Bool) (tile code kind cycle : Nat) (tag : BitVec 64)
    (detail : Nat) (addr : Nat) (fire : Option Nat) : State :=
  let s := s.noteStop hazard tile code kind cycle tag detail addr
  let s := { s with bell := { s.bell with withheld := true } }
  (s.cause cClockStop cycle 0 0 3).spreadStop fire

/-- The part has stopped in this cycle of this lesson: what else fires in it joins the stop (R448, R449). -/
def State.stoppedNow (s : State) (cycle : Nat) : Bool :=
  s.dg.stopped && s.dg.stopBell == s.bell.number && s.dg.stopAttempt == s.bell.attempt &&
    s.dg.stopCycle == satCycle cycle

/-- A second event of the stop's cycle takes the report: its tile stops at the end of this cycle (R450). -/
def State.takeStop (s : State) (hazard : Bool) (tile code kind cycle : Nat) (tag : BitVec 64)
    (detail : Nat) (addr : Nat) : State :=
  (s.noteStop hazard tile code kind cycle tag detail addr).modTile tile fun x =>
    { x with isle := { x.isle with stopAt := some x.isle.count } }

/-- The hall monitor reports a hazard: in debug mode, during a lesson, the first one stops the part; of several in one
cycle the report names the lowest tile, then the lowest code, and a breakpoint of that cycle yields to it. -/
def State.hazard (s : State) (tile code cycle detail addr : Nat) : State :=
  if s.dg.debugMode && s.bell.phase == .lesson then
    if !s.dg.stopped then s.debugStop true tile code 0 cycle (s.bundleTag tile) detail addr (some tile)
    else if s.stoppedNow cycle &&
        (!s.dg.hazard || tile < s.dg.stopTile.toNat || (tile = s.dg.stopTile.toNat && code < s.dg.stopCode.toNat)) then
      s.takeStop true tile code 0 cycle (s.bundleTag tile) detail addr
    else s
  else s

/-- An event signal with an index drives the probe pins that select it (R453). -/
def State.probe (s : State) (signal index : Nat) : State :=
  if s.dg.debugMode then
    (pick 16 fun p => (tabGet 0 s.dg.probes p).toNat == 4096 * signal + index).foldl (fun s p => s.emit (.probe p)) s
  else s

/-! ## Memory (R186 to R189, R203, R204) -/

/-- One byte of working SRAM. -/
def Mem.byte (m : Mem) (k : Nat) : Byte := tabGet 0 m.bytes k

/-- n bytes as one vector, lowest first. -/
def Mem.vec (m : Mem) (k n : Nat) : BitVec w := packFields 8 n fun i => m.byte (k + i)

/-- n bytes as a list. -/
def Mem.list (m : Mem) (k : Nat) : Nat → List Byte
  | 0 => []
  | n + 1 => m.byte k :: m.list (k + 1) n

/-- Write one byte. -/
def Mem.setByte (m : Mem) (k : Nat) (b : Byte) : Mem := { m with bytes := tabSet 0 m.bytes k b }

/-- Write the bytes of a granule that a mask names, from byte i on; j counts down the bytes left. -/
def Mem.setBytes (m : Mem) (k : Nat) (x : Vec) (mask : BitVec 256) (i : Nat) : Nat → Mem
  | 0 => m
  | j + 1 =>
    let m := if bit mask i then m.setByte (k + i) (byteOf x i) else m
    m.setBytes k x mask (i + 1) j

/-- 64-bit words from local key k over n bytes. -/
def wordsOf (k n : Nat) : List Nat := (List.range ((k + n + 7) / 8 - k / 8)).map (k / 8 + ·)

/-- Some word of the run reads as uncorrectable. -/
def Mem.hasUe (m : Mem) (k n : Nat) : Bool := (wordsOf k n).any fun w => m.ue.contains w

/-- Words of the run that read as correctable. -/
def Mem.ceWords (m : Mem) (k n : Nat) : Nat := ((wordsOf k n).filter fun w => m.ce.contains w).length

/-- A granule write with its error events: correctable and uncorrectable words met (R204). -/
structure GranuleWrite where
  mem : Mem
  ce : Nat
  ue : Nat
  deriving DecidableEq, Repr

/-- Write one 64-bit word of a granule at local key g. -/
def writeWord (g : Nat) (x : Vec) (mask : BitVec 256) (a : GranuleWrite) (k : Nat) : GranuleWrite :=
  let m8 := mask.extractLsb' (8 * k) 8
  let w := g / 8 + k
  if m8 = 0 then a
  else if m8 = 0xFF then
    { a with mem := { a.mem.setBytes g x mask (8 * k) 8 with
        ue := a.mem.ue.erase w, ce := a.mem.ce.erase w } }
  else if a.mem.ue.contains w then { a with ue := a.ue + 1 }
  else
    { a with
      mem := { a.mem.setBytes g x mask (8 * k) 8 with ce := a.mem.ce.erase w }
      ce := a.ce + (if a.mem.ce.contains w then 1 else 0) }

/-- Write the named bytes of the granule at local key g. -/
def Mem.writeGranule (m : Mem) (g : Nat) (x : Vec) (mask : BitVec 256) : GranuleWrite :=
  (List.range 32).foldl (writeWord g x mask) { mem := m, ce := 0, ue := 0 }

/-- All bytes of a granule. -/
def fullBytes : BitVec 256 := BitVec.allOnes 256

/-- The restore map names the 64 KiB block of a local key (R206). -/
def State.weightMapped (s : State) (k : Nat) : Bool := s.nv.restoreMap.any fun e => e.block == k / 65536

/-- Hold an uncorrectable error in the crossbar registers (R203, R210). -/
def State.ueHold (s : State) (k n kind : Nat) : State :=
  s.modDie (dieOf k) fun r =>
    { r with
      ueCount := r.ueCount + BitVec.ofNat 32 n
      ueAddr := BitVec.ofNat 35 (offsetOf k / 256 * 256)
      ueKind := BitVec.ofNat 2 kind
      ueMapped := s.weightMapped k }

/-- Count corrections. -/
def State.ceHold (s : State) (k n : Nat) : State :=
  if n = 0 then s
  else
    ((s.modDie (dieOf k) fun r => { r with ceCount := r.ceCount + BitVec.ofNat 32 n }).countEvent
      1 (dieOf k) 0x0107 n)

/-- The place takes writes and answers reads: a layer whose half-layer is ON, or the store of a tile that
is not fenced (R114, R189, R207). -/
def State.memOpen (s : State) (k : Nat) : Bool :=
  let off := offsetOf k
  if inLayers off then s.gateOf (dieOf k) (halfOf off) == 0
  else inStores off && !s.fenced (storeTile k)

/-- A write accepted earlier still completes in a half-layer that is closing (Table 8-6). -/
def State.memApplies (s : State) (k : Nat) : Bool :=
  let off := offsetOf k
  if inLayers off then s.gateOf (dieOf k) (halfOf off) == 0 || s.gateOf (dieOf k) (halfOf off) == 1
  else inStores off && !s.fenced (storeTile k)

/-- Apply an accepted granule write to memory, with its counts. -/
def State.applyGranule (s : State) (g : Nat) (x : Vec) (mask : BitVec 256) : State :=
  if s.memApplies g then
    let r := s.mem.writeGranule g x mask
    let s := { s with mem := r.mem }
    let s := s.ceHold g r.ce
    if r.ue = 0 then s else s.ueHold g r.ue 2
  else s

/-- A write that is accepted now: ignored where the place is not open. -/
def State.putGranule (s : State) (g : Nat) (x : Vec) (mask : BitVec 256) : State :=
  if s.memOpen g then s.applyGranule g x mask else s

/-- Write whole granules from a byte list in ascending address order (R209). -/
def State.putBytes (s : State) (g : Nat) : Nat → List Byte → State
  | 0, _ => s
  | n + 1, l =>
    (s.putGranule g (BitVec.ofNat 2048 (natOfBytes (l.take 256))) fullBytes).putBytes (g + 256) n (l.drop 256)

/-- Take note of an uncorrectable word of a tile store or an instruction buffer: the second meeting of one
word since power-up fences the tile at the bell (R112, R113). -/
def State.noteStoreUe (s : State) (t w : Nat) : State :=
  s.modTile t fun x =>
    if x.storeUeSeen.contains w then { x with fenceDue := if x.fenceDue = 0 then 3 else x.fenceDue }
    else { x with storeUeSeen := x.storeUeSeen ++ [w] }

/-- What a read delivers. -/
structure ReadResult (w : Nat) where
  data : BitVec w
  state : State
  deriving DecidableEq, Repr

/-- A lesson's read of n bytes at a local key: the bytes, or zeros with the events of R203; corrections are counted
either way. -/
def State.readMem (s : State) (k n cycle : Nat) : ReadResult w :=
  if s.memOpen k then
    let c := s.mem.ceWords k n
    let s := s.ceHold k c
    let s := if inStores (offsetOf k) && c != 0 then s.countTile (storeTile k) 0x000E c else s
    if s.mem.hasUe k n then
      let s := (s.ueHold k 1 0).memCause cUncorrectable k cycle
      let b := s.bell.ueBlocks
      let b := if b.contains (k / 65536) then b else b ++ [k / 65536]
      let s := { s with bell := { s.bell with ueBlocks := b } }
      let s := if inStores (offsetOf k) then
          List.foldl (fun s w => s.noteStoreUe (storeTile k) w) s
            ((wordsOf k n).filter fun w => s.mem.ue.contains w)
        else s
      ⟨0, s⟩
    else ⟨s.mem.vec k n, s⟩
  else ⟨0, s⟩

/-! ## Circular regions (chapter 09) -/

/-- An entry of the region table. -/
def State.region (s : State) (n : Nat) : Region := tabGet .reset s.cq.table n

/-- Put an entry of the region table. -/
def State.setRegion (s : State) (n : Nat) (r : Region) : State :=
  { s with cq := { s.cq with table := tabSet .reset s.cq.table n r } }

/-- Pieces of a region. -/
def Region.capacity (r : Region) : Nat := 2 ^ (r.slotsLog.toNat + r.slotLog.toNat)

/-- Pieces of a slot. -/
def Region.slotPieces (r : Region) : Nat := 2 ^ r.slotLog.toNat

/-- A local key lies in the region's memory. -/
def Region.covers (r : Region) (k : Nat) : Bool :=
  r.kind == .localRegion && localKey r.base ≤ k && k < localKey r.base + 256 * r.capacity

/-- The message region that a local key lies in (R218). -/
def State.messageRegion (s : State) (k : Nat) : Option Nat :=
  (s.cq.table.find? fun e => e.1 < 256 && e.2.covers k).map (·.1)

/-- A shadow pointer as a cycle finds it: a move made in that cycle shows from the next one on. -/
def pointerAt (now : Word) (was : Option (Nat × Word)) (cycle : Nat) : Word :=
  match was with
  | some (c, w) => if c = cycle then w else now
  | none => now

/-- The shadow head in a cycle (R218). -/
def Region.headAt (r : Region) (cycle : Nat) : Word := pointerAt r.headSh r.headWas cycle

/-- The shadow tail in a cycle (R219). -/
def Region.tailAt (r : Region) (cycle : Nat) : Word := pointerAt r.tailSh r.tailWas cycle

/-- Where the slot at a byte offset stands against the shadow pointers of a cycle: slots beyond the shadow head,
and whether it is filled (R215, R218). -/
def Region.slotAt (r : Region) (off cycle : Nat) : Nat × Bool :=
  let g := r.slotPieces
  let n := 2 ^ r.slotsLog.toNat
  let d := (off / 256 / g + n - (r.headAt cycle).toNat / g % n) % n
  (d, (d + 1) * g ≤ (r.tailAt cycle - r.headAt cycle).toNat)

/-- The consumer has read the slot at the head in a cycle: the head stands behind it from the next cycle on, however
many reads of that cycle end the slot (log 130). -/
def Region.consume (r : Region) (cycle : Nat) : Region :=
  let h := r.headAt cycle
  { r with headSh := h + BitVec.ofNat 32 r.slotPieces, headWas := some (cycle, h) }

/-- Check a region read at a byte offset of the region over n bytes: filled or not, and the head's advance
where a consumer reads the last byte of the slot at the head (R218). -/
def State.regionRead (s : State) (num off n : Nat) (reader : Nat) (move : Bool) (key cycle : Nat) :
    Bool × State :=
  let r := s.region num
  let (d, filled) := r.slotAt off cycle
  if filled then
    let last := (off + n) % (256 * r.slotPieces) == 0
    let mine := !r.consumerFirmware && r.consumerTile.toNat == reader
    if move && mine && d == 0 && last then
      (true, s.setRegion num (r.consume cycle))
    else (true, s)
  else
    let s := { s with cq := { s.cq with underruns := s.cq.underruns + 1 } }
    let s := s.memCause cUnderrun key cycle
    (false, s.hazard reader 5 cycle num 0)

/-- A tile's read of n bytes at a local key, checked as a region read where it is one. -/
def State.tileRead (s : State) (reader k n : Nat) (move : Bool) (cycle : Nat) : ReadResult w :=
  match s.messageRegion k with
  | none => s.readMem k n cycle
  | some num =>
    let (ok, s') := s.regionRead num (k - localKey (s.region num).base) n reader move k cycle
    if ok then s'.readMem k n cycle else ⟨0, s'⟩

/-! ## Slices -/

/-- A memory slice of a die. -/
def State.slice (s : State) (d n : Nat) : Slice := tabGet .reset s.mem.slices (256 * d + n)

/-- Put a slice back. -/
def State.setSlice (s : State) (d n : Nat) (x : Slice) : State :=
  { s with mem := { s.mem with slices := tabSet .reset s.mem.slices (256 * d + n) x } }

/-- Queue a read at the slice of its address. -/
def State.queueRead (s : State) (r : ReadReq) : State :=
  let d := dieOf r.addr
  let n := sliceOf (offsetOf r.addr)
  let x := s.slice d n
  s.setSlice d n { x with reads := x.reads ++ [r] }

/-- Queue a write at the slice of its address. -/
def State.queueWrite (s : State) (r : WriteReq) : State :=
  let d := dieOf r.addr
  let n := sliceOf (offsetOf r.addr)
  let x := s.slice d n
  s.setSlice d n { x with writes := x.writes ++ [r] }

/-- Crossbar port of a tile's access to a die: its own port, or the bridge from its die (R191). -/
def portOf (t die : Nat) : Nat :=
  let d := t / 256
  if d = die then t % 256 else if d < die then 256 + d else 256 + (d - 1)

/-! ## Digests (R433) -/

/-- One step of CRC-64/ECMA-182 over a bit. -/
def crc64Bit (c : BitVec 64) : BitVec 64 :=
  if bit c 63 then (c <<< 1) ^^^ 0x42F0E1EBA9EA3693 else c <<< 1

/-- CRC-64/ECMA-182 of a byte string. -/
def crc64 (l : List Byte) : BitVec 64 :=
  l.foldl (fun (c : BitVec 64) (b : Byte) =>
    let c := c ^^^ (b.setWidth 64 <<< (56 : Nat))
    crc64Bit (crc64Bit (crc64Bit (crc64Bit (crc64Bit (crc64Bit (crc64Bit (crc64Bit c)))))))) 0

/-- The digest term of a store (R433): die and offset of the granule, and the granule as presented. -/
def digestTerm (key : Nat) (granule : Vec) : BitVec 64 :=
  crc64 (natToBytes 5 (key % 2 ^ 37) ++ toBytes 256 granule)

/-- Add a digest term to a tensor of the attempt. -/
def State.addTerm (s : State) (tensor : BitVec 16) (x : BitVec 64) : State :=
  let old := match tabGet none s.dg.terms tensor.toNat with
    | none => 0
    | some y => y
  { s with dg := { s.dg with terms := tabSet none s.dg.terms tensor.toNat (some (old + x)) } }

/-- Draw a free value's number. -/
def State.draw (s : State) : Nat × State := (s.free, { s with free := s.free + 1 })

/-- P1 is left when work arrives (Table 20-2). -/
def State.wake (s : State) : State :=
  if s.pw.state == .p1 then
    { s with pw := { s.pw with state := .p0 }, ts := { s.ts with now := s.ts.now.ungate } }
  else s

/-- Count a discard of TC_DISCARDS (R116). -/
def State.tcDiscard (s : State) : State := { s with ts := { s.ts with discards := s.ts.discards + 1 } }

/-! ## Routers -/

/-- Count a drop of RT_OTHER_DROPS of an I/O die. -/
def State.otherDrop (s : State) (die : Nat) : State :=
  let rs := tabMod .reset s.rt.routers die fun r => { r with otherDrops := r.otherDrops + 1 }
  { s with rt := { s.rt with routers := rs } }

end Sys2Proof.Machine
end

