-- ==== Sys2Proof/Machine/Answer.lean ====
section
/-! DEFINITION. Answers of firmware to started commands, and the conditions of the job that many rules name. -/

namespace Sys2Proof.Machine

/-- The mailbox of a transport. -/
def State.mbox (s : State) (tr : Nat) : Mailbox := tabGet .reset s.mb tr

/-- Put a mailbox back. -/
def State.setMbox (s : State) (tr : Nat) (x : Mailbox) : State := { s with mb := tabSet .reset s.mb tr x }

/-- Answer a started command (R404, R407): its response joins those to be written; an answer to a mailbox
that has been reset since is discarded. -/
def State.answer (s : State) (w : Waiting) (status : BitVec 16) (body : List Byte) : State :=
  let tr := w.transport.toNat
  let x := s.mbox tr
  if x.life = w.life then
    s.setMbox tr { x with
      running := x.running - 1
      responses := x.responses ++ [
        { opcode := w.opcode, sequence := w.sequence, cookie := w.cookie, status := status
          major := if x.session then x.major else 1, minor := if x.session then x.minor else 0, body := body }] }
  else s

/-- Answer several. -/
def State.answerAll (s : State) (l : List Waiting) (status : BitVec 16) (body : List Byte) : State :=
  l.foldl (fun s w => s.answer w status body) s

/-- Status OK. -/
def stOk : BitVec 16 := 0

/-- The job is in session (R410). -/
def State.inSession (s : State) : Bool := s.job.state == .inSession

/-- This part is the root of its job. -/
def State.isRoot (s : State) : Bool := s.job.state != .none && s.job.root == s.rc.address

/-- This part is a member of the job. -/
def State.isMember (s : State) : Bool :=
  s.job.state != .none && inBox s.job.low s.job.high s.rc.address && bit s.job.members s.member

/-- Fabric addresses of a job's members in ascending member index. -/
def Job.memberList (j : Job) : List FabricAddr :=
  (pick 4096 fun i => bit j.members i).map (memberAddress j.low j.high)

/-- This part is the registrar part of a serving job in session (R342). -/
def State.isRegistrar (s : State) : Bool :=
  s.isRoot && (match s.job.image with
    | some im => im.serving
    | none => false)

/-- A function is attached to the job (R410). -/
def State.attached (s : State) (fn : Nat) : Bool := s.job.state != .none && (fn == 0 || bit s.job.attach fn)

/-- The input has failed: only the progress record is still started (R334). -/
def State.cutting (s : State) : Bool := s.pw.firmware && !s.pins.inputGood

/-- A shutdown to P3 is in progress (R493). -/
def State.shuttingDown (s : State) : Bool := s.pw.firmware && s.pw.state == .p3

/-- The records that one commit writes (R463, R467, R474, Tables 12-10, 19-5): the one named first, and what its effect
changes beside it. -/
def Effect.types (type : Byte) : Effect → List Byte
  | .keyRing _ _ => [4, 9, 5]
  | .debug _ => [4, 9, 5]
  | .padlock _ _ _ _ erase clearRing =>
    [3, 9] ++ (if erase || clearRing then [4, 5] else []) ++ (if erase then [1, 2, 6, 7, 0x0C] else [])
  | .plan _ => [1, 2]
  | .slots _ _ counter => if counter = 0 then [8] else [8, 9]
  | .confirm => [8, 9]
  | .rewrite l => l
  | .fences _ | .restoreMap _ | .generations _ | .decisions _ | .progress _ | .fabric _ | .wear => [type]

/-- Records that a commit writes. -/
def Commit.types (c : Commit) : List Byte := c.effect.types c.type

/-- Start a record commit, or have it wait for the hold-up store (R334); it completes with RECORD_COMMIT_DONE. -/
def State.startCommit (s : State) (type : Byte) (e : Effect) (a : After) : State :=
  if s.nv.storeFault || (s.cutting && type != 0x0C) then s
  else { s with nv := { s.nv with
    commits := s.nv.commits ++
      [{ type := type, sequence := s.nv.nextSequence, started := s.nv.charged, effect := e, after := a }]
    nextSequence := s.nv.nextSequence + BitVec.ofNat 64 (e.types type).length } }

/-- The FABRIC record as the part stands (Table 13-11). -/
def State.fabricNow (s : State) : FabricRecord :=
  { address := s.rc.address, hops := (s.rc.links.map fun e => (e.1, e.2.recorded)).filter fun e => e.2 != 0
    slice := s.rt.slice, role := s.rt.role, routers := s.rt.routers, job := s.job.id, root := s.job.root }

/-- Commit the FABRIC record. -/
def State.commitFabric (s : State) (a : After) : State := s.startCommit 2 (.fabric s.fabricNow) a

/-- The functions' registers. -/
def State.fn (s : State) (f : Nat) : Func := tabGet .reset s.hi.fns f

/-- Put a function's registers back. -/
def State.setFn (s : State) (f : Nat) (x : Func) : State :=
  { s with hi := { s.hi with fns := tabSet .reset s.hi.fns f x } }

/-- Change a function's registers. -/
def State.modFn (s : State) (f : Nat) (g : Func → Func) : State := s.setFn f (g (s.fn f))

/-- Signal an MSI-X vector (Table 15-15). -/
def State.msix (s : State) (f v : Nat) : State := s.emit (.msix (BitVec.ofNat 6 f) v)

/-- The ingress window of a function accepts writes (R464). -/
def State.fnEnabled (s : State) (f : Nat) : Bool :=
  bit (if s.sec.padlock == .locked then s.sec.lockMask else s.hi.fnEnable) f

/-- From JOB_CREATE until JOB_START the time-stamp reads bell 0 with offset 0 (R82); JOB_START is complete with the
release of bell 0 (log 137). -/
def State.beforeStart (s : State) : Bool :=
  match s.job.state with
  | .created | .assigned | .loaded | .relocated => true
  | .inSession => s.bell.phase == .idle
  | _ => false

/-- The counts as a stamp tells them: bell 0 and offset 0 before the start. -/
def State.stamped (s : State) (i : Island) : Island := if s.beforeStart then { i with count := 0, bell := 0 } else i

/-- The time-stamp of an island. -/
def State.stampOf (s : State) (i : Island) : BitVec 64 :=
  let i := s.stamped i
  (i.bell.setWidth 64 <<< (24 : Nat)) ||| (satCycle i.count).setWidth 64

/-- Time-stamp of the Brynulo controller (R81; island kind 4). -/
def State.stamp (s : State) : BitVec 64 := s.stampOf (s.isle 0x8000)

/-- Time-stamp of I/O die 0 (R443; island kind 3). -/
def State.stampIo (s : State) : BitVec 64 := s.stampOf (s.isle 0x6000)

end Sys2Proof.Machine
end

