-- ==== Sys2Proof/Machine/Measure.lean ====
section
/-! DEFINITION. What an attestation report states of the part (R459, R460). -/

namespace Sys2Proof.Machine

/-- Insert by a key, behind equal ones. -/
def insertBy (key : α → Nat) (x : α) : List α → List α
  | [] => [x]
  | y :: t => if key x < key y then x :: y :: t else y :: insertBy key x t

/-- A list in ascending order of a key. -/
def sortBy (key : α → Nat) (l : List α) : List α := l.foldl (fun a x => insertBy key x a) []

/-- The firmware slot that runs. -/
def State.runningSlot (s : State) : FirmwareSlot := if s.sec.running = 0 then s.sec.slotA else s.sec.slotB

/-- Code of a padlock state (Table 19-4). -/
def padlockByte : Padlock → Byte
  | .opened => 0
  | .owned => 1
  | .locked => 2

/-- The restore map names a generation of a weight image. -/
def State.mapHas (s : State) (g : GenEntry) : Bool :=
  s.nv.restoreMap.any fun e => !e.adapter && e.object == g.object && e.generation == g.generation

/-- Weight-image generations that are committed or named by the restore map, of those the part holds. -/
def State.attestedGens (s : State) : List GenEntry :=
  sortBy (fun g => g.object.toNat * 65536 + g.generation.toNat) (s.nv.generations.filter fun g =>
    !g.adapter && g.state != .highWater && (g.state == .committed || s.mapHas g))

/-- A weight entry. -/
def State.weightEntry (s : State) (g : GenEntry) : List Byte :=
  toBytes 4 g.object ++ toBytes 2 g.generation ++
  [(if g.state == .committed then 1 else 0) + (if s.mapHas g then 2 else 0), 0] ++ toBytes 64 g.digest

/-- Manifest digest of an adapter's generation. -/
def State.adapterDigest (s : State) (a : Word) (g : BitVec 16) : BitVec 512 :=
  match s.nv.generations.find? fun e => e.adapter && e.object == a && e.generation == g && e.state != .highWater with
  | some e => e.digest
  | none => 0

/-- Adapter entries of the slots in use, ascending by adapter id. -/
def State.adapterEntries (s : State) : List (BitVec 12 × List Byte) :=
  let used := s.sv.slots.filter fun e => e.2.adapter != 0 && (e.2.references != 0 || e.2.pins != 0)
  (sortBy (fun e => e.2.adapter.toNat) used).map fun e =>
    (e.2.tenant, toBytes 4 e.2.adapter ++ toBytes 2 e.2.generation ++ natToBytes 2 e.1 ++
      toBytes 64 (s.adapterDigest e.2.adapter e.2.generation))

/-- The bytes that the configuration measurement covers. -/
def State.configurationBytes (s : State) : List Byte :=
  (if s.sec.padlock == .opened then List.replicate 2592 0 else s.sec.owner) ++ [padlockByte s.sec.padlock] ++
  toBytes 8 s.sec.lockMask ++
  (match s.rc.plan with
    | some p => p.bytes
    | none => []) ++
  natToBytes 2 s.sec.keyRing.length

/-- The part's state now, with a bell number. -/
def State.snapshotNow (s : State) (bell : BitVec 40) : Snapshot :=
  let run := s.runningSlot
  { padlock := padlockByte s.sec.padlock
    flags := (if s.dg.debugMode then 1 else 0) + (if s.dg.debugMark then 2 else 0) + (if s.sec.trial then 4 else 0) +
      (if s.nv.storeFault then 8 else 0)
    version := run.version, security := run.security, bell := bell, weights := s.attestedGens.map s.weightEntry
    adapters := s.adapterEntries, firmware := run.digest, configuration := Config.sha3 s.configurationBytes }

/-- The end of recess step 3. -/
def State.takeSnapshot (s : State) : State :=
  { s with sec := { s.sec with snapshot := some (s.snapshotNow s.bell.number) } }

end Sys2Proof.Machine
end

