-- ==== Sys2Proof/Machine/Flags.lean ====
section
/-! DEFINITION. The sticky flags of a tile (R184) and how results gather them. -/

namespace Sys2Proof.Machine

/-- Sticky flags (Table 7-11). -/
abbrev Flags := BitVec 4

/-- Invalid. -/
def flagInvalid : Flags := 1

/-- Divide-by-zero. -/
def flagDivZero : Flags := 2

/-- Overflow. -/
def flagOverflow : Flags := 4

/-- Underflow. -/
def flagUnderflow : Flags := 8

/-- Gather the flags of the live lanes among the first k (R157, R184). -/
def gatherFlags (live : Nat → Bool) (f : Nat → Flags) : Nat → Flags
  | 0 => 0
  | k + 1 => gatherFlags live f k ||| (if live k then f k else 0)

end Sys2Proof.Machine
end

