-- ==== Sys2Proof/Machine/Float.lean ====
section
/-! DEFINITION. Number formats and the arithmetic profile AP1 (chapter 06), and the FP32 operations of the
vector path (R161 to R164). -/

namespace Sys2Proof.Machine

/-- What a float element stands for: (−1)^neg × mag × 2^exp when finite. -/
inductive Num where
  | nan
  | inf (neg : Bool)
  | fin (neg : Bool) (mag : Nat) (exp : Int)
  deriving DecidableEq, Repr

/-- A float format (Table 6-1): field widths, bias, and which special values it has. -/
structure FloatFmt where
  e : Nat
  m : Nat
  bias : Nat
  /-- Infinities and NaNs at e all ones. -/
  ieee : Bool
  /-- One NaN code, all ones (E4M3). -/
  oneNan : Bool
  deriving DecidableEq, Repr

/-- FP32. -/
def fp32 : FloatFmt := { e := 8, m := 23, bias := 127, ieee := true, oneNan := false }

/-- The float formats of Table 6-1 by code. -/
def floatFmt (code : BitVec 4) : Option FloatFmt :=
  match code.toNat with
  | 0 => some { e := 8, m := 7, bias := 127, ieee := true, oneNan := false }
  | 1 => some { e := 5, m := 10, bias := 15, ieee := true, oneNan := false }
  | 2 => some fp32
  | 3 => some { e := 4, m := 3, bias := 7, ieee := false, oneNan := true }
  | 4 => some { e := 5, m := 2, bias := 15, ieee := true, oneNan := false }
  | 5 => some { e := 2, m := 3, bias := 1, ieee := false, oneNan := false }
  | 6 => some { e := 3, m := 2, bias := 3, ieee := false, oneNan := false }
  | 7 => some { e := 2, m := 1, bias := 1, ieee := false, oneNan := false }
  | _ => none

/-- Width and signedness of the integer formats of Table 6-1. -/
def intFmt (code : BitVec 4) : Option (Nat × Bool) :=
  match code.toNat with
  | 8 => some (8, true)
  | 9 => some (4, true)
  | 10 => some (8, false)
  | 11 => some (16, true)
  | _ => none

/-- Packing of a format (Table 5-1); 0 for a reserved code. -/
def packing (code : BitVec 4) : Nat :=
  match code.toNat with
  | 0 | 1 | 2 | 8 | 10 | 11 => 1
  | 3 | 4 | 5 | 6 | 9 => 2
  | 7 => 4
  | _ => 0

/-- Pieces of a format (Table 5-1). -/
def pieces (code : BitVec 4) : Nat :=
  match code.toNat with
  | 1 | 11 => 2
  | 2 => 3
  | _ => 1

/-- Formats that may carry MX scales (Table 5-1). -/
def mxScalable (code : BitVec 4) : Bool := 3 ≤ code.toNat && code.toNat ≤ 8

/-- Formats that accumulate in INT32. -/
def isIntFmt (code : BitVec 4) : Bool := 8 ≤ code.toNat && code.toNat ≤ 11

/-- The number an element stands for. -/
def decodeNum (F : FloatFmt) (x : Nat) : Num :=
  let m := x % 2 ^ F.m
  let e := x / 2 ^ F.m % 2 ^ F.e
  let neg := x / 2 ^ (F.m + F.e) % 2 == 1
  if F.ieee && e == 2 ^ F.e - 1 then (if m = 0 then .inf neg else .nan)
  else if F.oneNan && e == 2 ^ F.e - 1 && m == 2 ^ F.m - 1 then .nan
  else if e = 0 then .fin neg m (1 - (F.bias : Int) - F.m)
  else .fin neg (2 ^ F.m + m) ((e : Int) - F.bias - F.m)

/-- The code of the infinity (R137); only for formats that have one. -/
def infCode (F : FloatFmt) : Nat := (2 ^ F.e - 1) * 2 ^ F.m

/-- The canonical NaN (Table 6-2); 0 for a format that has none. -/
def nanCode (F : FloatFmt) : Nat :=
  if F.ieee then infCode F + 2 ^ (F.m - 1)
  else if F.oneNan then 2 ^ (F.e + F.m) - 1
  else 0

/-- The largest finite code (Table 6-2). -/
def maxCode (F : FloatFmt) : Nat :=
  if F.ieee then infCode F - 1
  else if F.oneNan then 2 ^ (F.e + F.m) - 2
  else 2 ^ (F.e + F.m) - 1

/-- A code with its sign. -/
def signed (F : FloatFmt) (neg : Bool) (code : Nat) : Nat :=
  code + (if neg then 2 ^ (F.e + F.m) else 0)

/-- Exponent of the lowest bit of a subnormal. -/
def lowExp (F : FloatFmt) : Int := 1 - (F.bias : Int) - F.m

/-- mag × 2^exp as a multiple of 2^q, for q not above the value's lowest bit. -/
def scaleTo (mag : Nat) (exp q : Int) : Nat :=
  if q ≤ exp then mag * 2 ^ (exp - q).toNat else mag / 2 ^ (q - exp).toNat

/-- The code of a representable finite value. -/
def encodeFin (F : FloatFmt) (neg : Bool) (mag : Nat) (exp : Int) : Nat :=
  if mag = 0 then signed F neg 0
  else
    let top := exp + (mag.log2 : Int)
    if top < 1 - (F.bias : Int) then signed F neg (scaleTo mag exp (lowExp F))
    else
      let sig := scaleTo mag exp (top - F.m)
      signed F neg ((top + F.bias).toNat * 2 ^ F.m + (sig - 2 ^ F.m))

/-- mag × 2^exp ≥ 2^k. -/
def magGe (mag : Nat) (exp k : Int) : Bool := mag != 0 && decide (k ≤ exp + (mag.log2 : Int))

/-- Rounding modes (Table 7-1); a stochastic rounding carries its word (R163). -/
inductive Rnd where
  | rne
  | rtz
  | sr (c : Word)
  deriving DecidableEq, Repr

/-- Drop d low bits of a magnitude in a rounding mode. -/
def roundDrop (r : Rnd) (mag d : Nat) : Nat :=
  let t := mag / 2 ^ d
  let rem := mag % 2 ^ d
  match r with
  | .rtz => t
  | .rne => if 2 * rem > 2 ^ d || (2 * rem == 2 ^ d && t % 2 == 1) then t + 1 else t
  | .sr c => if rem * 2 ^ 32 / 2 ^ d + c.toNat ≥ 2 ^ 32 then t + 1 else t

/-- A rounded magnitude with its exponent, and whether the rounding was inexact. -/
structure Rounded where
  mag : Nat
  exp : Int
  inexact : Bool
  deriving DecidableEq, Repr

/-- Round to p significant bits, with no bit below 2^low where a lowest exponent is given. -/
def roundSig (r : Rnd) (p : Nat) (low : Option Int) (mag : Nat) (exp : Int) : Rounded :=
  let q := exp + (mag.log2 : Int) + 1 - p
  let q := match low with
    | none => q
    | some l => max q l
  if q ≤ exp then { mag := mag, exp := exp, inexact := false }
  else
    let d := (q - exp).toNat
    { mag := roundDrop r mag d, exp := q, inexact := mag % 2 ^ d != 0 }

/-- The canonical FP32 NaN. -/
def canonNan : Word := 0x7FC00000

/-- FP32 bits of a representable finite value. -/
def enc32 (neg : Bool) (mag : Nat) (exp : Int) : Word := BitVec.ofNat 32 (encodeFin fp32 neg mag exp)

/-- FP32 infinity of a sign. -/
def inf32 (neg : Bool) : Word := if neg then 0xFF800000 else 0x7F800000

/-- Largest finite FP32 of a sign. -/
def max32 (neg : Bool) : Word := if neg then 0xFF7FFFFF else 0x7F7FFFFF

/-- The number an FP32 word stands for. -/
def num32 (x : Word) : Num := decodeNum fp32 x.toNat

/-- NaN test of an FP32 word. -/
def isNan32 (x : Word) : Bool := num32 x == .nan

/-- An exact value and whether the operation that formed it was invalid. -/
structure Exact where
  num : Num
  invalid : Bool
  deriving DecidableEq, Repr

/-- The exact sum (R146, R147, R161). -/
def addExact (a b : Num) : Exact :=
  match a, b with
  | .nan, _ => ⟨.nan, false⟩
  | _, .nan => ⟨.nan, false⟩
  | .inf s, .inf t => if s = t then ⟨.inf s, false⟩ else ⟨.nan, true⟩
  | .inf s, _ => ⟨.inf s, false⟩
  | _, .inf t => ⟨.inf t, false⟩
  | .fin s x e, .fin t y f =>
    let q := min e f
    let sx : Int := if s then -(scaleTo x e q : Int) else scaleTo x e q
    let sy : Int := if t then -(scaleTo y f q : Int) else scaleTo y f q
    let z := sx + sy
    if z = 0 then ⟨.fin (x = 0 && y = 0 && s && t) 0 0, false⟩
    else ⟨.fin (z < 0) z.natAbs q, false⟩

/-- The exact product (R145, R147, R161). -/
def mulExact (a b : Num) : Exact :=
  match a, b with
  | .nan, _ => ⟨.nan, false⟩
  | _, .nan => ⟨.nan, false⟩
  | .inf s, .inf t => ⟨.inf (s != t), false⟩
  | .inf s, .fin t y _ => if y = 0 then ⟨.nan, true⟩ else ⟨.inf (s != t), false⟩
  | .fin s x _, .inf t => if x = 0 then ⟨.nan, true⟩ else ⟨.inf (s != t), false⟩
  | .fin s x e, .fin t y f => ⟨.fin (s != t) (x * y) (if x * y = 0 then 0 else e + f), false⟩

/-- The exact value of a × b + c; an operation with a NaN operand is not invalid (R161). -/
def fmaExact (a b c : Num) : Exact :=
  match c with
  | .nan => ⟨.nan, false⟩
  | _ =>
    let p := mulExact a b
    if p.num == .nan then p else addExact p.num c

/-- Negate. -/
def negNum : Num → Num
  | .nan => .nan
  | .inf s => .inf (!s)
  | .fin s m e => .fin (!s) m e

/-! ## The matrix path -/

/-- Enter an exact nonzero or zero product, or a rounded sum, into FP32 with flush (R145, R146). -/
def flushEnter (sat neg : Bool) (mag : Nat) (exp : Int) : Word × Flags :=
  if mag = 0 then (enc32 neg 0 0, 0)
  else if magGe mag exp 128 then (if sat then max32 neg else inf32 neg, flagOverflow)
  else if magGe mag exp (-126) then (enc32 neg mag exp, 0)
  else (enc32 neg 0 0, flagUnderflow)

/-- A decoded matrix operand: the internal form of R141 and R143. -/
inductive Internal where
  | zero (neg : Bool)
  | fin (neg : Bool) (s : Nat) (x : Int)
  | inf (neg : Bool)
  | nan
  deriving DecidableEq, Repr

/-- Decode a float element into its piece k, with an E8M0 scale where one is carried (R139 to R144). -/
def internal (F : FloatFmt) (n k : Nat) (scale : Option Byte) (bits : Nat) : Internal :=
  if scale == some 0xFF then .nan
  else
    match decodeNum F bits with
    | .nan => .nan
    | .inf s => .inf s
    | .fin s 0 _ => .zero s
    | .fin s sig e =>
      let w := 8 * n
      let g := sig * 2 ^ (w - 1 - F.m)
      let add : Int := match scale with
        | none => 0
        | some b => (b.toNat : Int) - 127
      .fin s (g / 2 ^ (w - 8 - 8 * k) % 256) (e + F.m - 8 * k + add)

/-- A float product of the cell array (R145, R147). -/
def mxProduct (sat : Bool) (a b : Internal) : Word × Flags :=
  match a, b with
  | .nan, _ => (canonNan, 0)
  | _, .nan => (canonNan, 0)
  | .inf _, .zero _ => (canonNan, flagInvalid)
  | .zero _, .inf _ => (canonNan, flagInvalid)
  | .inf s, .inf t => (inf32 (s != t), 0)
  | .inf s, .fin t _ _ => (inf32 (s != t), 0)
  | .fin s _ _, .inf t => (inf32 (s != t), 0)
  | .zero s, .zero t => (enc32 (s != t) 0 0, 0)
  | .zero s, .fin t _ _ => (enc32 (s != t) 0 0, 0)
  | .fin s _ _, .zero t => (enc32 (s != t) 0 0, 0)
  | .fin s x e, .fin t y f => flushEnter sat (s != t) (x * y) (e + f - 14)

/-- A float sum of the matrix path (R146, R147). -/
def mxSum (sat : Bool) (x y : Word) : Word × Flags :=
  let z := addExact (num32 x) (num32 y)
  match z.num with
  | .nan => (canonNan, if z.invalid then flagInvalid else 0)
  | .inf s => (inf32 s, 0)
  | .fin s 0 _ => (enc32 s 0 0, 0)
  | .fin s m e =>
    let r := roundSig .rne 24 none m e
    flushEnter sat s r.mag r.exp

/-- Bring an integer into INT32: clamped or wrapped, with overflow set either way (R150, R164). -/
def toInt32 (sat : Bool) (x : Int) : Word × Flags :=
  if -2147483648 ≤ x ∧ x ≤ 2147483647 then (BitVec.ofInt 32 x, 0)
  else if sat then (if x < 0 then 0x80000000 else 0x7FFFFFFF, flagOverflow)
  else (BitVec.ofInt 32 x, flagOverflow)

/-- Divide by 2^d, to nearest with ties to even. -/
def divRne (x : Int) (d : Nat) : Int :=
  let m := roundDrop .rne x.natAbs d
  if x < 0 then -(m : Int) else m

/-- Decode an integer element into its piece k of n (R133, R149). -/
def intPiece (width : Nat) (sgn : Bool) (n k : Nat) (bits : Nat) : Int :=
  if n = 1 then
    let x := bits % 2 ^ width
    if sgn && 2 ^ (width - 1) ≤ x then (x : Int) - 2 ^ width else x
  else
    let x := bits / 2 ^ (8 * (n - 1 - k)) % 256
    if k = 0 && 128 ≤ x then (x : Int) - 256 else x

/-- An integer product weighted and scaled into INT32 (R133, R150, R151). `weight` is the exponent of
R133, `d` the scale exponent, none when a scale is NaN. -/
def intProduct (sat : Bool) (a b : Int) (weight : Nat) (d : Option Int) : Word × Flags :=
  match d with
  | none => (0, flagInvalid)
  | some d =>
    let p := a * b * 2 ^ weight
    toInt32 sat (if 0 ≤ d then p * 2 ^ d.toNat else divRne p (-d).toNat)

/-! ## The vector path -/

/-- Take a subnormal operand as zero where ftz is set (R162). -/
def ftzIn (ftz : Bool) (x : Word) : Word :=
  if ftz && (x &&& 0x7F800000) == 0 then x &&& 0x80000000 else x

/-- Round an exact value into FP32 (R161 to R163). -/
def round32 (r : Rnd) (ftz sat : Bool) (z : Num) : Word × Flags :=
  match z with
  | .nan => (canonNan, 0)
  | .inf s => (inf32 s, 0)
  | .fin s 0 _ => (enc32 s 0 0, 0)
  | .fin s m e =>
    let q := roundSig r 24 (some (-149)) m e
    if magGe q.mag q.exp 128 then (if sat || r == .rtz then max32 s else inf32 s, flagOverflow)
    else if magGe q.mag q.exp (-126) then (enc32 s q.mag q.exp, 0)
    else if ftz then (enc32 s 0 0, flagUnderflow)
    else (enc32 s q.mag q.exp, if q.inexact then flagUnderflow else 0)

/-- Round an exact result with its invalid flag. -/
def finish32 (r : Rnd) (ftz sat : Bool) (z : Exact) : Word × Flags :=
  let (x, f) := round32 r ftz sat z.num
  (x, if z.invalid then f ||| flagInvalid else f)

/-- FP32 addition. -/
def fadd32 (r : Rnd) (ftz sat : Bool) (a b : Word) : Word × Flags :=
  finish32 r ftz sat (addExact (num32 (ftzIn ftz a)) (num32 (ftzIn ftz b)))

/-- FP32 subtraction. -/
def fsub32 (r : Rnd) (ftz sat : Bool) (a b : Word) : Word × Flags :=
  finish32 r ftz sat (addExact (num32 (ftzIn ftz a)) (negNum (num32 (ftzIn ftz b))))

/-- FP32 multiplication. -/
def fmul32 (r : Rnd) (ftz sat : Bool) (a b : Word) : Word × Flags :=
  finish32 r ftz sat (mulExact (num32 (ftzIn ftz a)) (num32 (ftzIn ftz b)))

/-- FP32 fused multiply-add. -/
def ffma32 (r : Rnd) (ftz sat : Bool) (a b c : Word) : Word × Flags :=
  finish32 r ftz sat
    (fmaExact (num32 (ftzIn ftz a)) (num32 (ftzIn ftz b)) (num32 (ftzIn ftz c)))

/-- The order key (R165). -/
def orderKey (x : Word) : Word := if bit x 31 then ~~~x else x ^^^ 0x80000000

/-- FMAX and FMIN (R161). -/
def fext32 (big ftz : Bool) (a b : Word) : Word :=
  let a := ftzIn ftz a
  let b := ftzIn ftz b
  if isNan32 a || isNan32 b then canonNan
  else if big then (if (orderKey a).toNat < (orderKey b).toNat then b else a)
  else (if (orderKey b).toNat < (orderKey a).toNat then b else a)

/-- IEEE order of two FP32 values: none when unordered, else less, equal or greater. -/
def fcmp32 (ftz : Bool) (a b : Word) : Option Ordering :=
  let a := ftzIn ftz a
  let b := ftzIn ftz b
  if isNan32 a || isNan32 b then none
  else if (a &&& 0x7FFFFFFF) == 0 && (b &&& 0x7FFFFFFF) == 0 then some .eq
  else some (compare (orderKey a).toNat (orderKey b).toNat)

/-! ## Conversions -/

/-- Round a finite or special value into a float format (R153, R154, Table 6-10). -/
def convertFloat (F : FloatFmt) (r : Rnd) (ftz sat : Bool) (z : Num) : Nat × Flags :=
  match z with
  | .nan => (nanCode F, if F.ieee || F.oneNan then 0 else flagInvalid)
  | .inf s =>
    if F.ieee then (signed F s (infCode F), 0)
    else if F.oneNan && !sat then (nanCode F, flagOverflow)
    else (signed F s (maxCode F), flagOverflow)
  | .fin s 0 _ => (signed F s 0, 0)
  | .fin s m e =>
    let q := roundSig r (F.m + 1) (some (lowExp F)) m e
    let top : Nat × Int := match decodeNum F (maxCode F) with
      | .fin _ a b => (a, b)
      | _ => (0, 0)
    let low := min q.exp top.2
    if scaleTo top.1 top.2 low < scaleTo q.mag q.exp low then
      if sat || r == .rtz || (!F.ieee && !F.oneNan) then (signed F s (maxCode F), flagOverflow)
      else if F.ieee then (signed F s (infCode F), flagOverflow)
      else (nanCode F, flagOverflow)
    else if magGe q.mag q.exp (1 - (F.bias : Int)) then (encodeFin F s q.mag q.exp, 0)
    else if ftz then (signed F s 0, flagUnderflow)
    else (encodeFin F s q.mag q.exp, if q.inexact then flagUnderflow else 0)

/-- Round a value into an integer range, clamped (R155). -/
def convertInt (lo hi : Int) (r : Rnd) (z : Num) : Int × Flags :=
  match z with
  | .nan => (0, flagInvalid)
  | .inf s => (if s then lo else hi, flagInvalid)
  | .fin s m e =>
    let v : Nat := if 0 ≤ e then m * 2 ^ e.toNat else roundDrop r m (-e).toNat
    let x : Int := if s then -(v : Int) else v
    if x < lo then (lo, flagInvalid) else if hi < x then (hi, flagInvalid) else (x, 0)

/-- Range of an integer of a width. -/
def intRange (width : Nat) (sgn : Bool) : Int × Int :=
  if sgn then (-(2 ^ (width - 1) : Int), 2 ^ (width - 1) - 1) else (0, 2 ^ width - 1)

/-- The number an integer element stands for. -/
def intNum (width : Nat) (sgn : Bool) (bits : Nat) : Num :=
  let x := intPiece width sgn 1 0 bits
  .fin (x < 0) x.natAbs 0

/-- Multiply a value by 2^d exactly. -/
def scaleNum (z : Num) (d : Int) : Num :=
  match z with
  | .fin s m e => .fin s m (e + d)
  | z => z

end Sys2Proof.Machine
end

