-- ==== Sys2Proof/Machine/Operands.lean ====
section
/-! DEFINITION. The operands of a tile's slots: register reads, lanes, masks, posted writes, and the
registers that a slot reads for the hall monitor. -/

namespace Sys2Proof.Machine

/-! ## Registers (R88) -/

/-- Scalar register. -/
def Tile.rs (x : Tile) (r : BitVec 5) : Word := tabGet 0 x.s r.toNat

/-- Address register. -/
def Tile.ra (x : Tile) (r : BitVec 4) : BitVec 40 := tabGet 0 x.a r.toNat

/-- Vector register. -/
def Tile.rv (x : Tile) (r : BitVec 5) : Vec := tabGet 0 x.v r.toNat

/-- Mask register; m0 reads as all ones. -/
def Tile.rm (x : Tile) (r : BitVec 3) : BitVec 64 := if r = 0 then BitVec.allOnes 64 else tabGet 0 x.m r.toNat

/-- Accumulator row. -/
def Tile.racc (x : Tile) (bank : BitVec 2) (row : Nat) : Vec := tabGet 0 x.acc (64 * bank.toNat + row)

/-- Operand-buffer row: held 0, held 1, stream 0, stream 1. -/
def Tile.rbuf (x : Tile) (b row : Nat) : Vec := tabGet 0 x.buf (32 * b + row)

/-! ## Posted writes (R100, R101) -/

/-- Post a write that takes effect at the end of a cycle. -/
def Tile.post (x : Tile) (due : Nat) (slot : Slot) (issue : Nat) (op : WriteOp) (flags : Flags) : Tile :=
  { x with pend := x.pend ++
    [{ due := due, slot := slot, issue := issue, rank := issue, op := op, flags := flags }] }

/-- Post a write of the instruction issued now, of latency l. -/
def Tile.postNow (x : Tile) (l : Nat) (slot : Slot) (op : WriteOp) (flags : Flags) : Tile :=
  x.post (x.isle.count + l - 1) slot x.isle.count op flags

/-! ## Vector operands (R157) -/

/-- Operand b in lane n. -/
def vxB (x : Tile) (f : VxFields) (n : Nat) : Word := if f.bs then x.rs f.sb else lane (x.rv f.vb) n

/-- Operand c in lane n. -/
def vxC (x : Tile) (f : VxFields) (n : Nat) : Word := if f.cs then x.rs f.sc else lane (x.rv f.vc) n

/-- Rounding mode of lane n (Table 7-1, R163). -/
def vxRnd (x : Tile) (f : VxFields) (n : Nat) : Rnd :=
  match f.rnd.toNat with
  | 0 => .rne
  | 1 => .rtz
  | _ => .sr (vxC x f n)

/-- The write of a vector register under a mask and policy. -/
def vregWrite (vd : BitVec 5) (live : BitVec 64) (zeroing : Bool) (data : Nat → Word) : WriteOp :=
  let v := ofLanes fun n => if bit live n then data n else 0
  .vreg vd v (if zeroing then allBits else laneMask live)

/-- Latency of a VX class under the profile in force: simple, FMA, special (R103, R104). -/
inductive VxClass where
  | simple | fma | special
  deriving DecidableEq, Repr

/-- Cycles of a class (Table 4-12). -/
def VxClass.latency (c : VxClass) (profileB1 : Bool) : Nat :=
  match c with
  | .simple => 4
  | .fma => 6
  | .special => if profileB1 then 11 else 12

/-! ## Bit fields of the aux byte (Table 7-3) -/

/-- Bits of aux, numbered within the slot from 56. -/
def auxBits (f : VxFields) (lo w : Nat) : Nat := (f.aux.toNat / 2 ^ (lo - 56)) % 2 ^ w

/-- One bit of aux. -/
def auxBit (f : VxFields) (n : Nat) : Bool := auxBits f n 1 == 1

/-! ## Registers a slot reads (R448) -/

/-- A register read or written: file (0 s, 1 a, 2 v, 3 m, 4 acc), number, row. -/
structure RegRef where
  file : Nat
  num : Nat
  row : Nat
  deriving DecidableEq, Repr

/-- Scalar register. -/
def refS (r : BitVec 5) : RegRef := ⟨0, r.toNat, 0⟩

/-- Address register. -/
def refA (r : BitVec 4) : RegRef := ⟨1, r.toNat, 0⟩

/-- Vector register. -/
def refV (r : BitVec 5) : RegRef := ⟨2, r.toNat, 0⟩

/-- Mask register. -/
def refM (r : BitVec 3) : RegRef := ⟨3, r.toNat, 0⟩

/-- Accumulator row. -/
def refAcc (bank : BitVec 2) (row : Nat) : RegRef := ⟨4, bank.toNat, row⟩

/-- The register a write goes to. -/
def WriteOp.ref : WriteOp → Option RegRef
  | .sreg r _ => some (refS r)
  | .areg r _ => some (refA r)
  | .vreg r _ _ => some (refV r)
  | .mreg r _ _ => if r = 0 then none else some (refM r)
  | .acc b row _ _ => some (refAcc b row.toNat)
  | .buf _ _ _ _ => none
  | .ib _ _ _ => none
  | .store _ _ _ => none

/-- Row of an accumulator that an MX instruction writes at the end of a cycle (R127). -/
def mxRowDue (issue m : Nat) : Nat := if m < 32 then issue + m + 71 else issue + m + 72

/-- Cycles at whose end writes to a register are pending from instructions issued before a cycle. -/
def Tile.pendingDues (x : Tile) (self : BitVec 10) (r : RegRef) (before : Nat) : List Nat :=
  (x.pend.filter fun p => p.issue < before && p.op.ref == some r).map (·.due) ++
  (x.hinge.filter fun h => h.source == self && h.issue < before &&
    (match h.dest with
      | .s n => refS n == r
      | .v n => refV n == r
      | _ => false)).map (fun h => h.due - 1) ++
  (if r.file = 4 then
    ((x.mx.filter fun q => q.issue < before && q.f.acc.toNat == r.num && bit q.mask r.row &&
      x.isle.count ≤ mxRowDue q.issue r.row).map fun q => mxRowDue q.issue r.row) ++
    ((x.streams.filter fun q => q.issue < before && auxBits q.f 58 2 == r.num &&
      (bit q.mask r.row || q.f.zeroing) && x.isle.count ≤ q.issue + r.row).map fun q => q.issue + r.row + 5)
  else [])

/-- A hazard found: code, detail, address (Table 18-6). -/
structure Hazard where
  code : Nat
  detail : Nat
  addr : Nat
  deriving DecidableEq, Repr

/-- Slot number of DBG_STOP_DETAIL. -/
def Slot.number : Slot → Nat
  | .mx => 0
  | .vx => 1
  | .ld => 2
  | .st => 3
  | .tx => 4
  | .ct => 5

/-- READ_EARLY hazards of a slot that reads registers in a cycle (R448). -/
def readEarly (x : Tile) (self : BitVec 10) (slot : Slot) (issue : Nat) (regs : List RegRef) : List Hazard :=
  regs.flatMap fun r =>
    (x.pendingDues self r issue).filterMap fun d =>
      if x.isle.count ≤ d then
        some ⟨1, slot.number + 8 * r.file + 64 * r.num + 2048 * ((d + 1 - x.isle.count) % 256) +
          2 ^ 19 * r.row, 0⟩
      else none

/-- The hazard of lowest code. -/
def lowestHazard : List Hazard → Option Hazard
  | [] => none
  | h :: t =>
    match lowestHazard t with
    | none => some h
    | some g => if g.code < h.code then some g else some h

/-- Report the lowest of the hazards that a tile's slots met. -/
def State.report (s : State) (t : Nat) (l : List Hazard) : State :=
  match lowestHazard l with
  | none => s
  | some h => s.hazard t h.code (s.tile t).isle.count h.detail h.addr

/-! ## Memory accesses of a lesson (R448) -/

/-- Words of a granule that a byte mask touches. -/
def wordMask (m : BitVec 256) : BitVec 64 := ofMask fun n => m.extractLsb' (4 * n) 4 != 0

/-- Index of the lowest set bit. -/
def lowestBit (m : BitVec 64) : Nat := ((List.range 64).find? fun n => bit m n).getD 0

/-- Words that an access pair makes unsafe for replay: read before it is written, and not written before
that read. -/
def unsafeWords (log : List Access) (r w : Access) : BitVec 64 :=
  if r.granule == w.granule && r.cycle ≤ w.cycle then
    let before := (log.filter fun a => a.write && a.granule == r.granule && a.cycle < r.cycle).foldl
      (fun m a => m ||| a.words) (0 : BitVec 64)
    r.words &&& w.words &&& ~~~before
  else 0

/-- Hazards of a new access against the accesses of the lesson: REPLAY_UNSAFE and NEAR_PAIR. -/
def State.accessHazards (s : State) (t : Nat) (a : Access) : List Hazard :=
  if s.dg.debugMode then
    let all := s.tiles.flatMap fun e => e.2.accesses.map fun b => (e.1, b)
    let log := all.map (·.2)
    let addr (m : BitVec 64) := 2 ^ 37 * s.position + a.granule * 256 + 4 * lowestBit m
    let bad := log.foldl (fun m b =>
      if a.write && !b.write then m ||| unsafeWords log b a
      else if !a.write && b.write then m ||| unsafeWords (a :: log) a b
      else m) (0 : BitVec 64)
    let near := a.slice && all.any fun e =>
      e.1 != t && e.2.slice && e.2.granule == a.granule && (a.write || e.2.write) &&
        e.2.cycle < a.cycle + 24 && a.cycle < e.2.cycle + 24
    (if bad = 0 then [] else [⟨4, 0, addr bad⟩]) ++
    (if near then [⟨8, 0, 2 ^ 37 * s.position + a.granule * 256⟩] else [])
  else []

/-- Log an access in debug mode. -/
def State.logAccess (s : State) (t : Nat) (a : Access) : State :=
  if s.dg.debugMode then s.modTile t fun x => { x with accesses := x.accesses ++ [a] } else s

/-- A plain write into region memory (R223). -/
def State.regionWriteHazard (s : State) (key : Nat) : List Hazard :=
  match s.messageRegion key with
  | none => []
  | some _ => [⟨13, 0, 2 ^ 37 * s.position + key⟩]

end Sys2Proof.Machine
end

