-- ==== Sys2Proof/Machine/MatrixUnit.lean ====
section
/-! DEFINITION. The matrix engine (chapter 05): legality, operand capture, column results, row writes. -/

namespace Sys2Proof.Machine

/-- The MX slot executes (otherwise it is the MX NOP, R122). -/
def mxLegal (conv : Bool) (f : MxFields) : Bool :=
  f.fmtA.toNat < 12 && f.fmtB.toNat < 12 &&
  isIntFmt f.fmtA == isIntFmt f.fmtB &&
  f.pieceA.toNat < pieces f.fmtA && f.pieceB.toNat < pieces f.fmtB &&
  (!f.mxA || (mxScalable f.fmtA && !bit f.scaleA 0)) &&
  (!f.mxB || (mxScalable f.fmtB && !bit f.scaleB 0)) &&
  (if conv then f.fmtB != 2 && !f.mxB else f.shift == 0)

/-- Packing of the instruction (R117, R131). -/
def mxPacking (f : MxFields) : Nat := min (packing f.fmtA) (packing f.fmtB)

/-- Less than 64 cycles after the last MX instruction that executed (R128). -/
def mxTooSoon (x : Tile) : Bool :=
  match x.lastMx with
  | none => false
  | some l => x.isle.count < l.cycle + 64

/-- Issue an MX instruction: the scale registers and the row mask are read now (Table 5-3). -/
def mxStart (conv : Bool) (f : MxFields) (x : Tile) : Tile :=
  let c := x.isle.count
  { x with
    lastMx := some { cycle := c, convolution := conv, base := f.held, shift := f.shift }
    mx := x.mx ++ [
      { issue := c, f := f, mask := x.rm f.mask
        scaleA0 := x.rv f.scaleA, scaleA1 := x.rv (f.scaleA + 1)
        scaleB0 := x.rv f.scaleB, scaleB1 := x.rv (f.scaleB + 1)
        held := [], heldLo := [], str := [], strLo := [], snaps := [] }] }

/-- Issue an MX instruction on a tile. -/
def mxIssue (conv : Bool) (f : MxFields) (t : Nat) (s : State) : State :=
  let x := s.tile t
  if mxLegal conv f && !mxTooSoon x then
    let s := s.countTile t 0x0002 1
    let s := s.countTile t 0x0003 (popcount (x.rm f.mask) 64)
    s.modTile t (mxStart conv f)
  else s

/-! ## Operand capture (R126, R136) -/

/-- A cell row of a held buffer: 64 words of 16 bits. -/
def heldRow (x : Tile) (b row : Nat) : BitVec 1024 :=
  (x.rbuf b (row / 2)).extractLsb' (1024 * (row % 2)) 1024

/-- Group g of a stream row: the 16 bytes that meet cell rows 8g to 8g + 7. -/
def streamGroup (x : Tile) (b m g : Nat) : BitVec 128 :=
  (x.rbuf b (m / 2)).extractLsb' (1024 * (m % 2) + 128 * g) 128

/-- The cell row shifted one column left, with a new value in column 63 (R136). -/
def shiftCells (cells : BitVec 1024) (new : BitVec 16) : BitVec 1024 :=
  (cells >>> 16) ||| (new.setWidth 1024 <<< 1008)

/-- What a cell row holds after a held FP32 operand: a free value of the operand's halves and the piece
(the manual gives a cell 16 bits, R117, R120). -/
def cellsAfterFp32 (hi lo : BitVec 1024) (piece : BitVec 2) : BitVec 1024 :=
  Config.freeBits 1024 (hi.toNat + 2 ^ 1024 * lo.toNat + 2 ^ 2048 * piece.toNat)

/-- Read one cell row of the held operand into the run and into the cells. -/
def captureHeld (conv : Bool) (row : Nat) (a : Tile × MxRun) : Tile × MxRun :=
  let (x, q) := a
  let f := q.f
  let base := f.held.toNat
  if conv && f.shift != 0 then
    let ext := heldRow x (1 - base) row
    let col := ext.extractLsb' (16 * (f.shift.toNat - 1)) 16
    let h := shiftCells (tabGet 0 x.cells row) col
    ({ x with cells := tabSet 0 x.cells row h }, { q with held := tabSet 0 q.held row h })
  else
    let h := heldRow x base row
    if f.fmtB == 2 then
      let lo := heldRow x (1 - base) row
      ({ x with cells := tabSet 0 x.cells row (cellsAfterFp32 h lo f.pieceB) },
        { q with held := tabSet 0 q.held row h, heldLo := tabSet 0 q.heldLo row lo })
    else ({ x with cells := tabSet 0 x.cells row h }, { q with held := tabSet 0 q.held row h })

/-- The instruction is an MXC. The last MX record of a tile names the instruction by its issue cycle. -/
def isConv (x : Tile) (q : MxRun) : Bool :=
  match x.lastMx with
  | some l => l.cycle == q.issue && l.convolution
  | none => false

/-- Read the parts of the stream operand that enter the array in a cycle: (m, g) with issue + m + g + 1 the
cycle. -/
def captureStream (x : Tile) (q : MxRun) : MxRun :=
  let c := x.isle.count
  (List.range 8).foldl (fun q g =>
    if q.issue + g + 1 ≤ c && c < q.issue + g + 65 then
      let m := c - (q.issue + g + 1)
      let b := q.f.stream.toNat
      let q := { q with str := tabSet 0 q.str (8 * m + g) (streamGroup x (2 + b) m g) }
      if q.f.fmtA == 2 then { q with strLo := tabSet 0 q.strLo (8 * m + g) (streamGroup x (3 - b) m g) }
      else q
    else q) q

/-- The row whose snapshot falls in a cycle of the run (Table 5-3). -/
def snapRow (issue c : Nat) : Option Nat :=
  if issue + 8 ≤ c && c < issue + 40 then some (c - issue - 8)
  else if issue + 41 ≤ c && c < issue + 73 then some (c - issue - 9)
  else none

/-- Everything that one MX instruction in progress reads in the tile's current cycle. -/
def captureRun (x : Tile) (q : MxRun) : Tile × MxRun :=
  let c := x.isle.count
  let (x, q) :=
    if q.issue ≤ c && c < q.issue + 8 then
      let g := c - q.issue
      (List.range 8).foldl (fun a r => captureHeld (isConv x q) (8 * g + r) a) (x, q)
    else (x, q)
  let q := captureStream x q
  match snapRow q.issue c with
  | some m => (x, { q with snaps := tabSet 0 q.snaps m (x.racc q.f.acc m) })
  | none => (x, q)

/-- Capture for every instruction in progress, oldest first. -/
def captureAll : Tile → List MxRun → Tile × List MxRun
  | x, [] => (x, [])
  | x, q :: t =>
    let (x, q) := captureRun x q
    let (x, t) := captureAll x t
    (x, q :: t)

/-! ## Column results (R123, R124, R133, R134) -/

/-- The E8M0 byte at an index of a pair of scale registers. -/
def scaleByte (lo hi : Vec) (i : Nat) : Byte := if i < 256 then byteOf lo i else byteOf hi (i - 256)

/-- Raw bits of stream element (m, k), the low half of an FP32 element included. -/
def streamElem (q : MxRun) (p m k : Nat) : Nat :=
  let w := 16 / p
  let cell := k / p
  let g := cell / 8
  let bitpos := 16 * (cell % 8) + w * (k % p)
  let hi := ((tabGet 0 q.str (8 * m + g)).extractLsb' bitpos w).toNat
  if q.f.fmtA == 2 then hi * 65536 + ((tabGet 0 q.strLo (8 * m + g)).extractLsb' bitpos w).toNat else hi

/-- Raw bits of held element (k, n). -/
def heldElem (q : MxRun) (p k n : Nat) : Nat :=
  let w := 16 / p
  let c := k / p
  let bitpos := 16 * n + w * (k % p)
  let hi := ((tabGet 0 q.held c).extractLsb' bitpos w).toNat
  if q.f.fmtB == 2 then hi * 65536 + ((tabGet 0 q.heldLo c).extractLsb' bitpos w).toNat else hi

/-- The scale of an element, where its operand carries one. -/
def elemScale (on : Bool) (lo hi : Vec) (line k : Nat) : Option Byte :=
  if on then some (scaleByte lo hi (8 * line + k / 32)) else none

/-- The product of stream element (m, k) and held element (k, n). -/
def mxTerm (q : MxRun) (p m n k : Nat) : Word × Flags :=
  let f := q.f
  let sa := elemScale f.mxA q.scaleA0 q.scaleA1 m k
  let sb := elemScale f.mxB q.scaleB0 q.scaleB1 n k
  let a := streamElem q p m k
  let b := heldElem q p k n
  match floatFmt f.fmtA, floatFmt f.fmtB with
  | some A, some B =>
    mxProduct f.sat (internal A (pieces f.fmtA) f.pieceA.toNat sa (a % 2 ^ (1 + A.e + A.m)))
      (internal B (pieces f.fmtB) f.pieceB.toNat sb (b % 2 ^ (1 + B.e + B.m)))
  | _, _ =>
    match intFmt f.fmtA, intFmt f.fmtB with
    | some (wa, ga), some (wb, gb) =>
      let na := pieces f.fmtA
      let nb := pieces f.fmtB
      let weight := 8 * (na - 1 - f.pieceA.toNat) + 8 * (nb - 1 - f.pieceB.toNat)
      let d (x : Option Byte) : Option Int := match x with
        | none => some 0
        | some b => if b = 0xFF then none else some ((b.toNat : Int) - 127)
      let e : Option Int := match d sa, d sb with
        | some u, some v => some (u + v)
        | _, _ => none
      intProduct f.sat (intPiece wa ga na f.pieceA.toNat a) (intPiece wb gb nb f.pieceB.toNat b) weight e
    | _, _ => (0, 0)

/-- Add on the matrix path: FP32 or INT32 (R124, R146, R150). -/
def mxAdd (f : MxFields) (x y : Word) : Word × Flags :=
  if isIntFmt f.fmtA then toInt32 f.sat (x.toInt + y.toInt) else mxSum f.sat x y

/-- Add the products k, k + 1, … to a running sum, j of them. -/
def mxColumn (q : MxRun) (p m n : Nat) : Nat → Nat → Word × Flags → Word × Flags
  | 0, _, s => s
  | j + 1, k, s =>
    let t := mxTerm q p m n k
    let u := mxAdd q.f s.1 t.1
    mxColumn q p m n j (k + 1) (u.1, s.2 ||| t.2 ||| u.2)

/-- The accumulator element (m, n) that the instruction writes, with its flags (R123, R124). -/
def mxElement (q : MxRun) (m n : Nat) : Word × Flags :=
  let p := mxPacking q.f
  let col := mxColumn q p m n (64 * p) 0 (0, 0)
  if q.f.accumulate then
    let r := mxAdd q.f (lane (tabGet 0 q.snaps m) n) col.1
    (r.1, col.2 ||| r.2)
  else col

/-- The row whose write falls at the end of a cycle (R127). -/
def writeRow (issue c : Nat) : Option Nat :=
  if issue + 71 ≤ c && c < issue + 103 then some (c - issue - 71)
  else if issue + 104 ≤ c && c < issue + 136 then some (c - issue - 72)
  else none

/-- A write of the same instruction to the same row is posted already. -/
def rowPosted (x : Tile) (q : MxRun) (m : Nat) : Bool :=
  x.pend.any fun p => p.slot == .mx && p.issue == q.issue && p.op.ref == some (refAcc q.f.acc m)

/-- Post the row write of an instruction that falls at the end of the current cycle; a masked row writes
nothing and raises no flag (R125). -/
def postRow (x : Tile) (q : MxRun) : Tile :=
  match writeRow q.issue x.isle.count with
  | none => x
  | some m =>
    if bit q.mask m && !rowPosted x q m then
      let e := mxElement q m
      x.post x.isle.count .mx q.issue
        (.acc q.f.acc (BitVec.ofNat 6 m) (ofLanes fun n => (e n).1) allBits)
        (gatherFlags (fun _ => true) (fun n => (e n).2) 64)
    else x

/-- Post the row writes of every instruction in progress. -/
def postRows (x : Tile) : Tile := x.mx.foldl postRow x

/-! ## What the hall monitor sees -/

/-- Hazards of an MX instruction at its issue. -/
def mxHazards (conv : Bool) (f : MxFields) (t : Nat) (s : State) : List Hazard :=
  let x := s.tile t
  let c := x.isle.count
  if !mxLegal conv f then []
  else
    readEarly x (BitVec.ofNat 10 t) .mx c
      (refM f.mask ::
        ((if f.mxA then [refV f.scaleA, refV (f.scaleA + 1)] else []) ++
         (if f.mxB then [refV f.scaleB, refV (f.scaleB + 1)] else []))) ++
    (match x.lastMx with
    | some l => if c < l.cycle + 64 then [⟨9, c - l.cycle, 0⟩] else []
    | none => []) ++
    (if conv && f.shift != 0 then
      match x.lastMx with
      | some l => if l.convolution && l.base == f.held && l.shift + 1 == f.shift then []
                  else [⟨11, f.shift.toNat, 0⟩]
      | none => [⟨11, f.shift.toNat, 0⟩]
    else [])

/-- READ_EARLY of the snapshots taken in the current cycle. -/
def snapHazards (x : Tile) (t : Nat) : List Hazard :=
  x.mx.flatMap fun q =>
    match snapRow q.issue x.isle.count with
    | some m => if q.f.accumulate then readEarly x (BitVec.ofNat 10 t) .mx q.issue [refAcc q.f.acc m] else []
    | none => []

end Sys2Proof.Machine
end

