-- ==== Sys2Proof/Machine/Special.lean ====
section
/-! DEFINITION. The special functions of algorithm version SF1 (R174 to R178). -/

namespace Sys2Proof.Machine

/-- Table T of SF1 (Table 7-5), FP32 codes, index j. -/
def sfT : List Nat :=
  [0x3F800000, 0x3F82CD87, 0x3F85AAC3, 0x3F88980F, 0x3F8B95C2, 0x3F8EA43A, 0x3F91C3D3, 0x3F94F4F0,
   0x3F9837F0, 0x3F9B8D3A, 0x3F9EF532, 0x3FA27043, 0x3FA5FED7, 0x3FA9A15B, 0x3FAD583F, 0x3FB123F6,
   0x3FB504F3, 0x3FB8FBAF, 0x3FBD08A4, 0x3FC12C4D, 0x3FC5672A, 0x3FC9B9BE, 0x3FCE248C, 0x3FD2A81E,
   0x3FD744FD, 0x3FDBFBB8, 0x3FE0CCDF, 0x3FE5B907, 0x3FEAC0C7, 0x3FEFE4BA, 0x3FF5257D, 0x3FFA83B3]

/-- Table L of SF1, FP32 codes, index j − 24. -/
def sfL : List Nat :=
  [0xBED47FCC, 0xBEB6587B, 0xBE995FF7, 0xBE7AFEC5, 0xBE4544C0, 0xBE116D6E, 0xBDBEB025, 0xBD3B9CA6,
   0x00000000, 0x3D35D69C, 0x3DB31FB8, 0x3E0462C4, 0x3E2E00D2, 0x3E567AF1, 0x3E7DE0B6, 0x3E92203D,
   0x3EA4D3C2, 0x3EB7110E, 0x3EC8DDD4, 0x3EDA3F60, 0x3EEB3A9F, 0x3EFBD42B, 0x3F060828, 0x3F0DF989,
   0x3F15C01A]

/-- Table Q of SF1, FP32 codes, index j − 24. -/
def sfQ : List Nat :=
  [0x3FAAAAAB, 0x3FA3D70A, 0x3F9D89D9, 0x3F97B426, 0x3F924925, 0x3F8D3DCB, 0x3F888889, 0x3F842108,
   0x3F800000, 0x3F783E10, 0x3F70F0F1, 0x3F6A0EA1, 0x3F638E39, 0x3F5D67C9, 0x3F579436, 0x3F520D21,
   0x3F4CCCCD, 0x3F47CE0C, 0x3F430C31, 0x3F3E82FA, 0x3F3A2E8C, 0x3F360B61, 0x3F321643, 0x3F2E4C41,
   0x3F2AAAAB]

/-- Table Y of SF1, in units of 2⁻⁹. -/
def sfY : List Nat :=
  [510, 506, 502, 498, 495, 491, 487, 484, 480, 477, 473, 470, 466, 463, 460, 457, 454, 450, 447,
   444, 441, 438, 435, 433, 430, 427, 424, 421, 419, 416, 413, 411] ++
  [408, 406, 403, 401, 398, 396, 394, 391, 389, 387, 384, 382, 380, 378, 376, 373, 371, 369, 367,
   365, 363, 361, 359, 357, 355, 353, 351, 350, 348, 346, 344, 342] ++
  [340, 339, 337, 335, 334, 332, 330, 329, 327, 325, 324, 322, 320, 319, 317, 316, 314, 313, 311,
   310, 308, 307, 306, 304, 303, 301, 300, 299, 297, 296, 295, 293] ++
  [292, 291, 289, 288, 287, 286, 284, 283, 282, 281, 279, 278, 277, 276, 275, 274, 272, 271, 270,
   269, 268, 267, 266, 265, 264, 263, 262, 261, 260, 259, 258, 257]

/-- Table Z of SF1, in units of 2⁻⁹. -/
def sfZ : List Nat :=
  [510, 506, 502, 499, 495, 491, 488, 484, 481, 478, 475, 471, 468, 465, 462, 459, 457, 454, 451,
   448, 446, 443, 440, 438, 435, 433, 431, 428, 426, 424, 421, 419] ++
  [417, 415, 413, 411, 409, 407, 405, 403, 401, 399, 397, 395, 393, 391, 390, 388, 386, 384, 383,
   381, 379, 378, 376, 375, 373, 372, 370, 369, 367, 366, 364, 363] ++
  [361, 358, 355, 353, 350, 347, 345, 343, 340, 338, 336, 333, 331, 329, 327, 325, 323, 321, 319,
   317, 315, 313, 311, 310, 308, 306, 304, 303, 301, 300, 298, 296] ++
  [295, 293, 292, 290, 289, 287, 286, 285, 283, 282, 281, 279, 278, 277, 276, 274, 273, 272, 271,
   269, 268, 267, 266, 265, 264, 263, 262, 261, 260, 259, 258, 257]

/-- Coefficient E1, the FP32 value nearest to 0.693147181 (Table 7-6). -/
def sfE1 : Word := 0x3F317218

/-- Coefficient E2, the FP32 value nearest to 0.240226507 (Table 7-6). -/
def sfE2 : Word := 0x3E75FDF0

/-- Coefficient E3, the FP32 value nearest to 0.0555041087 (Table 7-6). -/
def sfE3 : Word := 0x3D635847

/-- Coefficient G1, the FP32 value nearest to 1.44269504 (Table 7-6). -/
def sfG1 : Word := 0x3FB8AA3B

/-- Coefficient G2, the FP32 value nearest to -0.721347520 (Table 7-6). -/
def sfG2 : Word := 0xBF38AA3B

/-- Coefficient G3, the FP32 value nearest to 0.480898347 (Table 7-6). -/
def sfG3 : Word := 0x3EF6384F

/-- Coefficient G4, the FP32 value nearest to -0.360673760 (Table 7-6). -/
def sfG4 : Word := 0xBEB8AA3B

/-- Coefficient G5, the FP32 value nearest to 0.288539008 (Table 7-6). -/
def sfG5 : Word := 0x3E93BB63

/-- Coefficient S1, the FP32 value nearest to 1.57079633 (Table 7-6). -/
def sfS1 : Word := 0x3FC90FDB

/-- Coefficient S3, the FP32 value nearest to -0.645964098 (Table 7-6). -/
def sfS3 : Word := 0xBF255DE7

/-- Coefficient S5, the FP32 value nearest to 0.0796926263 (Table 7-6). -/
def sfS5 : Word := 0x3DA335E3

/-- Coefficient S7, the FP32 value nearest to -0.00468175413 (Table 7-6). -/
def sfS7 : Word := 0xBB996966

/-- Coefficient S9, the FP32 value nearest to 0.000160441184 (Table 7-6). -/
def sfS9 : Word := 0x39283C1A

/-- Coefficient C2, the FP32 value nearest to -1.23370055 (Table 7-6). -/
def sfC2 : Word := 0xBF9DE9E6

/-- Coefficient C4, the FP32 value nearest to 0.253669508 (Table 7-6). -/
def sfC4 : Word := 0x3E81E0F8

/-- Coefficient C6, the FP32 value nearest to -0.0208634807 (Table 7-6). -/
def sfC6 : Word := 0xBCAAE9E4

/-- Coefficient C8, the FP32 value nearest to 0.000919260274 (Table 7-6). -/
def sfC8 : Word := 0x3A70FA83

/-- Coefficient C10, the FP32 value nearest to -0.0000252020423 (Table 7-6). -/
def sfC10 : Word := 0xB7D368F9

/-- An intermediate operation: FP32, RNE, unflushed (R174). -/
def sfMul (a b : Word) : Word := (fmul32 .rne false false a b).1

/-- A fused intermediate operation (R174). -/
def sfFma (a b c : Word) : Word := (ffma32 .rne false false a b c).1

/-- An FP32 value from a magnitude and an exponent, rounded RNE. -/
def sfRound (neg : Bool) (mag : Nat) (exp : Int) : Word := (round32 .rne false false (.fin neg mag exp)).1

/-- An FP32 code of a table of SF1. -/
def sfCode (t : List Nat) (i : Nat) : Word := BitVec.ofNat 32 (t.getD i 0)

/-- Negate an FP32 word. -/
def sfNeg (x : Word) : Word := x ^^^ 0x80000000

/-- EXP2 (R175). -/
def sfExp2 (ftz sat : Bool) (x : Word) : Word × Flags :=
  match num32 x with
  | .nan => (canonNan, 0)
  | .inf s => (if s then 0 else inf32 false, 0)
  | .fin s m e =>
    let v : Int := scaleTo m e (-48)
    let v := if s then -v else v
    if !magGe m e (-25) then (0x3F800000, 0)
    else if 128 * 2 ^ 48 ≤ v then (if sat then max32 false else inf32 false, flagOverflow)
    else if v ≤ -150 * 2 ^ 48 then (0, flagUnderflow)
    else
      let n := v / 2 ^ 48
      let f := (v % 2 ^ 48).toNat
      let t := sfCode sfT (f / 2 ^ 43)
      let r := sfRound false (f % 2 ^ 43) (-48)
      let q := sfMul r (sfFma r (sfFma r sfE3 sfE2) sfE1)
      round32 .rne ftz sat (scaleNum (num32 (sfFma t q t)) n)

/-- LOG2 (R176). -/
def sfLog2 (ftz sat : Bool) (x : Word) : Word × Flags :=
  match num32 x with
  | .nan => (canonNan, 0)
  | .inf s => if s then (canonNan, flagInvalid) else (inf32 false, 0)
  | .fin s m e =>
    if m = 0 then (inf32 true, flagDivZero)
    else if s then (canonNan, flagInvalid)
    else
      -- m / 2^top lies in [1, 2)
      let top := m.log2
      let big := decide (3 * 2 ^ top ≤ 2 * m)
      let ex := e + top + (if big then 1 else 0)
      -- the m of the rule is mant × 2^(-30)
      let mant : Nat := scaleTo m (30 - top - (if big then 1 else 0)) 0
      let j : Nat := (32 * mant + 2 ^ 29) / 2 ^ 30
      let d : Int := (mant : Int) - j * 2 ^ 25
      let u := sfMul (sfRound (d < 0) d.natAbs (-30)) (sfCode sfQ (j - 24))
      let q := sfFma u (sfFma u (sfFma u (sfFma u sfG5 sfG4) sfG3) sfG2) sfG1
      let p := sfMul u q
      let y := (fadd32 .rne false false (sfCode sfL (j - 24)) p).1
      if ex = 0 then round32 .rne ftz sat (num32 y)
      else round32 .rne ftz sat (addExact (.fin (ex < 0) ex.natAbs 0) (num32 y)).num

/-- RCP (R177). -/
def sfRcp (ftz sat : Bool) (x : Word) : Word × Flags :=
  match num32 x with
  | .nan => (canonNan, 0)
  | .inf s => (enc32 s 0 0, 0)
  | .fin s m e =>
    if m = 0 then (inf32 s, flagDivZero)
    else
      let top := m.log2
      let ex := e + top
      let mw := enc32 false m (-(top : Int))
      let i := (m * 2 ^ 7) / 2 ^ top - 128
      let y := enc32 false (sfY.getD i 0) (-9)
      let y1 := sfFma y (sfFma (sfNeg mw) y 0x3F800000) y
      let er := sfFma (sfNeg mw) y1 0x3F800000
      let z := scaleNum (fmaExact (num32 y1) (num32 er) (num32 y1)).num (-ex)
      round32 .rne ftz sat (if s then negNum z else z)

/-- RSQRT (R177). -/
def sfRsqrt (ftz sat : Bool) (x : Word) : Word × Flags :=
  match num32 x with
  | .nan => (canonNan, 0)
  | .inf s => if s then (canonNan, flagInvalid) else (0, 0)
  | .fin s m e =>
    if m = 0 then (inf32 s, flagDivZero)
    else if s then (canonNan, flagInvalid)
    else
      let top := m.log2
      let ex := e + top
      let odd := ex % 2 == 1
      let ex := if odd then ex - 1 else ex
      let sh : Int := if odd then 1 - top else -top
      let h := enc32 false m (sh - 1)
      let i := if odd then 64 + ((m * 2 ^ 6) / 2 ^ top - 64) else (m * 2 ^ 6) / 2 ^ top - 64
      let step (y : Word) : Word := sfFma y (sfFma (sfNeg h) (sfMul y y) 0x3F000000) y
      round32 .rne ftz sat (scaleNum (num32 (step (step (enc32 false (sfZ.getD i 0) (-9))))) (-(ex / 2)))

/-- 2/π truncated to 256 fraction bits (R178). -/
def sfTwoOverPi : Nat := 0xA2F9836E4E441529FC2757D1F534DDC0DB6295993C439041FE5163ABDEBBC561

/-- SIN and COS (R178). -/
def sfTrig (cosine ftz sat : Bool) (x : Word) : Word × Flags :=
  match num32 x with
  | .nan => (canonNan, 0)
  | .inf _ => (canonNan, flagInvalid)
  | .fin s m e =>
    if !magGe m e (-12) then (if cosine then 0x3F800000 else x, 0)
    else
      let y := m * sfTwoOverPi / 2 ^ (192 - e).toNat % 2 ^ 66
      let up := decide (2 ^ 63 ≤ y % 2 ^ 64)
      let q := (y / 2 ^ 64 + (if up then 1 else 0)) % 4
      let f := if up then sfRound true (2 ^ 64 - y % 2 ^ 64) (-64) else sfRound false (y % 2 ^ 64) (-64)
      let z := sfMul f f
      let p := sfFma z (sfFma z (sfFma z sfS9 sfS7) sfS5) sfS3
      let sg := sfFma (sfMul f z) p (sfMul f sfS1)
      let c := sfFma z (sfFma z (sfFma z (sfFma z sfC10 sfC8) sfC6) sfC4) sfC2
      let ka := sfFma z c 0x3F800000
      let r := if cosine then
          (match q with | 0 => ka | 1 => sfNeg sg | 2 => sfNeg ka | _ => sg)
        else
          let v := match q with | 0 => sg | 1 => ka | 2 => sfNeg sg | _ => sfNeg ka
          if s then sfNeg v else v
      round32 .rne ftz sat (num32 r)

/-- The six functions of SF1. -/
inductive Special where
  | exp2 | log2 | rcp | rsqrt | sin | cos
  deriving DecidableEq, Repr

/-- A special function of one lane; ftz takes a subnormal operand as zero (R162). -/
def special (k : Special) (ftz sat : Bool) (x : Word) : Word × Flags :=
  let x := ftzIn ftz x
  match k with
  | .exp2 => sfExp2 ftz sat x
  | .log2 => sfLog2 ftz sat x
  | .rcp => sfRcp ftz sat x
  | .rsqrt => sfRsqrt ftz sat x
  | .sin => sfTrig false ftz sat x
  | .cos => sfTrig true ftz sat x

end Sys2Proof.Machine
end

