-- ==== Sys2Proof/Machine/VectorUnit.lean ====
section
/-! DEFINITION. The vector unit (chapter 07): legality, lanes, scans, conversion, accumulator access,
gather and scatter. -/

namespace Sys2Proof.Machine

/-! ## Legality (R90, R160) -/

/-- Field width of a narrow side (R172). -/
def narrowWidth (code : BitVec 4) : Nat :=
  match code.toNat with
  | 0 | 1 | 11 => 16
  | 7 | 9 => 4
  | _ => 8

/-- The combination of VCVT is one of R172 and R173. -/
def vcvtLegal (f : VxFields) : Bool :=
  let d := f.fmt
  let s := f.fmt2
  let q := auxBits f 58 4
  let srcInt := auxBit f 56
  let dstInt := auxBit f 57
  let mxs := auxBit f 62
  if 12 ≤ d.toNat || 12 ≤ s.toNat then false
  else if d == 2 && s == 2 then !mxs
  else if d == 2 then !srcInt && q < 32 / narrowWidth s && (!mxs || (mxScalable s && !dstInt))
  else if s == 2 then !dstInt && q < 32 / narrowWidth d && (!mxs || (mxScalable d && !srcInt))
  else false

/-- The VX slot executes (otherwise it is the VX NOP). -/
def vxLegal (op : VxOp) (f : VxFields) : Bool :=
  f.rnd != 3 &&
  (f.rnd != 2 || (match op with
    | .fadd | .fsub | .fmul | .vcvt => true
    | _ => false)) &&
  (match op with
  | .vcmp => auxBits f 56 3 < 6 && f.vd.toNat < 8
  | .vscat => !f.bs
  | .vcvt => vcvtLegal f
  | .vhist => auxBits f 56 5 ≤ 26
  | .vacc => auxBits f 60 3 ≤ 4
  | .vscana => auxBits f 60 2 ≤ 2
  | _ => true)

/-! ## Lane by lane -/

/-- Write a vector register from one result per lane, with the flags of the live lanes. -/
def vxLanes (c : VxClass) (b1 : Bool) (x : Tile) (f : VxFields) (g : Nat → Word × Flags) : Tile :=
  let live := x.rm f.mask
  x.postNow (c.latency b1) .vx (vregWrite f.vd live f.zeroing fun n => (g n).1)
    (gatherFlags (bit live) (fun n => (g n).2) 64)

/-- A result without flags. -/
def plain (w : Word) : Word × Flags := (w, 0)

/-- Comparison of VCMP (R165): type and predicate. -/
def vcmpLane (ftz : Bool) (type pred : Nat) (a b : Word) : Bool :=
  let o : Option Ordering := match type with
    | 0 => fcmp32 ftz a b
    | 1 => some (compare a.toInt b.toInt)
    | _ => some (compare a.toNat b.toNat)
  match o with
  | none => pred == 1
  | some o =>
    match pred with
    | 0 => o == .eq
    | 1 => o != .eq
    | 2 => o == .lt
    | 3 => o != .gt
    | 4 => o == .gt
    | _ => o != .lt

/-! ## Scans (R166, R167) -/

/-- One update of a scan: 0 FP32 add, 1 INT32 add, 2 max, 3 min. -/
def scanOp (op : Nat) (ftz sat : Bool) (r a : Word) : Word × Flags :=
  match op with
  | 0 => fadd32 .rne ftz sat r a
  | 1 => toInt32 sat (r.toInt + a.toInt)
  | 2 => plain (fext32 true ftz r a)
  | _ => plain (fext32 false ftz r a)

/-- The identity of a scan. -/
def scanId (op : Nat) : Word :=
  match op with
  | 2 => 0xFF800000
  | 3 => 0x7F800000
  | _ => 0

/-- A scan's progress: running value, results so far in order, flags. -/
structure ScanRun where
  r : Word
  out : List Word
  flags : Flags
  deriving DecidableEq, Repr

/-- Take lanes n, n + 1, … of a scan, k of them. -/
def scanLanes (op : Nat) (ftz sat excl : Bool) (live seg : Nat → Bool) (a : Nat → Word) :
    Nat → Nat → ScanRun → ScanRun
  | 0, _, s => s
  | k + 1, n, s =>
    let r := if n = 0 || seg n then scanId op else s.r
    if live n then
      let (y, fl) := scanOp op ftz sat r (a n)
      scanLanes op ftz sat excl live seg a k (n + 1)
        { r := y, out := s.out ++ [if excl then r else y], flags := s.flags ||| fl }
    else scanLanes op ftz sat excl live seg a k (n + 1) { r := r, out := s.out ++ [0], flags := s.flags }

/-- VSCAN and VSCANX. -/
def vxScan (excl : Bool) (x : Tile) (f : VxFields) : Tile :=
  let live := x.rm f.mask
  let starts := x.rm (f.vc.setWidth 3)
  let seg (n : Nat) : Bool := auxBit f 58 && bit starts n
  let q := scanLanes (auxBits f 56 2) f.ftz f.sat excl (bit live) seg (lane (x.rv f.va)) 64 0 ⟨0, [], 0⟩
  x.postNow 6 .vx (vregWrite f.vd live f.zeroing fun n => q.out.getD n 0) q.flags

/-- VRED. -/
def vxRed (x : Tile) (f : VxFields) : Tile :=
  let live := x.rm f.mask
  let q := scanLanes (auxBits f 56 2) f.ftz f.sat false (bit live) (fun _ => false) (lane (x.rv f.va)) 64 0
    ⟨0, [], 0⟩
  x.postNow 6 .vx (.vreg f.vd (splat q.r) allBits) q.flags

/-! ## Sampling helpers (R182, R183) -/

/-- One lane's contribution to a histogram: bins and flags so far. -/
def histLane (f : VxFields) (ref : Word) (key c : Word) (h : List Word × Flags) : List Word × Flags :=
  let sh := auxBits f 56 5
  if sh = 26 || key.toNat / 2 ^ (sh + 6) = ref.toNat / 2 ^ (sh + 6) then
    let b := key.toNat / 2 ^ sh % 64
    if auxBit f 61 then
      let (y, fl) := fadd32 .rne f.ftz f.sat (h.1.getD b 0) c
      (h.1.set b y, h.2 ||| fl)
    else (h.1.set b (h.1.getD b 0 + 1), h.2)
  else h

/-- VHIST. -/
def vxHist (x : Tile) (f : VxFields) : Tile :=
  let live := x.rm f.mask
  let key (n : Nat) : Word := let a := lane (x.rv f.va) n; if auxBit f 62 then a else orderKey a
  let start := (List.range 64).map (vxB x f)
  let h := (List.range 64).foldl
    (fun h n => if bit live n then histLane f (x.rs f.sb) (key n) (vxC x f n) h else h) (start, (0 : Flags))
  x.postNow 6 .vx (.vreg f.vd (ofLanes fun n => h.1.getD n 0) allBits) h.2

/-- VFIRST. -/
def vxFirst (x : Tile) (f : VxFields) : Tile :=
  let live := x.rm f.mask
  let hit (n : Nat) : Bool := bit live n &&
    (match fcmp32 f.ftz (lane (x.rv f.va) n) (vxB x f 0) with
      | none => false
      | some o => o != .lt)
  let r := ((List.range 64).find? hit).getD 64
  x.postNow 6 .vx (.vreg f.vd (ofLanes fun n => if n = 0 then BitVec.ofNat 32 r else 0) allBits) 0

/-! ## Conversion (R172, R173) -/

/-- The number of source element n. -/
def cvtSource (x : Tile) (f : VxFields) (n : Nat) : Num :=
  let v := x.rv f.va
  let z :=
    if f.fmt2 == 2 then
      let w := lane v n
      if auxBit f 56 then .fin (w.toInt < 0) w.toInt.natAbs 0 else num32 w
    else
      let w := narrowWidth f.fmt2
      let raw := (v.extractLsb' (w * (64 * auxBits f 58 4 + n)) w).toNat
      match floatFmt f.fmt2, intFmt f.fmt2 with
      | some F, _ => decodeNum F (raw % 2 ^ (1 + F.e + F.m))
      | none, some (k, sg) => intNum k sg raw
      | none, none => .nan
  if auxBit f 62 then
    let b := ((x.rs f.sb).toNat / (if n < 32 then 1 else 256)) % 256
    if b = 0xFF then .nan
    else if f.fmt2 == 2 then scaleNum z (127 - (b : Int)) else scaleNum z ((b : Int) - 127)
  else z

/-- The destination element n and its flags, as raw bits. -/
def cvtResult (x : Tile) (f : VxFields) (n : Nat) : Nat × Flags :=
  let z := cvtSource x f n
  let r := vxRnd x f n
  if f.fmt == 2 then
    if auxBit f 57 then
      let (v, fl) := convertInt (-2147483648) 2147483647 r z
      ((BitVec.ofInt 32 v).toNat, fl)
    else convertFloat fp32 r f.ftz f.sat z
  else
    match floatFmt f.fmt, intFmt f.fmt with
    | some F, _ => convertFloat F r f.ftz f.sat z
    | none, some (k, sg) =>
      let (lo, hi) := intRange k sg
      let (v, fl) := convertInt lo hi r z
      ((BitVec.ofInt k v).toNat, fl)
    | none, none => (0, 0)

/-- VCVT. -/
def vxCvt (x : Tile) (f : VxFields) : Tile :=
  let live := x.rm f.mask
  let fl := gatherFlags (bit live) (fun n => (cvtResult x f n).2) 64
  if f.fmt == 2 then
    x.postNow 6 .vx (vregWrite f.vd live f.zeroing fun n => BitVec.ofNat 32 (cvtResult x f n).1) fl
  else
    let w := narrowWidth f.fmt
    let base := w * 64 * auxBits f 58 4
    let field (n : Nat) : BitVec w := if bit live n then BitVec.ofNat w (cvtResult x f n).1 else 0
    let keep (n : Nat) : BitVec w := if bit live n || f.zeroing then BitVec.allOnes w else 0
    let v : Vec := packFields w 64 field
    let m : Vec := packFields w 64 keep
    x.postNow 6 .vx (.vreg f.vd (v <<< base) (m <<< base)) fl

/-! ## Accumulator access (R168, R169) -/

/-- VRDA. -/
def vxRda (x : Tile) (f : VxFields) : Tile :=
  let live := x.rm f.mask
  let k := (x.rs f.sb).toNat % 64
  let bank := BitVec.ofNat 2 (auxBits f 56 2)
  let data (n : Nat) : Word := if auxBit f 58 then lane (x.racc bank n) k else lane (x.racc bank k) n
  x.postNow 4 .vx (vregWrite f.vd live f.zeroing data) 0

/-- VWRA. -/
def vxWra (x : Tile) (f : VxFields) : Tile :=
  let live := x.rm f.mask
  let row := BitVec.ofNat 6 (x.rs f.sb).toNat
  let v := ofLanes fun n => if bit live n then lane (x.rv f.va) n else 0
  let m := if f.zeroing then allBits else laneMask live
  x.postNow 4 .vx (.acc (BitVec.ofNat 2 (auxBits f 56 2)) row v m) 0

/-- Start an accumulator-stream instruction; closer than 64 cycles to the last one it is the NOP (R169). -/
def vxStream (scan : Bool) (x : Tile) (f : VxFields) : Tile :=
  let c := x.isle.count
  let soon := match x.lastStream with
    | none => false
    | some l => c < l + 64
  if soon then x
  else
    { x with
      lastStream := some c
      streams := x.streams ++ [
        { issue := c, scan := scan, f := f, a := x.rv f.va, b := ofLanes (vxB x f), mask := x.rm f.mask
          seg := if scan && auxBit f 63 then x.rm (f.vc.setWidth 3) else 0
          running := splat (scanId (match auxBits f 60 2 with | 1 => 2 | 2 => 3 | _ => 0)) }] }

/-- One element of VACC: operation, accumulator element, e and f. -/
def vaccElem (op : Nat) (r : Rnd) (ftz sat : Bool) (y e g : Word) : Word × Flags :=
  match op with
  | 0 => fadd32 r ftz sat y e
  | 1 => fmul32 r ftz sat y e
  | 2 => plain (fext32 true ftz y e)
  | 3 => plain (fext32 false ftz y e)
  | _ => ffma32 r ftz sat y e g

/-- Operation code of VSCANA as a scan operation. -/
def scanaOp (f : VxFields) : Nat :=
  match auxBits f 60 2 with
  | 1 => 2
  | 2 => 3
  | _ => 0

/-- Process row m of a stream instruction in its cycle: the tile with the row's write posted, and the
instruction with its running values. -/
def streamRow (x : Tile) (q : StreamRun) (m : Nat) : Tile × StreamRun :=
  let f := q.f
  let src := x.racc (BitVec.ofNat 2 (auxBits f 56 2)) m
  let dst := BitVec.ofNat 2 (auxBits f 58 2)
  let row := BitVec.ofNat 6 m
  let due := q.issue + m + 5
  let r := if q.scan && (m = 0 || bit q.seg m) then splat (scanId (scanaOp f)) else q.running
  if bit q.mask m then
    let elem (n : Nat) : Word × Flags :=
      if q.scan then scanOp (scanaOp f) f.ftz f.sat (lane r n) (lane src n)
      else
        let j := if auxBit f 63 then m else n
        vaccElem (auxBits f 60 3) (if f.rnd = 1 then .rtz else .rne) f.ftz f.sat (lane src n) (lane q.a j)
          (lane q.b j)
    let y := ofLanes fun n => (elem n).1
    let fl := gatherFlags (fun _ => true) (fun n => (elem n).2) 64
    let out := if q.scan && auxBit f 62 then r else y
    (x.post due .vx q.issue (.acc dst row out allBits) fl, { q with running := if q.scan then y else r })
  else
    (if f.zeroing then x.post due .vx q.issue (.acc dst row 0 allBits) 0 else x, { q with running := r })

/-! ## Gather and scatter (R170) -/

/-- Byte offset in the tile store that lane n addresses. -/
def laneOffset (x : Tile) (f : VxFields) (n : Nat) : Nat :=
  ((x.rs f.sb).toNat + (lane (x.rv f.va) n).toNat) % 524288 / 4 * 4

/-- Gather lane n into the results so far, words already met with an error apart. -/
def gatherLane (t : Nat) (a : List Word × List Nat × State) (n : Nat) (off : Nat) (live : Bool) :
    List Word × List Nat × State :=
  let (out, bad, s) := a
  if live then
    let k := storeBase t + off
    let cyc := (s.tile t).isle.count
    let checked : Bool × State := match s.messageRegion k with
      | none => (true, s)
      | some num => s.regionRead num (k - localKey (s.region num).base) 4 t false k cyc
    if !checked.1 then (out.set n 0, bad, checked.2)
    else if bad.contains (k / 8) then (out.set n 0, bad, checked.2)
    else
      let r : ReadResult 32 := checked.2.readMem k 4 cyc
      let bad := if s.mem.ue.contains (k / 8) then bad ++ [k / 8] else bad
      (out.set n r.data, bad, r.state)
  else a

/-- VGATH: the words read in the issue cycle, lane by lane. -/
def vxGather (s : State) (t : Nat) (f : VxFields) : State :=
  let x := s.tile t
  let live := x.rm f.mask
  let g := (List.range 64).foldl (fun a n => gatherLane t a n (laneOffset x f n) (bit live n))
    (List.replicate 64 (0 : Word), ([] : List Nat), s)
  let logged := (List.range 64).foldl (fun s n =>
    if bit live n then
      let k := storeBase t + laneOffset x f n
      s.logAccess t { granule := k / 256, words := BitVec.ofNat 64 (2 ^ (k / 4 % 64)), cycle := x.isle.count,
                      write := false, slice := false }
    else s) g.2.2
  logged.modTile t fun x => x.postNow 4 .vx (vregWrite f.vd live f.zeroing fun n => g.1.getD n 0) 0

/-- VSCAT: one store per live lane at the end of cycle issue + 3, the higher lane last. -/
def vxScatter (s : State) (t : Nat) (f : VxFields) : State :=
  let x := s.tile t
  let live := x.rm f.mask
  let lanes := pick 64 (bit live)
  let s := s.modTile t fun x => lanes.foldl (fun x n =>
    let off := laneOffset x f n
    let sh := 8 * (off % 256)
    x.postNow 4 .vx (.store (off / 256) ((vxB x f n).setWidth 2048 <<< sh)
      ((0xF : BitVec 256) <<< (off % 256))) 0) x
  lanes.foldl (fun s n =>
    let k := storeBase t + laneOffset x f n
    s.logAccess t { granule := k / 256, words := BitVec.ofNat 64 (2 ^ (k / 4 % 64)),
                    cycle := x.isle.count + 3, write := true, slice := false }) s

/-! ## Issue -/

/-- Which special function an opcode is. -/
def specialOf : VxOp → Option Special
  | .exp2 => some .exp2
  | .log2 => some .log2
  | .rcp => some .rcp
  | .rsqrt => some .rsqrt
  | .sin => some .sin
  | .cos => some .cos
  | _ => none

/-- The effect of a legal VX instruction on its own tile; gather and scatter apart. -/
def vxTile (b1 : Bool) (op : VxOp) (f : VxFields) (x : Tile) : Tile :=
  let a := lane (x.rv f.va)
  let b := vxB x f
  let c := vxC x f
  let r := vxRnd x f
  let simple := vxLanes .simple b1 x f
  let fma := vxLanes .fma b1 x f
  let live := x.rm f.mask
  match op with
  | .vmov => simple fun n => plain (a n)
  | .iadd => simple fun n => toInt32 f.sat ((a n).toInt + (b n).toInt)
  | .isub => simple fun n => toInt32 f.sat ((a n).toInt - (b n).toInt)
  | .imul => simple fun n => plain (a n * b n)
  | .imin => simple fun n => plain (if (b n).toInt < (a n).toInt then b n else a n)
  | .imax => simple fun n => plain (if (a n).toInt < (b n).toInt then b n else a n)
  | .band => simple fun n => plain (a n &&& b n)
  | .bor => simple fun n => plain (a n ||| b n)
  | .bxor => simple fun n => plain (a n ^^^ b n)
  | .shl => simple fun n => plain (a n <<< ((b n).toNat % 32))
  | .shr => simple fun n => plain (a n >>> ((b n).toNat % 32))
  | .sar => simple fun n => plain ((a n).sshiftRight ((b n).toNat % 32))
  | .key => simple fun n => plain (orderKey (a n))
  | .vcmp =>
    let m := ofMask fun n => bit live n && vcmpLane f.ftz (auxBits f 59 2) (auxBits f 56 3) (a n) (b n)
    x.postNow 4 .vx (.mreg (f.vd.setWidth 3) m (if f.zeroing then BitVec.allOnes 64 else live)) 0
  | .vsel =>
    x.postNow 4 .vx (.vreg f.vd (ofLanes fun n => if bit live n then a n else b n) allBits) 0
  | .vperm => simple fun n => plain (a ((b n).toNat % 64))
  | .vrda => vxRda x f
  | .vwra => vxWra x f
  | .vgath => x
  | .vscat => x
  | .fadd => fma fun n => fadd32 (r n) f.ftz f.sat (a n) (b n)
  | .fsub => fma fun n => fsub32 (r n) f.ftz f.sat (a n) (b n)
  | .fmul => fma fun n => fmul32 (r n) f.ftz f.sat (a n) (b n)
  | .ffma => fma fun n => ffma32 (r n) f.ftz f.sat (a n) (b n) (c n)
  | .fmax => fma fun n => plain (fext32 true f.ftz (a n) (b n))
  | .fmin => fma fun n => plain (fext32 false f.ftz (a n) (b n))
  | .vcvt => vxCvt x f
  | .vscan => vxScan false x f
  | .vscanx => vxScan true x f
  | .vred => vxRed x f
  | .vhist => vxHist x f
  | .vfirst => vxFirst x f
  | .vacc => vxStream false x f
  | .vscana => vxStream true x f
  | op =>
    match specialOf op with
    | some k => vxLanes .special b1 x f fun n => special k f.ftz f.sat (a n)
    | none => x

/-- Issue a VX instruction on a tile. -/
def vxIssue (op : VxOp) (f : VxFields) (t : Nat) (s : State) : State :=
  if vxLegal op f then
    let s := s.countTile t 0x0004 1
    match op with
    | .vgath => vxGather s t f
    | .vscat => vxScatter s t f
    | op => s.modTile t (vxTile s.ts.profileB1 op f)
  else s

/-! ## What the hall monitor sees (R448) -/

/-- Operand b as registers. -/
def refB (f : VxFields) : RegRef := if f.bs then refS f.sb else refV f.vb

/-- Operand c as registers. -/
def refC (f : VxFields) : RegRef := if f.cs then refS f.sc else refV f.vc

/-- The segment-start mask, where it is read. -/
def refSeg (f : VxFields) (on : Bool) : List RegRef := if on then [refM (f.vc.setWidth 3)] else []

/-- Registers that a VX instruction reads in its issue cycle. -/
def vxReads (op : VxOp) (f : VxFields) (x : Tile) : List RegRef :=
  refM f.mask :: (match op with
  | .vmov | .key | .exp2 | .log2 | .rcp | .rsqrt | .sin | .cos | .vred => [refV f.va]
  | .iadd | .isub | .imul | .imin | .imax | .band | .bor | .bxor | .shl | .shr | .sar | .vcmp | .vsel | .vperm
  | .fmax | .fmin | .vfirst => [refV f.va, refB f]
  | .fadd | .fsub | .fmul => [refV f.va, refB f] ++ (if f.rnd = 2 then [refC f] else [])
  | .ffma => [refV f.va, refB f, refC f]
  | .vrda =>
    let k := (x.rs f.sb).toNat % 64
    let bank := BitVec.ofNat 2 (auxBits f 56 2)
    refS f.sb :: (if auxBit f 58 then (List.range 64).map (refAcc bank) else [refAcc bank k])
  | .vwra => [refV f.va, refS f.sb]
  | .vgath => [refV f.va, refS f.sb]
  | .vscat => [refV f.va, refV f.vb, refS f.sb]
  | .vcvt => refV f.va :: ((if f.rnd = 2 then [refC f] else []) ++ (if auxBit f 62 then [refS f.sb] else []))
  | .vscan | .vscanx => refV f.va :: refSeg f (auxBit f 58)
  | .vhist => [refV f.va, refB f, refS f.sb] ++ (if auxBit f 61 then [refC f] else [])
  | .vacc => refV f.va :: (if auxBits f 60 3 = 4 then [refB f] else [])
  | .vscana => refSeg f (auxBit f 63))

/-- Hazards of a VX instruction. -/
def vxHazards (op : VxOp) (f : VxFields) (t : Nat) (s : State) : List Hazard :=
  let x := s.tile t
  if !vxLegal op f then []
  else
    readEarly x (BitVec.ofNat 10 t) .vx x.isle.count (vxReads op f x) ++
    (match op with
    | .vacc | .vscana =>
      match x.lastStream with
      | some l => if x.isle.count < l + 64 then [⟨10, x.isle.count - l, 0⟩] else []
      | none => []
    | .vgath => (pick 64 (bit (x.rm f.mask))).flatMap fun n =>
        let k := storeBase t + laneOffset x f n
        s.accessHazards t { granule := k / 256, words := BitVec.ofNat 64 (2 ^ (k / 4 % 64)),
                            cycle := x.isle.count, write := false, slice := false }
    | .vscat => (pick 64 (bit (x.rm f.mask))).flatMap fun n =>
        let k := storeBase t + laneOffset x f n
        s.regionWriteHazard k ++
        s.accessHazards t { granule := k / 256, words := BitVec.ofNat 64 (2 ^ (k / 4 % 64)),
                            cycle := x.isle.count + 3, write := true, slice := false }
    | _ => [])

end Sys2Proof.Machine
end

