-- ==== Sys2Proof/Machine/SlotUnits.lean ====
section
/-! DEFINITION. The load, store, transfer and control slots (chapter 04), the hinge entries they create and
the random numbers of PX1 (R179 to R181). -/

namespace Sys2Proof.Machine

/-! ## Addresses and reach (R92, R188) -/

/-- a[base] + the signed offset, modulo 2^40. -/
def slotAddress (x : Tile) (base : BitVec 4) (offset : BitVec 16) : HouseAddr :=
  x.ra base + offset.signExtend 40

/-- The local key of an address within a reach; none outside it. -/
def State.reachKey (s : State) (t : Nat) (reach : Nat) (a : HouseAddr) : Option Nat :=
  let k := localKey a
  let mine := houseOf a == s.position
  match reach with
  | 0 =>
    if a.toNat < 0x80000 then some (storeBase t + a.toNat)
    else if mine && k / 0x80000 == storeBase t / 0x80000 then some k
    else none
  | 1 => if mine && dieOf k == t / 256 && inLayers (offsetOf k) then some k else none
  | 2 => if mine && dieOf k != t / 256 && inLayers (offsetOf k) then some k else none
  | _ => none

/-- Latency of a load by reach (Table 4-12). -/
def loadLatency (reach : Nat) : Nat :=
  match reach with
  | 0 => 2
  | 1 => 20
  | _ => 56

/-- Nominal slice cycle after issue (R191). -/
def sliceDelay (reach : Nat) : Nat := if reach = 1 then 6 else 24

/-- Part tile number as it is carried. -/
def tileNum (t : Nat) : BitVec 10 := BitVec.ofNat 10 t

/-! ## Hinge entries -/

/-- Put an entry into a tile's receiving hinge. -/
def Tile.expect (x : Tile) (h : HingeItem) : Tile :=
  { x with hinge := x.hinge ++ [{ h with id := x.nextId }], nextId := x.nextId + 1 }

/-- An entry of a load issued now. -/
def loadItem (s : State) (t reach : Nat) (dest : HingeDest) (parts : Nat) : HingeItem :=
  let c := (s.tile t).isle.count
  { id := 0, issue := c, due := c + loadLatency reach, slot := .ld, dest := dest, source := tileNum t
    tagBell := s.tagBell, tagAttempt := s.bell.attempt, data := 0, status := .awaiting parts }

/-- The write that delivers data at a destination of the hinge; a transposed row is taken from its fill. -/
def deliverOp (dest : HingeDest) (data : Vec) : WriteOp :=
  match dest with
  | .s r => .sreg r (data.setWidth 32)
  | .v r => .vreg r data allBits
  | .buf b row m => .buf b row data m
  | .transposed b row _ wide half =>
    .buf b row data (if wide then
      packFields 8 256 (fun i => if i / 64 % 2 = half.toNat then 0xFF else 0) else allBits)
  | .ib h g => .ib h g data

/-- Number of entries scheduled to wait at once passes 8 in some cycle before a due cycle (R78). -/
def hingeCrowded (x : Tile) (due : Nat) : Bool :=
  (List.range 8).any fun i =>
    let c := due - 8 + i
    8 < (x.hinge.filter fun h => h.due ≤ c + 8 && c < h.due).length

/-- Island id of a tile (Table 3-1). -/
def tileIsland (t : Nat) : Nat := (t / 256) * 2048 + t % 256

/-! ## Loads -/

/-- Post a load's result directly, with the latency of its reach. -/
def State.loadNow (s : State) (t reach : Nat) (dest : HingeDest) (data : Vec) : State :=
  s.modTile t fun x => x.postNow (loadLatency reach) .ld (deliverOp dest data) 0

/-- A load outside its reach: zeros, counted (R92). -/
def State.loadOutside (s : State) (t reach : Nat) (dest : HingeDest) : State :=
  (s.loadNow t reach dest 0).tcDiscard

/-- Log a load's access for the hall monitor. -/
def State.logLoad (s : State) (t reach k n : Nat) : State :=
  s.logAccess t
    { granule := k / 256
      words := ofMask fun i => k % 256 / 4 ≤ i && i < (k % 256 + n + 3) / 4
      cycle := (s.tile t).isle.count + (if reach = 0 then 0 else sliceDelay reach)
      write := false, slice := reach != 0 }

/-- Queue a read of a load at its slice. -/
def State.loadRequest (s : State) (t reach k : Nat) (size : ReadSize) (dest : ReadDest) : State :=
  s.queueRead
    { arrival := (s.tile t).isle.count + sliceDelay reach, port := portOf t (dieOf k)
      tile := some (tileNum t), addr := k, size := size, dest := dest }

/-- A plain load of n bytes (4 or 256) to a destination. -/
def State.loadPlain (s : State) (t reach : Nat) (a : HouseAddr) (n : Nat) (size : ReadSize)
    (dest : HingeDest) : State :=
  match s.reachKey t reach a with
  | none => s.loadOutside t reach dest
  | some k =>
    let k := k / n * n
    if reach = 0 then
      let r : ReadResult 2048 := s.tileRead t k n true (s.tile t).isle.count
      (r.state.loadNow t 0 dest r.data).logLoad t 0 k n
    else
      let id := (s.tile t).nextId
      let s := s.modTile t (·.expect (loadItem s t reach dest 1))
      (s.loadRequest t reach k size (.hinge (tileNum t) id 0)).logLoad t reach k n

/-- The two half-granule addresses of a strided load (R195). -/
def stridedAddrs (a : HouseAddr) (stride : BitVec 40) : HouseAddr × HouseAddr :=
  let lo : HouseAddr := a &&& ~~~(0x7F : BitVec 40)
  (lo, lo + (stride &&& ~~~(0x7F : BitVec 40)))

/-- A strided load into an operand-buffer row (R195). -/
def State.loadStrided (s : State) (t reach : Nat) (a : HouseAddr) (stride : BitVec 40)
    (dest : HingeDest) : State :=
  let (a0, a1) := stridedAddrs a stride
  let k0 := s.reachKey t reach a0
  let k1 := s.reachKey t reach a1
  let s := if k0.isNone then s.tcDiscard else s
  let s := if k1.isNone then s.tcDiscard else s
  if reach = 0 then
    let half (s : State) (k : Option Nat) : ReadResult 1024 := match k with
      | none => ⟨0, s⟩
      | some k => s.tileRead t k 128 true (s.tile t).isle.count
    let r0 := half s k0
    let r1 := half r0.state k1
    r1.state.loadNow t 0 dest (r0.data.setWidth 2048 ||| (r1.data.setWidth 2048 <<< 1024))
  else
    let n := (if k0.isSome then 1 else 0) + (if k1.isSome then 1 else 0)
    if n = 0 then s.loadNow t reach dest 0
    else
      let id := (s.tile t).nextId
      let s := s.modTile t (·.expect (loadItem s t reach dest n))
      let ask (s : State) (k : Option Nat) (shift : Nat) : State := match k with
        | none => s
        | some k => (s.loadRequest t reach k .half (.hinge (tileNum t) id shift)).logLoad t reach k 128
      ask (ask s k0 0) k1 128

/-- An empty fill. -/
def emptyFill : TransposeFill := { block := 0, granules := [], missing := false }

/-- A transposed load (R196 to R198). -/
def State.loadTransposed (s : State) (t reach : Nat) (a : HouseAddr) (b : BitVec 2) (row : BitVec 5)
    (wide : Bool) (half : BitVec 1) : State :=
  let dest (fill : Nat) : HingeDest := .transposed b row fill wide half
  match (if reach = 0 then none else s.reachKey t reach (a &&& ~~~(0xFFF : BitVec 40))) with
  | none => s.loadOutside t reach (dest 0)
  | some k =>
    let x := s.tile t
    let held := match x.transpose with
      | some (blk, fill) => if blk == k then some fill else none
      | none => none
    match held with
    | some fill =>
      (s.modTile t (·.expect (loadItem s t reach (dest fill) 16))).countEvent 1 (t / 256) 0x0108 1
    | none =>
      let fill := x.nextId
      let s := s.modTile t fun x =>
        ({ x with transpose := some (k, fill),
                  fills := tabSet emptyFill x.fills fill { emptyFill with block := k } }).expect
          (loadItem s t reach (dest fill) 16)
      (List.range 16).foldl (fun s i =>
        (s.loadRequest t reach (k + 256 * i) .granule (.fill (tileNum t) fill i)).logLoad t reach
          (k + 256 * i) 256) s

/-- Granules of the refill region that this tile has asked for and that no slice has served yet. -/
def refillWaiting (x : Tile) : Nat :=
  (x.hinge.filter fun h => (match h.dest with | .ib _ _ => true | _ => false) &&
    (match h.status with | .awaiting _ => true | _ => false)).length

/-- LDI: the next granule of the refill region into the inactive half (R107). -/
def State.loadRefill (s : State) (t : Nat) (granule : BitVec 7) : State :=
  let r := s.region (256 + t)
  let x := s.tile t
  if r.kind == .localRegion then
    let j := r.headSh.toNat + refillWaiting x
    let k := localKey r.base + 256 * (j % r.capacity)
    let id := x.nextId
    let s := s.modTile t (·.expect (loadItem s t 1 (.ib (x.active + 1) granule) 1))
    s.loadRequest t 1 k .granule (.hinge (tileNum t) id 0)
  else
    let s := { s with cq := { s.cq with underruns := s.cq.underruns + 1 } }
    (s.tileCause cUnderrun t x.isle.count).hazard t 5 x.isle.count (256 + t) 0

/-- The LD slot executes (R90, R92). -/
def ldLegal (op : LdOp) (f : LdFields) : Bool :=
  match op with
  | .ldi => f.reach == 1
  | _ => f.reach != 3

/-- The operand-buffer row a plain or strided LDO writes. -/
def ldoDest (f : LdFields) : HingeDest := .buf (f.aux.extractLsb' 0 2) f.dst allBits

/-- Issue an LD instruction. -/
def ldIssue (op : LdOp) (f : LdFields) (t : Nat) (s : State) : State :=
  if ldLegal op f then
    let reach := f.reach.toNat
    let s := s.countTile t (0x0005 + reach) 1
    let x := s.tile t
    let a := slotAddress x f.base f.offset
    match op with
    | .lds => s.loadPlain t reach a 4 .word (.s f.dst)
    | .ldv => s.loadPlain t reach a 256 .granule (.v f.dst)
    | .ldi => s.loadRefill t (f.aux.extractLsb' 0 7)
    | .ldo =>
      let b := f.aux.extractLsb' 0 2
      match (f.aux.extractLsb' 2 2).toNat with
      | 0 => s.loadPlain t reach a 256 .granule (ldoDest f)
      | 1 => s.loadStrided t reach a (x.ra (f.aux.extractLsb' 4 4)) (ldoDest f)
      | 2 => s.loadTransposed t reach a b f.dst false 0
      | _ => s.loadTransposed t reach a b f.dst true (f.aux.extractLsb' 4 1)
  else s

/-- Hazards of an LD instruction. -/
def ldHazards (op : LdOp) (f : LdFields) (t : Nat) (s : State) : List Hazard :=
  if !ldLegal op f then []
  else
    let x := s.tile t
    let c := x.isle.count
    let reach := f.reach.toNat
    let strided := op == .ldo && (f.aux.extractLsb' 2 2) == 1
    let regs := if op == .ldi then [] else
      refA f.base :: (if strided then [refA (f.aux.extractLsb' 4 4)] else [])
    let n := if op == .lds then 4 else 256
    readEarly x (tileNum t) .ld c regs ++
    (if reach != 0 && hingeCrowded (x.expect (loadItem s t reach (.s 0) 1)) (c + loadLatency reach) then
      [⟨3, tileIsland t, 0⟩] else []) ++
    (if op == .ldi then []
    else match s.reachKey t reach (slotAddress x f.base f.offset) with
      | none => []
      | some k =>
        let k := k / n * n
        s.accessHazards t
          { granule := k / 256
            words := ofMask fun i => k % 256 / 4 ≤ i && i < (k % 256 + n + 3) / 4
            cycle := c + (if reach = 0 then 0 else sliceDelay reach)
            write := false, slice := reach != 0 })

/-! ## Stores (R93) -/

/-- The granule a store presents and the bytes it writes, at a local key. -/
def storeData (x : Tile) (vec : Bool) (f : StFields) (k : Nat) : Vec × BitVec 256 :=
  if vec then
    let live := x.rm f.mask
    (ofLanes fun n => if bit live n then lane (x.rv f.src) n else 0,
      packFields 4 64 fun n => if bit live n then 0xF else 0)
  else
    let o := k % 256 / 4 * 4
    ((x.rs f.src).setWidth 2048 <<< (8 * o), (0xF : BitVec 256) <<< o)

/-- The ST slot executes (R90, R93). -/
def stLegal (vec : Bool) (f : StFields) : Bool := f.reach != 3 && (vec || f.mask == 0)

/-- The local key a store writes: the granule or word its address names, none outside its reach. -/
def State.storeKey (s : State) (t : Nat) (f : StFields) : Option Nat :=
  s.reachKey t f.reach.toNat (slotAddress (s.tile t) f.base f.offset)

/-- The cycle in which memory serves a store. -/
def storeCycle (x : Tile) (f : StFields) : Nat :=
  x.isle.count + (if f.reach = 0 then 0 else sliceDelay f.reach.toNat)

/-- The access of a store. -/
def storeAccess (x : Tile) (vec : Bool) (f : StFields) (k : Nat) : Access :=
  { granule := k / 256, words := wordMask (storeData x vec f k).2, cycle := storeCycle x f, write := true
    slice := f.reach != 0 }

/-- Issue STS or STV. -/
def stIssue (vec : Bool) (f : StFields) (t : Nat) (s : State) : State :=
  if stLegal vec f then
    let s := s.countTile t 0x0008 1
    let x := s.tile t
    match s.storeKey t f with
    | none => s.tcDiscard
    | some k =>
      let d := storeData x vec f k
      let g := k / 256 * 256
      let s := if f.digest then s.addTerm x.tensor (digestTerm g d.1) else s
      let s := s.logAccess t (storeAccess x vec f k)
      if f.reach = 0 then
        s.modTile t fun x => x.postNow 1 .st (.store ((g - storeBase t) / 256) d.1 d.2) 0
      else
        s.queueWrite
          { arrival := storeCycle x f, port := portOf t (dieOf k), source := .tile (tileNum t), addr := g
            data := d.1, bytes := d.2 }
  else s

/-- Hazards of a store. -/
def stHazards (vec : Bool) (f : StFields) (t : Nat) (s : State) : List Hazard :=
  if !stLegal vec f then []
  else
    let x := s.tile t
    readEarly x (tileNum t) .st x.isle.count
      (refA f.base :: (if vec then [refV f.src, refM f.mask] else [refS f.src])) ++
    (match s.storeKey t f with
    | none => []
    | some k => s.regionWriteHazard k ++ s.accessHazards t (storeAccess x vec f k))

/-! ## Sends, reductions, messages (R95, R200, R216, R266) -/

/-- Minimum send latency (Table 4-12). -/
def sendMin (t u : Nat) : Nat := if t / 256 = u / 256 then 30 else 66

/-- Issue SENDV or SENDS. -/
def sendIssue (vec : Bool) (src due : BitVec 5) (dst : BitVec 10) (reg : BitVec 5) (t : Nat) (s : State) :
    State :=
  let s := s.countTile t 0x0009 1
  let x := s.tile t
  let d := (x.rs due).toNat
  let u := dst.toNat
  if d < x.isle.count + sendMin t u then s.tcDiscard.tileCause cLate t x.isle.count
  else if s.fenced u then s.tcDiscard
  else
    let data : Vec := if vec then x.rv src else (x.rs src).setWidth 2048
    let s := s.modTile u (·.expect
      { id := 0, issue := x.isle.count, due := d, slot := .tx, dest := if vec then .v reg else .s reg
        source := tileNum t, tagBell := s.tagBell, tagAttempt := s.bell.attempt, data := data
        status := .flight })
    if hingeCrowded (s.tile u) d then s.hazard u 3 (s.tile u).isle.count (tileIsland t) 0 else s

/-- Issue RED. -/
def redIssue (src due : BitVec 5) (group : BitVec 8) (t : Nat) (s : State) : State :=
  let s := s.countTile t 0x000A 1
  let x := s.tile t
  let d := (x.rs due).toNat
  if d < x.isle.count + 20 then
    (s.modDie (t / 256) fun r => { r with red := r.red + 1 }).tileCause cMissing t x.isle.count
  else
    let k := 256 * (t / 256) + group.toNat
    let c : Contribution := { tile := tileNum t, due := d, tagBell := s.tagBell,
                              tagAttempt := s.bell.attempt, data := x.rv src }
    { s with mem := { s.mem with redFlight := tabMod [] s.mem.redFlight k (· ++ [c]) } }

/-- A packet with every field zero. -/
def emptyPacket : Packet :=
  { kind := 0, cls := 0, vc := 0, epoch := 0, mark := false, untagged := false, dest := 0, source := 0
    slice := 0, tagBell := 0, tagAttempt := 0, length := 0, rest := 0, payload := 0 }

/-- A header of this part for a destination, with its lesson tag (Table 11-2). -/
def State.header (s : State) (kind : BitVec 4) (cls : BitVec 2) (dst : FabricAddr) : Packet :=
  { emptyPacket with
    kind := kind, cls := cls, epoch := s.rt.epoch, dest := dst, source := s.rc.address, slice := s.rt.slice
    tagBell := s.tagBell, tagAttempt := s.bell.attempt }

/-- The first axis on which two addresses differ. -/
def firstAxis (a b : FabricAddr) : Option Nat := (List.range 4).find? fun k => coord a k != coord b k

/-- Hand a packet of this part to the fabric at an input port (R261, R263, R277): to the router of the first
axis of its route, or to this part itself. -/
def State.inject (s : State) (port : BitVec 4) (p : Packet) : State :=
  match firstAxis s.rc.address p.dest with
  | none => { s with rt := { s.rt with inbox := s.rt.inbox ++ [p] } }
  | some k =>
    let e : Queued := { die := BitVec.ofNat 2 k, port := port, arrival := s.rt.now, packet := p }
    if s.rt.drain && p.cls != 0 then { s with rt := { s.rt with kept := s.rt.kept ++ [e] } }
    else (({ s with rt := { s.rt with queue := s.rt.queue ++ [e] } } : State).countEvent 3 k 0x0307 1)

/-- The destination lies in the job slice of this part (R258). -/
def State.inSlice (s : State) (a : FabricAddr) : Bool := inBox s.job.low s.job.high a

/-- Per-kind bits of a PUT: region, producer's tile, engine (Table 11-4). -/
def putRest (region : Nat) (tile : Nat) (engine : Bool) : BitVec 55 :=
  BitVec.ofNat 55 (region % 256 + 256 * (tile % 1024) + (if engine then 2 ^ 18 else 0))

/-- Issue PUT. -/
def putIssue (src : BitVec 5) (region : BitVec 8) (t : Nat) (s : State) : State :=
  let s := s.countTile t 0x000A 1
  let x := s.tile t
  let r := s.region region.toNat
  match r.kind with
  | .off => { s with cq := { s.cq with discards := s.cq.discards + 1 } }
  | .localRegion =>
    let piece : Piece :=
      { region := region.setWidth 11, data := x.rv src, part := s.rc.address, tile := tileNum t
        engine := false, firmware := false, untagged := false, tagBell := s.tagBell
        tagAttempt := s.bell.attempt, arrival := some (x.isle.count + 6)
        port := portOf t (dieOf (localKey r.base)) }
    { s with cq := { s.cq with pieces := s.cq.pieces ++ [piece] } }
  | .forward =>
    if s.inSlice r.homePart then
      s.inject (BitVec.ofNat 4 (11 + t / 256))
        { s.header 1 3 r.homePart with
          length := 256, rest := putRest r.homeRegion.toNat t false, payload := x.rv src }
    else s.otherDrop 0

/-- Hazards of a TX instruction that reads these registers. -/
def txHazards (regs : List RegRef) (t : Nat) (s : State) : List Hazard :=
  let x := s.tile t
  readEarly x (tileNum t) .tx x.isle.count regs

/-! ## Control flow (R97 to R99) -/

/-- The end index of the innermost active loop, or 1,023. -/
def innerEnd (x : Tile) : Nat :=
  match x.loops.getLast? with
  | none => 1023
  | some l => l.endIndex

/-- A LOOP at the tile's fetch index keeps the rules of R99. -/
def loopLegal (x : Tile) (e : Nat) : Bool :=
  x.pc < e && x.loops.length < 4 && x.loops.all fun l => e ≤ l.endIndex

/-- LOOP. -/
def ctLoop (trips : BitVec 16) (e : BitVec 10) (x : Tile) : Tile :=
  if loopLegal x e.toNat then
    { x with loops := x.loops ++
      [{ start := x.pc + 1, endIndex := e.toNat, trips := trips.toNat + 1, index := 0 }] }
  else x

/-- A BRC at the tile's fetch index keeps the rules of R99. -/
def brcLegal (x : Tile) (level : BitVec 2) (target : BitVec 10) : Bool :=
  level.toNat < x.loops.length && x.pc < target.toNat && target.toNat ≤ innerEnd x

/-- Loop index of a level, 0 when it is not active. -/
def loopIndex (x : Tile) (level : Nat) : Nat :=
  match x.loops[level]? with
  | none => 0
  | some l => l.index

/-- BRC. -/
def ctBrc (level : BitVec 2) (value : BitVec 15) (target : BitVec 10) (x : Tile) : Tile :=
  if brcLegal x level target && loopIndex x level.toNat == value.toNat then
    { x with branch := some target.toNat }
  else x

/-- ENDL. -/
def ctEndl (x : Tile) : Tile := { x with drained := true }

/-- Close or repeat the loops whose body ends at an index, innermost first: the remaining levels outermost
first, and the next index where one repeats (R98). `l` is innermost first. -/
def loopBack (i : Nat) : List LoopLevel → List LoopLevel × Option Nat
  | [] => ([], none)
  | l :: t =>
    if l.endIndex = i then
      if l.index + 1 < l.trips then ((({ l with index := l.index + 1 } : LoopLevel) :: t).reverse, some l.start)
      else loopBack i t
    else ((l :: t).reverse, none)

/-- The fetch index of the next cycle and the loops then active. -/
def Tile.advance (x : Tile) : Tile :=
  if x.drained || 1024 ≤ x.pc then { x with pc := 1024, branch := none }
  else
    match x.branch with
    | some b => { x with pc := b, branch := none }
    | none =>
      let (ls, next) := loopBack x.pc x.loops.reverse
      { x with loops := ls, pc := next.getD (x.pc + 1), branch := none }

/-! ## Scalars (R96) -/

/-- The CT slot executes: SETS (R90). -/
def setsLegal (imm : BitVec 20) (mode : BitVec 2) : Bool :=
  mode != 3 && (mode != 1 || imm.extractLsb' 12 8 == 0)

/-- SETS. -/
def ctSets (sd : BitVec 5) (imm : BitVec 20) (mode : BitVec 2) (x : Tile) : Tile :=
  if setsLegal imm mode then
    let old := x.rs sd
    let v : Word := match mode.toNat with
      | 0 => imm.signExtend 32
      | 1 => (old &&& 0x000FFFFF) ||| ((imm.extractLsb' 0 12).setWidth 32 <<< 20)
      | _ => old + imm.signExtend 32
    x.postNow 1 .ct (.sreg sd v) 0
  else x

/-- The CT slot executes: SETA (R90). -/
def setaLegal (imm : BitVec 20) (mode : BitVec 3) : Bool :=
  mode.toNat < 4 && (mode != 3 || imm.extractLsb' 5 15 == 0)

/-- SETA. -/
def ctSeta (ad : BitVec 4) (imm : BitVec 20) (mode : BitVec 3) (x : Tile) : Tile :=
  if setaLegal imm mode then
    let old := x.ra ad
    let v : BitVec 40 := match mode.toNat with
      | 0 => imm.signExtend 40
      | 1 => (old &&& 0xFFFFF) ||| (imm.setWidth 40 <<< 20)
      | 2 => old + imm.signExtend 40
      | _ => old + (x.rs (imm.extractLsb' 0 5)).signExtend 40
    x.postNow 1 .ct (.areg ad v) 0
  else x

/-- The result of SALU; none for a reserved function. -/
def saluResult (fn : BitVec 4) (a b : Word) : Option Word :=
  let k := b.toNat % 32
  match fn.toNat with
  | 0 => some (a + b)
  | 1 => some (a - b)
  | 2 => some (a &&& b)
  | 3 => some (a ||| b)
  | 4 => some (a ^^^ b)
  | 5 => some (a <<< k)
  | 6 => some (a >>> k)
  | 7 => some (a.sshiftRight k)
  | 8 => some (a * b)
  | 9 => some (if b.toInt < a.toInt then b else a)
  | 10 => some (if a.toInt < b.toInt then b else a)
  | 11 => some a
  | _ => none

/-- SALU. -/
def ctSalu (sd sa sb : BitVec 5) (fn : BitVec 4) (x : Tile) : Tile :=
  match saluResult fn (x.rs sa) (x.rs sb) with
  | none => x
  | some v => x.postNow 1 .ct (.sreg sd v) 0

/-- Saturated time-stamp offset of an island (R82). -/
def Island.offset (i : Island) : Nat := min i.count 0xFFFFFF

/-- The value of an RDCTL selector in the issue cycle (Table 4-10); none for a reserved one. -/
def State.control (s : State) (t : Nat) (sel : BitVec 5) : Option Word :=
  let x := s.tile t
  let n (v : Nat) : Option Word := some (BitVec.ofNat 32 v)
  match sel.toNat with
  | 0 => n x.isle.offset
  | 1 => some (s.bell.number.setWidth 32)
  | 2 => n (s.bell.number.toNat / 2 ^ 32)
  | 3 => n s.bell.attempt.toNat
  | 4 => n s.bell.index
  | 5 => n s.pw.step.toNat
  | 6 => n (loopIndex x 0)
  | 7 => n (loopIndex x 1)
  | 8 => n (loopIndex x 2)
  | 9 => n (loopIndex x 3)
  | 10 => n t
  | 11 => n s.rc.address.toNat
  | 12 => n x.flags.toNat
  | 13 => n x.isle.lessonStretch
  | _ => none

/-- RDCTL. -/
def ctRdctl (sd sel : BitVec 5) (t : Nat) (s : State) : State :=
  match s.control t sel with
  | none => s
  | some v => s.modTile t fun x => x.postNow 1 .ct (.sreg sd v) 0

/-- MSET. -/
def ctMset (md : BitVec 3) (sa sb : BitVec 5) (x : Tile) : Tile :=
  x.postNow 1 .ct (.mreg md (x.rs sb ++ x.rs sa) (BitVec.allOnes 64)) 0

/-- DGSEL. -/
def ctDgsel (tensor : BitVec 16) (x : Tile) : Tile := { x with tensor := tensor }

/-! ## Random numbers (R179 to R181) -/

/-- The four counter words and the key of a round. -/
structure Philox where
  x0 : Word
  x1 : Word
  x2 : Word
  x3 : Word
  k0 : Word
  k1 : Word
  deriving DecidableEq, Repr

/-- One round (R181). -/
def Philox.round (p : Philox) : Philox :=
  let p0 := 0xD2511F53 * p.x0.toNat
  let p1 := 0xCD9E8D57 * p.x2.toNat
  let hi (n : Nat) : Word := BitVec.ofNat 32 (n / 2 ^ 32)
  { x0 := hi p1 ^^^ p.x1 ^^^ p.k0
    x1 := BitVec.ofNat 32 p1
    x2 := hi p0 ^^^ p.x3 ^^^ p.k1
    x3 := BitVec.ofNat 32 p0
    k0 := p.k0 + 0x9E3779B9
    k1 := p.k1 + 0xBB67AE85 }

/-- n rounds. -/
def Philox.rounds (p : Philox) : Nat → Philox
  | 0 => p
  | n + 1 => p.round.rounds n

/-- The counter and key of lane group g (Table 7-10). -/
def randCounter (s : State) (t : Nat) (draw : Word) (stream : BitVec 2) (g : Nat) : Philox :=
  let bell := s.bell.number
  { x0 := bell.setWidth 32
    x1 := BitVec.ofNat 32 (bell.toNat / 2 ^ 32 + 2 ^ 8 * t + 2 ^ 18 * (s.member % 4096) + 2 ^ 30 * stream.toNat)
    x2 := draw
    x3 := BitVec.ofNat 32 g
    k0 := s.job.seed.setWidth 32
    k1 := (s.job.seed >>> 32).setWidth 32 }

/-- Output word k of a counter. -/
def Philox.out (p : Philox) (k : Nat) : Word :=
  match k with
  | 0 => p.x0
  | 1 => p.x1
  | 2 => p.x2
  | _ => p.x3

/-- A word in one of the three forms (R181). -/
def randForm (form : BitVec 2) (w : Word) : Word :=
  let m := w.toNat / 256
  match form.toNat with
  | 0 => w
  | 1 => enc32 false m (-24)
  | _ => enc32 false (m + 1) (-24)

/-- RAND. -/
def ctRand (vd sa : BitVec 5) (stream form : BitVec 2) (t : Nat) (s : State) : State :=
  if form == 3 then s
  else
    let draw := (s.tile t).rs sa
    let v := ofLanes fun n =>
      randForm form (((randCounter s t draw stream (n / 4)).rounds 10).out (n % 4))
    s.modTile t fun x => x.postNow 8 .ct (.vreg vd v allBits) 0

/-- LOOP_RULE of a LOOP or BRC that breaks R99. -/
def loopHazard (x : Tile) (ok : Bool) : List Hazard := if ok then [] else [⟨12, x.pc, 0⟩]

/-- READ_EARLY of a CT instruction. -/
def ctHazards (regs : List RegRef) (t : Nat) (s : State) : List Hazard :=
  let x := s.tile t
  readEarly x (tileNum t) .ct x.isle.count regs

end Sys2Proof.Machine
end

