-- ==== Sys2Proof/Machine/Cycle.lean ====
section
/-! DEFINITION. The end of a tile's cycle (R100 to R102): hinge releases, row writes, the arbitration of the
writes that fall due, and the step to the next cycle. -/

namespace Sys2Proof.Machine

/-! ## Transposed rows (R197, R198) -/

/-- Byte of a filled block. -/
def TransposeFill.byte (f : TransposeFill) (p : Nat) : Byte := byteOf (tabGet 0 f.granules (p / 256)) (p % 256)

/-- The row a transposed LDO delivers from its fill. -/
def transposedRow (f : TransposeFill) (row : Nat) (wide : Bool) (half : Nat) : Vec :=
  packFields 8 256 fun b =>
    if wide then
      if b / 64 % 2 = half then f.byte (128 * (b % 64 / 2) + 2 * (2 * row + b / 128) + b % 2) else 0
    else f.byte (64 * (b % 64) + 4 * (row % 16) + b / 64)

/-! ## Hinge releases (R48) -/

/-- What an entry delivers in its due cycle: its data when it is held, zeros otherwise. -/
def HingeItem.value (h : HingeItem) : Vec :=
  match h.status with
  | .held => h.data
  | _ => 0

/-- The entry is held. -/
def HingeItem.ready (h : HingeItem) : Bool := h.status == .held

/-- Order of the writes of one slot (R95, R101): a load by its issue cycle; a send of the tile to itself over
sends of other tiles, and among these the lower part tile number; of one sender the later issue. -/
def HingeItem.rank (h : HingeItem) (self : Nat) : Nat :=
  match h.slot with
  | .tx => (if h.source.toNat = self then 1024 else 1023 - h.source.toNat) * 2 ^ 32 + h.issue
  | _ => h.issue

/-- The write of a hinge entry in its due cycle. -/
def HingeItem.write (h : HingeItem) (self : Nat) : PendWrite :=
  { due := h.due - 1, slot := h.slot, issue := h.issue, rank := h.rank self, op := deliverOp h.dest h.value, flags := 0 }

/-- The data of the entry is still on its way to the hinge. -/
def HingeItem.coming (h : HingeItem) : Bool :=
  match h.status with
  | .awaiting _ => true
  | .flight => true
  | _ => false

/-- Zeros released in a due cycle: LATE, counted, reported. -/
def State.lateRelease (s : State) (t : Nat) (h : HingeItem) : State :=
  ((s.tileCause cLate t h.due).countTile t 0x000C 1).hazard t 2 h.due (tileIsland h.source.toNat) 0

/-- Release every entry whose due cycle follows the current one. What comes later is discarded when it arrives. -/
def State.hingeRelease (s : State) (t : Nat) : State :=
  let x := s.tile t
  let d := x.isle.count + 1
  let due := x.hinge.filter fun h => h.due == d
  let s := due.foldl (fun s h => if h.ready then s.probe 3 t else s.lateRelease t h) s
  s.modTile t fun x =>
    { x with
      hinge := x.hinge.filter fun h => h.due != d || h.coming
      pend := x.pend ++ due.map fun h => h.write t }

/-! ## Arbitration (R100, R101) -/

/-- Where a write goes, for the choice of R101; memory writes of a tile all apply, in order. -/
def WriteOp.place : WriteOp → Option (Nat × Nat)
  | .sreg r _ => some (0, r.toNat)
  | .areg r _ => some (1, r.toNat)
  | .vreg r _ _ => some (2, r.toNat)
  | .mreg r _ _ => some (3, r.toNat)
  | .acc b row _ _ => some (4, 64 * b.toNat + row.toNat)
  | .buf b row _ _ => some (5, 32 * b.toNat + row.toNat)
  | .ib h g _ => some (6, 128 * h.toNat + g.toNat)
  | .store _ _ _ => none

/-- Lower priority of two writes of one cycle. -/
def PendWrite.before (p q : PendWrite) : Bool :=
  p.slot.number < q.slot.number || (p.slot.number == q.slot.number && p.rank < q.rank)

/-- Insert a write behind those of lower or equal priority. -/
def insertWrite (p : PendWrite) : List PendWrite → List PendWrite
  | [] => [p]
  | q :: t => if p.before q then p :: q :: t else q :: insertWrite p t

/-- Writes in ascending priority. -/
def sortWrites (l : List PendWrite) : List PendWrite := l.foldl (fun a p => insertWrite p a) []

/-- The writes that take effect: of those to one register, the last in ascending priority. -/
def keepWrites : List PendWrite → List PendWrite
  | [] => []
  | p :: t =>
    match p.op.place with
    | none => p :: keepWrites t
    | some k => if t.any fun q => q.op.place == some k then keepWrites t else p :: keepWrites t

/-- Write a register, a buffer row or a granule of the inactive half. -/
def Tile.writeReg (x : Tile) : WriteOp → Tile
  | .sreg r v => { x with s := tabSet 0 x.s r.toNat v }
  | .areg r v => { x with a := tabSet 0 x.a r.toNat v }
  | .vreg r v m => { x with v := tabMod 0 x.v r.toNat (blend m v) }
  | .mreg r v m => if r = 0 then x else { x with m := tabMod 0 x.m r.toNat (blend m v) }
  | .acc b row v m => { x with acc := tabMod 0 x.acc (64 * b.toNat + row.toNat) (blend m v) }
  | .buf b row v m => { x with buf := tabMod 0 x.buf (32 * b.toNat + row.toNat) (blend m v) }
  | .ib h g v =>
    { x with
      ib := (List.range 8).foldl (fun t i =>
        tabSet 0 t (1024 * h.toNat + 8 * g.toNat + i) (v.extractLsb' (256 * i) 256)) x.ib
      ibValid := tabSet false x.ibValid (128 * h.toNat + g.toNat) true
      ibUe := x.ibUe.filter fun w => w / 32 != 128 * h.toNat + g.toNat }
  | .store _ _ _ => x

/-- Perform one write of a tile. -/
def State.performWrite (s : State) (t : Nat) (p : PendWrite) : State :=
  match p.op with
  | .store g v b => s.applyGranule (storeBase t + 256 * g) v b
  | .ib h _ _ =>
    if h == (s.tile t).active then s.tcDiscard else s.modTile t (·.writeReg p.op)
  | op => s.modTile t (·.writeReg op)

/-- Perform the writes that fall due at the end of a cycle. -/
def State.performWrites (s : State) (t c : Nat) : State :=
  let x := s.tile t
  let due := x.pend.filter fun p => p.due == c
  let fl := due.foldl (fun a p => a ||| p.flags) x.flags
  let s := s.modTile t fun x =>
    { x with pend := x.pend.filter (fun p => p.due != c), flags := fl }
  (keepWrites (sortWrites due)).foldl (fun s p => s.performWrite t p) s

/-! ## The end of a cycle -/

/-- Read the matrix and accumulator-stream operands of the current cycle. -/
def Tile.capture (x : Tile) : Tile :=
  let (x, mx) := captureAll x x.mx
  let x := { x with mx := mx }
  let step (a : Tile × List StreamRun) (q : StreamRun) : Tile × List StreamRun :=
    let c := x.isle.count
    if q.issue ≤ c && c < q.issue + 64 then
      let (y, q) := streamRow a.1 q (c - q.issue)
      (y, a.2 ++ [q])
    else (a.1, a.2 ++ [q])
  let (x, st) := x.streams.foldl step (x, [])
  { x with streams := st }

/-- The end of a cycle of an island: a debug stop that is due takes hold, and the count stays at the last clocked
cycle (R84, R450). -/
def Island.tick (i : Island) : Island :=
  let stop := i.stopAt == some i.count
  { i with count := if stop then i.count else i.count + 1, stopped := i.stopped || stop
           stopAt := if stop then none else i.stopAt }

/-- Drop what has finished and step to the next cycle. -/
def Tile.nextCycle (x : Tile) : Tile :=
  let c := x.isle.count
  let x := x.advance
  { x with
    mx := x.mx.filter fun q => c < q.issue + 135
    streams := x.streams.filter fun q => c < q.issue + 63
    issued := false
    isle := x.isle.tick }

/-- The end of a tile's cycle in a lesson. -/
def State.endCycle (s : State) (t : Nat) : State :=
  let c := (s.tile t).isle.count
  let s := s.report t (snapHazards (s.tile t) t)
  let s := s.modTile t Tile.capture
  let s := s.hingeRelease t
  let s := s.modTile t postRows
  let s := s.performWrites t c
  s.modTile t Tile.nextCycle

end Sys2Proof.Machine
end

