-- ==== Sys2Proof/Machine/Sequencer.lean ====
section
/-! DEFINITION. The tile sequencer (chapter 04): the slots of a bundle, its fetch and issue, breakpoints, the
end of a lesson on a tile, hinges and stretching. -/

namespace Sys2Proof.Machine

/-! ## Slots of a bundle (Tables 4-3 to 4-9, 5-2, 7-1, 7-9) -/

/-- n bits of a slot from a bit on. -/
def slotBits (w : BitVec k) (lo n : Nat) : BitVec n := w.extractLsb' lo n

/-- Fields of the MX slot. -/
def mxFields (w : BitVec 48) : MxFields :=
  { acc := slotBits w 6 2, accumulate := bit w 8, held := slotBits w 9 1, stream := slotBits w 10 1
    fmtA := slotBits w 11 4, fmtB := slotBits w 15 4, mxA := bit w 19, mxB := bit w 20, mask := slotBits w 21 3
    sat := bit w 24, pieceA := slotBits w 25 2, pieceB := slotBits w 27 2, scaleA := slotBits w 29 5
    scaleB := slotBits w 34 5, shift := slotBits w 39 6 }

/-- Fields of the VX slot. -/
def vxFields (w : BitVec 64) : VxFields :=
  { vd := slotBits w 8 5, va := slotBits w 13 5, vb := slotBits w 18 5, mask := slotBits w 23 3
    zeroing := bit w 26, vc := slotBits w 27 5, rnd := slotBits w 32 2, ftz := bit w 34, sat := bit w 35
    bs := bit w 36, sb := slotBits w 37 5, cs := bit w 42, sc := slotBits w 43 5, fmt := slotBits w 48 4
    fmt2 := slotBits w 52 4, aux := slotBits w 56 8 }

/-- The VX opcode of a code (Table 7-2). -/
def vxOpOf (code : Nat) : Option VxOp :=
  match code with
  | 0x01 => some .vmov | 0x02 => some .iadd | 0x03 => some .isub | 0x04 => some .imul | 0x05 => some .imin
  | 0x06 => some .imax | 0x07 => some .band | 0x08 => some .bor | 0x09 => some .bxor | 0x0A => some .shl
  | 0x0B => some .shr | 0x0C => some .sar | 0x0D => some .key | 0x0E => some .vcmp | 0x0F => some .vsel
  | 0x10 => some .vperm | 0x11 => some .vrda | 0x12 => some .vwra | 0x13 => some .vgath | 0x14 => some .vscat
  | 0x20 => some .fadd | 0x21 => some .fsub | 0x22 => some .fmul | 0x23 => some .ffma | 0x24 => some .fmax
  | 0x25 => some .fmin | 0x26 => some .vcvt | 0x27 => some .vscan | 0x28 => some .vscanx | 0x29 => some .vred
  | 0x2A => some .vhist | 0x2B => some .vfirst | 0x2C => some .vacc | 0x2D => some .vscana
  | 0x30 => some .exp2 | 0x31 => some .log2 | 0x32 => some .rcp | 0x33 => some .rsqrt | 0x34 => some .sin
  | 0x35 => some .cos
  | _ => none

/-- Fields of the LD slot. -/
def ldFields (w : BitVec 40) : LdFields :=
  { reach := slotBits w 5 2, dst := slotBits w 7 5, base := slotBits w 12 4, offset := slotBits w 16 16
    aux := slotBits w 32 8 }

/-- The LD opcode of a code (Table 4-6). -/
def ldOpOf (code : Nat) : Option LdOp :=
  match code with
  | 1 => some .lds
  | 2 => some .ldv
  | 3 => some .ldo
  | 4 => some .ldi
  | _ => none

/-- Fields of the ST slot. -/
def stFields (w : BitVec 40) : StFields :=
  { reach := slotBits w 5 2, src := slotBits w 7 5, base := slotBits w 12 4, offset := slotBits w 16 16
    mask := slotBits w 32 3, digest := bit w 35 }

/-- What one slot does in its tile's current cycle: the hazards it shows and its effect. -/
structure SlotWork where
  hazards : State → List Hazard
  run : State → State

/-- A slot that does nothing. -/
def SlotWork.nop : SlotWork := ⟨fun _ => [], fun s => s⟩

/-- MX instruction. -/
def mxWork (conv : Bool) (f : MxFields) (t : Nat) : SlotWork := ⟨mxHazards conv f t, mxIssue conv f t⟩

/-- VX instruction. -/
def vxWork (op : VxOp) (f : VxFields) (t : Nat) : SlotWork := ⟨vxHazards op f t, vxIssue op f t⟩

/-- LD instruction. -/
def ldWork (op : LdOp) (f : LdFields) (t : Nat) : SlotWork := ⟨ldHazards op f t, ldIssue op f t⟩

/-- ST instruction. -/
def stWork (vec : Bool) (f : StFields) (t : Nat) : SlotWork := ⟨stHazards vec f t, stIssue vec f t⟩

/-- SENDV. -/
def sendvWork (src due : BitVec 5) (dst : BitVec 10) (reg : BitVec 5) (t : Nat) : SlotWork :=
  ⟨txHazards [refV src, refS due] t, sendIssue true src due dst reg t⟩

/-- SENDS. -/
def sendsWork (src due : BitVec 5) (dst : BitVec 10) (reg : BitVec 5) (t : Nat) : SlotWork :=
  ⟨txHazards [refS src, refS due] t, sendIssue false src due dst reg t⟩

/-- RED. -/
def redWork (src due : BitVec 5) (group : BitVec 8) (t : Nat) : SlotWork :=
  ⟨txHazards [refV src, refS due] t, redIssue src due group t⟩

/-- PUT. -/
def putWork (src : BitVec 5) (region : BitVec 8) (t : Nat) : SlotWork :=
  ⟨txHazards [refV src] t, putIssue src region t⟩

/-- LOOP. -/
def loopWork (trips : BitVec 16) (e : BitVec 10) (t : Nat) : SlotWork :=
  ⟨fun s => loopHazard (s.tile t) (loopLegal (s.tile t) e.toNat), fun s => s.modTile t (ctLoop trips e)⟩

/-- BRC. -/
def brcWork (level : BitVec 2) (value : BitVec 15) (target : BitVec 10) (t : Nat) : SlotWork :=
  ⟨fun s => loopHazard (s.tile t) (brcLegal (s.tile t) level target),
    fun s => s.modTile t (ctBrc level value target)⟩

/-- ENDL. -/
def endlWork (t : Nat) : SlotWork := ⟨fun _ => [], fun s => s.modTile t ctEndl⟩

/-- SETS; the modes that keep or add read their register. -/
def setsWork (sd : BitVec 5) (imm : BitVec 20) (mode : BitVec 2) (t : Nat) : SlotWork :=
  ⟨fun s => if setsLegal imm mode && mode != 0 then ctHazards [refS sd] t s else [],
    fun s => s.modTile t (ctSets sd imm mode)⟩

/-- SETA. -/
def setaWork (ad : BitVec 4) (imm : BitVec 20) (mode : BitVec 3) (t : Nat) : SlotWork :=
  ⟨fun s => if setaLegal imm mode && mode != 0 then
      ctHazards (refA ad :: (if mode = 3 then [refS (imm.extractLsb' 0 5)] else [])) t s else [],
    fun s => s.modTile t (ctSeta ad imm mode)⟩

/-- SALU; the copy reads one operand. -/
def saluWork (sd sa sb : BitVec 5) (fn : BitVec 4) (t : Nat) : SlotWork :=
  ⟨fun s => if fn.toNat < 12 then ctHazards (if fn = 11 then [refS sa] else [refS sa, refS sb]) t s else [],
    fun s => s.modTile t (ctSalu sd sa sb fn)⟩

/-- RDCTL. -/
def rdctlWork (sd sel : BitVec 5) (t : Nat) : SlotWork := ⟨fun _ => [], ctRdctl sd sel t⟩

/-- MSET. -/
def msetWork (md : BitVec 3) (sa sb : BitVec 5) (t : Nat) : SlotWork :=
  ⟨ctHazards [refS sa, refS sb] t, fun s => s.modTile t (ctMset md sa sb)⟩

/-- RAND. -/
def randWork (vd sa : BitVec 5) (stream form : BitVec 2) (t : Nat) : SlotWork :=
  ⟨fun s => if form = 3 then [] else ctHazards [refS sa] t s, ctRand vd sa stream form t⟩

/-- DGSEL. -/
def dgselWork (tensor : BitVec 16) (t : Nat) : SlotWork := ⟨fun _ => [], fun s => s.modTile t (ctDgsel tensor)⟩

/-- The MX slot of a bundle. -/
def mxSlot (b : Bundle) (t : Nat) : SlotWork :=
  let w : BitVec 48 := slotBits b 0 48
  match (slotBits w 0 6).toNat with
  | 1 => mxWork false (mxFields w) t
  | 2 => mxWork true (mxFields w) t
  | _ => .nop

/-- The VX slot. -/
def vxSlot (b : Bundle) (t : Nat) : SlotWork :=
  let w : BitVec 64 := slotBits b 48 64
  match vxOpOf (slotBits w 0 8).toNat with
  | some op => vxWork op (vxFields w) t
  | none => .nop

/-- The LD slot. -/
def ldSlot (b : Bundle) (t : Nat) : SlotWork :=
  let w : BitVec 40 := slotBits b 112 40
  match ldOpOf (slotBits w 0 5).toNat with
  | some op => ldWork op (ldFields w) t
  | none => .nop

/-- The ST slot. -/
def stSlot (b : Bundle) (t : Nat) : SlotWork :=
  let w : BitVec 40 := slotBits b 152 40
  match (slotBits w 0 5).toNat with
  | 1 => stWork false (stFields w) t
  | 2 => stWork true (stFields w) t
  | _ => .nop

/-- The TX slot (Table 4-8). -/
def txSlot (b : Bundle) (t : Nat) : SlotWork :=
  let w : BitVec 32 := slotBits b 192 32
  match (slotBits w 0 5).toNat with
  | 1 => sendvWork (slotBits w 5 5) (slotBits w 10 5) (slotBits w 15 10) (slotBits w 25 5) t
  | 2 => sendsWork (slotBits w 5 5) (slotBits w 10 5) (slotBits w 15 10) (slotBits w 25 5) t
  | 3 => redWork (slotBits w 5 5) (slotBits w 10 5) (slotBits w 15 8) t
  | 4 => putWork (slotBits w 5 5) (slotBits w 10 8) t
  | _ => .nop

/-- The CT slot (Tables 4-9 and 7-9). -/
def ctSlot (b : Bundle) (t : Nat) : SlotWork :=
  let w : BitVec 32 := slotBits b 224 32
  match (slotBits w 0 5).toNat with
  | 1 => loopWork (slotBits w 5 16) (slotBits w 21 10) t
  | 2 => brcWork (slotBits w 5 2) (slotBits w 7 15) (slotBits w 22 10) t
  | 3 => endlWork t
  | 4 => setsWork (slotBits w 5 5) (slotBits w 10 20) (slotBits w 30 2) t
  | 5 => setaWork (slotBits w 5 4) (slotBits w 9 20) (slotBits w 29 3) t
  | 6 => saluWork (slotBits w 5 5) (slotBits w 10 5) (slotBits w 15 5) (slotBits w 20 4) t
  | 7 => rdctlWork (slotBits w 5 5) (slotBits w 10 5) t
  | 8 => msetWork (slotBits w 5 3) (slotBits w 8 5) (slotBits w 13 5) t
  | 9 => randWork (slotBits w 5 5) (slotBits w 10 5) (slotBits w 15 2) (slotBits w 17 2) t
  | 10 => dgselWork (slotBits w 5 16) t
  | _ => .nop

/-- The slots of a bundle in their order. -/
def bundleWork (b : Bundle) (t : Nat) : List SlotWork :=
  [mxSlot b t, vxSlot b t, ldSlot b t, stSlot b t, txSlot b t, ctSlot b t]

/-- Issue slots together: every slot reads what stands at the start of the cycle, and the hall monitor
reports the lowest hazard of the cycle (R448). The issue itself can raise codes 5 and above. -/
def State.issue (s : State) (t : Nat) (l : List SlotWork) : State :=
  let hz := l.flatMap fun w => w.hazards s
  let s := s.report t (hz.filter fun h => h.code < 5)
  let s := l.foldl (fun s w => w.run s) s
  s.report t (hz.filter fun h => 5 ≤ h.code)

/-- Issue one instruction in a tile's current cycle, where the tile issues at all. -/
def State.issueOne (s : State) (t : Nat) (w : SlotWork) : State :=
  if s.tileRuns t then s.issue t [w] else s

/-! ## Bundle fetch (R97, R113) -/

/-- Key of the bundle at a tile's fetch index in its active half. -/
def fetchKey (x : Tile) : Nat := 1024 * x.active.toNat + x.pc

/-- The loaded image gives the tile idle bundles in this lesson (Table 17-2). -/
def State.noBundles (s : State) (t : Nat) : Bool :=
  match s.job.image with
  | none => false
  | some im => (tileSet im s.member s.bell.index t).isNone

/-- The tile fetches from its instruction buffer in this cycle. -/
def State.fetches (s : State) (t : Nat) : Bool :=
  let x := s.tile t
  x.pc < 1024 && !x.drained && !s.noBundles t

/-- Words of the fetched bundle that read as uncorrectable. -/
def fetchUe (x : Tile) : List Nat := x.ibUe.filter fun w => w / 4 == fetchKey x

/-- Note an uncorrectable word of the instruction buffer (R112). -/
def Tile.noteIbUe (x : Tile) (w : Nat) : Tile :=
  if x.ibUeSeen.contains w then { x with fenceDue := if x.fenceDue = 0 then 4 else x.fenceDue }
  else { x with ibUeSeen := x.ibUeSeen ++ [w] }

/-- The bundle a tile fetches, with the events of the fetch. -/
def State.fetch (s : State) (t : Nat) : Bundle × State :=
  let x := s.tile t
  let bad := fetchUe x
  if bad = [] then (tabGet 0 x.ib (fetchKey x), s)
  else
    (0, (s.modTile t fun x => bad.foldl Tile.noteIbUe x).tileCause cUncorrectable t x.isle.count)

/-! ## Breakpoints (R449) -/

/-- An armed breakpoint of kind 1 or 2 fires on a tile that has just issued a bundle. -/
def breakFires (t bundles : Nat) (tag : BitVec 64) (b : Breakpoint) : Bool :=
  (b.tile == 0xFFFF || b.tile.toNat == t) &&
    (match b.kind.toNat with
    | 1 => b.value.toNat == bundles
    | 2 => b.value == tag
    | _ => false)

/-- The breakpoint of lowest kind. -/
def lowestBreak (l : List Breakpoint) : Option Breakpoint :=
  l.foldl (fun a b => match a with
    | none => some b
    | some c => if b.kind.toNat < c.kind.toNat then some b else some c) none

/-- Fire the breakpoints that a bundle just issued meets: each disarms, and stops the part where it has not stopped
before this cycle; of several in one cycle the report names the lowest tile, then the lowest kind. -/
def State.breakpoints (s : State) (t : Nat) (tag : BitVec 64) : State :=
  let x := s.tile t
  if s.dg.debugMode && (!s.dg.stopped || s.stoppedNow x.isle.count) then
    match lowestBreak (s.dg.breakpoints.filter (breakFires t x.bundles tag)) with
    | none => s
    | some b =>
      let s := { s with dg := { s.dg with
          breakpoints := s.dg.breakpoints.filter fun b => !breakFires t x.bundles tag b } }
      if !s.dg.stopped then s.debugStop false t 0 b.kind.toNat x.isle.count tag 0 0 (some t)
      else if !s.dg.hazard && t < s.dg.stopTile.toNat then s.takeStop false t 0 b.kind.toNat x.isle.count tag 0 0
      else s
  else s

/-! ## The commands of the sequencer -/

/-- Fetch and issue the bundle of the current cycle. -/
def State.fetchIssue (s : State) (t : Nat) : State :=
  if s.fetches t then
    let tag := s.bundleTag t
    let (b, s) := s.fetch t
    let s := (s.modTile t fun x => { x with issued := true, bundles := x.bundles + 1 }).countTile t 0x0001 1
    let s := s.issue t (bundleWork b t)
    s.breakpoints t tag
  else s.modTile t fun x => { x with issued := true }

/-- BUNDLE_FETCH: the next cycle's bundle; a cycle whose bundle has issued ends first. -/
def execBundleFetch (tile : BitVec 10) (s : State) : Host.Outcome State Fault Refusal :=
  let t := tile.toNat
  .next (
    if s.tileRuns t then
      let s := if (s.tile t).issued then s.endCycle t else s
      if s.tileRuns t then s.fetchIssue t else s
    else s)

/-- Granules that a bundle count needs. -/
def granulesOf (bundles : Nat) : Nat := (bundles + 7) / 8

/-- Valid granules of a tile's inactive half. -/
def Tile.validInactive (x : Tile) : Nat :=
  ((List.range 128).filter fun g => tabGet false x.ibValid (128 * (1 - x.active.toNat) + g)).length

/-- The refill check of a tile at its lesson's end (R108). -/
def State.refillCheck (s : State) (t : Nat) : State :=
  let x := s.tile t
  match s.nextIndex with
  | none => s
  | some j =>
    let need := granulesOf (s.declared (some j) t)
    if (List.range need).all fun g => tabGet false x.ibValid (128 * (1 - x.active.toNat) + g) then s
    else
      let c := s.bell.lessonLength - 1
      (s.tileCause cUnderrun t c).hazard t 14 c x.validInactive 0

/-- The last cycle of the lesson has been reached. -/
def State.lastCycle (s : State) (t : Nat) : Bool :=
  let x := s.tile t
  s.bell.phase == .lesson && !s.fenced t && !x.isle.stopped && !x.ended &&
    s.bell.lessonLength ≤ x.isle.count + 1

/-- LESSON_END: the last cycle completes, the refill check is made and the tile issues no more. -/
def execLessonEnd (tile : BitVec 10) (s : State) : Host.Outcome State Fault Refusal :=
  let t := tile.toNat
  .next (
    if s.lastCycle t then
      let s := if (s.tile t).isle.count < s.bell.lessonLength then s.endCycle t else s
      (s.refillCheck t).modTile t fun x => { x with ended := true }
    else s)

/-- RESULT_WRITEBACK: the end of a tile's cycle; in recess its count alone advances (R82). -/
def execResultWriteback (tile : BitVec 10) (s : State) : Host.Outcome State Fault Refusal :=
  let t := tile.toNat
  .next (
    if s.fenced t || (s.tileIsle t).stopped then s
    else if s.tileRuns t then s.endCycle t
    else s.modTile t fun x => { x with isle := x.isle.tick })

/-- MX_ROW_WRITE: the accumulator rows whose write falls at the end of the current cycle are computed and
handed to the cycle's arbitration (R101, R127). -/
def execMxRowWrite (tile : BitVec 10) (s : State) : Host.Outcome State Fault Refusal :=
  let t := tile.toNat
  .next (if s.tileRuns t then s.modTile t postRows else s)

/-! ## Hinges (R48, R76 to R79) -/

/-- Entries held in the receiving hinge through which an entry comes: one hinge for the loads of the tile and one for
each tile that sends to it (log 131). -/
def Tile.heldEntries (x : Tile) (h : HingeItem) : Nat :=
  (x.hinge.filter fun g => g.ready && g.slot == h.slot && g.source == h.source).length

/-- A hinge discards an entry and counts it (log 132). -/
def Tile.discard (x : Tile) : Tile := { x with discards := x.discards + 1 }

/-- Change the hinge entries of a number. -/
def Tile.modEntry (x : Tile) (id : Nat) (f : HingeItem → HingeItem) : Tile :=
  { x with hinge := x.hinge.map fun h => if h.id == id then f h else h }

/-- Remove the hinge entries of a number. -/
def Tile.dropEntry (x : Tile) (id : Nat) : Tile := { x with hinge := x.hinge.filter fun h => h.id != id }

/-- An entry arrives with data: held, or discarded and counted where its hinge holds 16 (R78). -/
def State.entryArrives (s : State) (t : Nat) (h : HingeItem) (data : Vec) : State :=
  let x := s.tile t
  if x.heldEntries h < 16 then
    (s.modTile t (·.modEntry h.id fun h => { h with data := data, status := .held })).probe 2 t
  else
    (s.modTile t fun x => (x.modEntry h.id fun h => { h with status := .lost }).discard).hazard t 3 x.isle.count
      (tileIsland h.source.toNat) 0

/-- A fill holds its sixteen granules. -/
def TransposeFill.complete (f : TransposeFill) : Bool := f.granules.length == 16

/-- What has reached the hinge for an entry: its data where it is complete. A transposed row is cut from its
fill; one that misses a granule never comes. -/
def arrivedData (x : Tile) (h : HingeItem) : Option (Option Vec) :=
  match h.status, h.dest with
  | .flight, _ => some (some h.data)
  | .awaiting _, .transposed _ row fill wide half =>
    let f := tabGet emptyFill x.fills fill
    if f.missing then some none
    else if f.complete then some (some (transposedRow f row.toNat wide half.toNat))
    else none
  | _, _ => none

/-- HINGE_ENTRY_ARRIVAL: an entry that is on its way reaches the receiving hinge. One of another lesson, and one whose
due cycle has passed, is discarded and counted (R36, R48). -/
def execHingeEntryArrival (tile : BitVec 10) (entry : Nat) (s : State) : Host.Outcome State Fault Refusal :=
  let t := tile.toNat
  let x := s.tile t
  .next (
    match x.hinge.find? fun h => h.id == entry with
    | none => s
    | some h =>
      match arrivedData x h with
      | none => s
      | some none => s.modTile t (·.modEntry entry fun h => { h with status := .lost })
      | some (some d) =>
        if !s.tagNow h.tagBell h.tagAttempt then (s.modTile t fun x => (x.dropEntry entry).discard).countTile t 0x000D 1
        else if h.due ≤ x.isle.count then s.modTile t fun x => (x.dropEntry entry).discard
        else s.entryArrives t h d)

/-- HINGE_DUE_RELEASE: the entries due in the next cycle are released to the writes of this cycle's end. -/
def execHingeDueRelease (tile : BitVec 10) (s : State) : Host.Outcome State Fault Refusal :=
  let t := tile.toNat
  .next (if s.tileRuns t then s.hingeRelease t else s)

/-! ## Stretching (R73 to R75) -/

/-- An island id names an island of the variant (Table 3-1). -/
def islandExists (v : Variant) (id : Nat) : Bool :=
  let die := id / 2048 % 4
  let n := id % 2048
  match id / 8192 with
  | 0 => n < 256
  | 1 => n < 48
  | 2 => n < layersOf v
  | 3 => die < ioDiesOf v && n == 0
  | 4 => die == 0 && n == 0
  | _ => false

/-- Put the stretching of an island. -/
def State.setStretch (s : State) (id : Nat) (x : Stretch) : State :=
  if id < 8192 then s.modTile (islandTile id) fun y => { y with isle := { y.isle with stretch := x } }
  else { s with ts := { s.ts with now := { s.ts.now with isles := tabSet .reset s.ts.now.isles id x } } }

/-- The island index of the probe pins (R453). -/
def probeIndex (id : Nat) : Nat :=
  let die := id / 2048 % 4
  let n := id % 2048
  match id / 8192 with
  | 0 => 256 * die + n
  | 1 => 1024 + 48 * die + n
  | 2 => 1216 + 4 * die + n
  | 3 => 1232 + die
  | _ => 1236

/-- The island has no clock: fenced, stopped. -/
def State.isleStopped (s : State) (id : Nat) : Bool :=
  (s.isle id).stopped || (id < 8192 && s.fenced (islandTile id))

/-- The lesson is in progress on an island. -/
def State.isleInLesson (s : State) (id : Nat) : Bool :=
  s.bell.phase == .lesson && (s.isle id).count < s.bell.lessonLength

/-- Mark OVERSTRETCH at an island (R75): a tile, a stage or layer control (log 11), another island. -/
def State.overstretch (s : State) (id : Nat) : State :=
  let c := (s.isle id).count
  if id < 8192 then s.tileCause cOverstretch (islandTile id) c
  else if id < 24576 then s.cause cOverstretch c (id / 2048 % 4) (id % 256) 1
  else s.cause cOverstretch c 0 0 3

/-- An island stretches its cycle c (R73, R74). -/
def Stretch.droop (x : Stretch) (c : Nat) (inLesson : Bool) : Stretch :=
  { stretched := x.stretched + 1, debt := x.debt + 1, floor := c, calm := c + 1
    lessonStretch := if inLesson then x.lessonStretch + 1 else x.lessonStretch }

/-- An island recovers one cycle of its debt once 32 cycles on end have shown no droop (R74); at cycle c. -/
def Stretch.recover (x : Stretch) (c : Nat) : Stretch :=
  if x.debt ≠ 0 ∧ x.calm + 32 ≤ c then { x with debt := x.debt - 1, calm := c } else x

/-- DROOP_DETECT: the island stretches its current cycle. -/
def execDroopDetect (island : BitVec 16) (s : State) : Host.Outcome State Fault Refusal :=
  let id := island.toNat
  .next (
    if islandExists s.fused.variant id && !s.isleStopped id then
      let i := s.isle id
      let x := i.stretch.droop i.count (s.isleInLesson id)
      let exceeded := s.isleInLesson id && x.lessonStretch == s.bell.stretchBudget + 1
      let s := s.setStretch id x
      let s := (if id < 8192 then s.countTile (islandTile id) 0x000B 1 else s).probe 5 (probeIndex id)
      if exceeded then s.overstretch id else s
    else s)

/-- STRETCH_DEBT_RECOVERY: after 32 cycles without droop one cycle is recovered, and no sooner. -/
def execStretchDebtRecovery (island : BitVec 16) (s : State) : Host.Outcome State Fault Refusal :=
  let id := island.toNat
  .next (
    if islandExists s.fused.variant id && !s.isleStopped id then
      let i := s.isle id
      s.setStretch id (i.stretch.recover i.count)
    else s)

end Sys2Proof.Machine
end

