-- ==== Sys2Proof/Machine/Landing.lean ====
section
/-! DEFINITION. Pieces landing in circular regions (R213 to R220) and the stop matcher (R363, R364). -/

namespace Sys2Proof.Machine

/-! ## The stop matcher -/

/-- A generated token as the matcher keeps it. -/
abbrev Kept := Word × Word × Byte × BitVec 64

/-- Stop sequences of length 1 or more. -/
def Ctx.sequences (c : Ctx) : List (List Word) := c.stopSeqs.filter fun l => !l.isEmpty

/-- The last n elements. -/
def lastN (n : Nat) (l : List α) : List α := l.drop (l.length - n)

/-- Length of the longest stop sequence that the last tokens complete, 0 for none. -/
def Ctx.seqMatch (c : Ctx) (toks : List Word) : Nat :=
  c.sequences.foldl (fun n l => if lastN l.length toks == l && n < l.length then l.length else n) 0

/-- The holdback: length of the longest suffix, at most 15, that is a proper prefix of a stop sequence. -/
def Ctx.holdback (c : Ctx) (toks : List Word) : Nat :=
  if c.includeStop then 0
  else (List.range 16).foldl (fun n k =>
    if k ≤ toks.length && c.sequences.any fun l => k < l.length && l.take k == lastN k toks then k else n) 0

/-- The egress entry of a released token with a sequence number. -/
def tokenEntry (ctx : Nat) (c : Ctx) (seq : Word) (k : Kept) : Entry :=
  { function := c.function, context := ctx, id := c.requestId, seq := seq, value := k.1, extra := k.2.1
    kind := 1, logprobValid := bit k.2.2.1 0, reason := 0, detail := 0, stamp := k.2.2.2, slot := none }

/-- The END entry of a request. -/
def endEntry (ctx : Nat) (c : Ctx) (seq : Word) (reason detail : Byte) : Entry :=
  { function := c.function, context := ctx, id := c.requestId, seq := seq, value := 0xFFFFFFFF, extra := 0
    kind := 2, logprobValid := false, reason := reason, detail := detail, stamp := 0
    slot := none }

/-- Entries of released tokens, numbered on from the context's next sequence number. -/
def releaseTokens (ctx : Nat) (c : Ctx) : List Kept → Word → List Entry
  | [], _ => []
  | k :: t, seq => tokenEntry ctx c seq k :: releaseTokens ctx c t (seq + 1)

/-- End reason of a token (R364), 0 for none; a stop outranks a limit. -/
def Ctx.reasonOf (c : Ctx) (toks : List Word) (tok : Word) : Byte :=
  if c.stopIds.any fun i => i == tok && i != 0xFFFFFFFF then 1
  else if c.seqMatch toks ≠ 0 then 2
  else if c.emitted + 1 = c.maxNew then 3
  else if c.promptLen + c.emitted + 1 = c.maxTotal then 4
  else 0

/-- One TOKEN entry: the context in shadow and the entries it releases. -/
def Ctx.token (ctx : Nat) (c : Ctx) (k : Kept) : Ctx × List Entry :=
  if c.state == .ended || c.state == .free || c.damaged then (c, [])
  else
    let all := c.recent ++ [k]
    let toks := all.map (·.1)
    let waiting := lastN (c.held + 1) all
    let reason := c.reasonOf toks k.1
    let stop := reason = 1 || reason = 2
    let hold := min (c.holdback toks) (c.held + 1)
    let out :=
      if reason = 0 then waiting.take (waiting.length - hold)
      else if stop && !c.includeStop then
        waiting.take (waiting.length - (if reason = 1 then 1 else c.seqMatch toks))
      else waiting
    let seq := c.seq + BitVec.ofNat 32 out.length
    let ends := if reason = 0 then [] else [endEntry ctx c seq reason 0]
    let c' : Ctx := { c with
      emitted := c.emitted + 1
      recent := lastN 15 all
      generated := c.generated ++ [k.1]
      held := if reason = 0 then hold else 0
      seq := seq + BitVec.ofNat 32 ends.length
      endReason := if reason = 0 then c.endReason else reason
      state := if reason = 0 then c.state else .ended }
    (c', releaseTokens ctx c out c.seq ++ ends)

/-- The record of a context as the lesson has left it so far. -/
def Serving.shadowCtx (v : Serving) (ctx : Nat) : Ctx :=
  match v.shadow.find? fun e => e.1 == ctx with
  | some e => e.2
  | none => tabGet .reset v.contexts ctx

/-- Take one staged entry (Table 14-9). -/
def Serving.takeStaged (v : Serving) (e : List Byte) : Serving :=
  let ctx := natAt e 0 4 % 2 ^ 17
  match natAt e 4 1 with
  | 1 =>
    let k : Kept := (fieldAt 32 e 8, fieldAt 32 e 12, fieldAt 8 e 5, fieldAt 64 e 24)
    let (c, out) := (v.shadowCtx ctx).token ctx k
    { v with shadow := tabInsert v.shadow ctx c, staged := v.staged ++ out }
  | 2 =>
    { v with stepEndsStaged := v.stepEndsStaged ++
        [{ context := ctx, advance := natAt e 8 4, proposed := natAt e 12 1, accepted := natAt e 13 1 }] }
  | _ => v

/-- The stop matcher takes the eight entries of a landed slot in order. -/
def State.stopMatch (s : State) (num : Nat) (data : Vec) : State :=
  match s.job.image with
  | none => s
  | some im =>
    if s.isRegistrar && (servingStages im).contains num then
      let b := toBytes 256 data
      { s with sv := (List.range 8).foldl (fun v i => v.takeStaged (bytesAt b (32 * i) 32)) s.sv }
    else s

/-! ## Landing (R213 to R217) -/

/-- The piece comes from the region's declared producer. -/
def Region.producedBy (r : Region) (p : Piece) : Bool :=
  r.producerPart == p.part && r.producerFirmware == p.firmware && r.producerEngine == p.engine &&
    (p.engine || p.firmware || r.producerTile == p.tile)

/-- There is room for one more piece behind the shadow tail and n pieces on their way to it. -/
def Region.hasRoom (r : Region) (n : Nat) : Bool := (r.tailSh - r.head).toNat + n + 1 ≤ r.capacity

/-- Count a discarded piece. -/
def State.cqDiscard (s : State) : State := { s with cq := { s.cq with discards := s.cq.discards + 1 } }

/-- Local key of the position of a piece. -/
def Region.pieceKey (r : Region) (j : Word) : Nat := localKey r.base + 256 * (j.toNat % r.capacity)

/-- A lesson is running whose data may still land: from the release to the verdict (R36, R50, R220). -/
def State.lessonOpen (s : State) : Bool := s.bell.phase == .lesson || s.bell.phase == .gather

/-- A piece that is discarded and counted: no LOCAL region, the tag of no running lesson, another source than the
declared producer, or a region of whose pieces one was dropped (R213, R214, R216, R220). -/
def State.pieceStale (s : State) (p : Piece) : Bool :=
  let r := s.region p.region.toNat
  r.kind != .localRegion || (!p.untagged && !(s.lessonOpen && s.tagNow p.tagBell p.tagAttempt)) ||
    !r.producedBy p || r.dropped

/-- A piece for which there is no room (R217). -/
def State.overrunAt (s : State) (num : Nat) (r : Region) (cycle : Nat) : State :=
  let s := s.setRegion num { r with overrun := true }
  let s := { s with cq := { s.cq with overruns := s.cq.overruns + 1 } }
  if r.overrun then s
  else (s.memCause cOverrun (r.pieceKey r.tailSh) cycle).hazard 0 6 cycle num 0

/-- The shadow tail moves in a cycle; outside lessons the committed tail moves with it (R217, R222). -/
def Region.landed (r : Region) (open_ : Bool) (cycle : Nat) : Region :=
  let t := r.tailSh + 1
  { r with tailSh := t, tail := if open_ then r.tail else t, tailWas := some (cycle, r.tailAt cycle) }

/-- A piece's write has been applied: it has landed (R216). -/
def State.landed (s : State) (num : Nat) (data : Vec) (cycle : Nat) : State :=
  (s.setRegion num ((s.region num).landed s.lessonOpen cycle)).stopMatch num data

/-- Write a piece at the region's shadow tail; a place that takes no writes ignores it (R209). -/
def State.landPiece (s : State) (num : Nat) (p : Piece) (cycle : Nat) : State :=
  let r := s.region num
  let key := r.pieceKey r.tailSh
  if s.memOpen key then (s.applyGranule key p.data fullBytes).landed num p.data cycle else s

/-! ## Recess moves (R222) -/

/-- Committed pointers become shadow pointers or the reverse, and the lesson's overrun state stays until the
release (R220). -/
def Region.settle (clean : Bool) (r : Region) : Region :=
  let r := { r with tailWas := none, headWas := none }
  if clean then { r with head := r.headSh, tail := r.tailSh } else { r with headSh := r.head, tailSh := r.tail }

/-- The writes of pieces that a slice has accepted and not yet applied are those of a voided attempt. -/
def Slice.dropLandings (x : Slice) : Slice :=
  { x with window := x.window.filter fun e => match e.2.source with
    | .landing _ => false
    | _ => true }

/-- Every region; a rollback leaves no piece of the voided attempt to land. -/
def State.settleRegions (s : State) (clean : Bool) : State :=
  let s := { s with cq := { s.cq with table := tabMap (fun _ r => r.settle clean) s.cq.table } }
  if clean then s
  else { s with mem := { s.mem with
    slices := (tabMap (fun _ x => x.dropLandings) s.mem.slices).filter fun e => e.2 != .reset } }

/-- Firmware takes every slot that is full: the committed head, always a multiple of 2^g, stands behind them, the
shadow follows, and an overrun met with no job in session ends (R215, R217, R222). -/
def State.consumeRegion (s : State) (num : Nat) : State :=
  let r := s.region num
  let n := (r.tail - r.head).toNat / r.slotPieces * r.slotPieces
  let h := r.head + BitVec.ofNat 32 n
  if r.kind != .localRegion || n = 0 then s
  else s.setRegion num { r with head := h, headSh := h, overrun := if s.inSession then r.overrun else false }

/-- Land a piece of the engine at the committed tail, where there is room. -/
def State.landCommitted (s : State) (num : Nat) (data : Vec) : State :=
  let r := s.region num
  let key := r.pieceKey r.tail
  let s := s.putGranule key data fullBytes
  let r := { r with tail := r.tail + 1, tailSh := r.tail + 1 }
  s.setRegion num r

/-- Room behind the committed tail. -/
def Region.roomCommitted (r : Region) : Nat := r.capacity - (r.tail - r.head).toNat

/-- A piece that the engine brings without asking for room first (R217, R222): landed, or ignored and counted. -/
def State.landEngine (s : State) (num : Nat) (data : Vec) : State :=
  let r := s.region num
  if r.kind != .localRegion then s.cqDiscard
  else if r.overrun || r.roomCommitted = 0 then s.overrunAt num r 0
  else s.landCommitted num data

end Sys2Proof.Machine
end

