-- ==== Sys2Proof/Machine/Slices.lean ====
section
/-! DEFINITION. Memory slices (R190 to R194, R203), the landing of pieces at them (R216) and reduce-on-write groups
(R199 to R202). -/

namespace Sys2Proof.Machine

/-! ## Choosing a request (R192) -/

/-- Served first: earlier arrival, then lower port. -/
def servedFirst (a p b q : Nat) : Bool := a < b || (a == b && p < q)

/-- The first read of a queue that has arrived. -/
def firstRead (now : Nat) (l : List ReadReq) : Option ReadReq :=
  l.foldl (fun best r =>
    if now < r.arrival then best
    else match best with
      | none => some r
      | some b => if servedFirst r.arrival r.port b.arrival b.port then some r else some b) none

/-- The first write of a queue that has arrived. -/
def firstWrite (now : Nat) (l : List WriteReq) : Option WriteReq :=
  l.foldl (fun best r =>
    if now < r.arrival then best
    else match best with
      | none => some r
      | some b => if servedFirst r.arrival r.port b.arrival b.port then some r else some b) none

/-! ## Delivering a read -/

/-- A part of an entry's data has come; the last one sends it on its way. -/
def HingeItem.fill (h : HingeItem) (data : Vec) (shift : Nat) : HingeItem :=
  match h.status with
  | .awaiting n =>
    { h with data := h.data ||| (data <<< (8 * shift)), status := if n ≤ 1 then .flight else .awaiting (n - 1) }
  | _ => h

/-- Put a granule into a fill of the transpose buffer. -/
def Tile.fillGranule (x : Tile) (fill granule : Nat) (data : Vec) : Tile :=
  { x with fills := tabMod emptyFill x.fills fill fun f =>
      { f with granules := tabInsert f.granules granule data } }

/-- Change the open instance of a group. -/
def State.modInstance (s : State) (k : Nat) (f : RedInstance → RedInstance) : State :=
  { s with mem := { s.mem with instances := tabMod none s.mem.instances k (·.map f) } }

/-- Landing region and transaction tag of a GET_REQ (Table 11-4). -/
def getRegion (p : Packet) : BitVec 8 := p.rest.extractLsb' 29 8
def getTag (p : Packet) : BitVec 17 := p.rest.extractLsb' 37 17

/-- The engine's response to a get (R269): the request's region, tag and lesson tag, and the error bit. -/
def State.getResponse (s : State) (p : Packet) (data : Vec) (error : Bool) : State :=
  s.inject 15 { s.header 3 2 p.source with
    untagged := p.untagged, tagBell := p.tagBell, tagAttempt := p.tagAttempt, length := 256
    rest := (getRegion p).setWidth 55 ||| ((getTag p).setWidth 55 <<< (8 : Nat)) |||
      ((ofBit error).setWidth 55 <<< (25 : Nat))
    payload := data }

/-- Hand the data of a read to whoever asked. -/
def State.deliver (s : State) (die : Nat) (dest : ReadDest) (data : Vec) : State :=
  match dest with
  | .hinge t id shift => s.modTile t.toNat (·.modEntry id (·.fill data shift))
  | .fill t fill granule => s.modTile t.toNat (·.fillGranule fill granule data)
  | .reduction g => s.modInstance (256 * die + g.toNat) fun i => { i with base := some data }
  | .get p => s.getResponse p data false

/-- A read that was dropped or refused delivers nothing. An entry that lacks one of its two halves lacks all (log 133). -/
def State.deliverNothing (s : State) (die : Nat) (dest : ReadDest) : State :=
  match dest with
  | .hinge t id _ => s.modTile t.toNat (·.modEntry id fun h => { h with status := .lost })
  | .fill t fill _ =>
    s.modTile t.toNat fun x =>
      { x with fills := tabMod emptyFill x.fills fill fun f => { f with missing := true } }
  | .reduction g => s.modInstance (256 * die + g.toNat) fun i => { i with failed := true }
  | .get _ => s

/-! ## Reads -/

/-- Bytes of a request. -/
def ReadSize.bytes : ReadSize → Nat
  | .word => 4
  | .half => 128
  | .granule => 256

/-- A tile's pending writes to a granule that arrived before its read, in arrival order (R94, R193). -/
def ownWrites (x : Slice) (t : BitVec 10) (g before : Nat) : List WriteReq :=
  ((x.window.map (·.2)) ++ x.writes).filter fun w => w.source == .tile t && w.addr == g && w.arrival < before

/-- Merge writes over the bytes of a granule. -/
def mergeWrites (g : Vec) (l : List WriteReq) : Vec :=
  l.foldl (fun g w => packFields 8 256 fun i => if bit w.bytes i then byteOf w.data i else byteOf g i) g

/-- The bytes of a request cut out of its granule. -/
def cutGranule (g : Vec) (k n : Nat) : Vec :=
  (g >>> (8 * (k % 256))) &&& BitVec.ofNat 2048 (2 ^ (8 * n) - 1)

/-- The data of a served read: the layer's bytes with the reader's own pending writes, zeros where the read
met an uncorrectable word or the place is closed. -/
def State.readData (s : State) (x : Slice) (r : ReadReq) (now : Nat) : Vec × State :=
  let n := r.size.bytes
  let zero := !s.memOpen r.addr || s.mem.hasUe r.addr n
  let q : ReadResult 2048 := s.readMem r.addr n now
  match r.tile with
  | some t =>
    let own := ownWrites x t (r.addr / 256 * 256) r.arrival
    if zero || own.isEmpty then (q.data, q.state)
    else (cutGranule (mergeWrites (q.data <<< (8 * (r.addr % 256))) own) r.addr n, q.state)
  | none => (q.data, q.state)

/-- The read is the LDI of a tile: its entry fills the instruction buffer. -/
def State.isRefill (s : State) (r : ReadReq) : Bool :=
  match r.dest with
  | .hinge t id _ => (s.tile t.toNat).hinge.any fun h => h.id == id && (match h.dest with
      | .ib _ _ => true
      | _ => false)
  | _ => false

/-- LDI at its slice: a read of the tile's refill region (R107, R218); where its slot is not filled nothing comes. -/
def State.serveRefill (s : State) (x : Slice) (r : ReadReq) (t id now : Nat) : State :=
  let n := 256 + t
  let (ok, s) := s.regionRead n (r.addr - localKey (s.region n).base) 256 t true r.addr now
  if ok then
    let (d, s) := s.readData x r now
    s.deliver (dieOf r.addr) r.dest d
  else s.modTile t (·.dropEntry id)

/-- A read of region memory (R218): the check, and what it delivers. -/
def State.serveRegion (s : State) (x : Slice) (r : ReadReq) (num t now : Nat) : State :=
  let (ok, s) := s.regionRead num (r.addr - localKey (s.region num).base) r.size.bytes t true r.addr now
  if ok then
    let (d, s) := s.readData x r now
    s.deliver (dieOf r.addr) r.dest d
  else s.deliver (dieOf r.addr) r.dest 0

/-- The mode 1 read of a reduction: an uncorrectable word stops its group (R201). -/
def State.serveReduction (s : State) (x : Slice) (r : ReadReq) (now : Nat) : State :=
  if s.memOpen r.addr && s.mem.hasUe r.addr 256 then
    let (_, s) := s.readData x r now
    s.deliverNothing (dieOf r.addr) r.dest
  else
    let (d, s) := s.readData x r now
    s.deliver (dieOf r.addr) r.dest d

/-- Serve one read. -/
def State.serveRead (s : State) (x : Slice) (r : ReadReq) (now : Nat) : State :=
  let s := s.countEvent 1 (dieOf r.addr) 0x0101 1
  match r.dest, r.tile with
  | .hinge t id _, some _ =>
    if s.isRefill r then s.serveRefill x r t.toNat id now
    else match s.messageRegion r.addr with
      | some num => s.serveRegion x r num t.toNat now
      | none =>
        let (d, s) := s.readData x r now
        s.deliver (dieOf r.addr) r.dest d
  | .fill t _ _, _ =>
    match s.messageRegion r.addr with
    | some num => s.serveRegion x r num t.toNat now
    | none =>
      let (d, s) := s.readData x r now
      s.deliver (dieOf r.addr) r.dest d
  | .reduction _, _ => s.serveReduction x r now
  | .get p, _ =>
    let bad := s.memOpen r.addr && s.mem.hasUe r.addr 256
    let (d, s) := s.readData x r now
    s.getResponse p d bad
  | _, _ =>
    let (d, s) := s.readData x r now
    s.deliver (dieOf r.addr) r.dest d

/-! ## Writes and the collision window (R193) -/

/-- Rank of a write where sources meet: landings first, then ports with the lower tile on one bridge, then
reduction groups by number. -/
def WriteReq.rank (w : WriteReq) : Nat :=
  match w.source with
  | .landing _ => 0
  | .group g => 2 ^ 30 + g.toNat
  | .tile t => 1 + 1024 * w.port + t.toNat
  | .port _ => 1 + 1024 * w.port

/-- Apply a write of the window to the layer. -/
def State.applyWrite (s : State) (w : WriteReq) : State :=
  if w.bytes = 0 then s
  else (s.applyGranule w.addr w.data w.bytes).countEvent 1 (dieOf w.addr) 0x0102 1

/-- A write of the window whose four cycles have passed is applied; a landing once it stands at its region's shadow
tail, so that pieces land in the order they came (R216). -/
def State.expireOne (d n now : Nat) (s : State) (e : Nat × WriteReq) : State :=
  let x := s.slice d n
  let out := s.setSlice d n { x with window := x.window.erase e }
  if now < e.1 + 4 then s
  else match e.2.source with
    | .landing num =>
      let r := s.region num
      if r.pieceKey r.tailSh == e.2.addr then (out.applyWrite e.2).landed num e.2.data (e.1 + 4) else s
    | _ => out.applyWrite e.2

/-- Apply the writes whose window of four cycles has passed. -/
def State.expireWindow (s : State) (d n now : Nat) : State :=
  (s.slice d n).window.foldl (State.expireOne d n now) s

/-- Count discarded writes. -/
def State.collide (s : State) (d n : Nat) : State :=
  if n = 0 then s
  else (s.modDie d fun r => { r with collide := r.collide + BitVec.ofNat 32 n }).countEvent 1 d 0x0104 n

/-- Put a write into the window beside the writes it meets there, in the cycle in which it is accepted (log 134). -/
def State.acceptWrite (s : State) (d n : Nat) (w : WriteReq) (now : Nat) : State :=
  let x := s.slice d n
  let met := x.window.filter fun e => e.2.addr == w.addr && e.2.source != w.source
  if met.all fun e => w.rank < e.2.rank then
    let keep := x.window.filter fun e => !(e.2.addr == w.addr && e.2.source != w.source)
    (s.setSlice d n { x with window := keep ++ [(now, w)] }).collide d met.length
  else s.collide d 1

/-! ## Pieces at a slice (R192, R216) -/

/-- Pieces of a region that a slice has accepted and not yet applied. -/
def State.landing (s : State) (num : Nat) : Nat :=
  (s.mem.slices.map fun e => (e.2.window.filter fun w => w.2.source == .landing num).length).sum

/-- Local key at which the next piece of a region is written. -/
def State.landingKey (s : State) (num : Nat) : Nat :=
  let r := s.region num
  r.pieceKey (r.tailSh + BitVec.ofNat 32 (s.landing num))

/-- Slice at which the next piece of a region lands, by die and number; none in a tile store. -/
def State.landingSlice (s : State) (num : Nat) : Option (Nat × Nat) :=
  let k := s.landingKey num
  if (s.region num).kind == .localRegion && inLayers (offsetOf k) then some (dieOf k, sliceOf (offsetOf k)) else none

/-- The oldest waiting piece of its region. -/
def State.oldestPiece (s : State) (p : Piece) : Bool := s.cq.pieces.find? (fun q => q.region == p.region) == some p

/-- The piece is a lesson's, and is the next to be written at a slice. -/
def State.headedFor (s : State) (d n : Nat) (p : Piece) : Bool :=
  !p.untagged && s.oldestPiece p && s.landingSlice p.region.toNat == some (d, n)

/-- A message of the fabric arrives at its slice in the first slice cycle that a command names (log 135). -/
def State.stampPieces (s : State) (d n now : Nat) : State :=
  { s with cq := { s.cq with pieces := s.cq.pieces.map fun p =>
      if p.arrival.isNone && s.headedFor d n p then { p with arrival := some now } else p } }

/-- The first piece waiting at a slice (R192). -/
def State.firstPiece (s : State) (d n now : Nat) : Option Piece :=
  (s.cq.pieces.filter fun p => s.headedFor d n p && p.arrival.any fun a => a ≤ now).foldl (fun best p =>
    match best with
    | none => some p
    | some b => if servedFirst (p.arrival.getD 0) p.port (b.arrival.getD 0) b.port then some p else some b) none

/-- A write that waits at a slice: of a store or a group, or a piece's. -/
inductive WaitingWrite where
  | plain (w : WriteReq)
  | piece (p : Piece)
  deriving DecidableEq, Repr

/-- Arrival of a waiting write. -/
def WaitingWrite.arrival : WaitingWrite → Nat
  | .plain w => w.arrival
  | .piece p => p.arrival.getD 0

/-- The first write waiting at a slice, of either kind. -/
def State.firstWaiting (s : State) (d n now : Nat) : Option WaitingWrite :=
  match firstWrite now (s.slice d n).writes, s.firstPiece d n now with
  | none, none => none
  | some w, none => some (.plain w)
  | none, some p => some (.piece p)
  | some w, some p =>
    some (if servedFirst (p.arrival.getD 0) p.port w.arrival w.port then .piece p else .plain w)

/-- Take a waiting write off its queue. -/
def State.takeWaiting (s : State) (d n : Nat) : WaitingWrite → State
  | .plain w => s.setSlice d n { s.slice d n with writes := (s.slice d n).writes.erase w }
  | .piece p => { s with cq := { s.cq with pieces := s.cq.pieces.erase p } }

/-- The slice accepts a write: a plain one where its place takes writes; a piece that neither its region's rules nor
want of room turn away. -/
def State.acceptWaiting (s : State) (d n now : Nat) : WaitingWrite → State
  | .plain w => if s.memOpen w.addr then s.acceptWrite d n w now else s
  | .piece p =>
    let num := p.region.toNat
    let r := s.region num
    let key := s.landingKey num
    if s.pieceStale p then s.cqDiscard
    else if r.overrun || !r.hasRoom (s.landing num) then s.overrunAt num r now
    else if s.memOpen key then
      s.acceptWrite d n { arrival := p.arrival.getD now, port := p.port, source := .landing num, addr := key
                          data := p.data, bytes := fullBytes } now
    else s

/-! ## The commands of a slice -/

/-- A write served in a cycle. -/
def State.serveWrite (s : State) (d n now : Nat) : State :=
  if (s.slice d n).writeAt == some now then s
  else match s.firstWaiting d n now with
    | none => s
    | some w =>
      if w.arrival + 2 < now then s
      else
        let s := s.takeWaiting d n w
        (s.setSlice d n { s.slice d n with writeAt := some now }).acceptWaiting d n now w

/-- A read served in a cycle. -/
def State.serveReadAt (s : State) (d n now : Nat) : State :=
  let x := s.slice d n
  match firstRead now x.reads with
  | none => s
  | some r =>
    if x.readAt == some now || r.arrival + 2 < now then s
    else (s.setSlice d n { x with reads := x.reads.erase r, readAt := some now }).serveRead x r now

/-- SLICE_REQUEST_SERVE: one read, or one write, per slice cycle; the writes whose window has passed by then are
applied first (R193, R194). -/
def execSliceRequestServe (die : BitVec 2) (slice : BitVec 8) (write : Bool) (now : Nat) (s : State) :
    Host.Outcome State Fault Refusal :=
  let d := die.toNat
  let n := slice.toNat
  let s := s.expireWindow d n now
  .next (if write then (s.stampPieces d n now).serveWrite d n now else s.serveReadAt d n now)

/-- A dropped request: XB_LATE, and LATE at the slice (R192). -/
def State.dropped (s : State) (d n now : Nat) : State :=
  let s := (s.modDie d fun r => { r with late := r.late + 1 }).countEvent 1 d 0x0103 1
  (s.cause cLate now d n 1).hazard 0 7 now n 0

/-- A request has waited its two cycles: they have passed, or the last of them serves another. -/
def waitedOut (arrival now : Nat) (served : Option Nat) : Bool :=
  arrival + 2 < now || (arrival + 2 ≤ now && served == some now)

/-- A piece whose write is dropped does not land, and no later one of its region in the lesson does (R216). -/
def State.dropWaiting (s : State) : WaitingWrite → State
  | .plain _ => s
  | .piece p => s.setRegion p.region.toNat { s.region p.region.toNat with dropped := true }

/-- The first waiting write is dropped once it has waited its time; a stale piece is no request of the lesson. -/
def State.dropWrite (s : State) (d n now : Nat) : State :=
  match s.firstWaiting d n now with
  | none => s
  | some w =>
    if waitedOut w.arrival now (s.slice d n).writeAt then
      match w with
      | .piece p => if s.pieceStale p then (s.takeWaiting d n w).cqDiscard
                    else ((s.takeWaiting d n w).dropWaiting w).dropped d n now
      | .plain _ => (s.takeWaiting d n w).dropped d n now
    else s

/-- The first waiting read is dropped once it has waited its time. -/
def State.dropRead (s : State) (d n now : Nat) : State :=
  let x := s.slice d n
  match firstRead now x.reads with
  | none => s
  | some r =>
    if waitedOut r.arrival now x.readAt then
      ((s.setSlice d n { x with reads := x.reads.erase r }).deliverNothing d r.dest).dropped d n now
    else s

/-- SLICE_REQUEST_DROP: a request that has waited two slice cycles without being served. -/
def execSliceRequestDrop (die : BitVec 2) (slice : BitVec 8) (write : Bool) (now : Nat) (s : State) :
    Host.Outcome State Fault Refusal :=
  let d := die.toNat
  let n := slice.toNat
  .next (if write then (s.stampPieces d n now).dropWrite d n now else s.dropRead d n now)

/-- Where the next piece of a region is already in the window of a slice: the slice. -/
def State.landingWindow (s : State) (num : Nat) : Option (Nat × Nat) :=
  let k := let r := s.region num; r.pieceKey r.tailSh
  let d := dieOf k
  let n := sliceOf (offsetOf k)
  if inLayers (offsetOf k) && (s.slice d n).window.any fun w => w.2.source == .landing num then some (d, n) else none

/-- PIECE_LANDING: the next piece of a region. One that its slice has accepted lands when its window has passed; one
that cannot land is discarded, or ignored on overrun; one for a tile store, or moved by the engine outside a lesson,
lands at once. A piece that still waits at its slice goes on waiting. -/
def execPieceLanding (piece : PieceArrival) (s : State) : Host.Outcome State Fault Refusal :=
  let now := piece.now
  let num := piece.region.toNat
  let r := s.region num
  .next (
    match s.landingWindow num with
    | some (d, n) => s.expireWindow d n now
    | none =>
      match s.cq.pieces.find? fun p => p.region == piece.region with
      | none => s
      | some p =>
        let out : State := { s with cq := { s.cq with pieces := s.cq.pieces.erase p } }
        if s.pieceStale p then out.cqDiscard
        else if r.overrun || !r.hasRoom 0 then out.overrunAt num r now
        else if p.untagged || (s.landingSlice num).isNone then out.landPiece num p now
        else s)

/-- COLLISION_WINDOW_EXPIRY: writes four slice cycles old are applied to the layer. -/
def execCollisionWindowExpiry (die : BitVec 2) (slice : BitVec 8) (now : Nat) (s : State) :
    Host.Outcome State Fault Refusal :=
  .next (s.expireWindow die.toNat slice.toNat now)

/-! ## Reduction groups -/

/-- The descriptor in force of a group (Table 8-5). -/
def State.groupDesc (s : State) (k : Nat) : BitVec 64 :=
  tabGet 0 s.mem.groups (1024 * s.mem.groupBank.toNat + k)

/-- Destination, count, operation and mode of a descriptor. -/
def groupDest (g : BitVec 64) : Nat := localKey (g.extractLsb' 0 40) / 256 * 256
def groupCount (g : BitVec 64) : Nat := (g.extractLsb' 40 9).toNat
def groupInt (g : BitVec 64) : Bool := g.extractLsb' 49 2 == 1
def groupMode (g : BitVec 64) : Bool := bit g 51

/-- MISSING at a group: source 1 and the slice of its destination. -/
def State.groupMissing (s : State) (k cycle : Nat) : State :=
  let dest := groupDest (s.groupDesc k)
  s.cause cMissing cycle (k / 256) (sliceOf (offsetOf dest)) 1

/-- Count a contribution that is discarded. -/
def State.redDiscard (s : State) (k : Nat) : State :=
  s.modDie (k / 256) fun r => { r with red := r.red + 1 }

/-- Contributions held in open instances of a die. -/
def State.redHeld (s : State) (die : Nat) : Nat :=
  ((s.mem.instances.filter fun e => e.1 / 256 == die).map fun e => match e.2 with
    | some i => i.contributions.length
    | none => 0).sum

/-- Open an instance; mode 1 asks for the destination's value (R201). A group has no crossbar port: among requests of
one arrival it comes behind every port, lower groups first (log 136). -/
def State.openInstance (s : State) (k : Nat) (c : Contribution) : State :=
  let i : RedInstance := { due := c.due, contributions := [c], base := none, failed := false }
  let s := { s with mem := { s.mem with instances := tabSet none s.mem.instances k (some i) } }
  let g := s.groupDesc k
  if groupMode g then
    s.queueRead { arrival := c.due, port := 263 + k % 256, tile := none, addr := groupDest g, size := .granule
                  dest := .reduction (BitVec.ofNat 8 k) }
  else s

/-- A contribution reaches its group (R200, R202). One of another lesson is discarded and counted (R36), in a count of
its own: XB_RED leaves it out (log 132). -/
def State.contribute (s : State) (k : Nat) (c : Contribution) (now : Nat) : State :=
  if !s.tagNow c.tagBell c.tagAttempt then s.modDie (k / 256) fun r => { r with redStale := r.redStale + 1 }
  else if c.due < now || groupCount (s.groupDesc k) = 0 then (s.redDiscard k).groupMissing k now
  else
    match tabGet none s.mem.instances k with
    | none =>
      if 4096 ≤ s.redHeld (k / 256) then (s.redDiscard k).groupMissing k now else s.openInstance k c
    | some i =>
      if i.due != c.due then (s.redDiscard k).groupMissing k now
      else if i.contributions.any fun e => e.tile == c.tile then s.redDiscard k
      else if 4096 ≤ s.redHeld (k / 256) then (s.redDiscard k).groupMissing k now
      else s.modInstance k fun i => { i with contributions := i.contributions ++ [c] }

/-- REDUCTION_CONTRIBUTION: the oldest contribution on its way to a group arrives. -/
def execReductionContribution (die : BitVec 2) (group : BitVec 8) (now : Nat) (s : State) :
    Host.Outcome State Fault Refusal :=
  let k := 256 * die.toNat + group.toNat
  .next (
    match tabGet [] s.mem.redFlight k with
    | [] => s
    | c :: t =>
      State.contribute { s with mem := { s.mem with redFlight := tabSet [] s.mem.redFlight k t } } k c now)

/-- Insert a contribution in ascending part tile number. -/
def insertContribution (c : Contribution) : List Contribution → List Contribution
  | [] => [c]
  | e :: t => if c.tile.toNat < e.tile.toNat then c :: e :: t else e :: insertContribution c t

/-- The sum of one lane in ascending part tile number. -/
def reduceLane (int : Bool) (base : Word) (l : List Contribution) (n : Nat) : Word :=
  (l.foldl (fun a c => insertContribution c a) []).foldl (fun x c =>
    if int then x + lane c.data n else (mxSum false x (lane c.data n)).1) base

/-- Close the instance of a group. -/
def State.closeInstance (s : State) (k : Nat) : State :=
  { s with mem := { s.mem with instances := tabSet none s.mem.instances k none } }

/-- An instance closes without writing. -/
def State.closeEmpty (s : State) (k : Nat) : State := (s.closeInstance k).countEvent 1 (k / 256) 0x0106 1

/-- An instance closes with its sum on the way to the slice. -/
def State.closeSum (s : State) (k : Nat) (i : RedInstance) (base : Vec) : State :=
  let g := s.groupDesc k
  let v := ofLanes fun n => reduceLane (groupInt g) (lane base n) i.contributions n
  let s := (s.closeInstance k).countEvent 1 (k / 256) 0x0105 1
  s.queueWrite { arrival := i.due, port := 263 + k % 256, source := .group (BitVec.ofNat 8 k)
                 addr := groupDest g, data := v, bytes := fullBytes }

/-- REDUCTION_CLOSE: from its due cycle on; a mode 1 instance waits for its destination's value. -/
def execReductionClose (die : BitVec 2) (group : BitVec 8) (now : Nat) (s : State) :
    Host.Outcome State Fault Refusal :=
  let k := 256 * die.toNat + group.toNat
  .next (
    match tabGet none s.mem.instances k with
    | none => s
    | some i =>
      if now < i.due then s
      else if i.contributions.length ≠ groupCount (s.groupDesc k) then
        ((s.closeEmpty k).groupMissing k i.due).hazard 0 15 i.due group.toNat 0
      else if groupMode (s.groupDesc k) then
        if i.failed then s.closeEmpty k
        else match i.base with
          | none => s
          | some b => s.closeSum k i b
      else s.closeSum k i 0)

end Sys2Proof.Machine
end

