-- ==== Sys2Proof/Machine/Layers.lean ====
section
/-! DEFINITION. Power-gated half-layers (R207, R208) and the patrol scrub (R205, R206). -/

namespace Sys2Proof.Machine

/-! ## Half-layers -/

/-- First local key of a half-layer. -/
def halfBase (die half : Nat) : Nat := die * 2 ^ 35 + half * 2 ^ 30

/-- A local key lies in a half-layer. -/
def inHalf (die half k : Nat) : Bool := halfBase die half ≤ k && k < halfBase die half + 2 ^ 30

/-- Put the state of a half-layer. -/
def State.setGate (s : State) (die half : Nat) (x : BitVec 2) : State :=
  { s with mem := { s.mem with gate := tabSet 0 s.mem.gate (8 * die + half) x } }

/-- Every word of a half-layer is zero with valid check bits. -/
def Mem.clearHalf (m : Mem) (die half : Nat) : Mem :=
  { m with
    bytes := m.bytes.filter fun e => !inHalf die half e.1
    ue := m.ue.filter fun w => !inHalf die half (8 * w)
    ce := m.ce.filter fun w => !inHalf die half (8 * w) }

/-- Some accepted write of a half-layer is not yet applied. -/
def State.writesOpen (s : State) (die half : Nat) : Bool :=
  s.mem.slices.any fun e => e.2.window.any fun w => inHalf die half w.2.addr

/-- Perform a request of BANK_POWER (R207): CLOSING from ON, OPENING from OFF. -/
def State.gateNow (s : State) (r : GateRequest) : State :=
  let d := r.die.toNat
  let h := r.half.toNat
  let g := s.gateOf d h
  if r.up then (if g == 2 then s.setGate d h 3 else s)
  else (if g == 0 then s.setGate d h 1 else s)

/-- Answer the BANK_POWER commands that wait for a state of a half-layer. -/
def State.gateAnswer (s : State) (die half : Nat) (up : Bool) : State :=
  let hit (e : GateRequest × Waiting) : Bool :=
    e.1.die.toNat == die && e.1.half.toNat == half && e.1.up == up
  let l := s.mem.gateWaits.filter hit
  let s := { s with mem := { s.mem with gateWaits := s.mem.gateWaits.filter fun e => !hit e } }
  s.answerAll (l.map (·.2)) stOk (toBytes 1 ((s.gateOf die half).setWidth 8))

/-- An OPENING half-layer whose words are all zero is ON. -/
def State.gateOn (s : State) (die half : Nat) : State :=
  if s.gateOf die half == 3 then
    (State.setGate { s with mem := s.mem.clearHalf die half } die half 0).gateAnswer die half true
  else s

/-- The end of a recess step 2: power-downs in their order, then the half-layers that have opened (R208). -/
def State.gateRecess (s : State) : State :=
  let l := s.mem.gateRequests
  let o := s.mem.gateOpened
  let s := { s with mem := { s.mem with gateRequests := [], gateOpened := [] } }
  let s := l.foldl (fun s r => s.gateNow r) s
  o.foldl (fun s k => s.gateOn (k / 8) (k % 8)) s

/-- HALF_LAYER_CLOSED: with every accepted write applied, a CLOSING half-layer is OFF and its contents are
lost. -/
def execHalfLayerClosed (die : BitVec 2) (half : BitVec 3) (s : State) : Host.Outcome State Fault Refusal :=
  let d := die.toNat
  let h := half.toNat
  .next (
    if s.gateOf d h == 1 && !s.writesOpen d h then
      let s := { s with mem := s.mem.clearHalf d h }
      (s.setGate d h 2).gateAnswer d h false
    else s)

/-- HALF_LAYER_OPENED: every word zeroed, the half-layer is ON; with a job in session, from the end of the next
recess step 2. -/
def execHalfLayerOpened (die : BitVec 2) (half : BitVec 3) (s : State) : Host.Outcome State Fault Refusal :=
  let d := die.toNat
  let h := half.toNat
  .next (
    if s.gateOf d h == 3 && s.inSession then
      if s.mem.gateOpened.contains (8 * d + h) then s
      else { s with mem := { s.mem with gateOpened := s.mem.gateOpened ++ [8 * d + h] } }
    else s.gateOn d h)

/-! ## Patrol scrub -/

/-- The word lies in what a die's quantum reads: 256 rows of each half-layer that is ON, 32 granules of each
tile store. -/
def State.inQuantum (s : State) (die q w : Nat) : Bool :=
  let k := 8 * w
  let off := offsetOf k
  dieOf k == die &&
    (if inLayers off then s.gateOf die (halfOf off) == 0 && off % 2 ^ 30 / 2 ^ 16 / 256 == q
     else inStores off && (off - 0x400000000) % 0x80000 / 256 / 32 == q)

/-- The entry of a generation that the part holds. -/
def State.genOf (s : State) (adapter : Bool) (object : Word) (generation : BitVec 16) : Option GenEntry :=
  s.nv.generations.find? fun g =>
    g.adapter == adapter && g.object == object && g.generation == generation && g.state != .highWater

/-- Blocks named by ranges. -/
def rangeBlocks (l : List (Nat × Nat)) : List Nat := l.flatMap fun r => (List.range r.2).map (r.1 + ·)

/-- Blocks of an adapter that a slot of this part takes: its share, in ascending index. -/
def State.slotShare (s : State) (im : Image) (x : AdapterSlot) : List Nat :=
  match s.genOf true x.adapter x.generation with
  | some g => (rangeBlocks g.share).take (servingSlotBlocks im)
  | none => []

/-- The reads that fill a slot, in the order of its blocks. -/
def State.slotEntries (s : State) (im : Image) (k : Nat) (x : AdapterSlot) : List SlotRead :=
  (s.slotShare im x).zipIdx.map fun e =>
    { slot := k, repair := false
      entry := { block := Config.slotBlock k e.2, adapter := true, object := x.adapter, generation := x.generation
                 index := BitVec.ofNat 32 e.1 } }

/-- The repair of a block of an adapter slot: the generation that the slot is bound to (R361). -/
def State.askSlot (s : State) (block : Nat) : State :=
  match s.job.image with
  | none => s
  | some im =>
    let filled := (s.sv.slots.filter fun e => e.2.adapter != 0 && !e.2.lost).flatMap fun e =>
      (s.slotEntries im e.1 e.2).take e.2.restored
    match filled.find? fun r => r.entry.block == block with
    | none => s
    | some r =>
      let r := { r with repair := true }
      if s.nv.slotReads.contains r then s
      else State.wake { s with nv := { s.nv with slotReads := r :: s.nv.slotReads } }

/-- The restore of a mapped block, or of a block of an adapter slot, is asked for (R45, R57, R361). -/
def State.askRestore (s : State) (block : Nat) : State :=
  match s.nv.restoreMap.find? fun e => e.block == block with
  | none => s.askSlot block
  | some e =>
    if s.nv.restores.contains e then s
    else State.wake { s with nv := { s.nv with restores := s.nv.restores ++ [e] } }

/-- An uncorrectable word that the scrub finds outside the weight map is reported to the registrar (R206). -/
def State.reportScrub (s : State) (key : Nat) : State :=
  if s.weightMapped key || !s.job.image.any (·.serving) then s
  else if s.isRegistrar then
    { s with sv := { s.sv with scrubReports := s.sv.scrubReports ++ [(s.rc.address, key)] } }
  else s.emit (.firmware s.job.root (.scrubbed s.rc.address key))

/-- One quantum of a die (R205). -/
def State.scrubDie (s : State) (die : Nat) : State :=
  let r := s.dieRegs die
  let q := r.scrubQuantum.toNat
  let ce := s.mem.ce.filter fun w => s.inQuantum die q w
  let ue := s.mem.ue.filter fun w => s.inQuantum die q w
  let s := { s with mem := { s.mem with ce := s.mem.ce.filter fun w => !ce.contains w } }
  let s := s.ceHold (die * 2 ^ 35) ce.length
  let s := ue.foldl (fun s w =>
    let s := s.ueHold (8 * w) 1 1
    (s.askRestore (8 * w / 65536)).reportScrub (8 * w)) s
  s.modDie die fun r =>
    { r with
      scrubQuantum := r.scrubQuantum + 1
      scrubPasses := if q = 63 && r.scrubPasses != 0xFFFF then r.scrubPasses + 1 else r.scrubPasses }

/-- One quantum of the part. -/
def State.scrub (s : State) : State := (List.range 4).foldl (fun s d => s.scrubDie d) s

/-- SCRUB_IDLE_TICK: a quantum while no job is in session. -/
def execScrubIdleTick (s : State) : Host.Outcome State Fault Refusal :=
  .next (if !s.inSession && s.pw.firmware && s.pw.domainA then s.scrub else s)

end Sys2Proof.Machine
end

