-- ==== Sys2Proof/Machine/HostRecords.lean ====
section
/-! DEFINITION. The ingress windows, egress rings and mirrors of the functions (R382 to R394). -/

namespace Sys2Proof.Machine

/-! ## Violations (R396) -/

/-- Record a violation of a function. -/
def State.violate (s : State) (fn : Nat) (kind : Nat) (bar2 : Bool) (offset : Nat) : State :=
  { s with hi := { s.hi with
      viol := s.hi.viol ||| BitVec.ofNat 64 (2 ^ (fn % 64))
      violFn := BitVec.ofNat 6 fn
      violKind := BitVec.ofNat 3 kind
      violBar2 := bar2
      violAddr := BitVec.ofNat 32 offset } }

/-! ## The ingress window (R382 to R385) -/

/-- Slots of a window. -/
def windowSlots : Nat := 16384

/-- Length in bytes of a record from its first four bytes. -/
def recordLength (h : List Byte) : Nat := natAt h 2 2

/-- The header is one of Table 15-10: type, format, a length of its type's range and a multiple of 4. -/
def recordValid (h : List Byte) : Bool :=
  let n := recordLength h
  natAt h 1 1 == 1 && n % 4 == 0 &&
    (match natAt h 0 1 with
    | 1 => 384 ≤ n && n ≤ 4096
    | 2 => 12 ≤ n && n ≤ 4096
    | 3 => n == 8
    | 4 => n == 64
    | 5 => n == 64
    | 6 => n == 8
    | _ => false)

/-- Slots of a record; a malformed one takes one slot (R388). -/
def recordSlots (h : List Byte) : Nat := if recordValid h then (recordLength h + 63) / 64 else 1

/-- Bytes that must have landed before the record is complete (log 12 for a malformed one). -/
def recordBytes (h : List Byte) : Nat :=
  if recordValid h then recordLength h else max 4 (min (recordLength h) 64)

/-- A landed byte of the window. -/
def Func.landed (f : Func) (slot i : Nat) : Bool :=
  bit (tabGet 0 f.slotMask ((slot + i / 64) % windowSlots)) (i % 64)

/-- Bytes of the window from a slot on. -/
def Func.bytesFrom (f : Func) (slot n : Nat) : List Byte :=
  (List.range n).map fun i => byteOf (tabGet 0 f.slotBytes ((slot + i / 64) % windowSlots)) (i % 64)

/-- Slot of the window's head. -/
def Func.head (f : Func) : Nat := f.consumed.toNat % windowSlots

/-- The record at a slot is complete; its slots. -/
def Func.completeAt (f : Func) (slot : Nat) : Option Nat :=
  if (List.range 4).all fun i => f.landed slot i then
    let h := f.bytesFrom slot 4
    if (List.range (recordBytes h)).all fun i => f.landed slot i then some (recordSlots h) else none
  else none

/-- Make complete records visible in window order, at most n of them; each takes the next order number. -/
def Func.reveal (f : Func) (next : Nat) : Nat → Func × Nat
  | 0 => (f, next)
  | n + 1 =>
    let slot := (f.head + f.visible) % windowSlots
    match f.completeAt slot with
    | none => (f, next)
    | some k =>
      if windowSlots < f.visible + k then (f, next)
      else
        let g : Func := { f with visible := f.visible + k, order := f.order ++ [(slot, next)] }
        g.reveal (next + 1) n

/-- The slot holds part of a visible record. -/
def Func.slotVisible (f : Func) (slot : Nat) : Bool := (slot + windowSlots - f.head) % windowSlots < f.visible

/-- One byte lands. -/
def Func.landByte (f : Func) (off : Nat) (b : Byte) : Func :=
  let slot := off / 64 % windowSlots
  let i := off % 64
  { f with
    slotBytes := tabMod 0 f.slotBytes slot fun x =>
      (x &&& ~~~((0xFF : BitVec 512) <<< (8 * i))) ||| (b.setWidth 512 <<< (8 * i))
    slotMask := tabMod 0 f.slotMask slot fun x => x ||| BitVec.ofNat 64 (2 ^ i) }

/-- Bytes land from an offset on. -/
def Func.landBytes (f : Func) (off : Nat) : List Byte → Func
  | [] => f
  | b :: t => (f.landByte off b).landBytes (off + 1) t

/-- IQ_CREDIT.free of an enabled window. -/
def Func.free (f : Func) : Nat := windowSlots - f.slotMask.length

/-- A host write to the window of a function. -/
def State.ingressWrite (s : State) (f o : Nat) (bytes : List Byte) : State :=
  let x := s.fn f
  if !s.fnEnabled f || (List.range bytes.length).any (fun i => x.slotVisible ((o + i) / 64 % windowSlots))
  then s.violate f 4 true (0x100000 + o)
  else
    let (x, next) := (x.landBytes o bytes).reveal s.hi.nextOrder windowSlots
    State.setFn { s with hi := { s.hi with nextOrder := next } } f x

/-- INGRESS_WRITE. -/
def execIngressWrite (fn : BitVec 6) (offset : BitVec 20) (bytes : List Byte) (s : State) :
    Host.Outcome State Fault Refusal :=
  .next (s.ingressWrite fn.toNat offset.toNat bytes)

/-! ## Visible records -/

/-- A visible record that is not consumed: its slot and its bytes. -/
structure Rec where
  slot : Nat
  bytes : List Byte
  deriving DecidableEq, Repr

/-- Type, id of a record. -/
def Rec.type (r : Rec) : Nat := natAt r.bytes 0 1
def Rec.id (r : Rec) : Word := fieldAt 32 r.bytes 4
/-- The header is well formed. -/
def Rec.valid (r : Rec) : Bool := recordValid (r.bytes.take 4)

/-- Visible records from a slot on over n slots. -/
def Func.recordsFrom (f : Func) (slot : Nat) : Nat → Nat → List Rec
  | 0, _ => []
  | _, 0 => []
  | fuel + 1, n + 1 =>
    let h := f.bytesFrom slot 4
    let k := recordSlots h
    let t := f.recordsFrom ((slot + k) % windowSlots) fuel (n + 1 - k)
    if f.doneRecords.contains slot then t else ⟨slot, f.bytesFrom slot (recordBytes h)⟩ :: t

/-- Visible records of a function, not consumed, in window order. -/
def Func.records (f : Func) : List Rec := f.recordsFrom f.head f.visible f.visible

/-- Order number of a visible record. -/
def Func.orderOf (f : Func) (slot : Nat) : Nat :=
  match f.order.find? fun e => e.1 == slot with
  | some e => e.2
  | none => 0

/-- Free the slots of a record that the head passes. -/
def Func.freeSlots (f : Func) (slot : Nat) : Nat → Func
  | 0 => f
  | n + 1 =>
    let g : Func := { f with
      slotBytes := tabErase f.slotBytes (slot % windowSlots), slotMask := tabErase f.slotMask (slot % windowSlots) }
    g.freeSlots (slot + 1) n

/-- Advance the head over consumed records, at most n of them. -/
def Func.passHead (f : Func) : Nat → Func
  | 0 => f
  | n + 1 =>
    let h := f.head
    if f.visible != 0 && f.doneRecords.contains h then
      let k := recordSlots (f.bytesFrom h 4)
      let g := f.freeSlots h k
      let g : Func := { g with
        consumed := f.consumed + BitVec.ofNat 32 k
        visible := f.visible - k
        doneRecords := f.doneRecords.erase h
        order := f.order.filter fun e => e.1 != h }
      g.passHead n
    else f

/-- Consume a record. -/
def Func.consume (f : Func) (slot : Nat) : Func :=
  ({ f with doneRecords := f.doneRecords ++ [slot] } : Func).passHead windowSlots

/-- Consume a record of a function. -/
def State.consume (s : State) (f : Nat) (r : Rec) : State := s.modFn f (·.consume r.slot)

/-- Discard a record, counted in IQ_ERRORS. -/
def State.discardRec (s : State) (f : Nat) (r : Rec) : State :=
  s.modFn f fun x => { x.consume r.slot with iqErrors := x.iqErrors + 1 }

/-- A malformed record is discarded when it reaches the head (R388). -/
def State.dropMalformed (s : State) (f : Nat) : Nat → State
  | 0 => s
  | n + 1 =>
    match (s.fn f).records.head? with
    | some r => if r.valid || r.slot != (s.fn f).head then s else (s.discardRec f r).dropMalformed f n
    | none => s

/-! ## The egress ring (R386, R394) -/

/-- Ring base and mirror addresses. -/
def Func.ringBase (f : Func) : Nat := f.egBaseLo.toNat + 2 ^ 32 * f.egBaseHi.toNat
def Func.mirrorBase (f : Func) : Nat := f.mirrorLo.toNat + 2 ^ 32 * f.mirrorHi.toNat

/-- Entries written and not finished with. -/
def Func.used (f : Func) : Nat := (f.produced - f.consumedWord).toNat

/-- The ring takes an entry. -/
def Func.ringRoom (f : Func) : Bool := f.egEnable && f.used < 2 ^ f.egSize.toNat

/-- The 32 bytes of an entry (Table 15-14). -/
def entryBytes (e : Entry) (phase : Bool) (stamp : BitVec 64) : List Byte :=
  toBytes 4 e.id ++ toBytes 4 e.seq ++ toBytes 4 e.value ++ toBytes 4 e.extra ++
  [e.kind, BitVec.ofNat 8 ((if e.logprobValid then 1 else 0) + (if phase then 128 else 0)), e.reason, e.detail] ++
  [0, 0, 0, 0] ++ toBytes 8 (if e.kind = 1 then e.stamp else stamp)

/-- Write one entry into the ring. -/
def State.writeEntry (s : State) (f : Nat) (e : Entry) : State :=
  let x := s.fn f
  let n := 2 ^ x.egSize.toNat
  let i := x.produced.toNat
  let s := s.emit (.hostWrite (BitVec.ofNat 6 f) (x.ringBase + 32 * (i % n))
    (entryBytes e (i / n % 2 == 0) s.stamp))
  let s := if e.kind = 1 then { s with sv := { s.sv with tokensSent := tabMod 0 s.sv.tokensSent f (· + 1) } } else s
  s.modFn f fun x =>
    let x : Func := { x with produced := x.produced + 1 }
    match e.slot with
    | some k => x.consume k
    | none => x

/-- Write waiting entries while the ring has room. -/
def State.writeEntries (s : State) (f : Nat) : List Entry → State
  | [] => s.modFn f fun x => { x with hold := [] }
  | e :: t =>
    if (s.fn f).ringRoom then (s.writeEntry f e).writeEntries f t
    else s.modFn f fun x => { x with hold := e :: t }

/-- Read the consumed word of a function (R394). -/
def State.readConsumed (s : State) (f : Nat) (l : List (Nat × Word)) : State :=
  s.modFn f fun x =>
    if x.egEnable then
      let c := match l.find? fun e => e.1 == f with
        | some e => e.2
        | none => x.consumedWord
      let x : Func := { x with consumedWord := c }
      if 2 ^ x.egSize.toNat < x.used then { x with badConsumed := true } else x
    else x

/-- A recess or a tick begins for a function: its egress vector may be signalled once, and a write reported in error
shows in EG_STATUS. -/
def State.beginEgress (s : State) (f : Nat) (env : Surroundings) : State :=
  s.modFn f fun x => { x with
    egSignalled := false, dmaError := x.dmaError || (x.egEnable && env.dmaErrors.contains f) }

/-- Signal the egress vector: the threshold, or a FENCE entry written (Table 15-15), once in a recess or tick; a FENCE
entry written after that is signalled in the next. -/
def State.egressVector (s : State) (f : Nat) (fence : Bool) : State :=
  let x := s.fn f
  let fence := fence || x.egFence
  if !x.egEnable then s
  else if x.egSignalled then s.modFn f fun x => { x with egFence := fence }
  else if fence || (x.egThresh != 0 && x.egThresh.toNat ≤ x.used) then
    (s.modFn f fun x => { x with egSignalled := true, egFence := false }).msix f 1
  else s

/-- Entries released and committed for a function. -/
def State.committedOf (s : State) (f : Nat) : List Entry := s.sv.committed.filter fun e => e.function.toNat == f

/-- Some entry that the ring has just taken is a FENCE. -/
def fenceWritten (before after : List Entry) : Bool :=
  (before.take (before.length - after.length)).any fun e => e.kind = 4

/-- Move the waiting and the committed entries of a function to its ring (R368); those of requests that an FLR
cancels are discarded (R397). -/
def State.egressFn (s : State) (f : Nat) (l : List (Nat × Word)) : State :=
  let s := s.readConsumed f l
  let all := (s.fn f).hold ++ (s.committedOf f).filter fun e => !(s.fn f).flrCancel || e.context == 2 ^ 17
  let s := { s with sv := { s.sv with committed := s.sv.committed.filter fun e => e.function.toNat != f } }
  let s := s.writeEntries f all
  s.egressVector f (fenceWritten all (s.fn f).hold)

/-- Put a COMPLETE or FENCE entry in line. -/
def State.queueEntry (s : State) (f : Nat) (id value extra : Word) (kind : Byte) (slot : Nat) : State :=
  s.modFn f fun x => { x with hold := x.hold ++
    [{ function := BitVec.ofNat 6 f, context := 2 ^ 17, id := id, seq := 0, value := value, extra := extra
       kind := kind, logprobValid := false, reason := 0, detail := 0, stamp := 0, slot := some slot }] }

/-! ## The mirror (R387) and the credit vector -/

/-- Free slots as IQ_CREDIT shows them. -/
def State.credit (s : State) (f : Nat) : Nat := if s.fnEnabled f then (s.fn f).free else 0

/-- Write a function's mirror and signal its credit vector. -/
def State.writeMirror (s : State) (f : Nat) : State :=
  let x := s.fn f
  let free := s.credit f
  let bell := if s.attached f then s.job.committed - 1 else 0
  let s := if x.egEnable then
      s.emit (.hostWrite (BitVec.ofNat 6 f) x.mirrorBase
        (toBytes 4 x.consumed ++ natToBytes 2 free ++ [0, 0] ++ toBytes 4 x.produced ++ [0, 0, 0, 0] ++
          natToBytes 5 bell ++ List.replicate 11 0))
    else s
  let t := x.iqThreshold.toNat
  let s := if t != 0 && x.lastFree < t && t ≤ free then s.msix f 2 else s
  s.modFn f fun x => { x with lastFree := free }

end Sys2Proof.Machine
end

