-- ==== Sys2Proof/Machine/Encoding.lean ====
section
/-! DEFINITION. The encodings that the loader accepts (R90, R99, R122, R160, R513): which bits a slot may
set, and the nesting of loops. -/

namespace Sys2Proof.Machine

/-- Bits of a slot that its instruction uses, as ranges of first bit and width. -/
abbrev BitRanges := List (Nat × Nat)

/-- The mask of a list of ranges. -/
def rangesMask (w : Nat) (l : BitRanges) : BitVec w :=
  l.foldl (fun m r => m ||| BitVec.ofNat w ((2 ^ r.2 - 1) * 2 ^ r.1)) 0

/-- Every bit outside the used ranges is zero. -/
def onlyBits (x : BitVec w) (l : BitRanges) : Bool := x &&& ~~~rangesMask w l == 0

/-! ## Matrix and vector slots -/

/-- A scale register that is not used is zero. -/
def scalesClean (f : MxFields) : Bool := (f.mxA || f.scaleA == 0) && (f.mxB || f.scaleB == 0)

/-- The MX slot is acceptable: a scale register is used only with its flag. -/
def mxClean (w : BitVec 48) : Bool :=
  let f := mxFields w
  match (slotBits w 0 6).toNat with
  | 0 => w == 0
  | 1 => mxLegal false f && slotBits w 45 3 == 0 && scalesClean f
  | 2 => mxLegal true f && slotBits w 45 3 == 0 && scalesClean f
  | _ => false

/-- The operation has a destination vector or mask register. -/
def vxHasD : VxOp → Bool
  | .vwra | .vscat | .vacc | .vscana => false
  | _ => true

/-- The operation reads operand a. -/
def vxHasA : VxOp → Bool
  | .vrda | .vscana => false
  | _ => true

/-- The operation reads operand b. -/
def vxHasB (op : VxOp) (f : VxFields) : Bool :=
  match op with
  | .iadd | .isub | .imul | .imin | .imax | .band | .bor | .bxor | .shl | .shr | .sar | .vcmp | .vsel | .vperm
  | .vscat | .fadd | .fsub | .fmul | .ffma | .fmax | .fmin | .vhist | .vfirst => true
  | .vacc => auxBits f 60 3 == 4
  | _ => false

/-- The operation reads operand c, or its vector of rounding words. -/
def vxHasC (op : VxOp) (f : VxFields) : Bool :=
  match op with
  | .ffma => true
  | .vhist => auxBit f 61
  | .fadd | .fsub | .fmul | .vcvt => f.rnd == 2
  | _ => false

/-- The operation reads a segment-start mask. -/
def vxHasSeg (op : VxOp) (f : VxFields) : Bool :=
  match op with
  | .vscan | .vscanx => auxBit f 58
  | .vscana => auxBit f 63
  | _ => false

/-- The operation reads s[sb] as a scalar operand of its own. -/
def vxHasScalar (op : VxOp) (f : VxFields) : Bool :=
  match op with
  | .vrda | .vwra | .vgath | .vscat | .vhist => true
  | .vcvt => auxBit f 62
  | _ => false

/-- The masked-lane policy applies (Table 7-2). -/
def vxHasPolicy : VxOp → Bool
  | .vsel | .vred | .vhist | .vfirst | .vscat => false
  | _ => true

/-- A float operation, to which ftz applies (R162; log 25): VCMP as type FP32, a scan or reduction of FP32, VHIST
weighted. -/
def vxIsFloat (op : VxOp) (f : VxFields) : Bool :=
  match op with
  | .fadd | .fsub | .fmul | .ffma | .fmax | .fmin | .vcvt | .vfirst | .vacc | .vscana
  | .exp2 | .log2 | .rcp | .rsqrt | .sin | .cos => true
  | .vcmp => auxBits f 59 2 == 0
  | .vscan | .vscanx | .vred => auxBits f 56 2 != 1
  | .vhist => auxBit f 61
  | _ => false

/-- The operation rounds in the named mode. -/
def vxHasRnd : VxOp → Bool
  | .fadd | .fsub | .fmul | .ffma | .vcvt | .vacc => true
  | _ => false

/-- The operation can saturate: sums and products, VCVT, and the special functions (R161, R164, R174). -/
def vxHasSat (op : VxOp) (f : VxFields) : Bool :=
  match op with
  | .iadd | .isub | .fadd | .fsub | .fmul | .ffma | .vcvt | .exp2 | .log2 | .rcp | .rsqrt | .sin | .cos => true
  | .vscan | .vscanx | .vred => auxBits f 56 2 < 2
  | .vhist => auxBit f 61
  | .vacc => auxBits f 60 3 != 2 && auxBits f 60 3 != 3
  | .vscana => auxBits f 60 2 == 0
  | _ => false

/-- A condition on a range. -/
def rangeIf (c : Bool) (lo n : Nat) : BitRanges := if c then [(lo, n)] else []

/-- Used aux bits (Table 7-3); a conversion between two lane sides has no block. -/
def vxAux (op : VxOp) (f : VxFields) : BitRanges :=
  match op with
  | .vcmp => [(56, 5)]
  | .vrda => [(56, 3)]
  | .vwra => [(56, 2)]
  | .vcvt => [(56, 2), (62, 1)] ++ rangeIf (f.fmt != 2 || f.fmt2 != 2) 58 4
  | .vscan | .vscanx => [(56, 3)]
  | .vred => [(56, 2)]
  | .vhist => [(56, 7)]
  | .vacc | .vscana => [(56, 8)]
  | _ => []

/-- The bits that a VX instruction uses. -/
def vxUsed (op : VxOp) (f : VxFields) : BitRanges :=
  let b := vxHasB op f
  let c := vxHasC op f
  let bs := b && op != .vscat
  [(0, 8), (23, 3)] ++ rangeIf (vxHasD op) 8 5 ++ rangeIf (vxHasA op) 13 5 ++ rangeIf (b && !f.bs) 18 5 ++
  rangeIf (vxHasPolicy op) 26 1 ++ rangeIf (c && !f.cs) 27 5 ++ rangeIf (vxHasSeg op f) 27 3 ++
  rangeIf (vxHasRnd op) 32 2 ++ rangeIf (vxIsFloat op f) 34 1 ++ rangeIf (vxHasSat op f) 35 1 ++ rangeIf bs 36 1 ++
  rangeIf ((bs && f.bs) || vxHasScalar op f) 37 5 ++ rangeIf c 42 1 ++ rangeIf (c && f.cs) 43 5 ++
  rangeIf (op == .vcvt) 48 8 ++ vxAux op f

/-- The VX slot is acceptable. -/
def vxClean (w : BitVec 64) : Bool :=
  let f := vxFields w
  if slotBits w 0 8 == 0 then w == 0
  else match vxOpOf (slotBits w 0 8).toNat with
    | some op => vxLegal op f && onlyBits w (vxUsed op f)
    | none => false

/-! ## Load, store, transfer and control slots -/

/-- The LD slot is acceptable (Tables 4-5, 4-6). -/
def ldClean (w : BitVec 40) : Bool :=
  let f := ldFields w
  let addr : BitRanges := [(0, 5), (5, 2), (7, 5), (12, 4), (16, 16)]
  if slotBits w 0 5 == 0 then w == 0
  else match ldOpOf (slotBits w 0 5).toNat with
    | some .lds => ldLegal .lds f && onlyBits w addr
    | some .ldv => ldLegal .ldv f && onlyBits w addr
    | some .ldo =>
      let form := (slotBits w 34 2).toNat
      ldLegal .ldo f && onlyBits w (addr ++ [(32, 4)] ++ rangeIf (form = 1) 36 4 ++ rangeIf (form = 3) 36 1)
    | some .ldi => ldLegal .ldi f && onlyBits w [(0, 5), (5, 2), (32, 7)]
    | none => false

/-- The ST slot is acceptable (R93). -/
def stClean (w : BitVec 40) : Bool :=
  match (slotBits w 0 5).toNat with
  | 0 => w == 0
  | 1 => stLegal false (stFields w) && onlyBits w [(0, 36)]
  | 2 => stLegal true (stFields w) && onlyBits w [(0, 36)]
  | _ => false

/-- The TX slot is acceptable (Table 4-8). -/
def txClean (w : BitVec 32) : Bool :=
  match (slotBits w 0 5).toNat with
  | 0 => w == 0
  | 1 => onlyBits w [(0, 30)]
  | 2 => onlyBits w [(0, 30)]
  | 3 => onlyBits w [(0, 23)]
  | 4 => onlyBits w [(0, 18)]
  | _ => false

/-- The CT slot is acceptable, LOOP and BRC nesting apart (Tables 4-9, 7-9). -/
def ctClean (w : BitVec 32) : Bool :=
  match (slotBits w 0 5).toNat with
  | 0 => w == 0
  | 1 => onlyBits w [(0, 31)]
  | 2 => true
  | 3 => onlyBits w [(0, 5)]
  | 4 => setsLegal (slotBits w 10 20) (slotBits w 30 2)
  | 5 => setaLegal (slotBits w 9 20) (slotBits w 29 3)
  | 6 =>
    let fn := (slotBits w 20 4).toNat
    fn < 12 && onlyBits w ([(0, 15), (20, 4)] ++ rangeIf (fn != 11) 15 5)
  | 7 => (slotBits w 10 5).toNat < 14 && onlyBits w [(0, 15)]
  | 8 => onlyBits w [(0, 18)]
  | 9 => (slotBits w 17 2).toNat < 3 && onlyBits w [(0, 19)]
  | 10 => onlyBits w [(0, 21)]
  | _ => false

/-- Every slot of a bundle is acceptable. -/
def bundleClean (b : Bundle) : Bool :=
  mxClean (slotBits b 0 48) && vxClean (slotBits b 48 64) && ldClean (slotBits b 112 40) &&
  stClean (slotBits b 152 40) && txClean (slotBits b 192 32) && ctClean (slotBits b 224 32)

/-! ## Loop nesting (R99) -/

/-- Walk the bundles of a set: index, end indices of the enclosing loop bodies (innermost first). -/
def loopsClean (i : Nat) (ends : List Nat) : List Bundle → Bool
  | [] => true
  | b :: t =>
    let ends := ends.filter fun e => i ≤ e
    let w : BitVec 32 := slotBits b 224 32
    let inner := ends.head?.getD 1023
    match (slotBits w 0 5).toNat with
    | 1 =>
      let e := (slotBits w 21 10).toNat
      i < e && ends.length < 4 && e ≤ inner && loopsClean (i + 1) (e :: ends) t
    | 2 =>
      let target := (slotBits w 22 10).toNat
      (slotBits w 5 2).toNat < ends.length && i < target && target ≤ inner && loopsClean (i + 1) ends t
    | _ => loopsClean (i + 1) ends t

/-- The bundles of a set's bytes. -/
def bundlesOf (l : List Byte) : Nat → List Bundle
  | 0 => []
  | n + 1 => ofBytes 256 (l.take 32) :: bundlesOf (l.drop 32) n

/-- Check 5 of Table 17-8 on one bundle set. -/
def setClean (l : List Byte) : Bool :=
  let b := bundlesOf l (l.length / 32)
  b.all bundleClean && loopsClean 0 [] b

end Sys2Proof.Machine
end

