-- ==== Sys2Proof/Machine/Routes.lean ====
section
/-! DEFINITION. The torus around the part (R226, R256 to R260): the box of the slice, and the links of the
part that lie on its routes. -/

namespace Sys2Proof.Machine

/-- Campus extent of an axis; 1 without a plan or beyond the plan's axes. -/
def State.campus (s : State) (axis : Nat) : Nat :=
  match s.rc.plan with
  | none => 1
  | some p => (p.extent[axis]?).getD 1

/-- Axes of the part. -/
def State.axes (s : State) : Nat := ioDiesOf s.fused.variant

/-- The box spans the full ring of an axis. -/
def State.boxFull (s : State) (low high : FabricAddr) (axis : Nat) : Bool :=
  1 < s.campus axis && coord low axis == 0 && coord high axis + 1 == s.campus axis

/-- Direction from coordinate c to coordinate d on an axis (R259): 0 none, 1 positive, 2 negative. -/
def direction (full : Bool) (n c d : Nat) : Nat :=
  if c = d then 0
  else if full then (if (d + n - c) % n ≤ n / 2 then 1 else 2)
  else if c < d then 1 else 2

/-- Router of an I/O die. -/
def State.router (s : State) (die : Nat) : Router := tabGet .reset s.rt.routers die

/-- Change a router. -/
def State.modRouter (s : State) (die : Nat) (f : Router → Router) : State :=
  { s with rt := { s.rt with routers := tabMod .reset s.rt.routers die f } }

/-- Bundle index of a packet (R260). -/
def bundleIndex (a b : FabricAddr) : Nat :=
  (coord a 0 + coord a 1 + coord a 2 + coord a 3 + coord b 0 + coord b 1 + coord b 2 + coord b 3) % 4

/-- Link that a link map gives for a direction and a bundle index. -/
def mappedLink (map : BitVec 16) (die : Nat) (negative : Bool) (j : Nat) : Nat :=
  if negative then 8 * die + 4 + (map.extractLsb' (2 * j + 8) 2).toNat
  else 8 * die + (map.extractLsb' (2 * j) 2).toNat

/-- Every other part of the box. -/
def State.otherParts (s : State) : List FabricAddr :=
  let n (k : Nat) := boxExtent s.job.low s.job.high k
  ((List.range (n 0 * n 1 * n 2 * n 3)).map (memberAddress s.job.low s.job.high)).filter fun a => a != s.rc.address

/-- A direction of an axis leads to a part of the slice's box. -/
def State.boxStep (s : State) (axis : Nat) (negative : Bool) : Bool :=
  let c := coord s.rc.address axis
  if s.boxFull s.job.low s.job.high axis then true
  else if negative then coord s.job.low axis < c
  else c < coord s.job.high axis

/-- Links of this part on the slice's routes, those of the bell tree among them. -/
def State.routeLinks (s : State) : List Nat :=
  if s.job.state == .none then []
  else pick (linksOf s.fused.variant) fun l =>
    let die := l / 8
    let negative := 4 ≤ l % 8
    s.boxStep die negative &&
      (List.range 4).any fun j =>
        mappedLink (s.router die).linkmap die negative j == l || mappedLink (s.router die).bellmap die negative j == l

/-- A link. -/
def State.link (s : State) (l : Nat) : Link := tabGet .reset s.links l

/-- Put a link. -/
def State.setLink (s : State) (l : Nat) (x : Link) : State := { s with links := tabSet .reset s.links l x }

/-- Width of a link in service; 0 unless ACTIVE. -/
def State.linkWidth (s : State) (l : Nat) : Nat :=
  let x := s.link l
  if x.phase == .active then x.width else 0

/-- Queue a packet at a link. A link without light takes bell packets only: the others are discarded and
counted (R284, R285). -/
def State.sendLink (s : State) (l : Nat) (p : Packet) : State :=
  let x := s.link l
  if p.cls != 0 && (x.phase == .down || x.phase == .failed || x.phase == .disabled) then s.otherDrop (l / 8)
  else s.setLink l { x with txQueue := x.txQueue ++ [p] }

/-- Drain ends: what the part kept back is injected under the epoch in force. -/
def State.undrain (s : State) : State :=
  let l := s.rt.kept.map fun e => { e with arrival := s.rt.now, packet := { e.packet with epoch := s.rt.epoch } }
  let links := s.rt.keptLinks
  let s := { s with rt := { s.rt with drain := false, kept := [], keptLinks := [], queue := s.rt.queue ++ l } }
  links.foldl (fun s e => s.sendLink e.1 e.2) s

/-! ## Quiet routers (R277) -/

/-- A link holds nothing of channels 2 to 7, and every credit of theirs has come back. -/
def Link.quiet (x : Link) : Bool :=
  (List.range 6).all (fun c => tabGet 0 x.rxHeld (c + 2) == 0 && tabGet 0 x.sent (c + 2) == tabGet 0 x.returned (c + 2)) &&
  x.txQueue.all (fun p => p.cls == 0) && x.txFlits.all fun f => f.cls == 0

/-- The router of an I/O die is quiet. -/
def State.routerQuiet (s : State) (die : Nat) : Bool :=
  s.rt.queue.all (fun e => e.die.toNat != die || e.packet.cls == 0) &&
  (List.range 8).all fun j => (s.link (8 * die + j)).quiet

/-- The part is quiet. -/
def State.quiet (s : State) : Bool := (List.range s.axes).all s.routerQuiet

/-- The narrowest link of this part on the slice's routes (R253, R285). -/
def State.routeWidth (s : State) : Nat := (s.routeLinks.map s.linkWidth).foldl min 8

/-! ## The bell tree (R274) -/

/-- The neighbour of an address on an axis. -/
def State.neighbour (s : State) (a : FabricAddr) (axis : Nat) (negative : Bool) : FabricAddr :=
  let n := s.campus axis
  let c := coord a axis
  let d := if negative then (if n ≤ 1 then c - 1 else (c + n - 1) % n) else (if n ≤ 1 then c + 1 else (c + 1) % n)
  BitVec.ofNat 16 (a.toNat - c * 16 ^ axis + d * 16 ^ axis)

/-- Direction from a to b on an axis within the job's box. -/
def State.boxDirection (s : State) (axis : Nat) (a b : FabricAddr) : Nat :=
  direction (s.boxFull s.job.low s.job.high axis) (s.campus axis) (coord a axis) (coord b axis)

/-- The highest axis on which two addresses differ. -/
def lastAxis (a b : FabricAddr) : Option Nat := ((List.range 4).filter fun k => coord a k != coord b k).getLast?

/-- The parent of a part of the box. -/
def State.parentOf (s : State) (a : FabricAddr) : Option FabricAddr :=
  match lastAxis s.job.root a with
  | none => none
  | some k => some (s.neighbour a k (s.boxDirection k s.job.root a == 1))

/-- The children of this part. -/
def State.children (s : State) : List FabricAddr :=
  let a := s.rc.address
  let near := (List.range 4).flatMap fun k => [s.neighbour a k false, s.neighbour a k true]
  (near.filter fun q => q != a && inBox s.job.low s.job.high q && s.parentOf q == some a).eraseDups

end Sys2Proof.Machine
end

