-- ==== Sys2Proof/Machine/Adjacency.lean ====
section
/-! DEFINITION. What the cabling plan says of each link, and what roll call makes of it (R287 to R289, R294, R296,
R297). -/

namespace Sys2Proof.Machine

/-! ## The plan (R287 to R289, R299) -/

/-- The plan's entry of a serial. -/
def Plan.entry (p : Plan) (serial : BitVec 64) : Option PlanEntry := p.entries.find? fun e => e.serial == serial

/-- This part's entry. -/
def State.planEntry (s : State) : Option PlanEntry := s.rc.plan.bind fun p => p.entry s.fused.serial

/-- The plan uses a link of this part. -/
def State.used (s : State) (l : Nat) : Bool :=
  match s.planEntry with
  | some e => bit e.used l
  | none => false

/-- The plan held leaves a link unused (R246, R294). -/
def State.leftOut (s : State) (l : Nat) : Bool := s.rc.plan.isSome && !s.used l

/-- A link that has gone down rests DISABLED where the plan leaves it unused. -/
def State.restLink (s : State) (l : Nat) (x : Link) : State :=
  s.setLink l (if s.leftOut l then { x with phase := .disabled, reason := 7, txQueue := [] } else x)

/-- Link at the far end of a used link (R289). -/
def peerLink (l : Nat) : Nat := 8 * (l / 8) + (l + 4) % 8

/-- Address of the planned peer of a link. -/
def State.peerAddress (s : State) (l : Nat) : FabricAddr := s.neighbour s.rc.address (l / 8) (4 ≤ l % 8)

/-- Serial of the planned peer. -/
def State.peerSerial (s : State) (l : Nat) : Option (BitVec 64) :=
  s.rc.plan.bind fun p => (p.entries.find? fun e => e.address == s.peerAddress l).map (·.serial)

/-! ## Report entries (R294, Table 12-5) -/

/-- Roll call on a link. -/
def State.rollOf (s : State) (l : Nat) : RollEntry := tabGet .reset s.rc.links l

/-- Change roll call on a link. -/
def State.modRoll (s : State) (l : Nat) (f : RollEntry → RollEntry) : State :=
  { s with rc := { s.rc with links := tabMod .reset s.rc.links l f } }

/-- The measured delay is within 10 ns of the recorded one. -/
def RollEntry.delayKept (x : RollEntry) : Bool := x.hop ≤ x.recorded + 10 && x.recorded ≤ x.hop + 10

/-- Kind of a link whose latest ANNOUNCE is known. -/
def State.heardKind (s : State) (l : Nat) (p : Plan) (x : RollEntry) (n : Neighbour) : Nat :=
  let planned := s.peerSerial l == some n.serial
  let same := n.hasPlan && n.digest == p.digest
  let right := planned && same && n.link.toNat == peerLink l
  if right then
    if !x.reverify || (x.hop ≠ 0 && x.delayKept) then 0 else if x.hop = 0 then 1 else 9
  else if (p.entry n.serial).isNone then 4
  else if !same then 5
  else if !planned then 6
  else if n.link.toNat == l then 7
  else 8

/-- Report entry kind of a link; none where it has no entry. A re-verified link stays PENDING until its delay is
measured (log 17). -/
def State.rollKind (s : State) (l : Nat) : Option Nat :=
  let x := s.rollOf l
  let active := (s.link l).phase == .active
  if s.used l then
    if !active then some 2
    else match x.heard, s.rc.plan with
      | some n, some p => some (s.heardKind l p x n)
      | _, _ => some (if s.rc.window || x.window then 1 else 2)
  else if active then some 3 else none

/-- Used links of the part. -/
def State.usedLinks (s : State) : List Nat := pick (linksOf s.fused.variant) s.used

/-- Every used link is MATCH. -/
def State.allMatch (s : State) : Bool := s.usedLinks.all fun l => s.rollKind l == some 0

/-- Every entry is MATCH. -/
def State.entriesMatch (s : State) : Bool :=
  (List.range (linksOf s.fused.variant)).all fun l => match s.rollKind l with
    | some k => k == 0
    | none => true

/-- Roll-call state code (Table 12-7). -/
def State.rollState (s : State) : Nat :=
  if s.rc.plan.isNone then 0 else if s.rc.window then 1 else if s.entriesMatch then 2 else 3

/-- A link that carries packets: ACTIVE, and MATCH where a plan is held (R297). -/
def State.linkServes (s : State) (l : Nat) : Bool := (s.link l).phase == .active && s.rollKind l == some 0

/-! ## Link maps (Table 11-10, R297) -/

/-- Link map of an I/O die: the bundle indices in turn over the links of the plan that are MATCH (R286, R297). -/
def State.linkMapOf (s : State) (k : Nat) : BitVec 16 :=
  let half (base : Nat) (j : Nat) : BitVec 2 :=
    let l := (List.range 4).filter fun i => s.linkServes (8 * k + base + i)
    BitVec.ofNat 2 ((l[j % max 1 l.length]?).getD j)
  packFields 2 8 fun j => if j < 4 then half 0 j else half 4 (j - 4)

/-- A link map without the links that are not MATCH: the map of the links that are stands in for their entries
(R286, R297). -/
def State.serveMap (s : State) (k : Nat) (m : BitVec 16) : BitVec 16 :=
  packFields 2 8 fun j =>
    let own := m.extractLsb' (2 * j) 2
    if s.linkServes (8 * k + (if j < 4 then 0 else 4) + own.toNat) then own else (s.linkMapOf k).extractLsb' (2 * j) 2

end Sys2Proof.Machine
end

