-- ==== Sys2Proof/Machine/Relocate.lean ====
section
/-! DEFINITION. Reading an image from its directory and section bytes, and relocating it (R417 to R425). -/

namespace Sys2Proof.Machine

/-- Host memory as DMA reads it; none where the read fails. -/
def hostRead (h : HostMem) (addr n : Nat) : Option (List Byte) :=
  match h.find? fun r => r.1 ≤ addr && addr + n ≤ r.1 + r.2.length with
  | some r => some ((r.2.drop (addr - r.1)).take n)
  | none => if n = 0 then some [] else none

/-! ## Directory (Tables 17-1, 17-2) -/

/-- Sections that a directory announces. -/
def dirSections (d : List Byte) : Nat := natAt d 6 2

/-- Entry of a section. -/
def dirEntry (d : List Byte) (i : Nat) : List Byte := bytesAt d (128 + 32 * i) 32

/-- Host address and length of a section. -/
def entryAddress (e : List Byte) : Nat := natAt e 8 8
def entryLength (e : List Byte) : Nat := natAt e 16 8

/-- Fetch the section bytes of a directory. -/
def fetchSections (h : HostMem) (d : List Byte) (i : Nat) : Nat → Option (List (List Byte))
  | 0 => some []
  | n + 1 =>
    let e := dirEntry d i
    match hostRead h (entryAddress e) (entryLength e), fetchSections h d (i + 1) n with
    | some b, some t => some (b :: t)
    | _, _ => none

/-- A section from its entry, its bytes and their digest. -/
def sectionFrom (e : List Byte) (bytes : List Byte) (digest : BitVec 512) : Section :=
  { kind := fieldAt 16 e 0, member := fieldAt 16 e 2, id := fieldAt 32 e 4, place := natAt e 24 4
    dies := fieldAt 8 e 28, bundles := natAt e 30 2, length := entryLength e, bytes := bytes, digest := digest }

/-- Sections in directory order. -/
def sectionsFrom (d : List Byte) (i : Nat) : List (List Byte × BitVec 512) → List Section
  | [] => []
  | b :: t => sectionFrom (dirEntry d i) b.1 b.2 :: sectionsFrom d (i + 1) t

/-- The image of a directory and its sections. -/
def imageFrom (d : List Byte) (l : List (List Byte × BitVec 512)) : Image :=
  { digest := fieldAt 512 d 64, profileB1 := natAt d 8 1 == 1, determinism := bytesAt d 9 5
    minWidth := natAt d 14 1, elpMinor := natAt d 15 1, layers := natAt d 16 1, axes := natAt d 17 1
    extent := (bytesAt d 18 4).map BitVec.toNat, full := fieldAt 8 d 22, serving := natAt d 23 1 % 2 == 1
    members := natAt d 24 2, prologue := natAt d 28 4, term := natAt d 32 4, epilogue := natAt d 36 4
    sections := sectionsFrom d 0 l }

/-- The metadata of fetched sections: bundle sets keep their digest only (R421). -/
def metadata (d : List Byte) (i : Nat) : List (List Byte) → List (List Byte × BitVec 512)
  | [] => []
  | b :: t =>
    let set := natAt (dirEntry d i) 0 2 == 3
    (if set then [] else b, if set then Config.sha3 b else 0) :: metadata d (i + 1) t

/-! ## Relocation (R423) -/

/-- A relocation record (Table 17-7). -/
structure Reloc where
  sect : Nat
  kind : Nat
  width : Nat
  pos : Nat
  operand : Nat
  shift : Nat
  axis : Nat
  deriving DecidableEq, Repr

/-- A record from its bytes. -/
def relocAt (b : List Byte) (i : Nat) : Reloc :=
  let r := bytesAt b (16 * i) 16
  { sect := natAt r 0 2, kind := natAt r 2 1, width := natAt r 3 1, pos := natAt r 4 4, operand := natAt r 8 2
    shift := natAt r 10 1, axis := natAt r 11 1 }

/-- Relocation records of an image. -/
def Image.relocs (im : Image) : List Reloc :=
  let b := sectionBytes im 0x09 0 0
  (List.range (b.length / 16)).map (relocAt b)

/-- Change the field of a byte string: F becomes (F + x) mod 2^w. -/
def addField (b : List Byte) (pos w x : Nat) : List Byte :=
  let k := pos / 8
  let n := (pos % 8 + w + 7) / 8
  let v := natAt b k n
  let f := v / 2 ^ (pos % 8) % 2 ^ w
  let v := v - f * 2 ^ (pos % 8) + (f + x) % 2 ^ w * 2 ^ (pos % 8)
  b.take k ++ natToBytes n v ++ b.drop (k + n)

/-- Read a field of a byte string. -/
def getField (b : List Byte) (pos w : Nat) : Nat :=
  natAt b (pos / 8) ((pos % 8 + w + 7) / 8) / 2 ^ (pos % 8) % 2 ^ w

/-- What a record is worth on a part (Table 17-9); none for a symbol without a value. -/
def State.relocValue (s : State) (symbols : List SymbolValue) (r : Reloc) : Option Nat :=
  let who := if r.operand = 0xFFFF then s.rc.address else memberAddress s.job.low s.job.high r.operand
  match r.kind with
  | 1 => some (housePosition s.fused.variant who * 2 ^ 37)
  | 2 => some who.toNat
  | 3 => some (coord who r.axis)
  | 4 => match symbols[r.operand]? with
    | some y => y.value.map BitVec.toNat
    | none => none
  | 5 => some s.rt.slice.toNat
  | _ => some 0

/-- Apply a record to the section list: to the section of its index. -/
def applyAt (f : Section → Section) : Nat → List Section → List Section
  | _, [] => []
  | 0, x :: t => f x :: t
  | n + 1, x :: t => x :: applyAt f n t

/-- The record targets a bundle set. -/
def Image.targetsSet (im : Image) (r : Reloc) : Bool :=
  match im.sections[r.sect]? with
  | some x => x.kind == 3
  | none => true

/-- Apply the records that a predicate selects and whose value is known; the image and how many were
applied. Copies for another member are that member's to relocate. -/
def State.applyRelocs (s : State) (symbols : List SymbolValue) (im : Image) (l : List Reloc) : Image × Nat :=
  l.foldl (fun (a : Image × Nat) r =>
    if im.targetsSet r then a
    else match s.relocValue symbols r with
      | none => a
      | some v =>
        let f (x : Section) : Section :=
          if x.member == 0xFFFF || x.member.toNat == s.member then
            { x with bytes := addField x.bytes r.pos r.width (v / 2 ^ r.shift) }
          else x
        ({ a.1 with sections := applyAt f r.sect a.1.sections }, a.2 + 1)) (im, 0)

/-- Symbols of an image, with their defaults (Table 17-3). -/
def Image.symbolTable (im : Image) : List SymbolValue :=
  let b := sectionBytes im 0x0A 0 0
  (List.range (b.length / 16)).map fun i =>
    { symbol := fieldAt 32 b (16 * i)
      value := if natAt b (16 * i + 4) 1 % 2 = 1 then some (fieldAt 64 b (16 * i + 8)) else none }

/-- Symbols with zero for each without a value, as the checks at TT_LOAD take them (R421). -/
def zeroSymbols (l : List SymbolValue) : List SymbolValue :=
  l.map fun y => { y with value := some (y.value.getD 0) }

/-- Symbols without a value. -/
def awaitingSymbols (l : List SymbolValue) : Nat := (l.filter fun y => y.value.isNone).length

/-! ## Regions of an image (Table 17-5) -/

/-- The LOCAL region that a descriptor describes, its pointers at zero. -/
def localRegionOf (b : List Byte) : Region :=
  let p := natAt b 8 4
  let c := natAt b 12 4
  { Region.reset with
    kind := .localRegion
    base := fieldAt 40 b 0, slotsLog := BitVec.ofNat 5 (natAt b 6 1), slotLog := BitVec.ofNat 3 (natAt b 7 1)
    producerPart := BitVec.ofNat 16 p, producerTile := BitVec.ofNat 10 (p / 2 ^ 16)
    producerEngine := p / 2 ^ 26 % 2 == 1, producerFirmware := p / 2 ^ 27 % 2 == 1
    consumerTile := BitVec.ofNat 10 c, consumerFirmware := c / 2 ^ 10 % 2 == 1
  }

/-- The region that a descriptor describes. A FORWARD entry holds its home and the region number there, nothing else
(R221). -/
def regionOf (b : List Byte) : Region :=
  let h := natAt b 16 4
  match natAt b 5 1 with
  | 1 => localRegionOf b
  | 2 => { Region.reset with kind := .forward, homePart := BitVec.ofNat 16 h, homeRegion := BitVec.ofNat 8 (h / 2 ^ 16) }
  | _ => .reset

/-- Descriptor of a region of a member's table; OFF where the image has none. -/
def Image.regionDesc (im : Image) (member n : Nat) : List Byte :=
  bytesAt (sectionBytes im 0x04 member 0) (32 * n) 32

/-- Install a descriptor (R214): a LOCAL entry of the same base, n and g keeps its pointers. -/
def State.install (s : State) (n : Nat) (r : Region) : State :=
  let old := s.region n
  if old.kind == .localRegion && r.kind == .localRegion && old.base == r.base && old.slotsLog == r.slotsLog &&
      old.slotLog == r.slotLog then
    s.setRegion n { r with
      head := old.head, tail := old.tail, headSh := old.headSh, tailSh := old.tailSh
      overrun := old.overrun, dropped := old.dropped, tailWas := old.tailWas, headWas := old.headWas }
  else s.setRegion n r

/-- A member's relocation of its image: every record whose value is known (R425). -/
def State.relocate (s : State) (symbols : List SymbolValue) (im : Image) : Image × Nat :=
  s.applyRelocs symbols im im.relocs

/-- Install the timetable store region of a relocated image. -/
def State.installStore (s : State) (im : Image) : State :=
  let n := timetableRegion im s.member
  s.install n (regionOf (im.regionDesc s.member n))

end Sys2Proof.Machine
end

