-- ==== Sys2Proof/Machine/ImageChecks.lean ====
section
/-! DEFINITION. The loader's checks of an image in the order of Table 17-8. -/

namespace Sys2Proof.Machine

/-- A failed check: status, lesson or section index, value found and value required; none where the manual
states no number for it. -/
structure LoadFault where
  status : BitVec 16
  place : Option Nat
  found : Option Nat
  required : Option Nat
  deriving DecidableEq, Repr

/-- A refusal without numbers of its own at a place. -/
def faultAt (status : BitVec 16) (place : Option Nat) : LoadFault := ⟨status, place, none, none⟩

/-- Every byte of a range of a string is zero. -/
def zeroAt (b : List Byte) (lo n : Nat) : Bool := ((b.drop lo).take n).all (· == 0)

/-! ## Check 1: format -/

/-- Lessons of a directory. -/
def dirLessons (d : List Byte) : Nat := natAt d 28 4 + natAt d 32 4 + natAt d 36 4

/-- Header fields inside Table 17-1, its reserved bytes zero; at least one lesson (R28). -/
def headerOk (d : List Byte) : Bool :=
  let axes := natAt d 17 1
  natAt d 0 4 == 0x00495454 && natAt d 4 1 == 1 && natAt d 5 1 == 0 && 2 ≤ dirSections d &&
  natAt d 8 1 < 2 && [1, 2, 4, 8].contains (natAt d 14 1) && natAt d 15 1 < 2 && [2, 4].contains (natAt d 16 1) &&
  2 ≤ axes && axes ≤ 4 &&
  (List.range 4).all (fun k =>
    let n := natAt d (18 + k) 1
    if k < axes then 1 ≤ n && n ≤ 16 else n == 1 && natAt d 22 1 / 2 ^ k % 2 == 0) &&
  natAt d 22 1 < 16 && natAt d 23 1 < 2 && 1 ≤ natAt d 24 2 && natAt d 24 2 ≤ 4096 && zeroAt d 26 2 &&
  1 ≤ dirLessons d && natAt d 40 4 ≤ 65536 && zeroAt d 44 20

/-- The length that a section's kind demands is met. -/
def lengthOk (d : List Byte) (x : Section) : Bool :=
  match x.kind.toNat with
  | 0x01 => x.length == 32 * dirLessons d
  | 0x02 => x.length == 4096
  | 0x03 => x.length == 256 * setGranules x
  | 0x04 => x.length == 8192
  | 0x05 => x.length == 8192
  | 0x06 => x.length == 1024
  | 0x07 => x.length % 16 == 0 && x.length ≤ 65536
  | 0x08 => x.length % 16 == 0
  | 0x09 => x.length % 16 == 0
  | 0x0A => x.length == 16 * natAt d 40 4
  | 0x0B => x.length == 128
  | 0x0C => x.length == 128
  | 0x0D => x.length == 512
  | _ => false

/-- The entry's own fields (Table 17-2). Place, dies and bundles are a bundle set's: nonzero in another kind they are
refused (log 140). -/
def entryOk (d : List Byte) (i : Nat) (x : Section) : Bool :=
  let e := dirEntry d i
  let set := x.kind == 3
  let shared := [0x01, 0x09, 0x0A, 0x0B, 0x0D].contains x.kind.toNat
  entryAddress e % 64 == 0 && natAt e 29 1 == 0 && (!shared || x.member == 0xFFFF) &&
  (x.member == 0xFFFF || x.member.toNat < 4096) && lengthOk d x &&
  (if set then 1 ≤ x.bundles && x.bundles ≤ 1024 && x.dies.toNat < 16
   else natAt e 24 5 == 0 && natAt e 30 2 == 0) &&
  (match x.kind.toNat with
  | 0x02 | 0x03 => true
  | 0x05 | 0x06 | 0x07 => x.id.toNat < dirLessons d
  | _ => x.id == 0)

/-- Two entries that R418 does not allow beside each other. -/
def clash (x y : Section) : Bool :=
  x.kind == y.kind && x.id == y.id && (x.member == y.member || x.member == 0xFFFF || y.member == 0xFFFF)

/-- Some later section clashes with an earlier one. -/
def anyClash : List Section → Bool
  | [] => false
  | x :: t => t.any (clash x) || anyClash t

/-- A 64-bit reduction descriptor of die d is well formed (R199): its destination lies in the layers of the die, also where count is 0. -/
def groupOk (g : Nat) (die : Nat) : Bool :=
  g / 2 ^ 52 == 0 && g / 2 ^ 49 % 4 < 2 && g / 2 ^ 40 % 512 ≤ 256 && g / 2 ^ 35 % 4 == die && inLayers (g % 2 ^ 35)

/-- A 128-bit ring descriptor is well formed (Table 11-6). -/
def ringOk (g : Nat) : Bool := g / 2 ^ 5 % 4 != 3 && g / 2 ^ 7 % 2 == 0 && g / 2 ^ 96 == 0

/-- A region descriptor sets no reserved bit or code. -/
def regionOk (b : List Byte) : Bool :=
  let p := natAt b 8 4
  natAt b 0 1 == 0 && natAt b 5 1 < 3 && p < 2 ^ 28 && (p / 2 ^ 26 % 4 == 0 || p / 2 ^ 16 % 2 ^ 10 == 0) &&
  natAt b 12 4 < 2 ^ 11 && natAt b 16 4 < 2 ^ 24 && zeroAt b 20 12

/-- One lesson-table entry is well formed. -/
def lessonOk (e : List Byte) : Bool :=
  256 ≤ natAt e 0 4 && natAt e 0 4 ≤ 1048576 && natAt e 4 2 ≤ 4095 && zeroAt e 6 2 && zeroAt e 13 3 && zeroAt e 20 12

/-- A placement section sets no reserved bit. -/
def placementOk (b : List Byte) : Bool :=
  (List.range 4).all (fun d =>
    let log := natAt b (16 * d + 5) 1
    natAt b (16 * d) 1 == 0 && natAt b (16 * d) 5 < 2 ^ 35 && (log = 0 || (7 ≤ log && log ≤ 16)) &&
      zeroAt b (16 * d + 7) 9) &&
  natAt b 66 1 < 2 && zeroAt b 67 61

/-- A value in a range. -/
def within (lo hi n : Nat) : Bool := lo ≤ n && n ≤ hi

/-- Region numbers that a list of a serving descriptor names. -/
def regionCount (b : List Byte) (off n : Nat) : Nat := ((bytesAt b off n).filter (· != 0xFF)).length

/-- A serving descriptor sets no reserved byte, and its fields keep the ranges of Table 14-1; a restore time of 0 is the
default (log 150). -/
def servingOk (b : List Byte) : Bool :=
  zeroAt b 101 3 && zeroAt b 109 3 && zeroAt b 122 6 && natAt b 100 1 < 8 && natAt b 108 1 < 8 && natAt b 120 1 < 8 &&
  within 1 2048 (natAt b 0 2) && within 1 64 (natAt b 2 1) && natAt b 3 1 ≤ 8 && within 2 0xFFFFFFFE (natAt b 4 4) &&
  within 64 16777216 (natAt b 8 4) && within 1 16777216 (natAt b 12 4) && natAt b 16 4 % 256 = 0 &&
  natAt b 20 2 ≤ 4095 && 1 ≤ natAt b 22 2 && 1 ≤ regionCount b 24 8 && 1 ≤ regionCount b 32 64 && natAt b 121 1 ≤ 64

/-- A relocation record sets no reserved field; the axis of a kind other than COORD is refused when nonzero
(log 140). -/
def relocOk (r : List Byte) : Bool :=
  let k := natAt r 2 1
  let w := natAt r 3 1
  1 ≤ k && k ≤ 5 && 1 ≤ w && w ≤ 64 && natAt r 10 1 < 64 && (if k = 3 then natAt r 11 1 < 4 else natAt r 11 1 == 0) &&
  zeroAt r 12 4

/-- The entries of a section, cut to a size. -/
def cut (size : Nat) (b : List Byte) : List (List Byte) := (List.range (b.length / size)).map fun i => bytesAt b (size * i) size

/-- Reserved fields and codes of a section's content. -/
def contentOk (x : Section) : Bool :=
  match x.kind.toNat with
  | 0x01 => (cut 32 x.bytes).all lessonOk
  | 0x04 => (cut 32 x.bytes).all regionOk
  | 0x05 => (List.range 1024).all fun i => groupOk (natAt x.bytes (8 * i) 8) (i / 256)
  | 0x06 => (cut 16 x.bytes).all fun r => ringOk (natOfBytes r)
  | 0x07 => (cut 16 x.bytes).all (fun r => natOfBytes r / 2 ^ 88 == 0 && natOfBytes r / 2 ^ 24 % 256 == 0) &&
      ((cut 16 x.bytes).map fun r => natOfBytes r / 2 ^ 64 % 2 ^ 16 + 1).sum ≤ 131072
  | 0x08 => (cut 16 x.bytes).all fun r => natAt r 0 5 % 65536 == 0 && (natAt r 5 1 == 1 || natAt r 5 1 == 2)
  | 0x09 => (cut 16 x.bytes).all relocOk
  | 0x0A => (cut 16 x.bytes).all fun r => natAt r 4 1 < 2 && zeroAt r 5 3
  | 0x0B => servingOk x.bytes
  | 0x0C => placementOk x.bytes
  | _ => true

/-- Members of an image's box, by index. -/
def Image.memberIndices (im : Image) : List Nat :=
  let b := sectionBytes im 0x0D 0 0
  pick 4096 fun i => natAt b (i / 8) 1 / 2 ^ (i % 8) % 2 == 1

/-- The set that a word of a tile map names exists for a member and is placed in the tile's die. -/
def Image.wordOk (im : Image) (member tile id : Nat) : Bool :=
  id == 0xFFFFFFFF ||
    (match bundleSet im member id with
    | none => false
    | some x => bit x.dies (tile / 256))

/-- A section that serves a member. -/
def Section.serves (x : Section) (member : Nat) : Bool := x.member == 0xFFFF || x.member.toNat == member

/-- A bundle set lies within each bundle area of a member that its dies bits name. -/
def Image.setFits (im : Image) (member : Nat) (x : Section) : Bool :=
  (List.range 4).all fun d =>
    !bit x.dies d || (areaLog im member d != 0 && x.place + setGranules x ≤ 2 ^ areaLog im member d)

/-- Lessons, maps and sets of a member agree. -/
def Image.mapsOk (im : Image) (member : Nat) : Bool :=
  (sectionOf im 0x0C member 0).isSome &&
  (List.range (lessonCount im)).all (fun l => (sectionOf im 0x02 member (natAt (lessonEntry im l) 16 4)).isSome) &&
  im.sections.all fun x => !x.serves member ||
    (match x.kind.toNat with
    | 2 => (List.range 1024).all fun t => im.wordOk member t (natAt x.bytes (4 * t) 4)
    | 3 => im.setFits member x
    | _ => true)

/-- The sections that every image has: one lesson table, one relocation section and one member map. -/
def Image.present (im : Image) : Bool :=
  (sectionOf im 0x01 0xFFFF 0).isSome && (sectionOf im 0x09 0xFFFF 0).isSome && (sectionOf im 0x0D 0xFFFF 0).isSome &&
  (sectionOf im 0x0B 0xFFFF 0).isSome == im.serving && im.memberIndices.length == im.members

/-- Index of the first section that a predicate rejects. -/
def firstBad (p : Nat → Section → Bool) (i : Nat) : List Section → Option Nat
  | [] => none
  | x :: t => if p i x then firstBad p (i + 1) t else some i

/-- Check 1: the directory, its sections' raw bytes, and the image they make. -/
def checkFormat (d : List Byte) (length : Nat) (raw : List (List Byte)) (im : Image) : Option LoadFault :=
  let bad := some (faultAt 0x0040 none)
  if natAt d 5 1 != 0 && natAt d 4 1 == 1 then some ⟨0x0040, none, some (natAt d 5 1), some 0⟩
  else if !headerOk d || length != 128 + 32 * dirSections d then bad
  else if Config.sha3 (d.take 64 ++ d.drop 128 ++ raw.flatten) != fieldAt 512 d 64 then bad
  else match firstBad (fun i x => entryOk d i x && contentOk x) 0 im.sections with
    | some i => some (faultAt 0x0040 (some i))
    | none =>
      let symbols := natAt d 40 4 == 0 || (sectionOf im 0x0A 0xFFFF 0).isSome
      if anyClash im.sections || !im.present || !symbols || !im.memberIndices.all im.mapsOk then bad else none

/-! ## Checks 2 to 6 -/

/-- Check 2: the latency profile of the part (R104). -/
def State.checkProfile (s : State) (im : Image) : Option LoadFault :=
  if im.profileB1 && s.fused.stepping == .a0 then some ⟨0x0042, none, some 1, some 0⟩ else none

/-- Check 3: the determinism versions (Table 16-7, the same on every part). -/
def checkDeterminism (im : Image) : Option LoadFault :=
  (im.determinism.filter (· != 1)).head?.map fun x => ⟨0x0043, none, some x.toNat, some 1⟩

/-- Check 4: the geometry of the part. -/
def State.checkCaps (s : State) (im : Image) : Option LoadFault :=
  let v := s.fused.variant
  if layersOf v < im.layers then some ⟨0x0047, none, some im.layers, some (layersOf v)⟩
  else if im.axes != ioDiesOf v then some ⟨0x0047, none, some im.axes, some (ioDiesOf v)⟩
  else none

/-- A die offset that the variant has. -/
def State.offsetExists (s : State) (off : Nat) : Bool := off < layersOf s.fused.variant * 2 ^ 31 || inStores off

/-- Every die offset that an image's descriptors address exists (check 4). -/
def State.offsetsOk (s : State) (x : Section) : Bool :=
  match x.kind.toNat with
  | 0x04 => (cut 32 x.bytes).all fun b => natAt b 5 1 != 1 || s.offsetExists (natAt b 0 5 % 2 ^ 35)
  | 0x05 => (cut 8 x.bytes).all fun b =>
      s.offsetExists (natOfBytes b % 2 ^ 35)
  | 0x06 => (cut 16 x.bytes).all fun b => natOfBytes b % 4 == 0 || s.offsetExists (natOfBytes b / 2 ^ 24 % 2 ^ 35)
  | 0x07 => (cut 16 x.bytes).all fun b => s.offsetExists (natOfBytes b / 2 ^ 24 % 2 ^ 35)
  | 0x08 => (cut 16 x.bytes).all fun b => s.offsetExists (natAt b 0 5 % 2 ^ 35)
  | 0x0C => (List.range 4).all fun d =>
      natAt x.bytes (16 * d + 5) 1 == 0 || s.offsetExists (natAt x.bytes (16 * d) 5 % 2 ^ 35)
  | _ => true

/-- Check 4, second half: the sections that serve this member. -/
def State.checkOffsets (s : State) (im : Image) : Option LoadFault :=
  (firstBad (fun _ x => !x.serves s.member || s.offsetsOk x) 0 im.sections).map fun i => faultAt 0x0047 (some i)

/-- Check 5: encodings of the bundle sets. -/
def checkEncoding (d : List Byte) (raw : List (List Byte)) : Option LoadFault :=
  ((List.range raw.length).find? fun i =>
    natAt (dirEntry d i) 0 2 == 3 && !setClean ((raw[i]?).getD [])).map fun i => faultAt 0x0041 (some i)

/-- Slack that R62 demands of a lesson. -/
def slackNeeded (length stretch hops : Nat) : Nat := (length * 120 + 999999) / 1000000 + 2 * stretch + 220 * hops

/-- Check 6: the slack inequality, lesson by lesson. -/
def checkSlack (im : Image) : Option LoadFault :=
  (List.range (lessonCount im)).findSome? fun i =>
    let e := lessonEntry im i
    let need := slackNeeded (natAt e 0 4) (natAt e 4 2) (natAt e 12 1)
    if natAt e 8 4 < need then some ⟨0x0044, some i, some (natAt e 8 4), some need⟩ else none

/-! ## Checks 7 to 9: links and tiles of a member -/

/-- A ring of the image uses op 2. -/
def Image.usesBf16Ring (im : Image) : Bool :=
  im.sections.any fun x => x.kind == 6 && (cut 16 x.bytes).any fun r =>
    natOfBytes r % 4 != 0 && natOfBytes r / 2 ^ 5 % 4 == 2

/-- Check 7. -/
def State.checkElp (s : State) (im : Image) : Option LoadFault :=
  if (im.elpMinor == 1 || im.usesBf16Ring) &&
      s.routeLinks.any (fun l => (s.link l).phase == .active && (s.link l).minor == 0) then
    some ⟨0x0046, none, some 0, some 1⟩
  else none

/-- Check 8. -/
def State.checkWidth (s : State) (im : Image) : Option LoadFault :=
  (s.routeLinks.find? fun l => s.linkWidth l < im.minWidth).map fun l =>
    ⟨0x0045, none, some (s.linkWidth l), some im.minWidth⟩

/-- Check 9. -/
def State.checkTiles (s : State) (im : Image) : Option LoadFault :=
  (List.range (lessonCount im)).findSome? fun l =>
    if (List.range 1024).any fun t => (tileSet im s.member l t).isSome && s.fenced t then
      some (faultAt 0x0048 (some l))
    else none

/-! ## Checks 10 and 11 on a member's relocated copies -/

/-- Last byte of a run lies in the same SRAM layer or tile store of this part as its first, and is ON. -/
def State.runOk (s : State) (a : HouseAddr) (n : Nat) : Bool :=
  let k := localKey a
  let off := offsetOf k
  houseOf a == s.position && k % 256 == 0 && n != 0 &&
  (if inLayers off then
    off / 2 ^ 31 == (off + n - 1) / 2 ^ 31 && (List.range (halfOf (off + n - 1) - halfOf off + 1)).all fun i =>
      s.gateOf (dieOf k) (halfOf off + i) == 0
   else inStores off && inStores (off + n - 1) && off / 2 ^ 19 == (off + n - 1) / 2 ^ 19)

/-- A descriptor keeps R212 and R213: n and g in range, the memory in one layer or store of the part, and a producer
that is a tile of a member or an engine. -/
def State.regionSound (s : State) (b : List Byte) : Bool :=
  let r := regionOf b
  match r.kind with
  | .localRegion =>
    1 ≤ natAt b 6 1 && natAt b 6 1 ≤ 16 && natAt b 7 1 ≤ 4 && !r.producerFirmware &&
      (r.producerEngine || s.job.memberList.contains r.producerPart) && s.runOk r.base (256 * r.capacity)
  | _ => true

/-- Two runs of local keys overlap. -/
def overlap (a n b m : Nat) : Bool := a < b + m && b < a + n

/-- Some two of the regions overlap. -/
def anyOverlap : List Region → Bool
  | [] => false
  | r :: t =>
    t.any (fun q => overlap (localKey r.base) (256 * r.capacity) (localKey q.base) (256 * q.capacity)) || anyOverlap t

/-- A LOCAL region of firmware's, produced by an engine; of the root's engine where named. -/
def storeSound (r : Region) (root : Option FabricAddr) : Bool :=
  r.kind == .localRegion && r.consumerFirmware && r.producerEngine &&
    (match root with
    | some a => r.producerPart == a
    | none => true)

/-- House address of a die offset of this part. -/
def State.houseAddr (s : State) (die off : Nat) : HouseAddr :=
  BitVec.ofNat 40 (s.position * 2 ^ 37 + die * 2 ^ 35 + off)

/-- The bundle area of a die is ON, in one layer or store, and meets no image region. -/
def State.areaSound (s : State) (im : Image) (regions : List Region) (die : Nat) : Bool :=
  let log := areaLog im s.member die
  let a := s.houseAddr die (areaOffset im s.member die)
  (log == 0 || (s.runOk a (256 * 2 ^ log) &&
    regions.all fun r => !overlap (localKey a) (256 * 2 ^ log) (localKey r.base) (256 * r.capacity))) &&
  (List.range 8).all fun k => declaredHalves im s.member die / 2 ^ k % 2 == 0 || s.gateOf die k == 0

/-- Check 10 on this member's copies. -/
def State.checkRegions (s : State) (im : Image) : Option LoadFault :=
  let m := s.member
  let desc := (List.range 256).map (im.regionDesc m)
  let all := desc.map regionOf
  let loc := all.filter fun r => r.kind == .localRegion
  let store := regionOf (im.regionDesc m (timetableRegion im m))
  let ok :=
    desc.all s.regionSound && !anyOverlap loc && storeSound store (some s.job.root) &&
    (match storeRegion im m with
    | some n => storeSound (regionOf (im.regionDesc m n)) none
    | none => true) &&
    (List.range 4).all (s.areaSound im loc)
  if ok then none
  else some (faultAt 0x0049 (im.sections.findIdx? fun x => x.kind == 4))

/-- Two parts lie in one house (R257). -/
def sameHouse (v : Variant) (a b : FabricAddr) : Bool :=
  let n (k : Nat) := if ioDiesOf v = 2 then (if k = 0 then 2 else if k = 1 then 4 else 1) else (if k < 3 then 2 else 1)
  (List.range 4).all fun k => coord a k / n k == coord b k / n k

/-- A relocation record names a section, a field inside it and an operand that exists (R423, R424). -/
def State.relocSound (s : State) (im : Image) (symbols : Nat) (r : Reloc) : Bool :=
  match im.sections[r.sect]? with
  | none => false
  | some x =>
    let who := memberAddress s.job.low s.job.high r.operand
    let named := r.operand == 0xFFFF || im.memberIndices.contains r.operand
    r.pos + r.width ≤ 8 * x.length &&
    (match r.kind with
    | 4 => r.operand < symbols
    | 5 => true
    | 1 => named && (r.operand == 0xFFFF || !(x.member == 0xFFFF || x.member.toNat == s.member) ||
        sameHouse s.fused.variant who s.rc.address)
    | _ => named)

/-- The box of the image is the assigned one (check 11). -/
def State.boxSound (s : State) (im : Image) : Bool :=
  let j := s.job
  (List.range 4).all (fun k =>
    (im.extent[k]?).getD 1 == boxExtent j.low j.high k && bit im.full k == s.boxFull j.low j.high k) &&
  im.memberIndices == pick 4096 fun i => bit j.members i

/-- House addresses of a member's weight map: 64 KiB blocks. -/
def weightEntries (im : Image) (member : Nat) : List (List Byte) := cut 16 (sectionBytes im 0x08 member 0)

/-- Check 11 on this member's copies, relocated. -/
def State.checkReloc (s : State) (im : Image) : Option LoadFault :=
  let l := im.relocs
  if !s.boxSound im then some (faultAt 0x004A none)
  else match l.find? fun r => !s.relocSound im im.symbolTable.length r with
    | some r => some (faultAt 0x004A (some r.sect))
    | none =>
      match (weightEntries im s.member).find? fun e => natAt e 0 5 / 2 ^ 37 != s.position with
      | some e => some ⟨0x004A, im.sections.findIdx? fun x => x.kind == 8, some (natAt e 0 5 / 2 ^ 37), some s.position⟩
      | none => none

/-! ## All of them -/

/-- The first of several checks that fails. -/
def firstFault : List (Option LoadFault) → Option LoadFault
  | [] => none
  | some f :: _ => some f
  | none :: t => firstFault t

/-- The order of a status in Table 17-8. -/
def faultOrder (status : BitVec 16) : Nat :=
  match status.toNat with
  | 0x40 => 1 | 0x42 => 2 | 0x43 => 3 | 0x47 => 4 | 0x41 => 5 | 0x44 => 6 | 0x46 => 7 | 0x45 => 8 | 0x48 => 9
  | 0x49 => 10 | 0x4A => 11
  | _ => 12

/-- What the image alone decides beside its format, which the root checks (R421): 3, 5 and 6. -/
def checkImage (d : List Byte) (raw : List (List Byte)) (im : Image) : Option LoadFault :=
  firstFault [checkDeterminism im, checkEncoding d raw, checkSlack im]

/-- Checks that depend on the member's own state (R421): each symbol at its default, or zero. -/
def State.checkMember (s : State) (im : Image) : Option LoadFault :=
  let copy := (s.relocate (zeroSymbols im.symbolTable) im).1
  firstFault [s.checkProfile im, s.checkCaps im, s.checkOffsets im, s.checkElp im, s.checkWidth im, s.checkTiles im, s.checkRegions copy, s.checkReloc copy]

/-- Of two failed checks, the one earlier in Table 17-8. -/
def earlierFault (a b : Option LoadFault) : Option LoadFault :=
  match a, b with
  | some f, some g => if faultOrder g.status < faultOrder f.status then some g else some f
  | some f, none => some f
  | none, b => b

/-- Response body of a refused image: numbers that the manual does not state are free (log 14). -/
def State.faultBody (s : State) (f : LoadFault) : List Byte × State :=
  let (n, s) := s.draw
  let num (x : Option Nat) (k : Nat) : List Byte := match x with
    | some v => natToBytes 4 v
    | none => toBytes 4 (Config.freeBits 32 (4 * n + k))
  (num f.place 0 ++ num f.found 1 ++ num f.required 2, s)

end Sys2Proof.Machine
end

