-- ==== Sys2Proof/Machine/Loader.lean ====
section
/-! DEFINITION. What loading installs (R426 to R428): bundle frames, instruction halves, refill regions, group
and ring banks, the region table. -/

namespace Sys2Proof.Machine

/-! ## Bundles in the bundle areas -/

/-- Local key of a granule of a die's bundle area. -/
def areaKey (im : Image) (member die granule : Nat) : Nat :=
  die * 2 ^ 35 + areaOffset im member die + 256 * granule

/-- Firmware reads n granules of a bundle area from a local key on: one with an uncorrectable word delivers zeros
and is held (R203), and corrections are counted. -/
def State.readArea (s : State) (k : Nat) : Nat → List Byte × State
  | 0 => ([], s)
  | n + 1 =>
    let s := s.ceHold k (s.mem.ceWords k 256)
    let bad := s.mem.hasUe k 256
    let b := if bad then List.replicate 256 0 else s.mem.list k 256
    let r := (if bad then s.ueHold k 1 0 else s).readArea (k + 256) n
    (b ++ r.1, r.2)

/-- The bundles of a tile's set as they stand in its die's bundle area. -/
def State.setBundles (s : State) (im : Image) (lesson tile : Nat) : List Bundle × State :=
  match tileSet im s.member lesson tile with
  | none => ([], s)
  | some id =>
    match bundleSet im s.member id with
    | none => ([], s)
    | some x =>
      let r := s.readArea (areaKey im s.member (tile / 256) x.place) (setGranules x)
      (bundlesOf r.1 x.bundles, r.2)

/-- Put bundles into a half from an index on. -/
def putBundles (ib : Tab Bundle) (k : Nat) : List Bundle → Tab Bundle
  | [] => ib
  | b :: t => putBundles (tabSet 0 ib k b) (k + 1) t

/-- Write a half of a tile: its bundles, the valid bits of their granules, all others cleared (R106). -/
def Tile.fillHalf (x : Tile) (half : Nat) (l : List Bundle) : Tile :=
  let valid := x.ibValid.filter fun e => e.1 / 128 != half
  { x with
    ib := putBundles (x.ib.filter fun e => e.1 / 1024 != half) (1024 * half) l
    ibUe := x.ibUe.filter fun w => w / 4096 != half
    ibValid := (List.range ((l.length + 7) / 8)).foldl (fun v g => tabSet false v (128 * half + g) true) valid }

/-- The halves of every tile before bell 0 (R106). -/
def State.fillHalves (s : State) (im : Image) : State :=
  (List.range 1024).foldl (fun s t =>
    let (a, s) := s.setBundles im 0 t
    let (b, s) := if 2 ≤ lessonCount im then s.setBundles im 1 t else ([], s)
    s.modTile t fun x => { (x.fillHalf 0 a).fillHalf 1 b with active := 0 }) s

/-! ## Refill regions (R107, R109) -/

/-- The refill region of a tile: the whole bundle area of its die, or OFF. -/
def State.refillRegion (s : State) (im : Image) (tile : Nat) : Region :=
  let die := tile / 256
  let log := areaLog im s.member die
  if log = 0 then .reset
  else { Region.reset with
    kind := .localRegion, base := s.houseAddr die (areaOffset im s.member die), slotsLog := BitVec.ofNat 5 log
    producerPart := s.rc.address, producerFirmware := true, consumerTile := BitVec.ofNat 10 tile }

/-- Install the refill regions with head equal to tail (R428). -/
def State.installRefills (s : State) (im : Image) : State :=
  (List.range 1024).foldl (fun s t =>
    let s := s.install (256 + t) (s.refillRegion im t)
    let r := s.region (256 + t)
    s.setRegion (256 + t) { r with head := r.tail, headSh := r.tail, tailSh := r.tail }) s

/-- Set a tile's refill pointers to the set that a lesson gives it (R109). -/
def State.pointRefill (s : State) (im : Image) (lesson : Option Nat) (t : Nat) : State :=
  let r := s.region (256 + t)
  let set := match lesson with
    | none => none
    | some l => match tileSet im s.member l t with
      | none => none
      | some id => bundleSet im s.member id
  let (h, n) : Nat × Nat := match set with
    | some x => (x.place, setGranules x)
    | none => (0, 0)
  if r.kind == .localRegion then
    let a := BitVec.ofNat 32 h
    let b := BitVec.ofNat 32 (h + n)
    s.setRegion (256 + t) { r with head := a, headSh := a, tail := b, tailSh := b }
  else s

/-- The refill regions of every tile. -/
def State.pointRefills (s : State) (im : Image) (lesson : Option Nat) : State :=
  (List.range 1024).foldl (fun s t => s.pointRefill im lesson t) s

/-! ## Groups and rings of a lesson (R199, R271) -/

/-- Write the reduction groups of a lesson into a bank. -/
def State.loadGroups (s : State) (im : Image) (bank : Nat) (lesson : Option Nat) : State :=
  let b := match lesson with
    | none => []
    | some l => sectionBytes im 0x05 s.member l
  let t := s.mem.groups.filter fun e => e.1 / 1024 != bank
  { s with mem := { s.mem with groups :=
      (List.range (b.length / 8)).foldl (fun t i => tabSet 0 t (1024 * bank + i) (fieldAt 64 b (8 * i))) t } }

/-- Write the ring descriptors of a lesson into a bank. -/
def State.loadRings (s : State) (im : Image) (bank : Nat) (lesson : Option Nat) : State :=
  let b := match lesson with
    | none => []
    | some l => sectionBytes im 0x06 s.member l
  let t := s.rt.rings.filter fun e => e.1 / 64 != bank
  { s with rt := { s.rt with rings :=
      (List.range (b.length / 16)).foldl (fun t i => tabSet 0 t (64 * bank + i) (fieldAt 128 b (16 * i))) t } }

/-- Both banks of a lesson's descriptors. -/
def State.loadBank (s : State) (im : Image) (bank : Nat) (lesson : Option Nat) : State :=
  (s.loadGroups im bank lesson).loadRings im bank lesson

/-! ## The region table (R214, R428) -/

/-- Install all 256 entries. -/
def State.installAll (s : State) (im : Image) : State :=
  (List.range 256).foldl (fun s n => s.install n (regionOf (im.regionDesc s.member n))) s

/-- Steps 1 to 3 of JOB_START on a member; the other banks take the descriptors of the lesson that comes second. -/
def State.installJob (s : State) (im : Image) (second : Option Nat) : State :=
  let s := s.fillHalves im
  let s := s.installRefills im
  let s := s.installAll im
  let s := { s with mem := { s.mem with groupBank := 0 }, rt := { s.rt with ringBank := 0 } }
  (s.loadBank im 0 (some 0)).loadBank im 1 second

/-- Recess step 5 after a clean verdict, once the bell's index names the lesson to come: halves and banks
swap, the refill regions and the inactive banks take the lesson after it. -/
def State.swapBanks (s : State) (im : Image) (next afterNext : Option Nat) : State :=
  let swap (_ : Nat) (x : Tile) : Tile := { x with active := x.active + 1 }
  let live := pick 1024 fun t => !s.fenced t
  let s := live.foldl (fun s t => s.modTile t (swap t)) s
  let s := { s with
    mem := { s.mem with groupBank := s.mem.groupBank + 1 }
    rt := { s.rt with ringBank := s.rt.ringBank + 1 } }
  if next.isSome then
    (s.pointRefills im afterNext).loadBank im (s.mem.groupBank + 1).toNat afterNext
  else s

/-! ## Bundle frames (R426, R427) -/

/-- Put data in place of a set's granule. -/
def putSetByte (l : List (Nat × Nat × Vec)) (id g : Nat) (v : Vec) : List (Nat × Nat × Vec) :=
  (id, g, v) :: l.filter fun e => !(e.1 == id && e.2.1 == g)

/-- Relocate one granule of a bundle set. -/
def State.relocGranule (s : State) (im : Image) (index g : Nat) (v : Vec) : Vec :=
  let l := im.relocs.filter fun r =>
    r.sect == index && r.pos / 2048 == g && (r.pos + r.width - 1) / 2048 == g
  ofBytes 2048 (l.foldl (fun b r =>
    match s.relocValue s.job.symbols r with
    | some x => addField b (r.pos % 2048) r.width (x / 2 ^ r.shift)
    | none => b) (toBytes 256 v))

/-- Write one granule of a set: kept as streamed, relocated into every area that the set names. -/
def State.writeSetGranule (s : State) (im : Image) (x : Section) (index id g : Nat) (v : Vec) : State :=
  let s := { s with job := { s.job with
    setBytes := putSetByte s.job.setBytes id g v
    setGranules := if s.job.setGranules.contains (id, g) then s.job.setGranules else (id, g) :: s.job.setGranules } }
  let w := s.relocGranule im index g v
  (pick 4 fun d => bit x.dies d).foldl (fun s d =>
    s.putGranule (areaKey im s.member d (x.place + g)) w fullBytes) s

/-- All granules of a set as streamed. -/
def Job.streamed (j : Job) (id n : Nat) : List Byte :=
  (List.range n).flatMap fun g => match j.setBytes.find? fun e => e.1 == id && e.2.1 == g with
    | some e => toBytes 256 e.2.2
    | none => []

/-- When every granule of a set has been written, compare its digest. -/
def State.closeSet (s : State) (x : Section) (id : Nat) : State :=
  let j := s.job
  if (List.range (setGranules x)).all fun g => j.setGranules.contains (id, g) then
    if Config.sha3 (j.streamed id (setGranules x)) == x.digest then
      { s with job := { j with completeSets := if j.completeSets.contains id then j.completeSets else id :: j.completeSets } }
    else
      { s with job := { j with
          setGranules := j.setGranules.filter fun e => e.1 != id
          setBytes := j.setBytes.filter fun e => e.1 != id
          completeSets := j.completeSets.filter (· != id) } }
  else s

/-- Write the granules of a frame from the first one on. -/
def State.writeFrame (s : State) (im : Image) (x : Section) (index id g : Nat) : List Vec → State
  | [] => s
  | v :: t => (s.writeSetGranule im x index id g v).writeFrame im x index id (g + 1) t

/-- Firmware processes a frame (R427): written, or discarded and counted. -/
def State.processFrame (s : State) (f : BundleFrame) : State :=
  let bad := { s with job := { s.job with discardedFrames := s.job.discardedFrames + 1 } }
  match s.job.image with
  | none => bad
  | some im =>
    let id := f.set.toNat
    let n := f.granules.length
    match im.sections.findIdx? fun x => x.kind == 3 && x.id == f.set && x.member == f.member with
    | none => bad
    | some index =>
      match im.sections[index]? with
      | none => bad
      | some x =>
        if f.ftype == 1 && f.format == 1 && f.digest == im.digest.setWidth 64 && 1 ≤ n && n ≤ 32 &&
            f.first.toNat + n ≤ setGranules x && (x.member == 0xFFFF || x.member.toNat == s.member) then
          (s.writeFrame im x index id f.first.toNat f.granules).closeSet x id
        else bad

/-- The 256 bytes of a frame's header piece. -/
def frameHeader (f : BundleFrame) : Vec :=
  ofBytes 2048 ([f.ftype, f.format] ++ toBytes 2 f.member ++ toBytes 4 f.set ++ toBytes 2 f.first ++
    [BitVec.ofNat 8 f.granules.length, 0, 0, 0, 0, 0] ++ toBytes 8 f.digest)

/-- Land a frame in the timetable store region, process it and advance the committed head past it. -/
def State.takeFrame (s : State) (im : Image) (f : BundleFrame) : State :=
  let n := timetableRegion im s.member
  let pieces := frameHeader f :: f.granules
  let s := pieces.foldl (fun s v => s.landCommitted n v) s
  (s.processFrame f).consumeRegion n

/-- A frame fits the timetable store region. -/
def State.frameFits (s : State) (im : Image) (f : BundleFrame) : Bool :=
  let r := s.region (timetableRegion im s.member)
  r.kind == .localRegion && f.granules.length + 1 ≤ r.roomCommitted

/-- BUNDLE_FRAME: a frame multicast by the root reaches this member; the root hears when it is processed. -/
def execBundleFrame (f : BundleFrame) (s : State) : Host.Outcome State Fault Refusal :=
  .next (
    match s.job.image with
    | none => s
    | some im =>
      if s.job.state == .relocated && s.isMember && s.frameFits im f then
        (s.takeFrame im f).emit (.firmware s.job.root (.done s.rc.address 0 0 []))
      else s)

end Sys2Proof.Machine
end

