-- ==== Sys2Proof/Machine/Registrar.lean ====
section
/-! DEFINITION. The registrar (chapter 14): admission, reservations, pages and prefixes, adapter slots, the
step table, and the work of a term recess in the order of Table 14-6. -/

namespace Sys2Proof.Machine

/-! ## Contexts -/

/-- A context record. -/
def State.ctx (s : State) (n : Nat) : Ctx := tabGet .reset s.sv.contexts n

/-- Put a context record back. -/
def State.setCtx (s : State) (n : Nat) (c : Ctx) : State :=
  { s with sv := { s.sv with contexts := tabSet .reset s.sv.contexts n c } }

/-- A request holds the context. -/
def Ctx.open (c : Ctx) : Bool := c.state == .prefill || c.state == .decode

/-- The open request of a function with an id; the id of an ended one may be used again (Table 14-2). -/
def State.findCtx (s : State) (f : Nat) (id : Word) : Option (Nat × Ctx) :=
  s.sv.contexts.find? fun e => e.2.open && e.2.function.toNat == f && e.2.requestId == id

/-- One of the numbers below n that a predicate leaves free, by a free value: the manual does not say which
(log 13). -/
def State.chooseFree (s : State) (n : Nat) (used : Nat → Bool) : Option Nat × State :=
  let l := pick n fun i => !used i
  let (d, s) := s.draw
  (l[(Config.freeBits 32 d).toNat % max 1 l.length]?, s)


/-- Contexts in admission order. -/
def insertByAdmission (e : Nat × Ctx) : List (Nat × Ctx) → List (Nat × Ctx)
  | [] => [e]
  | h :: t => if e.2.admitted.toNat < h.2.admitted.toNat then e :: h :: t else h :: insertByAdmission e t

/-- Contexts that are not FREE, in admission order. -/
def Serving.inOrder (v : Serving) : List (Nat × Ctx) :=
  (v.contexts.filter fun e => e.2.state != .free).foldl (fun l e => insertByAdmission e l) []

/-! ## Ends (R347, R359, R361, R372) -/

/-- End an open request: its held tokens are discarded and its END entry is committed. -/
def State.endRequest (s : State) (n : Nat) (reason : Byte) : State :=
  let c := s.ctx n
  if c.open then
    let s := s.setCtx n { c with state := .ended, endReason := reason, held := 0, seq := c.seq + 1 }
    { s with sv := { s.sv with committed := s.sv.committed ++ [endEntry n c c.seq reason 0] } }
  else s

/-- End an open request with its held tokens released (R373). -/
def State.closeRequest (s : State) (n : Nat) (reason : Byte) : State :=
  let c := s.ctx n
  if c.open then
    let kept := lastN c.held c.recent
    let seq := c.seq + BitVec.ofNat 32 kept.length
    let s := s.setCtx n { c with state := .ended, endReason := reason, held := 0, seq := seq + 1 }
    { s with sv := { s.sv with committed :=
      s.sv.committed ++ releaseTokens n c kept c.seq ++ [endEntry n c seq reason 0] } }
  else s

/-- End a request of a function that an FLR cancelled: no entry is written (R397). -/
def State.flrEnd (s : State) (n : Nat) : State :=
  let c := s.ctx n
  if c.open then s.setCtx n { c with state := .ended, endReason := 5, held := 0 } else s

/-- The END of a request without a context, at sequence number 0. -/
def State.refuse (s : State) (f : Nat) (id : Word) (reason detail : Byte) : State :=
  let e : Entry :=
    { function := BitVec.ofNat 6 f, context := 2 ^ 17, id := id, seq := 0, value := 0xFFFFFFFF, extra := 0
      kind := 2, logprobValid := false, reason := reason, detail := detail, stamp := 0, slot := none }
  { s with sv := { s.sv with committed := s.sv.committed ++ [e] } }

/-- One REQ_CANCEL (R372). -/
def State.cancelRec (s : State) (f : Nat) (r : Rec) : State :=
  let s := s.consume f r
  match s.findCtx f r.id with
  | some (n, _) => s.endRequest n 5
  | none =>
    match (s.fn f).records.find? fun q => q.valid && q.type == 1 && q.id == r.id with
    | some q => (s.consume f q).refuse f r.id 5 0
    | none => { s with sv := { s.sv with ignoredCancels := s.sv.ignoredCancels + 1 } }

/-- Functions attached to the job, PF first. -/
def State.attachedFns (s : State) : List Nat := pick 64 fun f => s.attached f

/-- The cancels of a function. -/
def State.cancelFn (s : State) (f : Nat) : State :=
  ((s.fn f).records.filter fun r => r.valid && r.type == 3).foldl (fun s r => s.cancelRec f r) s

/-- The reason for which a request ends from outside the lesson, 0 for none. -/
def State.outsideEnd (s : State) (c : Ctx) : Byte :=
  let barred := s.sec.keyRing.any fun e => e.tenant == c.tenant && !bit e.functions c.function.toNat
  if s.sv.removedTenants.contains c.tenant || barred then 9
  else if c.slot != 0xFFFF && (tabGet .reset s.sv.slots c.slot.toNat).lost then 8
  else if c.damaged then 7
  else 0

/-- Order 1 of Table 14-6. -/
def State.endsOutside (s : State) (own : Bool) : State :=
  let s := if own then s.attachedFns.foldl (fun s f => s.cancelFn f) s else s
  let s := s.sv.contexts.foldl (fun s e =>
    if (s.fn e.2.function.toNat).flrCancel then s.flrEnd e.1 else s) s
  let s := s.attachedFns.foldl (fun s f => s.modFn f fun x => { x with flrCancel := false }) s
  let s := s.sv.contexts.foldl (fun s e =>
    let r := s.outsideEnd e.2
    if r = 0 then s else s.endRequest e.1 r) s
  let gone := s.sv.removedTenants
  { s with sv := { s.sv with
      removedTenants := []
      slots := tabMap (fun _ x => if x.lost then { AdapterSlot.reset with references := x.references } else x) s.sv.slots
      prefixes := s.sv.prefixes.filter fun p => !gone.contains p.tenant && !s.sv.changedPrefixes.contains p.tenant
      changedPrefixes := [], scrubReports := [] } }

/-! ## Retirement -/

/-- Every entry of a context has reached the egress ring. -/
def State.drainedCtx (s : State) (n : Nat) : Bool :=
  !(s.sv.committed.any fun e => e.context == n) &&
  !(s.hi.fns.any fun f => f.2.hold.any fun e => e.context == n)

/-- Change an adapter slot. -/
def State.modSlot (s : State) (k : Nat) (g : AdapterSlot → AdapterSlot) : State :=
  { s with sv := { s.sv with slots := tabMod .reset s.sv.slots k g } }

/-- Order 2 of Table 14-6: retire the ENDED contexts whose entries have all left. -/
def State.retire (s : State) : State :=
  s.sv.contexts.foldl (fun s e =>
    if e.2.state == .ended && s.drainedCtx e.1 then
      let s := s.setCtx e.1 .reset
      if e.2.slot == 0xFFFF then s
      else s.modSlot e.2.slot.toNat fun x => { x with references := x.references - 1 }
    else s) s

/-! ## Pages (R354 to R358) -/

/-- How many page tables name a page. -/
def Serving.pageRefs (v : Serving) (p : Nat) : Nat :=
  (v.contexts.filter fun e => e.2.pages.contains p).length

/-- The page is in the prefix table. -/
def Serving.cachedPage (v : Serving) (p : Nat) : Bool := v.prefixes.any fun e => e.page == p

/-- Free pages and cached pages of reference count 0. -/
def Serving.freePages (v : Serving) (pool : Nat) : List Nat :=
  pick pool fun p => v.pageRefs p == 0 && !v.cachedPage p
def Serving.cachedFree (v : Serving) (pool : Nat) : List PrefixEntry :=
  v.prefixes.filter fun e => e.page < pool && v.pageRefs e.page == 0

/-- Pages reserved and not allocated. -/
def Serving.reservedPages (v : Serving) : Nat := (v.contexts.map fun e => e.2.pagesReserved).sum

/-- The cached page whose last hit is oldest, the lower page on a tie. -/
def oldestCached (l : List PrefixEntry) : Option PrefixEntry :=
  l.foldl (fun best e => match best with
    | none => some e
    | some b =>
      if e.lastHit.toNat < b.lastHit.toNat || (e.lastHit == b.lastHit && e.page < b.page) then some e
      else some b) none

/-- Take a page for a position (R357): the lowest free page, else the cached page hit longest ago. -/
def Serving.takePage (v : Serving) (pool : Nat) : Option Nat × Serving :=
  match (v.freePages pool).head? with
  | some p => (some p, v)
  | none =>
    match oldestCached (v.cachedFree pool) with
    | some e => (some e.page, { v with prefixes := v.prefixes.filter fun q => q.page != e.page })
    | none => (none, v)

/-- Page-table blocks in use. -/
def Serving.tableUsed (v : Serving) (b : Nat) : Bool := v.contexts.any fun e => e.2.tables.contains b

/-- Give a context the page-table blocks its pages need, 63 to a block. -/
def State.growTables (s : State) (im : Image) (n : Nat) : Nat → State
  | 0 => s
  | k + 1 =>
    let c := s.ctx n
    if 63 * c.tables.length < c.pages.length || c.tables.isEmpty then
      match s.chooseFree (servingPageBlocks im) s.sv.tableUsed with
      | (some b, s) => (s.setCtx n { c with tables := c.tables ++ [b] }).growTables im n k
      | (none, s) => s
    else s

/-- Allocate pages from the reservation until the positions are covered. -/
def State.growPages (s : State) (im : Image) (n positions : Nat) : Nat → State
  | 0 => s
  | k + 1 =>
    let c := s.ctx n
    if 64 * c.pages.length < positions then
      match s.sv.takePage (servingPool im) with
      | (some p, v) =>
        (State.setCtx { s with sv := v } n
          { c with pages := c.pages ++ [p], pagesReserved := c.pagesReserved - 1 }).growPages im n positions k
      | (none, _) => s
    else s

/-! ## Linking and the draft-length policy (R362, R367) -/

/-- The policy after a verify step with a drafts accepted of spec_k. -/
def Ctx.policy (c : Ctx) (a : Nat) : Ctx :=
  if a = 0 then
    if c.zeroCount + 1 = c.shrinkRun then
      { c with zeroCount := 0, fullCount := 0, specK := max 1 (c.specK / 2) }
    else { c with zeroCount := c.zeroCount + 1, fullCount := 0 }
  else if a = c.specK then
    if c.fullCount + 1 = c.growRun then
      { c with fullCount := 0, zeroCount := 0, specK := min c.specKmax (2 * c.specK) }
    else { c with fullCount := c.fullCount + 1, zeroCount := 0 }
  else { c with zeroCount := 0, fullCount := 0 }

/-- Link one committed STEP_END. -/
def State.linkStep (s : State) (im : Image) (e : StepEnd) : State :=
  let c := s.ctx e.context
  if c.state == .free then s
  else
    let c := if c.state == .decode && c.specKmax != 0 && e.proposed != 0 then c.policy e.accepted else c
    let p := c.position + e.advance
    let c := { c with
      position := p
      state := if c.state == .prefill && c.promptLen ≤ p then .decode else c.state }
    ((s.setCtx e.context c).growPages im e.context p (c.pagesReserved + 1)).growTables im e.context 4

/-- Order 3 of Table 14-6 at the registrar. -/
def State.linkAdvances (s : State) (im : Image) : State :=
  let l := s.sv.stepEnds
  let s := s.emit (.advances (l.map fun e => (e.context, (s.ctx e.context).position, e.advance)))
  let s := { s with sv := { s.sv with stepEnds := [] } }
  l.foldl (fun s e => s.linkStep im e) s

/-- A member's firmware has linked what was appended on it: the heads of its append regions go past it (R362). -/
def State.consumeAppends (s : State) (im : Image) : State :=
  (servingAppends im).foldl (fun s n => s.consumeRegion n) s

/-! ## Prefix hashes (R355) -/

/-- The prefix key of a tenant. -/
def State.prefixKey (s : State) (tenant : BitVec 12) : Option (List Byte) :=
  match s.sec.keyRing.find? fun e => e.tenant == tenant with
  | some e => e.prefixKey
  | none => none

/-- The customisation text "EF9400 PREFIX" and the first 12 bytes of an output. -/
def prefixText : List Byte := [0x45, 0x46, 0x39, 0x34, 0x30, 0x30, 0x20, 0x50, 0x52, 0x45, 0x46, 0x49, 0x58]
def hash12 (key msg : List Byte) : BitVec 96 := (Config.kmac128 key msg prefixText).setWidth 96

/-- The chain's start: model tag, adapter and generation. -/
def chainStart (key : List Byte) (model : BitVec 64) (adapter : Word) (gen : BitVec 16) : BitVec 96 :=
  hash12 key (toBytes 8 model ++ toBytes 4 adapter ++ toBytes 2 gen ++ [0, 0])

/-- The next hash of a chain over a block's tokens. -/
def chainNext (key : List Byte) (h : BitVec 96) (tokens : List Word) : BitVec 96 :=
  hash12 key (toBytes 12 h ++ tokens.flatMap fun t => toBytes 4 t)

/-- Hash of prompt block b of a request. -/
def prefixHash (key : List Byte) (start : BitVec 96) (prompt : List Word) : Nat → BitVec 96
  | 0 => chainNext key start (prompt.take 64)
  | b + 1 => chainNext key (prefixHash key start prompt b) ((prompt.drop (64 * (b + 1))).take 64)

/-- The hash of a request's block, where prefix reuse is on. -/
def State.blockHash (s : State) (c : Ctx) (b : Nat) : Option (BitVec 96) :=
  if c.prefixReuse then
    match s.prefixKey c.tenant with
    | some k => some (prefixHash k (chainStart k s.job.modelTag c.adapterId c.adapterGen) c.prompt b)
    | none => none
  else none

/-- The prefix entry that a block hits (R356). -/
def State.prefixHit (s : State) (c : Ctx) (b : Nat) : Option PrefixEntry :=
  match s.blockHash c b with
  | none => none
  | some h => s.sv.prefixes.find? fun e =>
      e.tenant == c.tenant && e.hash == h && e.tokens == (c.prompt.drop (64 * b)).take 64

/-- Entries that the eligible blocks hit, in order, up to the first miss. -/
def State.prefixHits (s : State) (c : Ctx) (b : Nat) : Nat → List PrefixEntry
  | 0 => []
  | n + 1 =>
    match s.prefixHit c b with
    | some e => e :: s.prefixHits c (b + 1) n
    | none => []

/-- Enter the completed prompt pages of a request from block b on, each unless its key is present (R358). -/
def State.registerFrom (s : State) (n b : Nat) : Nat → State
  | 0 => s
  | k + 1 =>
    let c := s.ctx n
    let s := match s.blockHash c b, c.pages[b]? with
      | some h, some p =>
        let s := s.setCtx n { c with chainHash := h }
        if s.sv.prefixes.any fun e => e.tenant == c.tenant && e.hash == h then s
        else
          let e : PrefixEntry := { tenant := c.tenant, hash := h, page := p,
                                   tokens := (c.prompt.drop (64 * b)).take 64, lastHit := s.bell.number }
          { s with sv := { s.sv with prefixes := s.sv.prefixes ++ [e] } }
      | _, _ => s
    s.registerFrom n (b + 1) k

/-- Blocks of a request whose 64 positions are all prompt positions and linked. -/
def Ctx.fullBlocks (c : Ctx) : Nat := min (min c.promptLen c.position) c.prompt.length / 64

/-- Order 4 of Table 14-6: the pages that the linking since a state has completed. -/
def State.registerPages (s before : State) : State :=
  s.sv.inOrder.foldl (fun s e =>
    let done := (before.ctx e.1).position / 64
    s.registerFrom e.1 done (e.2.fullBlocks - done)) s

/-- Order 5: pause a request with held entries, resume one whose hold is empty (R370). -/
def State.pauseResume (s : State) : State :=
  let pause (n : Nat) (c : Ctx) : Ctx :=
    if c.state == .free then c
    else { c with paused := (s.fn c.function.toNat).hold.any fun e => e.context == n }
  { s with sv := { s.sv with contexts := tabMap pause s.sv.contexts } }

/-! ## Admission (R348 to R351, R357, R360) -/

/-- Bytes of a REQ_OPEN. -/
abbrev OpenRec := List Byte

/-- Token list of a REQ_OPEN. -/
def openTokens (b : OpenRec) : List Word := (List.range ((recordLength b - 384) / 4)).map fun i => fieldAt 32 b (384 + 4 * i)

/-- Stop sequences of a REQ_OPEN. -/
def openSeqs (b : OpenRec) : List (List Word) :=
  (List.range 4).map fun i => (List.range (natAt b (44 + i) 1)).map fun j => fieldAt 32 b (128 + 64 * i + 4 * j)

/-- Stop ids of a REQ_OPEN. -/
def openStops (b : OpenRec) : List Word := (List.range 16).map fun i => fieldAt 32 b (64 + 4 * i)

/-- FP32 bits in (0, 1]. -/
def inUnit (x : Word) : Bool := 0 < x.toNat && x.toNat ≤ 0x3F800000

/-- Detail PARAM of Table 14-5. -/
def paramBad (im : Image) (b : OpenRec) : Bool :=
  let p := natAt b 20 4
  let n := natAt b 24 4
  let t := natAt b 28 4
  natAt b 8 1 / 16 != 0 || natAt b 12 2 / 4096 != 0 || natAt b 14 2 != 0 || natAt b 48 16 != 0 ||
  p = 0 || t ≤ p || n = 0 || t < p + n || !inUnit (fieldAt 32 b 36) ||
  (List.range 4).any (fun i => 16 < natAt b (44 + i) 1) ||
  (openStops b).any (fun i => i != 0xFFFFFFFF && servingVocab im ≤ i.toNat) ||
  (openSeqs b).any (fun l => l.any fun i => servingVocab im ≤ i.toNat) ||
  (openTokens b).any (fun i => servingVocab im ≤ i.toNat) || p < (openTokens b).length

/-- The tenant may be used by the function. -/
def State.tenantOf (s : State) (t : BitVec 12) (f : Nat) : Bool :=
  s.sec.keyRing.any fun e => e.tenant == t && bit e.functions f

/-- The committed generation of an adapter for a tenant. -/
def State.adapterGen (s : State) (t : BitVec 12) (a : Word) : Option (BitVec 16) :=
  (s.nv.generations.find? fun g => g.adapter && g.object == a && g.state == .committed && g.tenant == t).map
    (·.generation)

/-- Pages that a request would reserve. -/
def pagesNeeded (total hits : Nat) : Nat := (total + 63) / 64 - hits

/-- The detail under which a REQ_OPEN is refused, 0 for none. -/
def State.refusal (s : State) (im : Image) (f : Nat) (id : Word) (b : OpenRec) : Byte :=
  let t := fieldAt 16 b 12
  let a := fieldAt 32 b 16
  if paramBad im b then 1
  else if (s.findCtx f id).isSome then 2
  else if !s.tenantOf (t.setWidth 12) f then 3
  else if a != 0 && (s.adapterGen (t.setWidth 12) a).isNone then 4
  else if servingS im < natAt b 9 1 then 5
  else if servingMaxTotal im < natAt b 28 4 || servingPool im < pagesNeeded (natAt b 28 4) 0 then 6
  else 0

/-- The context that a REQ_OPEN asks for, before its resources. -/
def openCtx (f : Nat) (id : Word) (b : OpenRec) (gen : BitVec 16) : Ctx :=
  let fl : BitVec 8 := fieldAt 8 b 8
  let run (x d : Nat) : Nat := if x = 0 then d else x
  { Ctx.reset with
    requestId := id, function := BitVec.ofNat 6 f, state := .prefill, includeStop := bit fl 0, logprob := bit fl 1
    acceptMode := bit fl 2, prefixReuse := bit fl 3, tenant := BitVec.ofNat 12 (natAt b 12 2), adapterGen := gen
    adapterId := fieldAt 32 b 16, specK := natAt b 9 1, specKmax := natAt b 9 1
    shrinkRun := run (natAt b 10 1) 4, growRun := run (natAt b 11 1) 2, promptLen := natAt b 20 4
    prompt := openTokens b, maxNew := natAt b 24 4, maxTotal := natAt b 28 4, temperature := fieldAt 32 b 32
    topP := fieldAt 32 b 36, topK := fieldAt 32 b 40, stopIds := openStops b, stopSeqs := openSeqs b }

/-- The slot to which a request with an adapter is bound: the one that holds the generation, else the slot of
reference count 0 least recently bound; none when there is none. -/
def State.slotFor (s : State) (im : Image) (a : Word) (g : BitVec 16) : Option Nat :=
  let n := servingSlots im
  let get (k : Nat) : AdapterSlot := tabGet .reset s.sv.slots k
  match (pick n fun k => (get k).adapter == a && (get k).generation == g && !(get k).lost).head? with
  | some k => some k
  | none =>
    (pick n fun k => (get k).references + (get k).pins == 0).foldl (fun best k => match best with
      | none => some k
      | some b => if (get k).lastBound < (get b).lastBound then some k else some b) none

/-- Name an adapter generation in a slot: it waits to be restored. -/
def State.nameSlot (s : State) (k : Nat) (a : Word) (g : BitVec 16) (t : BitVec 12) : State :=
  let s := { s with nv := { s.nv with slotReads := s.nv.slotReads.filter fun r => r.slot != k } }
  s.modSlot k fun _ => { AdapterSlot.reset with adapter := a, generation := g, tenant := t }

/-- Bind one more reference to a slot; a new generation is named in it on every member. -/
def State.bindSlot (s : State) (k : Nat) (a : Word) (g : BitVec 16) (t : BitVec 12) (pins refs : Nat) : State :=
  let n := s.sv.bindOrder + 1
  let s := { s with sv := { s.sv with bindOrder := n } }
  let x := tabGet .reset s.sv.slots k
  let s := if x.adapter == a && x.generation == g && !x.lost then s
    else
      let s := s.nameSlot k a g t
      s.emitAll ((s.job.memberList.filter fun m => m != s.rc.address).map fun m => .firmware m (.bound k a g t))
  s.modSlot k fun x => { x with references := x.references + refs, pins := x.pins + pins, lastBound := n }

/-- Reserved rows of a decode block. -/
def Serving.rowUsed (v : Serving) (block row : Nat) : Bool :=
  v.contexts.any fun e => e.2.state != .free && e.2.block == block && e.2.row ≤ row && row < e.2.row + e.2.rows

/-- Slots with reserved rows in a block. -/
def Serving.groups (v : Serving) (block : Nat) : List (BitVec 16) :=
  ((v.contexts.filter fun e => e.2.state != .free && e.2.block == block && e.2.rows != 0 && e.2.slot != 0xFFFF).map
    fun e => e.2.slot).eraseDups

/-- Lowest free run of rows of a block. -/
def Serving.freeRun (v : Serving) (block rows : Nat) : Option Nat :=
  (pick 64 fun r => r + rows ≤ 64 && (List.range rows).all fun i => !v.rowUsed block (r + i)).head?

/-- The row reservation of a request (R351). -/
def Serving.reserve (v : Serving) (im : Image) (rows : Nat) (slot : BitVec 16) : Option (Nat × Nat) :=
  (List.range (servingD im)).findSome? fun b =>
    let g := v.groups b
    if slot == 0xFFFF || g.contains slot || g.length < 8 then (v.freeRun b rows).map fun r => (b, r) else none

/-- Slot of an admitted request: none where admission must stop. -/
def State.admitSlot (s : State) (im : Image) (c : Ctx) : Option (BitVec 16) :=
  if c.adapterId == 0 then some 0xFFFF else (s.slotFor im c.adapterId c.adapterGen).map (BitVec.ofNat 16)

/-- Mark prefix entries as hit at this bell. -/
def Serving.hit (v : Serving) (l : List PrefixEntry) (bell : BitVec 40) : Serving :=
  { v with prefixes := v.prefixes.map fun e => if l.contains e then { e with lastHit := bell } else e }

/-- Admit a request: its context, rows, pages and slot; none where some resource is missing. -/
def State.admitOne (s : State) (im : Image) (f : Nat) (id : Word) (b : OpenRec) : Option State :=
  let a := fieldAt 32 b 16
  let t : BitVec 12 := BitVec.ofNat 12 (natAt b 12 2)
  let gen := if a == 0 then 0 else (s.adapterGen t a).getD 0
  let c := openCtx f id b gen
  match s.admitSlot im c with
  | none => none
  | some slot =>
    let hits := s.prefixHits c 0 ((c.promptLen - 1) / 64)
    let need := pagesNeeded c.maxTotal hits.length
    let v := s.sv
    let cached := (v.cachedFree (servingPool im)).filter fun e => !hits.contains e
    match v.reserve im (c.specKmax + 1) slot, s.chooseFree 131072 (fun n => (s.ctx n).state != .free) with
    | some (blk, row), (some n, s') =>
      if (v.freePages (servingPool im)).length + cached.length < need + v.reservedPages then none
      else
        let asked := if c.prefixReuse && (s.prefixKey t).isSome then (c.promptLen - 1) / 64 else 0
        let c := { c with
          block := blk, row := row, rows := c.specKmax + 1, slot := slot, pages := hits.map (·.page)
          pagesReserved := need, position := 64 * hits.length, admitted := v.admittedOrder
          chainHash := (hits.getLast?.map (·.hash)).getD 0 }
        let v := { v.hit hits s.bell.number with
          admittedOrder := v.admittedOrder + 1
          admittedCount := v.admittedCount + 1
          prefixHits := v.prefixHits + BitVec.ofNat 64 hits.length
          prefixMisses := v.prefixMisses + (if hits.length < asked then 1 else 0) }
        let s' := State.setCtx { s' with sv := v } n c
        let s' := s'.growTables im n 4
        some (if slot == 0xFFFF then s' else s'.bindSlot slot.toNat a gen t 0 1)
    | _, _ => none

/-- Pending REQ_OPENs of the attached functions with their order numbers. -/
def State.pendingOpens (s : State) : List (Nat × Nat × Rec) :=
  s.attachedFns.flatMap fun f =>
    ((s.fn f).records.filter fun r => r.valid && r.type == 1).map fun r => ((s.fn f).orderOf r.slot, f, r)

/-- The pending request first in admission order. -/
def State.firstPending (s : State) : Option (Nat × Nat × Rec) :=
  s.pendingOpens.foldl (fun best e => match best with
    | none => some e
    | some b => if e.1 < b.1 then some e else some b) none

/-- Refuse or let in the first pending request; none where admission stops. -/
def State.admitFirst (s : State) (im : Image) : Option State :=
  match s.firstPending with
  | none => none
  | some (_, f, r) =>
    let d := s.refusal im f r.id r.bytes
    if d != 0 then some ((s.consume f r).refuse f r.id 6 d)
    else (s.admitOne im f r.id r.bytes).map fun s => s.consume f r

/-- Order 6 of Table 14-6. -/
def State.admitAll (s : State) (im : Image) : Nat → State
  | 0 => s
  | n + 1 =>
    match s.admitFirst im with
    | none => s
    | some s => s.admitAll im n

/-! ## Adapter slots (R360, R361, R414) -/

/-- One ADAPTER_BIND that waits (R414). -/
def State.pinOne (s : State) (im : Image) (p : PinRequest) : State :=
  match s.adapterGen p.tenant p.adapter with
  | none => s.answer p.wait 0x0029 []
  | some g =>
    let pinned (k : Nat) : Bool :=
      let x := tabGet .reset s.sv.slots k
      x.adapter == p.adapter && x.tenant == p.tenant && x.pins != 0
    if p.pin then
      match s.slotFor im p.adapter g with
      | none => { s with sv := { s.sv with pinRequests := s.sv.pinRequests ++ [p] } }
      | some k => (s.bindSlot k p.adapter g p.tenant 1 0).answer p.wait stOk (natToBytes 2 k)
    else
      match (pick (servingSlots im) pinned).head? with
      | none => s.answer p.wait 0x000B []
      | some k => (s.modSlot k fun x => { x with pins := x.pins - 1 }).answer p.wait stOk (natToBytes 2 k)

/-- Order 7 of Table 14-6. -/
def State.bindAll (s : State) (im : Image) : State :=
  let l := s.sv.pinRequests
  let s := { s with sv := { s.sv with pinRequests := [] } }
  l.foldl (fun s p => s.pinOne im p) s

/-- Blocks that one recess restores into slots: whole rounds of one block from each stack (R307, R360). -/
def slotQuota (v : Variant) (us : Nat) : Nat := us * 1000 / 2048 * stacksOf v

/-- Begin the slot restores that the term recess still has time for, lowest slot first; a slot with no block of this part
is loaded at once. -/
def State.fillSlots (s : State) (im : Image) : State :=
  let l := (s.sv.slots.filter fun e => e.2.adapter != 0 && !e.2.loaded && !e.2.lost).map fun e => (e.1, e.2)
  let due := (l.flatMap fun e => (s.slotEntries im e.1 e.2).drop e.2.restored).filter fun r => !s.nv.slotReads.contains r
  let reads := due.take s.nv.slotBudget
  let full := (l.filter fun e => (s.slotShare im e.2).length ≤ e.2.restored).map (·.1)
  let s := full.foldl (fun s k => s.modSlot k fun x => { x with loaded := true }) s
  { s with nv := { s.nv with slotReads := s.nv.slotReads ++ reads, slotBudget := s.nv.slotBudget - reads.length } }

/-- Recess step 4 of a term recess (R360): at most restore_us of slot restores. -/
def State.slotStep (s : State) (im : Image) : State :=
  State.fillSlots { s with nv := { s.nv with slotBudget := slotQuota s.fused.variant (servingRestoreUs im) } } im

/-! ## Prompt tokens (R390) -/

/-- The request of an append is pending. -/
def State.pendingOpen (s : State) (f : Nat) (id : Word) : Bool :=
  (s.fn f).records.any fun r => r.valid && r.type == 1 && r.id == id

/-- One REQ_APPEND: applied, waiting, or discarded. -/
def State.appendRec (s : State) (im : Image) (f : Nat) (r : Rec) : State :=
  let n := (recordLength r.bytes - 12) / 4
  let toks := (List.range n).map fun i => fieldAt 32 r.bytes (12 + 4 * i)
  match s.findCtx f r.id with
  | some (k, c) =>
    if natAt r.bytes 8 4 == c.prompt.length && c.prompt.length + n ≤ c.promptLen &&
        toks.all (fun t => t.toNat < servingVocab im) then
      (s.setCtx k { c with prompt := c.prompt ++ toks }).consume f r
    else s.discardRec f r
  | none => if s.pendingOpen f r.id then s else s.discardRec f r

/-- The appends of a function in window order. -/
def State.appendFn (s : State) (im : Image) (f : Nat) : State :=
  ((s.fn f).records.filter fun r => r.valid && r.type == 2).foldl (fun s r => s.appendRec im f r) s

/-- The appends of every attached function. -/
def State.appendAll (s : State) (im : Image) : State := s.attachedFns.foldl (fun s f => s.appendFn im f) s

/-! ## The step table and the page tables (R353, R354) -/

/-- The slot of a request is loaded, or it needs none. -/
def State.slotReady (s : State) (c : Ctx) : Bool :=
  c.slot == 0xFFFF || (tabGet .reset s.sv.slots c.slot.toNat).loaded

/-- A request is scheduled: open and not paused. -/
def Ctx.scheduled (c : Ctx) : Bool := c.open && !c.paused

/-- First page-table block of a context. -/
def Ctx.firstTable (c : Ctx) : Nat := c.tables.head?.getD 0xFFFFFFFF

/-- The 32 bytes of a row entry (Table 14-8). -/
def rowEntry (n : Nat) (c : Ctx) (kind offset group position : Nat) (token : Word) (k : Nat) : List Byte :=
  let adapted := c.slot != 0xFFFF
  natToBytes 4 (n + 2 ^ 17 * kind + 2 ^ 20 * offset + (if adapted then 2 ^ 24 * group + 2 ^ 27 else 0)) ++
  natToBytes 4 position ++ toBytes 4 token ++ natToBytes 4 c.firstTable ++ toBytes 4 c.temperature ++
  toBytes 4 c.topP ++ toBytes 4 c.topK ++
  [BitVec.ofNat 8 k, BitVec.ofNat 8 ((if c.acceptMode then 1 else 0) + (if c.logprob then 2 else 0)), 0, 0]

/-- An idle row. -/
def idleRow : List Byte := List.replicate 32 0

/-- The header of a block (Table 14-7). -/
def blockHeader (kind groups ctx : Nat) (live : BitVec 64) (slots : List (BitVec 16)) (masks : List (BitVec 64)) :
    List Byte :=
  [BitVec.ofNat 8 kind, BitVec.ofNat 8 groups, 0, 0] ++ natToBytes 4 ctx ++ toBytes 8 live ++
  (List.range 8).flatMap (fun i => toBytes 2 (slots[i]?.getD 0xFFFF)) ++
  (List.range 8).flatMap (fun i => toBytes 8 (masks[i]?.getD 0)) ++ List.replicate 32 0

/-- The decode request that a row of a block belongs to. -/
def Serving.rowOwner (v : Serving) (block row : Nat) : Option (Nat × Ctx) :=
  v.contexts.find? fun e => e.2.state == .decode && e.2.scheduled && e.2.block == block && e.2.row ≤ row &&
    row ≤ e.2.row + e.2.specK && row < e.2.row + e.2.rows

/-- A decode block of the step table. -/
def Serving.decodeBlock (v : Serving) (b : Nat) : List Byte :=
  let slots := v.groups b
  let own (r : Nat) := v.rowOwner b r
  let live := ofMask fun r => (own r).isSome
  let masks := slots.map fun k => ofMask fun r => v.contexts.any fun e =>
    e.2.state != .free && e.2.block == b && e.2.slot == k && e.2.row ≤ r && r < e.2.row + e.2.rows
  let used := v.contexts.any fun e => e.2.state != .free && e.2.block == b && e.2.rows != 0
  let row (r : Nat) : List Byte := match own r with
    | none => idleRow
    | some (n, c) =>
      let o := r - c.row
      rowEntry n c (if o = 0 then 2 else 3) o (slots.findIdx fun k => k == c.slot) (c.position + o)
        (if o = 0 then (c.generated.getLast?).getD 0xFFFFFFFF else 0xFFFFFFFF) (if o = 0 then c.specK else 0)
  blockHeader (if used then 1 else 0) slots.length 0 live slots masks ++ (List.range 64).flatMap row

/-- Rows of a request's next chunk. -/
def Ctx.chunk (c : Ctx) : Nat := min 64 (c.promptLen - c.position)

/-- PREFILL requests that receive a block, in admission order (R352). -/
def State.prefills (s : State) : List (Nat × Ctx) :=
  s.sv.inOrder.filter fun e =>
    e.2.state == .prefill && !e.2.paused && s.slotReady e.2 && e.2.position + e.2.chunk ≤ e.2.prompt.length

/-- A prefill block. -/
def prefillBlock (e : Option (Nat × Ctx)) : List Byte :=
  match e with
  | none => List.replicate 2176 0
  | some (n, c) =>
    let live := ofMask fun r => r < c.chunk
    let adapted := c.slot != 0xFFFF
    blockHeader 2 (if adapted then 1 else 0) n live (if adapted then [c.slot] else [])
      (if adapted then [live] else []) ++
    (List.range 64).flatMap fun r =>
      if r < c.chunk then rowEntry n c 1 0 0 (c.position + r) ((c.prompt[c.position + r]?).getD 0) 0 else idleRow

/-- The whole step table. -/
def State.stepTable (s : State) (im : Image) : List Byte :=
  let p := s.prefills
  ((List.range (servingD im)).flatMap fun b => s.sv.decodeBlock b) ++
  (List.range (servingP im)).flatMap fun i => prefillBlock p[i]?

/-- Block j of a context's page table: 63 pages and the next block. -/
def Ctx.tableBlock (c : Ctx) (j : Nat) : List Byte :=
  (List.range 63).flatMap (fun e => natToBytes 4 ((c.pages[63 * j + e]?).getD 0xFFFFFFFF)) ++
  natToBytes 4 ((c.tables[j + 1]?).getD 0xFFFFFFFF)

/-- Write a run of bytes at any local key, granule by granule; n bounds the granules. -/
def State.putRun (s : State) (k : Nat) (l : List Byte) : Nat → State
  | 0 => s
  | n + 1 =>
    let i := k % 256
    let m := min (256 - i) l.length
    if m = 0 then s
    else
      let x : Vec := BitVec.ofNat 2048 (natOfBytes (l.take m) * 2 ^ (8 * i))
      (s.putGranule (k - i) x (BitVec.ofNat 256 ((2 ^ m - 1) * 2 ^ i))).putRun (k - i + 256) (l.drop m) n

/-- Firmware writes a table at an offset of die 0: whole words, so that an error in it is repaired (R359). -/
def State.putTable (s : State) (k : Nat) (l : List Byte) : State := s.putRun k l (l.length / 256 + 2)

/-- Orders 8 and 9 of Table 14-6. -/
def State.buildTables (s : State) (im : Image) : State :=
  let t := s.stepTable im
  let s := (s.putTable (servingStepTable im) t).emit (.tables (servingStepTable im) t)
  s.sv.contexts.foldl (fun s e =>
    (List.range e.2.tables.length).foldl (fun s j =>
      let off := servingPageTables im + 256 * (e.2.tables[j]?).getD 0
      let b := e.2.tableBlock j
      (s.putTable off b).emit (.tables off b)) s) s

/-! ## Context records in the registrar area (R345) -/

/-- A list cut or filled with zeros to a length. -/
def padTo (n : Nat) (l : List Byte) : List Byte := (l ++ List.replicate n 0).take n

/-- One byte of a number. -/
def byteNat (n : Nat) : Byte := BitVec.ofNat 8 n

/-- Code of a context's state (Table 14-3). -/
def CtxState.code : CtxState → Byte
  | .free => 0 | .prefill => 1 | .decode => 2 | .ended => 3

/-- Flags of a context (byte 7). -/
def Ctx.flagByte (c : Ctx) : Byte :=
  BitVec.ofNat 8 (([c.includeStop, c.logprob, c.acceptMode, c.prefixReuse, c.paused, c.damaged].zipIdx.map fun e =>
    if e.1 then 2 ^ e.2 else 0).sum)

/-- The 512 bytes of a context record (Table 14-2). -/
def Ctx.bytes (c : Ctx) : List Byte :=
  toBytes 4 c.requestId ++ [c.function.setWidth 8, c.state.code, c.endReason, c.flagByte] ++
  toBytes 2 (c.tenant.setWidth 16) ++ toBytes 2 c.adapterGen ++ toBytes 4 c.adapterId ++ toBytes 2 c.slot ++
  [c.held, c.recent.length, c.specK, c.specKmax, c.shrinkRun, c.growRun, c.zeroCount, c.fullCount].map byteNat ++
  natToBytes 2 c.block ++ [byteNat c.row, byteNat c.rows, 0, 0] ++
  [c.promptLen, c.prompt.length, c.position, c.emitted, c.maxNew, c.maxTotal].flatMap (natToBytes 4) ++
  toBytes 4 c.seq ++ natToBytes 4 c.firstTable ++ natToBytes 4 c.pagesReserved ++ toBytes 12 c.chainHash ++
  toBytes 4 c.temperature ++ toBytes 4 c.topP ++ toBytes 4 c.topK ++ List.replicate 4 0 ++ toBytes 8 c.admitted ++
  padTo 64 (c.stopIds.flatMap (toBytes 4)) ++ padTo 4 (c.stopSeqs.map fun l => byteNat l.length) ++
  padTo 256 (c.stopSeqs.flatMap fun l => padTo 64 (l.flatMap (toBytes 4))) ++
  padTo 60 (c.recent.flatMap fun k => toBytes 4 k.1) ++ List.replicate 24 0

/-- Local key of a context's record (log 35). -/
def recordKeyOf (im : Image) (n : Nat) : Nat := servingArea im + 512 * n

/-- The records that differ from those of an earlier registrar state are written (R343, R345). -/
def State.storeRecords (s : State) (before : Serving) : State :=
  match s.job.image with
  | none => s
  | some im =>
    if s.isRegistrar then
      ((before.contexts.map (·.1) ++ s.sv.contexts.map (·.1)).eraseDups).foldl (fun s n =>
        let c := s.ctx n
        if tabGet .reset before.contexts n == c then s else s.putTable (recordKeyOf im n) c.bytes) s
    else s

/-- Contexts whose record the scrub has found in error (R359). -/
def State.brokenRecords (s : State) (im : Image) : List Nat :=
  (s.sv.scrubReports.filter fun r => r.1 == s.rc.address).filterMap fun r =>
    if recordKeyOf im 0 ≤ r.2 && r.2 < recordKeyOf im 131072 then some ((r.2 - recordKeyOf im 0) / 512) else none

/-! ## The term recess -/

/-- Order 1 of Table 14-6, the requests whose records are in error among them. -/
def State.endsFirst (s : State) (im : Image) (own : Bool) : State :=
  ((s.brokenRecords im).foldl (fun s n => s.endRequest n 7) s).endsOutside own

/-- Recess step 3 of a term recess (Table 14-6). -/
def State.termWork (s : State) (im : Image) : State :=
  let s := s.endsFirst im true
  let s := s.retire
  let s := (s.linkAdvances im).registerPages s
  let s := s.pauseResume
  let s := s.admitAll im 131072
  let s := s.appendAll im
  let s := s.bindAll im
  s.buildTables im

/-! ## Lock-step placement (R440) -/

/-- The placement records of a term recess: what the leader did between two registrar states. -/
def placementsOf (a b : Serving) : List PlacementRec :=
  let rec0 (k : PlacementKind) (f : BitVec 6) (id : Word) (n : Nat) (c : Ctx) (d : Byte) : PlacementRec :=
    { kind := k, function := f, id := id, context := n, block := c.block, row := c.row, slot := c.slot
      pages := c.pages, detail := d }
  let ends := (b.committed.drop a.committed.length).filter fun e => e.kind = 2
  (ends.filter fun e => e.reason = 5).map (fun e => rec0 .cancel e.function e.id e.context .reset 0) ++
  (b.contexts.filter fun e => e.2.paused).map (fun e => rec0 .pause e.2.function e.2.requestId e.1 e.2 0) ++
  (b.inOrder.filter fun e => a.admittedOrder.toNat ≤ e.2.admitted.toNat).map
    (fun e => rec0 .admission e.2.function e.2.requestId e.1 e.2 0) ++
  (ends.filter fun e => e.reason = 6).map fun e => rec0 .refuse e.function e.id e.context .reset e.detail

/-- The follower holds the ingress record that a placement names (R440). -/
def State.holdsPlaced (s : State) (p : PlacementRec) : Bool :=
  let has (type : Nat) := (s.fn p.function.toNat).records.any fun r => r.valid && r.type == type && r.id == p.id
  match p.kind with
  | .cancel => has 3
  | .pause => true
  | .refuse => has 1
  | .admission => has 1

/-- The follower applies one of the leader's records to its own record of the same function and id. -/
def State.place (s : State) (im : Image) (p : PlacementRec) : State :=
  let f := p.function.toNat
  let find (type : Nat) := (s.fn f).records.find? fun r => r.valid && r.type == type && r.id == p.id
  match p.kind with
  | .cancel => match find 3 with
    | some r => s.cancelRec f r
    | none => s
  | .pause => match s.findCtx f p.id with
    | some (n, c) => s.setCtx n { c with paused := true }
    | none => s
  | .refuse => match find 1 with
    | some r => (s.consume f r).refuse f p.id 6 p.detail
    | none => s
  | .admission => match find 1 with
    | none => s
    | some r =>
      let a := fieldAt 32 r.bytes 16
      let t : BitVec 12 := BitVec.ofNat 12 (natAt r.bytes 12 2)
      let gen := if a == 0 then 0 else (s.adapterGen t a).getD 0
      let c := openCtx f p.id r.bytes gen
      let hits := s.prefixHits c 0 ((c.promptLen - 1) / 64)
      let c := { c with
        block := p.block, row := p.row, rows := c.specKmax + 1, slot := p.slot, pages := p.pages
        pagesReserved := pagesNeeded c.maxTotal p.pages.length, position := 64 * p.pages.length
        admitted := s.sv.admittedOrder, chainHash := (hits.getLast?.map (·.hash)).getD 0 }
      let v := { s.sv.hit hits s.bell.number with
        admittedOrder := s.sv.admittedOrder + 1, admittedCount := s.sv.admittedCount + 1
        prefixHits := s.sv.prefixHits + BitVec.ofNat 64 hits.length }
      let s := State.setCtx { s with sv := v } p.context c
      let s := s.growTables im p.context 4
      let s := if p.slot == 0xFFFF then s else s.bindSlot p.slot.toNat a gen t 0 1
      s.consume f r

/-- The term recess of a follower, with the leader's records in place of its own choices. -/
def State.termFollow (s : State) (im : Image) (l : List PlacementRec) : State :=
  let s := s.endsFirst im false
  let s := s.retire
  let s := (s.linkAdvances im).registerPages s
  let unpause (_ : Nat) (c : Ctx) : Ctx := { c with paused := false }
  let s := { s with sv := { s.sv with contexts := tabMap unpause s.sv.contexts } }
  let s := l.foldl (fun s p => s.place im p) s
  let s := s.appendAll im
  let s := s.bindAll im
  s.buildTables im

/-- The job faults or stops: every open and every pending request is closed (R373). -/
def State.closeAll (s : State) (reason : Byte) : State :=
  let s := s.sv.contexts.foldl (fun s e => s.closeRequest e.1 reason) s
  s.pendingOpens.foldl (fun s e => (s.consume e.2.1 e.2.2).refuse e.2.1 e.2.2.id reason 0) s

/-- Commit the lesson's registrar state (R365), or discard it. -/
def State.commitServing (s : State) : State :=
  State.storeRecords { s with sv := { s.sv with
      contexts := s.sv.shadow.foldl (fun t e => tabSet .reset t e.1 e.2) s.sv.contexts
      shadow := []
      committed := s.sv.committed ++ s.sv.staged
      staged := []
      stepEnds := s.sv.stepEnds ++ s.sv.stepEndsStaged
      stepEndsStaged := [] } } s.sv

/-- Discard the lesson's registrar state. -/
def State.rollbackServing (s : State) : State :=
  { s with sv := { s.sv with shadow := [], staged := [], stepEndsStaged := [] } }

end Sys2Proof.Machine
end

