-- ==== Sys2Proof/Machine/HostCommands.lean ====
section
/-! DEFINITION. Taking the records of the ingress windows (R388 to R393): requests, transfers, fences, and
the service tick. -/

namespace Sys2Proof.Machine

/-- Records of the function are taken now: in a recess of its job in session, otherwise at any tick. -/
def State.takes (s : State) (f : Nat) : Bool := !(s.attached f && s.inSession) || s.bell.phase == .recess

/-- The part is the registrar part of the function's serving job (HI_FN.registrar). -/
def State.served (s : State) (f : Nat) : Bool := s.attached f && s.isRegistrar

/-- A recess before the first lesson of a term of a serving job in session, after a clean verdict, the bell's index naming
the lesson to come; where the prologue is empty, also the time between JOB_START and the release of bell 0 (R344). -/
def State.termRecess (s : State) : Bool :=
  s.inSession && ((s.bell.phase == .recess && !s.bell.lastDirty) || (s.bell.phase == .idle && s.bell.release.isNone)) &&
    (match s.job.image with
    | some im => im.serving && im.term != 0 && s.bell.index == im.prologue
    | none => false)

/-- First record of a type that a function has. -/
def Func.firstOf (x : Func) (type : Nat) : Option Rec := x.records.find? fun r => r.valid && r.type == type

/-! ## Requests -/

/-- An unserved request record: refused NO_SERVICE, or discarded (R393). -/
def State.unserved (s : State) (f : Nat) (r : Rec) : State :=
  if r.type = 1 then (s.consume f r).refuse f r.id 6 0x80 else s.discardRec f r

/-- Every unserved request record of a function. -/
def State.unservedAll (s : State) (f : Nat) : State :=
  if s.served f then s
  else ((s.fn f).records.filter fun r => r.valid && 1 ≤ r.type && r.type ≤ 3).foldl (fun s r => s.unserved f r) s

/-- REQ_OPEN: an unserved one is refused NO_SERVICE; a served one is refused or admitted when it stands first
in admission order, in a term recess. -/
def execReqOpen (fn : BitVec 6) (s : State) : Host.Outcome State Fault Refusal :=
  let f := fn.toNat
  .next (
    match (s.fn f).firstOf 1 with
    | none => s
    | some r =>
      if !s.served f then (if s.takes f then s.unserved f r else s)
      else match s.job.image, s.firstPending with
        | some im, some (_, g, _) => if s.termRecess && g = f then (s.admitFirst im).getD s else s
        | _, _ => s)

/-- REQ_APPEND: the oldest append of the function that does not wait for its request. -/
def execReqAppend (fn : BitVec 6) (s : State) : Host.Outcome State Fault Refusal :=
  let f := fn.toNat
  .next (
    if !s.takes f then s
    else if !s.served f then
      match (s.fn f).firstOf 2 with
      | some r => s.unserved f r
      | none => s
    else match s.job.image, (s.fn f).records.find? fun r => r.valid && r.type == 2 && !s.pendingOpen f r.id with
      | some im, some r => s.appendRec im f r
      | _, _ => s)

/-- REQ_CANCEL: the oldest cancel of the function, in a term recess. -/
def execReqCancel (fn : BitVec 6) (s : State) : Host.Outcome State Fault Refusal :=
  let f := fn.toNat
  .next (
    match (s.fn f).firstOf 3 with
    | none => s
    | some r =>
      if s.served f then (if s.termRecess then s.cancelRec f r else s)
      else if s.takes f then s.unserved f r else s)

/-! ## Transfers (R391, R392) -/

/-- Writes into SRAM from the host may take place now (R44). -/
def State.mayTransfer (s : State) : Bool := !s.inSession || s.bell.phase == .recess

/-- A transfer from its record (Table 15-12). -/
def transferOf (r : Rec) : Transfer :=
  { ttBlock := r.type == 5, tag := r.id, mode := fieldAt 8 r.bytes 8, region := fieldAt 16 r.bytes 10
    dest := fieldAt 40 r.bytes 16, source := fieldAt 64 r.bytes 24, bytes := natAt r.bytes 32 4, done := 0
    slot := r.slot, awaiting := [], status := none }

/-- A length, an alignment or a mode outside Table 15-12. -/
def Transfer.malformed (t : Transfer) : Bool :=
  1 < t.mode.toNat || t.source.toNat % 64 != 0 || t.bytes % 256 != 0 || t.bytes = 0 || 1073741824 < t.bytes ||
  (t.mode == 1 && t.dest.toNat % 256 != 0) || (t.mode == 0 && 1279 < t.region.toNat)

/-- The run lies in working SRAM of this part. -/
def State.inSram (s : State) (t : Transfer) : Bool :=
  let off := offsetOf (localKey t.dest)
  houseOf t.dest == s.position &&
    ((inLayers off && inLayers (off + t.bytes - 1)) || (inStores off && inStores (off + t.bytes - 1)))

/-- The region takes data of a function: LOCAL, produced by the home engine; for a VF, consumed by a tile. -/
def State.regionTakes (s : State) (f : Nat) (t : Transfer) : Bool :=
  let r := s.region t.region.toNat
  t.region.toNat < 256 && r.kind == .localRegion && r.producerEngine && r.producerPart == s.rc.address &&
    (f == 0 || !r.consumerFirmware)

/-- The region of a TT_BLOCK is the root's timetable store region, and the job takes bundles (R426). -/
def State.blockTakes (s : State) (t : Transfer) : Bool :=
  s.isRoot && s.job.state == .relocated && awaitingSymbols s.job.symbols == 0 &&
    (match s.job.image with
    | some im => t.region.toNat == timetableRegion im s.member
    | none => false)

/-- The status with which a transfer is refused, by the order of Table 15-13; none where it runs. -/
def State.transferRefusal (s : State) (f : Nat) (t : Transfer) : Option Byte :=
  if f != 0 && (t.ttBlock || t.mode == 1) then some 2
  else if t.malformed || (t.ttBlock && t.mode != 0) then some 3
  else if t.ttBlock then (if s.blockTakes t then none else some 3)
  else if t.mode == 0 then
    if !s.attached f then some 5 else if s.regionTakes f t then none else some 3
  else if s.inSram t then none else some 3

/-- A house address of an empty position or of a part outside the slice is counted when it is discarded
(R258). -/
def State.countStray (s : State) (t : Transfer) : State :=
  let n := houseOf t.dest
  let v := s.fused.variant
  let inside := n == s.position || (s.job.state != .none && s.otherParts.any fun a =>
    sameHouse v a s.rc.address && housePosition v a == n)
  if t.ttBlock || t.mode != 1 || t.malformed || inside then s else s.otherDrop 0

/-- Change the transfer of a window slot. -/
def State.modTransfer (s : State) (f slot : Nat) (g : Transfer → Transfer) : State :=
  s.modFn f fun x => { x with transfers := x.transfers.map fun t => if t.slot == slot then g t else t }

/-- The transfer of a window slot. -/
def State.transfer (s : State) (f slot : Nat) : Option Transfer :=
  (s.fn f).transfers.find? fun t => t.slot == slot

/-- Start the transfers whose records are visible and have not started. -/
def State.startTransfer (s : State) (f : Nat) (r : Rec) : State :=
  if (s.fn f).transfers.any (fun t => t.slot == r.slot) || (s.fn f).hold.any (fun e => e.slot == some r.slot) then s
  else
    let t := transferOf r
    let status := s.transferRefusal f t
    let s := if status == some 3 then s.countStray t else s
    s.modFn f fun x => { x with transfers := x.transfers ++ [{ t with status := status }] }

/-- Write as much of a DATA_PUT as goes now, granule by granule; n bounds the granules. -/
def State.putData (s : State) (f slot : Nat) (host : HostMem) : Nat → State
  | 0 => s
  | n + 1 =>
    match s.transfer f slot with
    | none => s
    | some t =>
      if t.status.isSome then s
      else if t.bytes ≤ t.done then s.modTransfer f slot fun t => { t with status := some 0 }
      else
        let k := localKey t.dest + t.done
        let closing := t.mode == 1 && inLayers (offsetOf k) && s.gateOf (dieOf k) (halfOf (offsetOf k)) == 1
        let num := t.region.toNat
        if closing then s.modTransfer f slot fun t => { t with status := some 1 }
        else if t.mode == 0 && (s.region num).roomCommitted = 0 then s
        else match hostRead host (t.source.toNat + t.done) 256 with
          | none => s.modTransfer f slot fun t => { t with status := some 4 }
          | some b =>
            let v : Vec := ofBytes 2048 b
            let s := if t.mode == 0 then s.landCommitted num v else s.putGranule k v fullBytes
            (s.modTransfer f slot fun t => { t with done := t.done + 256 }).putData f slot host n

/-- The bundle frame at the head of a byte string, if its header announces 1 to 32 granules. -/
def frameOf (h : List Byte) (granules : List Vec) : BundleFrame :=
  { ftype := fieldAt 8 h 0, format := fieldAt 8 h 1, member := fieldAt 16 h 2, set := fieldAt 32 h 4
    first := fieldAt 16 h 8, digest := fieldAt 64 h 16, granules := granules }

/-- Granules of a byte string. -/
def granulesOfBytes (b : List Byte) : Nat → List Vec
  | 0 => []
  | n + 1 => ofBytes 2048 (b.take 256) :: granulesOfBytes (b.drop 256) n

/-- Members other than this part that a frame names. -/
def State.frameMembers (s : State) (f : BundleFrame) : List FabricAddr :=
  let all := s.job.memberList.filter fun a => a != s.rc.address
  if f.member == 0xFFFF then all
  else all.filter fun a => memberIndex s.job.low s.job.high a == f.member.toNat

/-- One frame of a TT_BLOCK at the root: landed, multicast, and processed here where it names this part. -/
def State.sendFrame (s : State) (im : Image) (slot : Nat) (f : BundleFrame) : State :=
  let others := s.frameMembers f
  let mine := f.member == 0xFFFF || f.member.toNat == s.member
  let s := if mine then s.takeFrame im f
    else
      let n := timetableRegion im s.member
      let pieces := frameHeader f :: f.granules
      (pieces.foldl (fun s v => s.landCommitted n v) s).consumeRegion n
  let s := if others.isEmpty then s else s.emit (.bundleFrame f)
  s.modTransfer 0 slot fun t =>
    { t with done := t.done + 256 * (f.granules.length + 1), awaiting := t.awaiting ++ others }

/-- Take as many frames of a TT_BLOCK as go now. -/
def State.putFrames (s : State) (im : Image) (slot : Nat) (host : HostMem) : Nat → State
  | 0 => s
  | n + 1 =>
    match s.transfer 0 slot with
    | none => s
    | some t =>
      if t.status.isSome then s
      else if t.bytes ≤ t.done then
        if t.awaiting.isEmpty then s.modTransfer 0 slot fun t => { t with status := some 0 } else s
      else match hostRead host (t.source.toNat + t.done) 256 with
        | none => s.modTransfer 0 slot fun t => { t with status := some 4 }
        | some h =>
          let k := natAt h 10 1
          let g := if 1 ≤ k && k ≤ 32 then k else 0
          if t.bytes < t.done + 256 * (g + 1) then
            -- a frame cut short by the record's end is discarded
            (State.modTransfer { s with job := { s.job with discardedFrames := s.job.discardedFrames + 1 } } 0 slot
              fun t => { t with done := t.bytes }).putFrames im slot host n
          else match hostRead host (t.source.toNat + t.done + 256) (256 * g) with
            | none => s.modTransfer 0 slot fun t => { t with status := some 4 }
            | some b =>
              let f := frameOf h (granulesOfBytes b g)
              if s.frameFits im f then (s.sendFrame im slot f).putFrames im slot host n else s

/-- Advance one transfer. -/
def State.runTransfer (s : State) (f : Nat) (t : Transfer) (host : HostMem) : State :=
  let s := s.wake
  if t.ttBlock then
    match s.job.image with
    | some im => s.putFrames im t.slot host (t.bytes / 256 + 1)
    | none => s
  else s.putData f t.slot host (t.bytes / 256 + 1)

/-- DATA_PUT: the function's records start in window order, and its oldest running transfer goes on, by at most a
number of granules. -/
def execDataPut (fn : BitVec 6) (run : PutRun) (s : State) : Host.Outcome State Fault Refusal :=
  let f := fn.toNat
  .next (
    if s.takes f && s.mayTransfer then
      let s := ((s.fn f).records.filter fun r => r.valid && r.type == 4).foldl (fun s r => s.startTransfer f r) s
      match (s.fn f).transfers.find? fun t => !t.ttBlock && t.status.isNone with
      | some t => s.wake.putData f t.slot run.env.host (run.granules + 1)
      | none => s
    else s)

/-- TT_BLOCK: the same for the PF's bundle transfers. A VF's TT_BLOCK is refused by TRANSFER_COMPLETE. -/
def execTtBlock (env : Surroundings) (s : State) : Host.Outcome State Fault Refusal :=
  .next (
    if s.takes 0 && s.mayTransfer then
      let s := ((s.fn 0).records.filter fun r => r.valid && r.type == 5).foldl (fun s r => s.startTransfer 0 r) s
      match (s.fn 0).transfers.find? fun t => t.ttBlock && t.status.isNone with
      | some t => s.runTransfer 0 t env.host
      | none => s
    else s)

/-- Queue the COMPLETE entry of a finished transfer. -/
def State.completeEntry (s : State) (f : Nat) (t : Transfer) : State :=
  let s := s.modFn f fun x => { x with transfers := x.transfers.filter fun u => u.slot != t.slot }
  s.queueEntry f t.tag ((t.status.getD 0).setWidth 32) (BitVec.ofNat 32 t.done) 3 t.slot

/-- Queue the COMPLETE entries of a function's finished transfers. -/
def State.completeAll (s : State) (f : Nat) : State :=
  ((s.fn f).transfers.filter fun t => t.status.isSome).foldl (fun s t => s.completeEntry f t) s

/-- TRANSFER_COMPLETE: the oldest finished transfer of a function gets its COMPLETE entry; a VF's TT_BLOCK is
refused here. -/
def execTransferComplete (fn : BitVec 6) (s : State) : Host.Outcome State Fault Refusal :=
  let f := fn.toNat
  .next (
    let s := if f != 0 && s.takes f then
        ((s.fn f).records.filter fun r => r.valid && r.type == 5).foldl (fun s r => s.startTransfer f r) s
      else s
    match (s.fn f).transfers.find? fun t => t.status.isSome with
    | some t => (s.completeEntry f t).egressFn f []
    | none => s)

/-! ## Fences -/

/-- Queue the FENCE entry of a function whose first unconsumed record is a FENCE. Its value field is not
stated: a free value (log 15). -/
def State.fenceFn (s : State) (f : Nat) : State :=
  match (s.fn f).records.head? with
  | none => s
  | some r =>
    if r.valid && r.type == 6 && !(s.fn f).hold.any (fun e => e.slot == some r.slot) then
      let (d, s) := s.draw
      s.queueEntry f r.id (Config.freeBits 32 d) 0 4 r.slot
    else s

/-- FENCE. -/
def execFence (fn : BitVec 6) (s : State) : Host.Outcome State Fault Refusal :=
  let f := fn.toNat
  .next (
    if s.takes f then
      let s := s.dropMalformed f windowSlots
      let t := s.fenceFn f
      if (t.fn f).hold == (s.fn f).hold then s else t.egressFn f []
    else s)

/-! ## Taking the records of a function -/

/-- Alternate between what may stand at the head: malformed records, unserved requests, transfers, fences,
and the entries they write. -/
def State.takeRecords (s : State) (f : Nat) (env : Surroundings) : State :=
  let s := s.dropMalformed f windowSlots
  let s := s.unservedAll f
  let s := ((s.fn f).records.filter fun r => r.valid && (r.type == 4 || r.type == 5)).foldl
    (fun s r => s.startTransfer f r) s
  let s := if s.mayTransfer then (s.fn f).transfers.foldl (fun s t => s.runTransfer f t env.host) s else s
  s.completeAll f

/-- Fences of a function that can follow one another, at most n. -/
def State.fences (s : State) (f : Nat) : Nat → State
  | 0 => s
  | n + 1 =>
    let t := (s.dropMalformed f windowSlots).fenceFn f
    if (t.fn f).hold == (s.fn f).hold then t
    else (t.egressFn f []).fences f n

/-- The counters of scopes 1 to 3 are copied and stamped (R443). -/
def State.copyCounters (s : State) : State :=
  { s with dg := { s.dg with cntCopy := s.dg.cnt, cntStamp := s.stampIo } }

/-- One function at a service tick. -/
def State.tickFn (s : State) (env : Surroundings) (f : Nat) : State :=
  let s := s.beginEgress f env
  let s := if s.takes f then
      let s := s.takeRecords f env
      (s.egressFn f env.consumed).fences f windowSlots
    else (s.readConsumed f env.consumed).egressVector f false
  s.writeMirror f

/-- SERVICE_TICK. -/
def execServiceTick (env : Surroundings) (s : State) : Host.Outcome State Fault Refusal :=
  .next (
    if s.pw.firmware then
      let s := (List.range 64).foldl (fun s f => s.tickFn env f) s
      if s.inSession then s else s.copyCounters
    else s)

end Sys2Proof.Machine
end

