-- ==== Sys2Proof/Machine/Power.lean ====
section
/-! DEFINITION. The frequency step that a part requests (R480 to R482) and the ceilings of Table 20-3. -/

namespace Sys2Proof.Machine

/-- Compute-die power at a step (Table 20-3). -/
def dieWatts : Nat → Nat
  | 0 => 270 | 1 => 335 | 2 => 415 | 3 => 505 | 4 => 610 | 5 => 730 | 6 => 870
  | _ => 1010

/-- The variant's other load at full busy (Table 1-10). -/
def otherLoad (v : Variant) : Nat := 48 * layersOf v + 90 * ioDiesOf v + 8 * stacksOf v + 40

/-- The ceiling of a step in watts (R481). -/
def ceiling (v : Variant) (step : Nat) : Nat := (100 * (4 * dieWatts step + otherLoad v) + 91) / 92

/-- The power limit of a code in watts. -/
def limitWatts (code : BitVec 2) : Nat :=
  match code.toNat with
  | 0 => 2400 | 1 => 3200 | 2 => 4000
  | _ => 4500

/-- Highest step at most 7 that a predicate admits; 0 when none does. -/
def highestStep (p : Nat → Bool) : Nat := ((List.range 8).filter p).foldl max 0

/-- The safe step for a limit (R481). -/
def safeStep (v : Variant) (limit : BitVec 2) : Nat := highestStep fun s => ceiling v s ≤ limitWatts limit

/-- The limit step for a lesson-table index (R482). -/
def State.limitStep (s : State) (index : Option Nat) : Nat :=
  let v := s.fused.variant
  let m := match index with
    | none => (0, 0)
    | some i => tabGet (0, 0) s.pw.measured i
  if m.1 = 0 then safeStep v s.pw.limit
  else highestStep fun k => 100 * (m.1 * ceiling v k) ≤ 95 * limitWatts s.pw.limit * ceiling v m.2

/-- Highest step of the grade (R21). -/
def State.gradeStep (s : State) : Nat := if s.fused.gradeG2 then 7 else 6

/-- The step requested for a lesson (R480). -/
def State.stepWanted (s : State) (index : Option Nat) : BitVec 3 :=
  BitVec.ofNat 3 (min (min s.pw.requested.toNat s.gradeStep) (min (s.limitStep index) s.pw.thermalStep.toNat))

/-- Outside a job the minimum is the step in force (R480). -/
def State.settleStep (s : State) : State :=
  if s.inSession && s.isMember then s else { s with pw := { s.pw with step := s.stepWanted none } }

/-- The thermal step moves by one at a recess (Table 20-4); PW_THROTTLES counts its falls. -/
def State.thermalRecess (s : State) : State :=
  let t := s.pw.thermalStep
  let p := s.pw
  if p.throttleDue then
    -- new heat takes back a rise that was due
    let p := { p with riseDue := false }
    (if t = 0 then { s with pw := p } else { s with pw := { p with thermalStep := t - 1, throttles := p.throttles + 1 } })
  else if p.riseDue then
    { s with pw := { p with riseDue := false, thermalStep := if t = 7 then 7 else t + 1 } }
  else s

/-- Answer the POWER_LIMIT commands once a lowered limit is held (R484). -/
def State.holdLimit (s : State) : State :=
  match s.pw.nextLimit with
  | none => s
  | some l =>
    let w := s.pw.limitWaits
    let s := { s with pw := { s.pw with limit := l, nextLimit := none, limitWaits := [] } }
    s.answerAll w stOk (toBytes 1 (l.setWidth 8))

/-- Answer the POWER_STEP commands with the step in force (R415). -/
def State.holdStep (s : State) : State :=
  let w := s.pw.stepWaits
  let s := { s with pw := { s.pw with stepWaits := [] } }
  s.answerAll w stOk (toBytes 1 (s.pw.step.setWidth 8))

end Sys2Proof.Machine
end

