-- ==== Sys2Proof/Machine/Bell.lean ====
section
/-! DEFINITION. The bell (R37 to R42, R51 to R60, R274, R275, R515): statuses up the tree, verdicts and
releases down it, and the ends of a job. -/

namespace Sys2Proof.Machine

/-! ## Payloads (Table 11-5) -/

/-- A cause record laid out as BL_FIRST_WHERE. -/
def causeWhere (c : CauseRec) : Word :=
  BitVec.ofNat 32 (c.part.toNat + 2 ^ 16 * c.die.toNat + 2 ^ 18 * c.unit.toNat + 2 ^ 26 * c.bit.toNat +
    2 ^ 30 * c.source.toNat)

/-- A cause record from its two words. -/
def causeFrom (w cycle : Nat) : CauseRec :=
  { cycle := BitVec.ofNat 24 cycle, part := BitVec.ofNat 16 w, die := BitVec.ofNat 2 (w / 2 ^ 16)
    unit := BitVec.ofNat 8 (w / 2 ^ 18), bit := BitVec.ofNat 4 (w / 2 ^ 26), source := BitVec.ofNat 2 (w / 2 ^ 30) }

/-- Payload of GATHER and VERDICT. -/
def statusBytes (g : GatherStatus) : List Byte :=
  let w : Word := match g.first with
    | some c => causeWhere c
    | none => 0
  let c : BitVec 24 := match g.first with
    | some c => c.cycle
    | none => 0
  [if g.causes = 0 then 0 else 1, 0] ++ toBytes 2 g.causes ++ toBytes 4 w ++ toBytes 3 c ++ [0, 0, 0, 0, 0]

/-- A status from its payload. -/
def statusFrom (b : List Byte) : GatherStatus :=
  { causes := fieldAt 16 b 2
    first := if natAt b 0 1 % 2 = 1 then some (causeFrom (natAt b 4 4) (natAt b 8 3)) else none }

/-- Payload of READY. -/
def readyBytes (r : ReadyStatus) : List Byte :=
  [BitVec.ofNat 8 ((if r.complete then 1 else 0) + (if r.quiet then 2 else 0)), r.step.setWidth 8] ++
  List.replicate 14 0

/-- A ready from its payload. -/
def readyFrom (b : List Byte) : ReadyStatus :=
  { complete := natAt b 0 1 % 2 == 1, quiet := natAt b 0 1 / 2 % 2 == 1, step := BitVec.ofNat 3 (natAt b 1 1) }

/-- Payload of RELEASE. -/
def releaseBytes (r : Release) : List Byte :=
  toBytes 2 r.targetNs ++ [r.step.setWidth 8, r.attempt.setWidth 8] ++ toBytes 4 r.index ++ toBytes 5 r.bell ++
  [0, 0, 0]

/-- A release from its payload. -/
def releaseFrom (b : List Byte) : Release :=
  { targetNs := fieldAt 16 b 0, step := BitVec.ofNat 3 (natAt b 2 1), attempt := BitVec.ofNat 4 (natAt b 3 1)
    index := fieldAt 32 b 4, bell := BitVec.ofNat 40 (natAt b 8 5) }

/-- A bell packet of this part for a neighbour. -/
def State.bellPacket (s : State) (kind : BitVec 4) (to_ : FabricAddr) (b : List Byte) : Packet :=
  { s.header kind 0 to_ with length := 16, payload := ofBytes 2048 b }

/-- Send a bell packet over the tree; the last one in each direction is kept for the current bell (R275). -/
def State.sendBell (s : State) (kind : BitVec 4) (to_ : FabricAddr) (b : List Byte) : State :=
  let p := s.bellPacket kind to_ b
  let keep := s.bell.sent.filter fun q => q.dest != to_
  ({ s with bell := { s.bell with sent := keep ++ [p] } } : State).inject 15 p

/-- Send to every child. -/
def State.sendChildren (s : State) (kind : BitVec 4) (b : List Byte) : State :=
  s.children.foldl (fun s c => s.sendBell kind c b) s

/-- First 16 payload bytes of a packet. -/
def payload16 (p : Packet) : List Byte := toBytes 16 p.payload

/-! ## Combining statuses (R275) -/

/-- The earlier of two records of different parts (R52). -/
def firstOfParts (a b : Option CauseRec) : Option CauseRec :=
  match a, b with
  | none, x => x
  | x, none => x
  | some a, some b =>
    if b.cycle.toNat < a.cycle.toNat || (b.cycle == a.cycle && b.part.toNat < a.part.toNat) then some b
    else if a.part == b.part && a.cycle == b.cycle && causeKey b < causeKey a then some b else some a

/-- Combine two gather statuses. -/
def joinGather (a b : GatherStatus) : GatherStatus :=
  { causes := a.causes ||| b.causes, first := firstOfParts a.first b.first }

/-- Combine two readies. -/
def joinReady (a b : ReadyStatus) : ReadyStatus :=
  { complete := a.complete && b.complete, quiet := a.quiet && b.quiet
    step := if b.step.toNat < a.step.toNat then b.step else a.step }

/-- The neutral statuses, that a relay part starts from. -/
def noCauses : GatherStatus := { causes := 0, first := none }
def allReady : ReadyStatus := { complete := true, quiet := true, step := 7 }

/-! ## The end of a job (R32, R60, R373) -/

/-- Code of BL_STATUS.phase (Table 2-10). -/
def phaseCode : Phase → Byte
  | .idle => 0 | .lesson => 1 | .gather => 2 | .recess => 3 | .ready => 4 | .complete => 5 | .stopped => 6
  | .faulted => 7

/-- Root: a part's answer to the job command in progress. -/
def State.giveResult (s : State) (part : FabricAddr) (opcode status : BitVec 16) (body : List Byte) : State :=
  if s.job.order == opcode && s.job.awaiting.contains part then
    { s with job := { s.job with
        awaiting := s.job.awaiting.filter fun a => a != part, results := s.job.results ++ [(part, status, body)] } }
  else s

/-- Answer the commands that wait for the job command in progress. -/
def State.answerJob (s : State) (status : BitVec 16) (body : List Byte) : State :=
  let w := s.job.waits
  State.answerAll { s with job := { s.job with waits := [], order := 0, awaiting := [], results := [] } } w status body

/-- Response body of JOB_STOP. -/
def State.stopBody (s : State) : List Byte :=
  [phaseCode s.bell.phase, s.bell.faultCode] ++
  (if s.job.committed = 0 then List.replicate 5 0xFF else natToBytes 5 (s.job.committed - 1))

/-- Drop the routing of a released slice: every destination discarded (Table 11-10). -/
def State.clearSlice (s : State) : State :=
  let drop (_ : Nat) (r : Router) : Router := { r with low := 0, high := 0, full := false, dir := 0xFFFFFFFF }
  let s := s.undrain
  { s with rt := { s.rt with slice := 0, role := 0, routers := tabMap drop s.rt.routers } }

/-- This root names no partner any more, and tells it so (R437, R439). -/
def State.leavePair (s : State) : State :=
  let s := match s.dg.partner with
    | some p => s.emit (.lockstep p .withdraw)
    | none => s
  { s with dg := { s.dg with paired := false, partner := none } }

/-- Release the job record and the slice on this part; the FABRIC record follows. -/
def State.releaseJob (s : State) (a : After) : State :=
  let sv := { Serving.reset with committed := s.sv.committed, tokensSent := s.sv.tokensSent }
  let s := State.leavePair { s with job := .reset, sv := sv, sec := { s.sec with snapshot := none } }
  s.clearSlice.commitFabric a

/-- Set the counters that a COUNTERS_ENABLE body asks for (R441). -/
def State.applyCounters (s : State) (b : List Byte) : State :=
  let scope := natAt b 0 1 % 4
  let d := s.dg
  if natAt b 1 1 = 1 then
    let sel := (List.range 8).foldl (fun t i => tabSet 0 t (8 * scope + i) (fieldAt 16 b (4 + 2 * i))) d.cntSel
    let d := { d with
      cntOn := d.cntOn ||| BitVec.ofNat 4 (2 ^ scope)
      cntSel := sel
      cntTiles := if scope = 0 then fieldAt 1024 b 20 else d.cntTiles
      cnt := d.cnt.filter fun e => e.1 / 16384 != scope
      cntCopy := d.cntCopy.filter fun e => e.1 / 16384 != scope }
    let zero (_ : Nat) (x : Tile) : Tile := { x with totals := [], counters := [] }
    { s with dg := d, tiles := if scope = 0 then tabMap zero s.tiles else s.tiles }
  else { s with dg := { d with cntOn := d.cntOn &&& ~~~BitVec.ofNat 4 (2 ^ scope) } }

/-- Apply and answer the COUNTERS_ENABLE commands that wait for a release. -/
def State.countersDue (s : State) : State :=
  let l := s.dg.cntWaits
  let s := { s with dg := { s.dg with cntWaits := [] } }
  l.foldl (fun s e => (s.applyCounters e.2).answer e.1 stOk []) s

/-- Response body of LOCKSTEP. -/
def State.lockBody (s : State) : List Byte :=
  if s.dg.lockMismatch then toBytes 5 s.dg.lockBell else List.replicate 5 0xFF

/-- LOCKSTEP op 0 takes effect at the bell (R439). -/
def State.unpair (s : State) : State :=
  let l := s.dg.unpairAtBell
  if l.isEmpty then s
  else
    let s := State.leavePair { s with dg := { s.dg with unpairAtBell := [] } }
    s.answerAll l stOk s.lockBody

/-- The attached functions' rings take what is committed. -/
def State.egressAll (s : State) (l : List (Nat × Word)) : State :=
  s.attachedFns.foldl (fun s f => s.egressFn f l) s

/-- Transfers of the job's functions end ABORTED (Table 15-13). -/
def State.abortTransfers (s : State) : State :=
  s.attachedFns.foldl (fun s f =>
    (s.modFn f fun x => { x with transfers := x.transfers.map fun t =>
      if t.status.isNone then { t with status := some 6 } else t }).completeAll f) s

/-- The registrar closes the requests of a job that faulted or stopped. -/
def State.closeServing (s : State) (phase : Phase) : State :=
  if s.isRegistrar && phase != .complete then s.closeAll (if phase == .faulted then 0x0A else 0x0B) else s

/-- Commands that waited for the running job are answered once it has ended. -/
def State.answerEnded (s : State) : State :=
  let s := (s.holdLimit.settleStep.holdStep.countersDue).unpair
  let pins := s.sv.pinRequests
  let s := { s with sv := { s.sv with pinRequests := [] } }
  let s := s.answerAll (pins.map (·.wait)) 0x0008 []
  let s : State := s.gateRecess
  if s.job.order != 0 && s.job.stop.isNone then s.answerJob 0x0008 []
  else if s.job.stop == some true then s
  else s.answerJob stOk s.stopBody

/-- The fault vector of the PF and of the attached VFs (Table 15-15). -/
def State.faultVectors (s : State) : State := s.attachedFns.foldl (fun s f => s.msix f 3) s

/-! ## Fences (R112, R113) -/

/-- Fence tiles: recorded in the persistent store, and signalled on the PF's fault vector. -/
def State.fence (s : State) (l : List (Nat × BitVec 4)) : State :=
  if l.isEmpty then s
  else
    let t := l.foldl (fun t e => if tabGet 0 t e.1 = 0 then tabSet 0 t e.1 e.2 else t) s.ts.fences
    let s := { s with ts := { s.ts with fences := t } }
    (s.startCommit 0x0B (.fences t) .nothing).msix 0 3

/-- Fences that take effect at the bell (R113). -/
def State.fencesDue (s : State) : List (Nat × BitVec 4) :=
  (s.tiles.filter fun e => e.2.fenceDue != 0 && !s.fenced e.1).map fun e => (e.1, e.2.fenceDue)

/-- Apply the fences due at a bell. -/
def State.fenceAtBell (s : State) : State :=
  let l := s.fencesDue
  let done (_ : Nat) (x : Tile) : Tile := { x with fenceDue := 0 }
  State.fence { s with tiles := tabMap done s.tiles } l

/-- A lesson that ends without a verdict is voided: its lesson-surviving state is rolled back, its digests are dropped
(R53, R60, R65), and the fences it has made due take effect (R112). -/
def State.abandon (s : State) : State :=
  if s.lessonOpen then
    let s := (s.rollbackServing.settleRegions false).fenceAtBell
    { s with dg := { s.dg with terms := [] } }
  else s

/-- The job ends on this part with a phase and, for a fault, its code. -/
def State.endJob (s : State) (phase : Phase) (code : Byte) : State :=
  let s := s.abandon
  let s := { s with
    bell := { s.bell with
      phase := phase
      faulted := s.bell.faulted || decide (phase = Phase.faulted)
      faultCode := if phase = Phase.faulted then code else s.bell.faultCode
      release := none, verdict := none, withheld := false, reverify := [], newFence := false, widthsDue := []
      recessDue := false }
    job := { s.job with state := .ended }
    dg := { s.dg with stopped := s.dg.stopped && !decide (phase = Phase.stopped) } }
  let s := s.egressAll []
  let s := (s.closeServing phase).abortTransfers
  let s := s.egressAll []
  let s := if phase == .faulted then s.faultVectors else s
  let s := s.answerEnded
  if s.job.stop == some true then s.releaseJob (.respondAll s.job.waits s.stopBody) else s

/-- Members other than this part. -/
def State.otherMembers (s : State) : List FabricAddr := s.job.memberList.filter fun a => a != s.rc.address

/-- The relay parts of the box. -/
def State.relayParts (s : State) : List FabricAddr :=
  s.otherParts.filter fun a => !bit s.job.members (memberIndex s.job.low s.job.high a)

/-- A firmware message to several parts. -/
def State.tellAll (s : State) (l : List FabricAddr) (m : FwMessage) : State :=
  s.emitAll (l.map fun a => .firmware a m)

/-- The root ends the job everywhere, and releases the slice where JOB_STOP has asked for it. -/
def State.endEverywhere (s : State) (phase : Phase) (code : Byte) : State :=
  let l := s.otherParts
  let s := s.tellAll l (.jobEnd (phaseCode phase) code)
  let s := if s.job.stop == some true then s.tellAll l (.stop s.job.id true) else s
  s.endJob phase code

/-- The end that a recess finds on this part: the root carries it to every part of the box. -/
def State.endHere (s : State) (phase : Phase) (code : Byte) : State :=
  if s.isRoot then s.endEverywhere phase code else s.endJob phase code

/-- A condition of Table 2-6 holds here: the root faults the job, a member reports it to the root. -/
def State.fault (s : State) (code : Byte) : State :=
  if s.job.state == .inSession then
    if s.isRoot then s.endEverywhere .faulted code
    else s.emit (.firmware s.job.root (.jobEnd 7 code))
  else s

/-! ## Gather (R38, R40, R273) -/

/-- The part's tiles, slices, groups and engines have reported for the lesson. -/
def State.lessonDone (s : State) : Bool :=
  (List.range 1024).all (fun t => s.fenced t || (s.tile t).ended) &&
  s.mem.slices.all (fun e => e.2.reads.isEmpty && e.2.writes.isEmpty && e.2.window.isEmpty) &&
  s.mem.redFlight.all (fun e => e.2.isEmpty) && s.mem.instances.isEmpty &&
  s.cq.pieces.all fun p => p.arrival.isNone

/-- The compute clocks of the part are stopped: it reports at once. -/
def State.clocksStopped (s : State) : Bool := bit s.bell.lessonCauses cClockStop

/-- A middle or last part of a ring that has received fewer than its pieces (R273). -/
def State.ringShort (s : State) : Option Nat :=
  (List.range 64).find? fun r =>
    let d := tabGet 0 s.rt.rings (64 * s.rt.ringBank.toNat + r)
    let role := (d.extractLsb' 0 2).toNat
    2 ≤ role && (tabGet .reset s.rt.ringRuns r).received < (d.extractLsb' 8 16).toNat + 1

/-- The combined status once this part's own and every child's are held. -/
def State.gatherReady (s : State) : Option GatherStatus :=
  let have_ := (!s.isMember || s.bell.gathered) && s.children.all fun c => s.bell.childGather.any fun e => e.1 == c
  if have_ then
    let own : GatherStatus := if s.isMember then { causes := s.bell.lessonCauses, first := s.bell.lessonFirst }
      else noCauses
    some (s.bell.childGather.foldl (fun a e => joinGather a e.2) own)
  else none

/-- Root: the verdict of the combined status, notices merged (R515). -/
def State.rootVerdict (s : State) (g : GatherStatus) : State :=
  let g := joinGather g { causes := s.bell.noticeCauses, first := s.bell.noticeFirst }
  let s := { s with bell := { s.bell with
    verdict := some g, noticeCauses := 0, noticeFirst := none, childGather := []
    widthsDue := if g.causes = 0 then [] else s.relayParts } }
  s.sendChildren 7 (statusBytes g)

/-- Pass the gather on when it is complete. -/
def State.tryGather (s : State) : State :=
  match s.gatherReady with
  | none => s
  | some g =>
    if s.isRoot then (if s.bell.verdict.isSome then s else s.rootVerdict g)
    else
      match s.parentOf s.rc.address with
      | none => s
      | some p => State.sendBell { s with bell := { s.bell with childGather := [], phase := .gather } } 6 p (statusBytes g)

/-- This part's status joins the gather. -/
def State.gatherSend (s : State) : State :=
  if s.bell.phase == .lesson && s.isMember && (s.lessonDone || s.clocksStopped) then
    let s := match s.ringShort with
      | some r => (s.cause cMissing s.bell.lessonLength 0 0 3).hazard 0 15 s.bell.lessonLength r 0
      | none => s
    State.tryGather { s with bell := { s.bell with phase := .gather, gathered := true } }
  else s

/-- A relay part has no status of its own: it sends once it holds its children's (R275). -/
def State.relayGather (s : State) : State :=
  if s.bell.phase == .lesson && s.inSession && !s.isMember then s.tryGather else s

/-- GATHER_STATUS_SEND. -/
def execGatherStatusSend (s : State) : Host.Outcome State Fault Refusal :=
  .next (if s.isMember then s.gatherSend else s.relayGather)

/-- A relay part that a part reset has taken out of the bell joins the one that its neighbours are in (R284): the
first gather, verdict or ready that reaches it names it by its tag. -/
def State.rejoin (s : State) (p : Packet) : State :=
  if s.inSession && !s.isMember && s.bell.phase == .idle then
    let n := p.tagBell.setWidth 40
    { s with bell := { s.bell with
        number := n, attempt := p.tagAttempt, relNumber := n, relAttempt := p.tagAttempt, phase := .lesson } }
  else s

/-- The packet belongs to the bell in progress, and is not one already held (R275). -/
def State.bellFresh (s : State) (p : Packet) : Bool :=
  p.tagBell == s.tagBell && p.tagAttempt == s.bell.attempt &&
  !s.bell.seen.contains (p.kind, p.tagBell, p.tagAttempt, p.source)

/-- Note a bell packet as held. -/
def State.noteBell (s : State) (p : Packet) : State :=
  { s with bell := { s.bell with seen := s.bell.seen ++ [(p.kind, p.tagBell, p.tagAttempt, p.source)] } }

/-- BELL_GATHER: a child's status. -/
def execBellGather (p : Packet) (s : State) : Host.Outcome State Fault Refusal :=
  .next (
    let s := if p.kind == 6 then s.rejoin p else s
    if p.kind == 6 && s.inSession && s.bellFresh p && s.children.contains p.source && s.bell.verdict.isNone then
      let s := s.noteBell p
      State.tryGather { s with bell := { s.bell with
        childGather := s.bell.childGather ++ [(p.source, statusFrom (payload16 p))] } }
    else s)

/-- GATHER_TIMEOUT: at the root, a member's status is still missing (R40). -/
def execGatherTimeout (s : State) : Host.Outcome State Fault Refusal :=
  .next (
    if s.isRoot && s.inSession && s.bell.phase == .gather && s.bell.verdict.isNone then
      s.endEverywhere .faulted 2
    else s)

/-- The root takes a notice into the verdict that it has still to send (R515); one that comes again adds nothing. -/
def State.takeNotice (s : State) (v : Vec) : State :=
  if s.bell.noticed.contains v then s
  else
    let b := toBytes 16 v
    { s with bell := { s.bell with
        noticed := s.bell.noticed ++ [v]
        noticeCauses := s.bell.noticeCauses ||| fieldAt 16 b 2
        noticeFirst := firstOfParts s.bell.noticeFirst (some (causeFrom (natAt b 4 4) (natAt b 8 3))) } }

/-- A notice goes up the tree at once, and is kept so that no loss of a link drops it (R515). -/
def State.passNotice (s : State) (p : Packet) : State :=
  if s.isRoot then s.takeNotice p.payload
  else if s.bell.notices.any fun q => q.payload == p.payload then s
  else
    match s.parentOf s.rc.address with
    | some a =>
      let q := { p with dest := a, source := s.rc.address }
      State.inject { s with bell := { s.bell with notices := s.bell.notices ++ [q] } } 15 q
    | none => s

/-- BELL_NOTICE: forwarded to the parent at once; the root keeps its cause for the combined status. -/
def execBellNotice (p : Packet) (s : State) : Host.Outcome State Fault Refusal :=
  .next (if p.kind == 0xD && s.inSession then s.passNotice p else s)

end Sys2Proof.Machine
end

