-- ==== Sys2Proof/Machine/Records.lean ====
section
/-! DEFINITION. Starting record commits (R328, R329, R334) and fencing tiles (R112, R113). -/

namespace Sys2Proof.Machine

/-- Commit the restore map. -/
def State.recordMap (s : State) (a : After) : State := s.startCommit 7 (.restoreMap s.nv.restoreMap) a

/-! ## Routing tables (R276, R278, Tables 11-9, 11-10) -/

/-- A router from RT_AXIS, RT_DIR and RT_LINKMAP. -/
def Router.load (r : Router) (b : List Byte) : Router :=
  let a := natAt b 0 4
  { r with
    coord := BitVec.ofNat 4 a, extent := BitVec.ofNat 5 (a / 2 ^ 4), low := BitVec.ofNat 4 (a / 2 ^ 9)
    high := BitVec.ofNat 4 (a / 2 ^ 13), full := a / 2 ^ 17 % 2 == 1, dir := fieldAt 32 b 4
    linkmap := BitVec.ofNat 16 (natAt b 8 4) }

/-- Write the whole table of a ROUTE_SET body and advance the epoch; the command is answered when the record is
committed (R329). -/
def State.loadRoutes (s : State) (w : Waiting) (b : List Byte) : State :=
  let s := (List.range s.axes).foldl (fun s k => s.modRouter k fun r =>
    let r := r.load (bytesAt b (16 + 16 * k) 16)
    { r with linkmap := s.serveMap k r.linkmap }) s
  let rt := { s.rt with slice := fieldAt 8 b 0, role := BitVec.ofNat 2 (natAt b 1 1), epoch := s.rt.epoch + 1 }
  State.commitFabric { s with rt := rt } (.respond w (toBytes 1 (rt.epoch.setWidth 8)))

/-- Status NOT_QUIET. -/
def stNotQuiet : BitVec 16 := 0x12

/-- One ROUTE_SET: applied on a quiet part, otherwise refused. -/
def State.routeSetNow (s : State) (w : Waiting) (b : List Byte) : State :=
  if s.quiet then s.loadRoutes w b else s.answer w stNotQuiet []

/-- Recess step 9: the ROUTE_SETs that wait for the slice to be drained (R279). -/
def State.routeStep (s : State) : State :=
  let l := s.rt.routeWaits
  l.foldl (fun s e => s.routeSetNow e.1 e.2) { s with rt := { s.rt with routeWaits := [] } }

end Sys2Proof.Machine
end

