-- ==== Sys2Proof/Machine/Recess.lean ====
section
/-! DEFINITION. Recess (R43, Table 2-3): the verdict and its nine steps, the ready and the release. -/

namespace Sys2Proof.Machine

/-! ## Step 1: commit or roll back -/

/-- The reader of a distribution becomes the declared producer of the store region (R314). -/
def State.applyReader (s : State) : State :=
  match s.nv.dist, s.job.image with
  | some d, some im =>
    match storeRegion im s.member with
    | some n =>
      let r := s.region n
      if r.kind != .localRegion then s
      else s.install n { r with producerPart := d.readerPart, producerEngine := true, producerFirmware := false, producerTile := 0 }
    | none => s
  | _, _ => s

/-- Pages of the registrar's pool that a lesson read of an uncorrectable word has met are reported (R359):
the memory addresses of pages are the image's, so the report is the FIRMWARE_MESSAGE of the member. -/
def State.restoreHit (s : State) : State :=
  let l := s.bell.ueBlocks
  l.foldl (fun s b => s.askRestore b) { s with bell := { s.bell with ueBlocks := [] } }

/-- Step 1 after a clean verdict. -/
def State.commitStep (s : State) : State :=
  let s := (s.commitServing.settleRegions true).applyReader
  { s with job := { s.job with committed := s.bell.number.toNat + 1 } }

/-- Step 1 after a dirty verdict: descriptors stay (R214). -/
def State.rollbackStep (s : State) : State :=
  (s.rollbackServing.settleRegions false).restoreHit

/-! ## Steps 2 to 7 -/

/-- The slots of the egress stage have been taken (R222, R224). -/
def State.consumeStages (s : State) : State :=
  match s.job.image with
  | some im => if s.isRegistrar then (servingStages im).foldl (fun s n => s.consumeRegion n) s else s
  | none => s

/-- Step 2: records of the attached functions are taken, committed entries and held ones leave, power-downs of
half-layers take effect. -/
def State.egressStep (s : State) (env : Surroundings) : State :=
  let s := s.attachedFns.foldl (fun s f => s.beginEgress f env) s
  let s := s.attachedFns.foldl (fun s f => s.takeRecords f env) s
  let s := s.attachedFns.foldl (fun s f => (s.egressFn f env.consumed).fences f windowSlots) s
  s.consumeStages.gateRecess

/-- The job is paired and its root is the follower (R437). -/
def State.follows (s : State) : Bool :=
  s.dg.paired && (match s.dg.partner with
    | some p => p.toNat < s.rc.address.toNat
    | none => false)

/-- Work of the registrar that still waits for the leader's records (R440). -/
def State.placementDue (s : State) : Bool := s.termRecess && s.isRegistrar && s.follows && !s.dg.placed

/-- The follower's term recess waits for the leader's records, and for the ingress records that they name. -/
def State.tryPlacement (s : State) : State :=
  if s.placementDue then
    match s.job.image, s.dg.placements.find? fun e => e.1 == s.bell.number.toNat with
    | some im, some e =>
      if e.2.all s.holdsPlaced then
        let s := ((s.termFollow im e.2).storeRecords s.sv).takeSnapshot
        { s with dg := { s.dg with placed := true, placements := s.dg.placements.filter fun q => q.1 != e.1 } }
      else s
    | _, _ => s
  else s

/-- The leader tells its partner what it placed. -/
def State.sendPlacement (s : State) (before : Serving) : State :=
  match s.dg.partner with
  | some p => if s.dg.paired then s.emit (.placement p s.bell.number (placementsOf before s.sv)) else s
  | none => s

/-- The registrar's work of a term recess. -/
def State.termStep (s : State) (im : Image) : State :=
  if s.follows then s.tryPlacement else ((s.termWork im).storeRecords s.sv).sendPlacement s.sv

/-- Step 3 after a clean verdict, and the mirrors at its end. -/
def State.registrarStep (s : State) (im : Image) : State :=
  let s := { s with dg := { s.dg with placed := false } }
  let s := if im.serving && s.isMember && s.termRecess then s.consumeAppends im else s
  if s.isRegistrar then
    if s.termRecess then s.termStep im else (s.appendAll im).storeRecords s.sv
  else s

/-- The mirrors of the attached functions. -/
def State.mirrors (s : State) : State := s.attachedFns.foldl (fun s f => s.writeMirror f) s

/-! ## Step 8: counters, flags and digests -/

/-- Tile counters join the totals (R442). -/
def State.sampleCounters (s : State) : State :=
  let add (_ : Nat) (x : Tile) : Tile :=
    { x with
      totals := x.counters.foldl (fun t e => tabMod 0 t e.1 (· + e.2)) x.totals
      counters := [] }
  ({ s with tiles := tabMap add s.tiles } : State).copyCounters

/-- The lowest tile that has a sticky flag. -/
def State.flagTile (s : State) (flag : Nat) : Option Nat :=
  (s.tiles.find? fun e => bit e.2.flags flag && !s.fenced e.1).map (·.1)

/-- Take a flag of a committed lesson into the summary (R185): the first committed lesson that set it is kept, whatever
the order in which members tell of theirs. Of several parts in one lesson the lowest fabric address is kept (log 139). -/
def State.sumFlag (s : State) (flag : Nat) (bell : BitVec 40) (part : FabricAddr) (tile : BitVec 10) : State :=
  let none_ : FlagSummary := { set := false, bell := 0, part := 0, tile := 0 }
  let old := tabGet none_ s.job.flagSummary flag
  let new : FlagSummary := { set := true, bell := bell, part := part, tile := tile }
  if !old.set || bell.toNat < old.bell.toNat || (old.bell == bell && part.toNat < old.part.toNat) then
    { s with job := { s.job with flagSummary := tabSet none_ s.job.flagSummary flag new } }
  else s

/-- The part's flags of the lesson just committed; a member tells the root. -/
def State.sumFlags (s : State) : State :=
  let l := (List.range 4).filterMap fun f => (s.flagTile f).map fun t => (f, BitVec.ofNat 10 t)
  let s := l.foldl (fun s e => s.sumFlag e.1 s.bell.number s.rc.address e.2) s
  if l.isEmpty || s.isRoot then s else s.emit (.firmware s.job.root (.flags s.bell.number l))

/-- The lesson digest of this part (R435). -/
def lessonDigest (t : Tab (Option (BitVec 64))) : BitVec 64 :=
  let l := t.filterMap fun e => e.2.map fun x => (e.1, x)
  if l.isEmpty then 0 else crc64 (l.flatMap fun e => natToBytes 2 e.1 ++ toBytes 8 e.2)

/-- Digest registers of the committed lesson (R436). -/
def State.digestStep (s : State) : State :=
  let x := lessonDigest s.dg.terms
  { s with dg := { s.dg with
      digestBell := s.bell.number, digestValid := true, digestLesson := x
      digestRun := s.dg.digestRun + x, tensors := s.dg.terms, terms := [] } }

/-- The root holds every member's lesson digest: the slice lesson digest is formed and sent (R438). -/
def State.trySlice (s : State) : State :=
  let n := s.job.memberList.length
  if s.dg.paired && s.isRoot && s.dg.ownSlice.isNone && s.dg.ownDigests.length == n then
    let idx := pick 4096 fun i => bit s.job.members i
    let l := idx.map fun i => match s.dg.ownDigests.find? fun e => e.1 == i with
      | some e => e.2
      | none => 0
    let x := crc64 (l.flatMap (toBytes 8))
    let s := { s with dg := { s.dg with ownSlice := some (s.bell.number, x) } }
    match s.dg.partner with
    | some p => s.emit (.lockstep p (.digest s.bell.number x l))
    | none => s
  else s

/-- A member's digest reaches the root, or the root's own. -/
def State.giveDigest (s : State) : State :=
  if s.isRoot then
    let d := { s.dg with ownDigests := (s.member, s.dg.digestLesson) :: s.dg.ownDigests.filter fun e => e.1 != s.member }
    State.trySlice { s with dg := d }
  else s.emit (.firmware s.job.root (.digest s.member s.bell.number s.dg.digestLesson))

/-- Compare the two slice digests once both are held (R438, R439). -/
def State.compareSlices (s : State) : State :=
  match s.dg.ownSlice, s.dg.partnerSlice with
  | some a, some b =>
    if s.dg.paired && a.1 == s.bell.number && b.1 == a.1 && a.2 != b.2 then
      let own := pick 4096 fun i => bit s.job.members i
      let differ := (List.range own.length).find? fun k =>
        let i := (own[k]?).getD 0
        (match s.dg.ownDigests.find? fun e => e.1 == i with
          | some e => e.2
          | none => 0) != (s.dg.partnerMembers[k]?).getD 0
      let m := match differ with
        | some k => (own[k]?).getD 0
        | none => 0
      let s := { s with dg := { s.dg with lockMismatch := true, lockBell := a.1, lockMember := BitVec.ofNat 12 m } }
      s.endEverywhere .stopped 0
    else s
  | _, _ => s

/-- Step 8. -/
def State.counterStep (s : State) (clean : Bool) : State :=
  let s := s.sampleCounters
  if clean then
    let s := (s.sumFlags).digestStep
    if s.dg.paired then s.giveDigest else s
  else { s with dg := { s.dg with terms := [] } }

/-! ## The verdict -/

/-- The registers that a verdict updates together (R67). -/
def State.noteVerdict (s : State) (g : GatherStatus) : State :=
  { s with bell := { s.bell with
      phase := .recess
      seq := s.bell.seq + 1
      causes := g.causes
      firstWhere := match g.first with
        | some c => causeWhere c
        | none => 0
      firstCycle := match g.first with
        | some c => c.cycle
        | none => 0
      lastDirty := g.causes != 0
      verdict := none
      ownReady := none
      childReady := [] } }

/-- The mean power of the attempt is kept for its lesson-table index; a power trip discards it (R482, R483). -/
def State.measure (s : State) (index watts : Nat) (clean : Bool) : State :=
  if clean && watts != 0 then
    { s with pw := { s.pw with measured := tabSet (0, 0) s.pw.measured index (watts, s.pw.step.toNat) } }
  else s

/-- A re-verification after a relay part's reset is still open (R284): at the root, or on a link of this part. -/
def State.held (s : State) : Bool := !s.bell.reverify.isEmpty || s.rc.links.any fun e => e.2.reverify

/-- The check of R59 on this part: the first condition that holds faults the job. -/
def State.dirtyCheck (s : State) (fenced : Bool) : State :=
  let narrow := match s.job.image with
    | some im => s.routeLinks.any fun l => s.linkWidth l < im.minWidth
    | none => false
  if s.bell.replayLimit.toNat ≤ s.bell.attempt.toNat then (if s.isRoot then s.fault 1 else s)
  else if narrow then s.fault 4
  else if fenced then s.fault 5
  else s

/-- Move to the lesson that follows a clean bell. -/
def State.moveOn (s : State) (im : Image) (next : Option Nat) : State :=
  let i := s.bell.index
  let wrapped := i + 1 == im.prologue + im.term && im.term != 0 && im.prologue ≤ i
  { s with
    job := { s.job with termsDone := if wrapped then s.job.termsDone + 1 else s.job.termsDone }
    bell := { s.bell with index := next.getD i } }

/-- Steps 4 and 5 after a clean verdict. -/
def State.slotAndSwap (s : State) (im : Image) (next : Option Nat) : State :=
  let s := if s.termRecess then s.slotStep im else s
  s.swapBanks im next s.nextIndex

/-- Recess after a clean verdict. -/
def State.recessClean (s : State) (env : Surroundings) : State :=
  match s.job.image with
  | none => s
  | some im =>
    let next := s.nextIndex
    let s := s.measure s.bell.index env.meanPower true
    let s := s.commitStep
    let s := s.moveOn im next
    let s := s.egressStep env
    let s := ((s.registrarStep im).takeSnapshot.mirrors).slotAndSwap im next
    let s := s.thermalRecess.scrub
    let s := (s.counterStep true).unpair
    if s.job.stop.isSome then s.endHere .stopped 0
    else if next.isNone then s.endHere .complete 0
    else if s.bell.number == 0xFFFFFFFFFE then s.endHere .faulted 3
    else s

/-- Steps 2 to 8 after a dirty verdict. -/
def State.recessRest (s : State) (env : Surroundings) : State :=
  let s := { s with bell := { s.bell with recessDue := false } }
  let s := (s.egressStep env).mirrors
  let s := s.thermalRecess.scrub
  (s.counterStep false).unpair

/-- A JOB_STOP that meets a dirty bell ends the job once no condition of R59 can fault it any more (R32, R415): at once
where the part is alone in its slice, otherwise when the readies of all are in. -/
def State.stopDirty (s : State) (all : Bool) : State :=
  if s.inSession && s.isRoot && s.bell.lastDirty && s.job.stop.isSome && !s.held && s.bell.widthsDue.isEmpty &&
      (all || s.otherParts.isEmpty) then
    s.endEverywhere .stopped 0
  else s

/-- Recess after a dirty verdict; each step completes before the next begins (R43). -/
def State.recessDirty (s : State) (env : Surroundings) : State :=
  let fenced := !s.fencesDue.isEmpty
  let s := s.fenceAtBell.rollbackStep
  let s := if s.nv.restores.isEmpty && s.nv.slotReads.isEmpty then s.recessRest env else { s with bell := { s.bell with recessDue := true } }
  let s := if s.held then { s with bell := { s.bell with newFence := fenced } } else s.dirtyCheck fenced
  s.stopDirty false

/-- Perform a verdict on this part. -/
def State.performVerdict (s : State) (g : GatherStatus) (env : Surroundings) : State :=
  let s := s.noteVerdict g
  if g.causes = 0 then s.recessClean env else s.recessDirty env

/-! ## Ready (R42, R45, R57, R278, R451, R486) -/

/-- Recess work of this part is complete. -/
def State.workDone (s : State) : Bool :=
  s.nv.restores.isEmpty && s.nv.slotReads.isEmpty && !s.bell.withheld && !s.pins.thermTrip && !s.held &&
  !s.placementDue

/-- The ready of this part and its children, combined, once all are held. -/
def State.readyAll (s : State) : Option ReadyStatus :=
  if s.children.all fun c => s.bell.childReady.any fun e => e.1 == c then
    let own := match s.bell.ownReady with
      | some r => some r
      | none => if s.isMember then none else some { allReady with quiet := s.quiet }
    own.map fun r => s.bell.childReady.foldl (fun a e => joinReady a e.2) r
  else none

/-- Pass the ready on when it is complete; the root keeps it for the release. -/
def State.tryReady (s : State) : State :=
  match s.readyAll with
  | none => s
  | some r =>
    if s.isRoot then s.stopDirty r.complete
    else match s.parentOf s.rc.address with
      | none => s
      | some p => s.sendBell 8 p (readyBytes r)

/-- A relay part tells the root after a dirty verdict how narrow its links on the job's routes are, once none of them
is re-verified: only its own registers show them (R59, R253, R285; log 142). -/
def State.tellWidth (s : State) : State :=
  if s.inSession && !s.isMember && s.bell.lastDirty && !s.held then
    s.emit (.firmware s.job.root (.width s.rc.address s.routeWidth))
  else s

/-- A relay part takes a verdict: its ready is that of its children. -/
def State.relayVerdict (s : State) (g : GatherStatus) : State :=
  let s := State.tellWidth { s with bell := { s.bell with lastDirty := g.causes != 0, phase := .recess } }
  if s.children.isEmpty then s else s.tryReady

/-- BELL_VERDICT: at the root, the verdict it has issued; on another part, the one that arrives, passed on to
the children first. -/
def execBellVerdict (p : Packet) (env : Surroundings) (s : State) : Host.Outcome State Fault Refusal :=
  .next (
    if s.isRoot then
      match s.bell.verdict with
      | some g => if s.bell.phase == .gather then s.performVerdict g env else s
      | none => s
    else
      let s := if p.kind == 7 then s.rejoin p else s
      if p.kind == 7 && s.inSession && s.bellFresh p && s.parentOf s.rc.address == some p.source then
        let s := s.noteBell p
        let g := statusFrom (payload16 p)
        let s := s.sendChildren 7 (statusBytes g)
        if !s.isMember then s.relayVerdict g
        else if s.bell.phase == .gather then s.performVerdict g env
        else s
      else s)

/-- The ready that this part would send now. -/
def State.ownReadyNow (s : State) : ReadyStatus :=
  { complete := true, quiet := s.quiet, step := s.stepWanted (some s.bell.index) }

/-- A part of the slice is quiet: with the last one, the ROUTE_DRAINs that wait are answered (R279). -/
def State.partQuiet (s : State) (a : FabricAddr) : State :=
  let rest := s.rt.drainAwaiting.filter fun b => b != a
  let s := { s with rt := { s.rt with drainAwaiting := rest } }
  if rest.isEmpty then
    let w := s.rt.drainWaits
    State.answerAll { s with rt := { s.rt with drainWaits := [] } } w stOk []
  else s

/-- This part is quiet: the parts that drain the slice hear of it. -/
def State.reportQuiet (s : State) : State :=
  let l := s.rt.drainAskers
  let s := { s with rt := { s.rt with drainAskers := [] } }
  let s := s.tellAll (l.filter fun a => a != s.rc.address) (.done s.rc.address 0x40 0 [])
  if l.contains s.rc.address then s.partQuiet s.rc.address else s

/-- READY_SEND: a relay part has nothing of its own to wait for. -/
def execReadySend (env : Surroundings) (s : State) : Host.Outcome State Fault Refusal :=
  .next (
    let s := if s.bell.phase == .recess then s.tryPlacement else s
    if s.inSession && s.bell.phase == .recess && s.isMember && s.workDone then
      -- records that became visible and transfers still open go on in the same recess
      let s := if s.bell.recessDue then s.recessRest env else s
      let s := s.attachedFns.foldl (fun s f => s.takeRecords f env) s
      let s := if s.rt.drain && s.quiet then s.reportQuiet else s
      State.tryReady { s with bell := { s.bell with phase := .ready, ownReady := some s.ownReadyNow } }
    else if s.inSession && s.bell.phase == .recess && !s.isMember then
      let s := if s.rt.drain && s.quiet then s.reportQuiet else s
      s.tryReady
    else s)

/-- BELL_READY: a child's ready; a later one of the same child replaces it (R279). -/
def execBellReady (p : Packet) (s : State) : Host.Outcome State Fault Refusal :=
  .next (
    let s := if p.kind == 8 then s.rejoin p else s
    if p.kind == 8 && s.inSession && s.children.contains p.source && p.tagBell == s.tagBell &&
        p.tagAttempt == s.bell.attempt then
      State.tryReady { s with bell := { s.bell with
        childReady := (s.bell.childReady.filter fun e => e.1 != p.source) ++ [(p.source, readyFrom (payload16 p))] } }
    else s)

/-- DRAIN_QUIET: a draining part has become quiet; with a job in session, in the ready phase, it sends its READY
again (R279). -/
def execDrainQuiet (s : State) : Host.Outcome State Fault Refusal :=
  .next (
    if s.rt.drain && s.quiet then
      if s.inSession && s.isMember then
        match s.bell.ownReady with
        | some r =>
          let s := s.reportQuiet
          if r.quiet then s else State.tryReady { s with bell := { s.bell with ownReady := some { r with quiet := true } } }
        | none => s
      else
        let s := s.reportQuiet
        if s.inSession then s.tryReady else s
    else s)

/-! ## Release (R30, R35, R41, R42, R72) -/

/-- The release that the root would send for a bell number, an attempt and an index. -/
def State.makeRelease (s : State) (step : BitVec 3) (bell : BitVec 40) (attempt : BitVec 4) (index : Nat) : Release :=
  { targetNs := s.bell.targetNs + (if step = s.pw.step then 0 else 4000), step := step, attempt := attempt
    index := BitVec.ofNat 32 index, bell := bell }

/-- A release goes down to the children, and its bell and attempt are those of the lesson in progress (R252, R515).
Recess step 9 comes first: the ROUTE_SETs that wait (R279). -/
def State.passRelease (s : State) (r : Release) : State :=
  let s := s.routeStep
  ({ s with bell := { s.bell with release := some r, relNumber := r.bell, relAttempt := r.attempt } } : State).sendChildren 9
    (releaseBytes r)

/-- The root issues a release: to its children and to itself. -/
def State.issueRelease (s : State) (r : Release) : State := s.passRelease r

/-- Both halves of a lock-step pair hold equal digests of the bell (R438). -/
def State.lockstepAgrees (s : State) : Bool :=
  !s.dg.paired || s.bell.lastDirty ||
    (match s.dg.ownSlice, s.dg.partnerSlice with
    | some a, some b => a.1 == s.bell.number && b == a
    | _, _ => false)

/-- The next release after the verdict in force: the next bell after a clean one, the replay after a dirty one. -/
def State.nextRelease (s : State) (step : BitVec 3) : Release :=
  if s.bell.lastDirty then s.makeRelease step s.bell.number (s.bell.attempt + 1) s.bell.index
  else s.makeRelease step (s.bell.number + 1) 0 s.bell.index

/-- Every part of the box has started: the registrar does the work of a term recess where the prologue is empty (R344),
and bell 0 is released. -/
def State.finishStart (s : State) : State :=
  let s := match s.job.image with
    | some im => if s.termRecess && s.isRegistrar then s.termStep im else s
    | none => s
  if s.placementDue then s
  else
    let step := (s.job.results.map fun (r : FabricAddr × BitVec 16 × List Byte) => natAt r.2.2 0 1).foldl min 7
    s.issueRelease (s.makeRelease (BitVec.ofNat 3 step) 0 0 0)

/-- RELEASE_ISSUE: the root, `elapsed` cycles after its own lesson end; a follower's bell 0 that has waited for ingress
records (R440) goes out here. -/
def execReleaseIssue (elapsed : Nat) (s : State) : Host.Outcome State Fault Refusal :=
  .next (
    if s.isRoot && s.placementDue && s.bell.phase == .idle && s.job.order == 0x8015 && s.job.awaiting.isEmpty then
      s.finishStart
    else if s.isRoot && s.inSession && s.bell.phase == .ready && s.bell.release.isNone then
      match s.readyAll with
      | some r =>
        if r.complete && s.bell.recessMin.toNat ≤ elapsed && !s.held && s.lockstepAgrees &&
            s.bell.widthsDue.isEmpty && (!s.rt.drain || r.quiet) then
          s.issueRelease (s.nextRelease r.step)
        else s
      | none => s
    else s)

/-- The part holds this release already (R275). -/
def State.holdsRelease (s : State) (r : Release) : Bool :=
  s.bell.phase != .idle && r.bell == s.bell.relNumber && r.attempt == s.bell.relAttempt

/-- A relay part at a release: the lesson is in progress, a drain is over (R279). -/
def State.relayRelease (s : State) (r : Release) : State :=
  State.undrain { s with bell := { s.bell with
    release := none, number := r.bell, attempt := r.attempt, index := r.index.toNat, phase := .lesson, lastDirty := false
    seen := [], childGather := [], childReady := [], sent := s.bell.sent.filter fun p => p.kind == 9 } }

/-- BELL_RELEASE: the release arrives from the parent and goes down to the children. -/
def execBellRelease (p : Packet) (s : State) : Host.Outcome State Fault Refusal :=
  .next (
    if p.kind == 9 && s.inSession && s.parentOf s.rc.address == some p.source && s.bell.release.isNone &&
        (s.bell.phase == .ready || s.bell.phase == .recess || s.bell.phase == .idle) &&
        !s.holdsRelease (releaseFrom (payload16 p)) then
      let r := releaseFrom (payload16 p)
      let s := s.passRelease r
      if s.isMember then s else s.relayRelease r
    else s)

/-- Stretching at a release (R74, R75). -/
def Stretch.release (x : Stretch) : Stretch := { Stretch.reset with stretched := x.stretched }

/-- An island at a release (R80, R82). -/
def Island.release (i : Island) (bell : BitVec 40) : Island :=
  { count := 0, bell := bell, stretch := i.stretch.release, stopped := false, stopAt := none }

/-- Entries in a tile's hinges, all of another lesson than the one released (R79). -/
def Tile.staleEntries (x : Tile) : Nat :=
  (x.hinge.filter fun h => match h.status with
    | .held => true
    | .flight => true
    | _ => false).length

/-- A tile at a release (R35, R79, R102, R130): registers zero, cycle 0, bundle 0; the counts of the cycle before it
are kept for a sample of this cycle (R85). -/
def Tile.release (x : Tile) (bell : BitVec 40) (runs : Bool) (before : Island) : Tile :=
  { Tile.reset with
    isle := x.isle.release bell, before := before, discards := x.discards + x.staleEntries
    active := x.active, ib := x.ib, ibValid := x.ibValid, ibUe := x.ibUe, storeUeSeen := x.storeUeSeen
    ibUeSeen := x.ibUeSeen, totals := x.totals, ended := !runs }

/-- The islands other than tiles at a release. -/
def Epoch.release (e : Epoch) (bell : BitVec 40) : Epoch :=
  { Epoch.reset with
    isles := (tabMap (fun _ x => x.release) e.isles).filter fun e => e.2 != .reset, bell := bell }

/-- The counts that a sample in the cycle of the release finds: those of the cycle before (R85). -/
def State.epochBefore (s : State) : Epoch :=
  if s.beforeStart then { Epoch.reset with isles := s.ts.now.isles } else s.ts.now

/-- Every region at a release: shadow pointers committed, overrun ended. -/
def Region.release (r : Region) : Region :=
  { r with headSh := r.head, tailSh := r.tail, overrun := false, dropped := false, tailWas := none, headWas := none }

/-- A tile takes the release; what its hinges discard is counted. -/
def State.releaseTile (s : State) (bell : BitVec 40) (before : Nat → Island) (t : Nat) : State :=
  if s.fenced t then s
  else
    let n := (s.tile t).staleEntries
    let s := s.modTile t fun x => x.release bell true (before t)
    if n = 0 then s else s.countTile t 0x000D n

/-- Tiles, islands, slices and regions take the release. Slices drop what they have not applied or served, groups
their open instances, and nothing of this is counted (R514). `old` is the part before the release. -/
def State.releaseIsles (s : State) (bell : BitVec 40) (old : State) : State :=
  let s := (List.range 1024).foldl (State.releaseTile · bell fun t => old.stamped (old.tileIsle t)) s
  { s with
    ts := { s.ts with now := s.ts.now.release bell, before := old.epochBefore }
    mem := { s.mem with slices := [], instances := [] }
    cq := { s.cq with table := tabMap (fun _ r => r.release) s.cq.table, pieces := s.cq.pieces.filter fun p => p.arrival.isNone } }

/-- The engines start their lists, and a drain is over (R279). -/
def State.releaseFabric (s : State) : State :=
  let s := { s with
    rt := { s.rt with getIssued := 0, nextTag := 0, outstanding := [], ringRuns := [] } }
  s.undrain

/-- The bell block at a release. -/
def State.releaseBell (s : State) (r : Release) : State :=
  let im := s.job.image
  let i := r.index.toNat
  { s with bell := { s.bell with
      number := r.bell, attempt := r.attempt, phase := .lesson, index := i
      replays := if r.attempt = 0 || s.bell.replays = 0xFFFFFFFF then s.bell.replays else s.bell.replays + 1
      lessonLength := match im with
        | some m => lessonLength m i
        | none => 0
      stretchBudget := match im with
        | some m => lessonStretch m i
        | none => 0
      lessonCauses := 0, lessonFirst := none, gathered := false, childGather := [], verdict := none
      ownReady := none, childReady := [], release := none, seen := [], ueBlocks := []
      sent := s.bell.sent.filter fun p => p.kind == 9
      withheld := false, newFence := false } }

/-- A bell-number breakpoint stops the part before cycle 0 (R449). -/
def State.bellBreak (s : State) : State :=
  let hit (b : Breakpoint) : Bool := b.kind == 0 && b.value == s.bell.number.setWidth 64
  if s.dg.debugMode && s.dg.breakpoints.any hit then
    let s := { s with
      dg := { s.dg with
        breakpoints := s.dg.breakpoints.filter fun b => !hit b
        stopped := true, hazard := false, stopTile := 0, stopCode := 0, stopKind := 0, stopCycle := 0
        stopBell := s.bell.number, stopAttempt := s.bell.attempt, stopTag := 0, stopDetail := 0, stopAddr := 0 }
      bell := { s.bell with withheld := true } }
    (s.cause cClockStop 0 0 0 3).stopClocks
  else s

/-- The release of every island of the part, on the probe pins (R453). -/
def State.releaseProbes (s : State) : State :=
  if s.dg.debugMode then
    let ids := (List.range 40960).filter fun id => islandExists s.fused.variant id && !(id < 8192 && s.fenced (islandTile id))
    if s.dg.probes.any fun e => e.2.toNat / 4096 = 4 then ids.foldl (fun s id => s.probe 4 (probeIndex id)) s else s
  else s

/-- TILE_RELEASE: the release moment on this part. -/
def execTileRelease (s : State) : Host.Outcome State Fault Refusal :=
  .next (
    match s.bell.release with
    | none => s
    | some r =>
      if s.inSession && s.isMember then
        let old := s
        let s := { s with
          pw := { s.pw with step := r.step, tripped := false, powerTrip := false }
          dg := { s.dg with stopped := false, terms := [], ownSlice := none, partnerSlice := none
                            partnerMembers := [], ownDigests := [] } }
        let s := s.holdLimit.holdStep
        let s := (s.releaseBell r).releaseIsles r.bell old
        let s : State := s.releaseFabric.countersDue.releaseProbes
        -- the release of bell 0 completes JOB_START; beside a JOB_STOP its response is already discarded (R407)
        let s := if s.job.order != 0x8015 then s
          else if s.job.stop.isNone then s.answerJob stOk []
          else { s with job := { s.job with order := 0, awaiting := [], results := [] } }
        s.bellBreak
      else s)

end Sys2Proof.Machine
end

