-- ==== Sys2Proof/Machine/Fabric.lean ====
section
/-! DEFINITION. The fabric (chapter 11): routers, puts, gets, multicasts and rings. -/

namespace Sys2Proof.Machine

/-! ## Routers (R259 to R265) -/

/-- Flits of a packet (R236). -/
def flitsOf (p : Packet) : Nat := (16 + p.length.toNat + 59) / 60

/-- Channel of a packet: 2 x class + virtual channel (R262). -/
def channelOf (p : Packet) : Nat := 2 * p.cls.toNat + p.vc.toNat

/-- The hop leaves the ring's last coordinate for its first, or the reverse (R256). -/
def crossesDateLine (r : Router) (negative : Bool) : Bool :=
  1 < r.extent.toNat && (if negative then r.coord == 0 else r.coord.toNat + 1 == r.extent.toNat)

/-- Link on which a packet leaves along the axis of an I/O die: bell packets follow the map fixed at slice assignment,
the others the table's (R260, R276). -/
def Router.exit (r : Router) (die : Nat) (negative : Bool) (p : Packet) : Nat :=
  mappedLink (if p.cls == 0 then r.bellmap else r.linkmap) die negative (bundleIndex p.source p.dest)

/-- Send a packet one hop along the axis of an I/O die; `entered` tells that it was on that axis already. -/
def State.hop (s : State) (die : Nat) (negative entered : Bool) (p : Packet) : State :=
  let r := s.router die
  let vc : BitVec 1 := if crossesDateLine r negative then 1 else if entered then p.vc else 0
  s.sendLink (r.exit die negative p) { p with vc := vc }

/-- Entry of the direction table for the packet's destination. -/
def dirOf (r : Router) (die : Nat) (p : Packet) : Nat := (r.dir.extractLsb' (2 * coord p.dest die) 2).toNat

/-- Direction of a packet at a router: bell packets follow the bell tree, others the table (R276). -/
def State.directionOf (s : State) (die : Nat) (p : Packet) : Nat :=
  if p.cls == 0 then s.boxDirection die s.rc.address p.dest else dirOf (s.router die) die p

/-- The slice of the part that a NEIGHBOUR packet is exempt from. -/
def isNeighbour (p : Packet) : Bool := p.kind == 0xC

/-- The check of R265 that a packet fails first: 1 kind, 2 epoch, 3 slice, 4 direction; 0 for none. -/
def State.routeCheck (s : State) (die : Nat) (p : Packet) : Nat :=
  if p.kind == 0 || p.kind == 0xE || p.kind == 0xF then 1
  else if isNeighbour p then 0
  else if p.cls != 0 && p.epoch != s.rt.epoch then 2
  else if p.slice != s.rt.slice then 3
  else if p.kind != 4 && s.directionOf die p = 3 then 4
  else 0

/-- Count a drop of R265 in its register and as an event. -/
def State.routeDrop (s : State) (die check : Nat) : State :=
  let s := s.modRouter die fun r =>
    match check with
    | 2 => { r with epochDrops := r.epochDrops + 1 }
    | 3 => { r with sliceDrops := r.sliceDrops + 1 }
    | _ => { r with otherDrops := r.otherDrops + 1 }
  s.countEvent 3 die 0x0305 1

/-- A marked packet addressed to a member makes its lesson dirty (R244). -/
def State.markCheck (s : State) (die port : Nat) (p : Packet) : State :=
  if p.mark && port < 8 && s.isMember then s.cause cLinkReplay (s.ioCount die) die (8 * die + port) 2 else s

/-- Hand a packet to this part. -/
def State.deliverPacket (s : State) (die port : Nat) (p : Packet) : State :=
  let s := (s.markCheck die port p).countEvent 3 die 0x0308 1
  { s with rt := { s.rt with inbox := s.rt.inbox ++ [p] } }

/-- The next axis of a packet that leaves the axis of an I/O die. -/
def laterAxis (die : Nat) (a b : FabricAddr) : Option Nat :=
  (List.range 4).find? fun k => die < k && coord a k != coord b k

/-- Put a packet into a queue of a router, with the cycle of its arrival. -/
def State.queuePacket (s : State) (die : BitVec 2) (port : BitVec 4) (p : Packet) : State :=
  { s with rt := { s.rt with
      queue := s.rt.queue ++ [{ die := die, port := port, arrival := s.rt.now, packet := p }] } }

/-- Send a packet on from a router that it has passed (R261). It leaves an axis on virtual channel 0 (R262); a
NEIGHBOUR packet ends here and is not forwarded. -/
def State.forward (s : State) (die port : Nat) (p : Packet) : State :=
  if isNeighbour p then s.deliverPacket die port p
  else
    let s := (s.modRouter die fun r => { r with packets := r.packets + 1 }).countEvent 3 die (0x0301 + p.cls.toNat) 1
    if p.kind == 4 then s.deliverPacket die port p
    else
      match s.directionOf die p with
      | 1 => s.hop die false (port < 8) p
      | 2 => s.hop die true (port < 8) p
      | _ =>
        match laterAxis die s.rc.address p.dest with
        | some k => s.queuePacket (BitVec.ofNat 2 k) (BitVec.ofNat 4 (8 + die)) { p with vc := 0 }
        | none => s.deliverPacket die port p

/-- The output of a router that a packet waits for: a link, the bridge to the I/O die of a later axis (100 + die), or
the part itself (200); none where a check drops it. -/
def State.outputOf (s : State) (die : Nat) (p : Packet) : Option Nat :=
  if s.routeCheck die p != 0 then none
  else if isNeighbour p || p.kind == 4 then some 200
  else
    match s.directionOf die p with
    | 1 => some ((s.router die).exit die false p)
    | 2 => some ((s.router die).exit die true p)
    | _ => some (match laterAxis die s.rc.address p.dest with
        | some k => 100 + k
        | none => 200)

/-- At an output a bell packet goes first, then the oldest by arrival, then the lower input port (R263). -/
def Queued.before (a b : Queued) : Bool :=
  if (a.packet.cls == 0) != (b.packet.cls == 0) then a.packet.cls == 0
  else a.arrival < b.arrival || (a.arrival == b.arrival && a.port.toNat < b.port.toNat)

/-- The packet is the first of its input port and channel (R263). -/
def State.atFront (s : State) (e : Queued) : Bool :=
  (s.rt.queue.find? fun x => x.die == e.die && x.port == e.port && channelOf x.packet == channelOf e.packet) == some e

/-- No packet at the front of another queue goes before it at its output. -/
def State.mayLeave (s : State) (e : Queued) : Bool :=
  let die := e.die.toNat
  let out := s.outputOf die e.packet
  s.atFront e && (out.isNone ||
    s.rt.queue.all fun x => !(x.die == e.die && s.atFront x && s.outputOf die x.packet == out && x.before e))

/-- The router frees a packet's flits of the receive buffer: their credits go back (R245). -/
def State.freeFlits (s : State) (die port : Nat) (p : Packet) : State :=
  if port < 8 then
    let l := 8 * die + port
    let x := s.link l
    let c := channelOf p
    let n := min (flitsOf p) (tabGet 0 x.rxHeld c)
    s.setLink l { x with
      rxHeld := tabMod 0 x.rxHeld c (· - n)
      freed := tabMod 0 x.freed c (· + BitVec.ofNat 16 n) }
  else s

/-- Check a packet that has come to the front of its queue, and forward it or drop it. -/
def State.routePacket (s : State) (die port : Nat) (p : Packet) : State :=
  let s := s.freeFlits die port p
  match s.routeCheck die p with
  | 0 => s.forward die port p
  | n => s.routeDrop die n

/-- A packet as it waits at an input port. -/
def State.waitingAt (s : State) (die : BitVec 2) (port : BitVec 4) (p : Packet) : Option Queued :=
  s.rt.queue.find? fun e => e.die == die && e.port == port && e.packet == p

/-- A cycle of the router has come: packets that enter now arrive in it. -/
def State.atCycle (s : State) (now : Nat) : State := { s with rt := { s.rt with now := max s.rt.now now } }

/-- A packet that does not wait yet arrives. -/
def State.arrive (s : State) (die : BitVec 2) (port : BitVec 4) (p : Packet) (now : Nat) : State :=
  let s := s.atCycle now
  if (s.waitingAt die port p).isSome then s else s.queuePacket die port p

/-- PACKET_ROUTE: a packet at an input port in a cycle; one that is not waiting there arrives. It leaves once it is
first in its queue and at its output (R263). -/
def execPacketRoute (die : BitVec 2) (port : BitVec 4) (a : PacketArrival) (s : State) :
    Host.Outcome State Fault Refusal :=
  .next (
    if s.axes ≤ die.toNat then s
    else
      let p := a.packet
      let s := s.arrive die port p a.now
      match s.waitingAt die port p with
      | none => s
      | some e =>
        if s.mayLeave e then
          State.routePacket { s with rt := { s.rt with queue := s.rt.queue.erase e } } die.toNat port.toNat p
        else s)

/-- Take a delivered packet out of the inbox. -/
def State.takePacket (s : State) (p : Packet) : State :=
  { s with rt := { s.rt with inbox := s.rt.inbox.erase p } }

/-! ## Puts (R266) -/

/-- The I/O die on which a request arrived. -/
def State.arrivalDie (s : State) (p : Packet) : Nat := (lastAxis p.source s.rc.address).getD 0

/-- The piece that a packet brings. -/
def State.pieceOf (s : State) (region : BitVec 11) (tile : BitVec 10) (engine : Bool) (part : FabricAddr)
    (p : Packet) : Piece :=
  { region := region, data := p.payload, part := part, tile := tile, engine := engine, firmware := false
    untagged := p.untagged, tagBell := p.tagBell, tagAttempt := p.tagAttempt, port := 259 + s.arrivalDie p
    arrival := none }

/-- Queue a piece for its region. -/
def State.addPiece (s : State) (p : Piece) : State := { s with cq := { s.cq with pieces := s.cq.pieces ++ [p] } }

/-- PUT_PACKET: the piece goes to its region; PIECE_LANDING checks and lands it. -/
def execPutPacket (p : Packet) (s : State) : Host.Outcome State Fault Refusal :=
  .next (
    if p.kind == 1 then
      (s.takePacket p).addPiece
        (s.pieceOf ((p.rest.extractLsb' 0 8).setWidth 11) (p.rest.extractLsb' 8 10) (bit p.rest 18) p.source p)
    else s)

/-! ## Gets (R267 to R269) -/

/-- The part at a position of this part's house, in the job's box. -/
def State.partAt (s : State) (n : Nat) : Option FabricAddr :=
  let v := s.fused.variant
  if s.position = n then some s.rc.address
  else s.otherParts.find? fun a => sameHouse v a s.rc.address && housePosition v a == n

/-- The entry of a get list that holds the granule of this number, and the granule's number in it. -/
def getEntry (b : List Byte) (n : Nat) : Nat → Nat → Option (Nat × Nat)
  | 0, _ => none
  | k + 1, i =>
    let c := natAt b (16 * i + 8) 2 + 1
    if n < c then some (i, n) else getEntry b (n - c) k (i + 1)

/-- Per-kind bits of a GET_REQ (Table 11-4). -/
def getRest (die off region tag : Nat) : BitVec 55 :=
  BitVec.ofNat 55 (die + 4 * (off / 256) + 2 ^ 29 * (region % 256) + 2 ^ 37 * (tag % 131072))

/-- Issue the next granule of the get list. -/
def State.issueGet (s : State) (b : List Byte) (i n : Nat) : State :=
  let a := natAt b (16 * i + 3) 5 + 256 * n
  let tag := s.rt.nextTag
  let region := natAt b (16 * i + 10) 1
  let s := { s with rt := { s.rt with getIssued := s.rt.getIssued + 1, nextTag := (tag + 1) % 131072 } }
  match s.partAt (a / 2 ^ 37 % 8) with
  | none => s.otherDrop 0
  | some q =>
    let s := { s with rt := { s.rt with outstanding := s.rt.outstanding ++ [(tag, BitVec.ofNat 8 region)] } }
    s.inject 15 { s.header 2 1 q with rest := getRest (dieOf a) (offsetOf a) region tag }

/-- GET_REQ_ISSUE: the next granule, once the step count of I/O die 0 has reached its entry's start cycle (R267,
R268); its packet enters the router at cycle `now`. -/
def execGetReqIssue (now : Nat) (s : State) : Host.Outcome State Fault Refusal :=
  .next (
    match s.job.image with
    | none => s
    | some im =>
      let b := sectionBytes im 0x07 s.member s.bell.index
      if s.bell.phase == .lesson && s.isMember then
        match getEntry b s.rt.getIssued (b.length / 16) 0 with
        | none => s
        | some (i, n) => if natAt b (16 * i) 3 ≤ s.ioCount 0 then (s.atCycle now).issueGet b i n else s
      else s)

/-- A get or ring read within the margin of R268 of a write that it reads: a hazard of the hall monitor, at the tile
that wrote (Table 18-6). -/
def State.nearRead (s : State) (k cycle margin : Nat) : State :=
  match s.tiles.find? fun e => e.2.accesses.any fun a => a.write && a.slice && a.granule == k / 256 && cycle < a.cycle + margin with
  | some e => s.hazard e.1 8 cycle 0 (2 ^ 37 * s.position + k / 256 * 256)
  | none => s

/-- Margin of a ring's read: the stretch budget and 8 cycles; of a get's the bell skew and drift too (R268). -/
def State.ringMargin (s : State) : Nat := s.bell.stretchBudget + 8
def State.getMargin (s : State) : Nat := s.ringMargin + 12 + (s.bell.lessonLength * 120 + 999999) / 1000000

/-- GET_REQ: the oldest request is served (R269): the granule is read as a slice request, or at once from a tile
store. -/
def execGetReq (p : Packet) (now : Nat) (s : State) : Host.Outcome State Fault Refusal :=
  .next (
    if p.kind == 2 && (s.rt.inbox.find? fun q => q.kind == 2).all fun q => q == p then
      let s := s.takePacket p
      let k := (p.rest.extractLsb' 0 2).toNat * 2 ^ 35 + 256 * (p.rest.extractLsb' 2 27).toNat
      let s := s.nearRead k now s.getMargin
      if inLayers (offsetOf k) then
        s.queueRead { arrival := now, port := 259 + s.arrivalDie p, tile := none, addr := k, size := .granule
                      dest := .get p }
      else
        let bad := s.memOpen k && s.mem.hasUe k 256
        let q : ReadResult 2048 := s.readMem k 256 now
        q.state.getResponse p q.data bad
    else s)

/-- GET_RESP: the granule of an outstanding get lands with the responding engine as producer; one of another lesson is
discarded at its landing (R36). -/
def execGetResp (p : Packet) (s : State) : Host.Outcome State Fault Refusal :=
  .next (
    if p.kind == 3 then
      let s := s.takePacket p
      let region := p.rest.extractLsb' 0 8
      let key := ((p.rest.extractLsb' 8 17).toNat, region)
      if s.rt.outstanding.contains key then
        let now := s.tagNow p.tagBell p.tagAttempt
        let s := if now then { s with rt := { s.rt with outstanding := s.rt.outstanding.erase key } } else s
        let die := s.arrivalDie p
        let s := if now && bit p.rest 25 then s.cause cUncorrectable (s.ioCount die) 0 0 3 else s
        s.addPiece (s.pieceOf (region.setWidth 11) 0 true p.source p)
      else s.otherDrop (s.arrivalDie p)
    else s)

/-! ## Multicasts (R270) -/

/-- On an axis of the box, a piece that stands at coordinate c and came from the root's coordinate r goes on in
a direction. -/
def treeStep (full : Bool) (n low high r c : Nat) (negative : Bool) : Bool :=
  if full then
    let off := if negative then (r + n - c) % n else (c + n - r) % n
    off + 1 ≤ (if negative then (n + 1) / 2 - 1 else n / 2)
  else if negative then low < c && c ≤ r else c < high && r ≤ c

/-- The hops on which this part sends a multicast of a root over a box: axis and direction. -/
def State.treeHops (s : State) (root low high : FabricAddr) : List (Nat × Bool) :=
  let a := s.rc.address
  let from_ := (lastAxis root a).getD 0
  (List.range s.axes).flatMap fun k =>
    if k < from_ then []
    else [false, true].filterMap fun neg =>
      let full := s.boxFull low high k
      let r := coord root k
      let c := coord a k
      -- on the axis it arrived by, the piece goes on the way it came
      let side := if full then (if neg then (r + s.campus k - c) % s.campus k < (c + s.campus k - r) % s.campus k
        else (c + s.campus k - r) % s.campus k ≤ (r + s.campus k - c) % s.campus k) else true
      if (c == r || side) && treeStep full (s.campus k) (coord low k) (coord high k) r c neg then some (k, neg) else none

/-- Low and high corner of an MCAST's box. -/
def mcastLow (p : Packet) : FabricAddr := p.rest.extractLsb' 8 16
def mcastHigh (p : Packet) : FabricAddr := p.rest.extractLsb' 24 16

/-- MCAST: the piece lands here unless this part is the root, and goes on along the tree. A root that drains keeps it
back (R277). -/
def execMcast (p : Packet) (s : State) : Host.Outcome State Fault Refusal :=
  .next (
    let own := p.source == s.rc.address
    if p.kind == 4 && p.untagged && own && s.rt.drain then
      let s := s.takePacket p
      { s with rt := { s.rt with kept := s.rt.kept ++ [{ die := 0, port := 15, arrival := s.rt.now, packet := p }] } }
    else if p.kind == 4 && p.untagged && s.mayTransfer then
      let s := s.takePacket p
      let s := if own then s else s.addPiece (s.pieceOf ((p.rest.extractLsb' 0 8).setWidth 11) 0 true p.source p)
      (s.treeHops p.source (mcastLow p) (mcastHigh p)).foldl (fun s h =>
        s.hop h.1 h.2 (lastAxis p.source s.rc.address == some h.1) p) s
    else s)

/-! ## Rings (R271 to R273) -/

/-- The fields of a ring descriptor (Table 11-6). -/
structure RingDesc where
  role : Nat
  axis : Nat
  negative : Bool
  op : Nat
  count : Nat
  base : Nat
  start : Nat
  region : BitVec 8
  deriving DecidableEq, Repr

/-- Read a descriptor. -/
def ringDesc (d : BitVec 128) : RingDesc :=
  { role := (d.extractLsb' 0 2).toNat, axis := (d.extractLsb' 2 2).toNat, negative := bit d 4
    op := (d.extractLsb' 5 2).toNat, count := (d.extractLsb' 8 16).toNat + 1
    base := localKey (d.extractLsb' 24 40), start := (d.extractLsb' 64 24).toNat, region := d.extractLsb' 88 8 }

/-- Descriptor in force of a ring. -/
def State.ring (s : State) (r : Nat) : RingDesc := ringDesc (tabGet 0 s.rt.rings (64 * s.rt.ringBank.toNat + r))

/-- Change the progress of a ring. -/
def State.modRing (s : State) (r : Nat) (f : RingRun → RingRun) : State :=
  { s with rt := { s.rt with ringRuns := tabMod .reset s.rt.ringRuns r f } }

/-- Send piece k of a ring to the next part. -/
def State.sendRing (s : State) (r k : Nat) (d : RingDesc) (v : Vec) : State :=
  let to_ := s.neighbour s.rc.address d.axis d.negative
  let s := s.modRing r fun x => { x with sentPieces := x.sentPieces + 1 }
  s.inject 15 { s.header 5 3 to_ with
    length := 256, rest := BitVec.ofNat 55 (r % 64 + 64 * (k % 65536)), payload := v }

/-- Piece k of the local operand; an uncorrectable word is noted, and a write too close before the read is a hazard. -/
def State.ringLocal (s : State) (d : RingDesc) (k now : Nat) : ReadResult 2048 :=
  (s.nearRead (d.base + 256 * k) now s.ringMargin).readMem (d.base + 256 * k) 256 now

/-- Send the pieces of the first part from piece k on. -/
def State.sendPieces (s : State) (r : Nat) (d : RingDesc) (now k : Nat) : Nat → State
  | 0 => s
  | n + 1 =>
    let q := s.ringLocal d k now
    (q.state.sendRing r k d q.data).sendPieces r d now (k + 1) n

/-- RING_START: the first part of a ring, once the step count of the axis has reached its start cycle (R268, R272);
its packets enter the router at cycle `now`. -/
def execRingStart (ring : BitVec 6) (now : Nat) (s : State) : Host.Outcome State Fault Refusal :=
  let r := ring.toNat
  let d := s.ring r
  let sent := (tabGet .reset s.rt.ringRuns r).sentPieces
  .next (
    if s.bell.phase == .lesson && s.isMember && d.role = 1 && d.start ≤ s.ioCount d.axis && sent < d.count then
      (s.atCycle now).sendPieces r d (s.ioCount d.axis) sent (d.count - sent)
    else s)

/-- The sum of two BF16 values: added in FP32 under R146, converted with RNE. -/
def addBf16 (x y : BitVec 16) : BitVec 16 :=
  let z := (mxSum false (x.setWidth 32 <<< (16 : Nat)) (y.setWidth 32 <<< (16 : Nat))).1
  match floatFmt 0 with
  | some F => BitVec.ofNat 16 (convertFloat F .rne false false (num32 z)).1
  | none => 0

/-- The sum of one word: the incoming partial is the first addend. -/
def ringAdd (op : Nat) (x y : Word) : Word :=
  match op with
  | 1 => x + y
  | 2 => ((addBf16 (x.extractLsb' 16 16) (y.extractLsb' 16 16)).setWidth 32 <<< (16 : Nat)) |||
      (addBf16 (x.extractLsb' 0 16) (y.extractLsb' 0 16)).setWidth 32
  | _ => (mxSum false x y).1

/-- MISSING for a packet that its ring does not take; a ring of the reserved op 3 takes none (log 16). -/
def State.ringBad (s : State) (l : Nat) : State :=
  let die := l / 8
  let s := s.modRouter die fun r => { r with rfDrops := r.rfDrops + 1 }
  s.cause cMissing (s.ioCount die) die l 2

/-- The sum of a piece at a middle or last part. -/
def State.ringSum (s : State) (d : RingDesc) (k now : Nat) (v : Vec) : ReadResult 2048 :=
  let a := d.base + 256 * k
  let bad := s.memOpen a && s.mem.hasUe a 256
  let q := s.ringLocal d k now
  ⟨if bad then 0 else ofLanes fun n => ringAdd d.op (lane v n) (lane q.data n), q.state⟩

/-- RF: a partial sum arrives over a link. -/
def execRf (link : BitVec 5) (p : Packet) (s : State) : Host.Outcome State Fault Refusal :=
  let l := link.toNat
  .next (
    if p.kind == 5 then
      let s := s.takePacket p
      let r := (p.rest.extractLsb' 0 6).toNat
      let k := (p.rest.extractLsb' 6 16).toNat
      let d := s.ring r
      let x := s.link l
      if !s.tagNow p.tagBell p.tagAttempt || s.bell.phase != .lesson then s.cqDiscard
      else if d.role = 0 || d.count ≤ k || (d.op = 2 && x.minor = 0) || d.op = 3 then s.ringBad l
      else if d.role = 1 then s
      else
        let q := s.ringSum d k (s.ioCount d.axis) p.payload
        let s := q.state.modRing r fun x => { x with received := x.received + 1 }
        if d.role = 2 then s.sendRing r k d q.data
        else
          s.addPiece { region := d.region.setWidth 11, data := q.data, part := s.rc.address, tile := 0
                       engine := true, firmware := false, untagged := false, tagBell := p.tagBell
                       tagAttempt := p.tagAttempt, port := 259 + d.axis, arrival := none }
    else s)

end Sys2Proof.Machine
end

