-- ==== Sys2Proof/Machine/Roll.lean ====
section
/-! DEFINITION. Roll call (chapter 12): the cabling plan, NEIGHBOUR packets, report entries, and what a change
of a link does to the job on its routes. -/

namespace Sys2Proof.Machine

/-! ## Report entries (R295) -/

/-- Report entry bytes (Table 12-6). -/
def State.reportEntry (s : State) (l k : Nat) : List Byte :=
  let x := s.rollOf l
  let planned := s.used l
  -- seen is valid for a serial that the plan names
  let seen (n : Neighbour) : Option FabricAddr := (s.rc.plan.bind fun p => p.entry n.serial).map (·.address)
  [BitVec.ofNat 8 l, BitVec.ofNat 8 k, if k = 2 then (s.link l).reason.setWidth 8 else 0] ++
  [match x.heard with
    | some n => n.link
    | none => 0xFF] ++
  toBytes 2 (if planned then s.peerAddress l else 0) ++
  [if planned then BitVec.ofNat 8 (peerLink l) else 0xFF, if (x.heard.bind seen).isSome then 1 else 0] ++
  toBytes 8 (match x.heard with
    | some n => n.serial
    | none => 0) ++
  toBytes 2 ((x.heard.bind seen).getD 0) ++
  natToBytes 2 x.hop ++ [0, 0, 0, 0]

/-- Every report entry, in link order. -/
def State.report12 (s : State) : List (List Byte) :=
  (List.range (linksOf s.fused.variant)).filterMap fun l => (s.rollKind l).map fun k => s.reportEntry l k

/-! ## NEIGHBOUR packets (R291 to R293) -/

/-- Stepping byte. -/
def steppingByte (x : Stepping) : Byte :=
  match x with
  | .a0 => 0
  | .b0 => 1

/-- Payload of a NEIGHBOUR packet (Table 12-4). -/
def neighbourBytes (type : Byte) (n : Neighbour) : List Byte :=
  [type, n.link] ++ toBytes 2 n.address ++
  [(if n.hasPlan then 1 else 0) + (if n.verified then 2 else 0), n.stepping, 0, 0] ++
  toBytes 8 n.serial ++ toBytes 8 n.digest ++ toBytes 4 n.cookie ++ toBytes 4 n.turnaround ++ List.replicate 32 0

/-- What this part says of itself on a link. -/
def State.self (s : State) (l : Nat) (cookie turnaround : Word) : Neighbour :=
  { link := BitVec.ofNat 8 l, address := s.rc.address, hasPlan := s.rc.plan.isSome
    verified := s.rc.plan.isSome && s.allMatch, stepping := steppingByte s.fused.stepping
    serial := s.fused.serial, digest := (match s.rc.plan with
      | some p => p.digest
      | none => 0)
    cookie := cookie, turnaround := turnaround }

/-- Send a NEIGHBOUR packet on a link; a part that drains keeps it back, as one of class request (R277). -/
def State.sendNeighbour (s : State) (l : Nat) (type : Byte) (n : Neighbour) : State :=
  let p := { emptyPacket with
    kind := 0xC, cls := 1, untagged := true, source := s.rc.address, length := 64
    payload := ofBytes 2048 (neighbourBytes type n) }
  if s.rt.drain then { s with rt := { s.rt with keptLinks := s.rt.keptLinks ++ [(l, p)] } } else s.sendLink l p

/-- Send an ANNOUNCE. -/
def State.announce (s : State) (l : Nat) : State := s.sendNeighbour l 1 (s.self l 0 0)

/-- Send an ECHO_REQ with a cookie that the manual leaves to the requester. -/
def State.echo (s : State) (l : Nat) : State :=
  let (n, s) := s.draw
  s.sendNeighbour l 2 (s.self l (Config.freeBits 32 n) 0)

/-- Send eight. -/
def State.echoes (s : State) (l : Nat) : State := (List.range 8).foldl (fun s _ => s.echo l) s

/-- Take the packet that brought a payload out of the inbox. -/
def State.takeNeighbour (s : State) (type : Byte) (n : Neighbour) : State :=
  let b := ofBytes 2048 (neighbourBytes type n)
  match s.rt.inbox.find? fun p => p.kind == 0xC && p.payload == b with
  | some p => s.takePacket p
  | none => s

/-! ## Re-verification (R284, R298) -/

/-- A re-verification step of a part beside the relay, at the root. -/
def State.rootReverify (s : State) (part : FabricAddr) (step : Byte) : State :=
  let rest := s.bell.reverify.filter fun a => a != part
  if step = 0 then { s with bell := { s.bell with reverify := rest ++ [part] } }
  else
    let s := { s with bell := { s.bell with reverify := rest } }
    if step = 2 then s.fault 4 else s

/-- Tell the root of a step of a part, and take it at the root. -/
def State.tellReverify (s : State) (part : FabricAddr) (step : Byte) : State :=
  if s.isRoot then s.rootReverify part step else s.emit (.firmware s.job.root (.reverify part step))

/-- The check of R59 that was held is made once nothing holds it any more. -/
def State.heldCheck (s : State) : State :=
  if s.inSession && s.bell.lastDirty && !s.held && (s.bell.phase == .recess || s.bell.phase == .ready) then
    if s.isMember then (s.dirtyCheck s.bell.newFence).stopDirty false else s.tellWidth
  else s

/-- The links under re-verification have all left PENDING: tell the root. A link that is not ACTIVE again keeps it
open. -/
def State.endReverify (s : State) : State :=
  let l := (s.rc.links.filter fun e => e.2.reverify).map (·.1)
  if l.isEmpty then s
  else if l.all fun k => (s.link k).phase == .active && s.rollKind k != some 1 then
    let good := l.all fun k => s.rollKind k == some 0
    let s := l.foldl (fun s k => s.modRoll k fun x => { x with reverify := false }) s
    (s.tellReverify s.rc.address (if good then 1 else 2)).heldCheck
  else s

/-- The part's window closes early when every used link is MATCH. -/
def State.rollUpdate (s : State) : State :=
  let s := if s.rc.window && s.allMatch && s.rc.plan.isSome then { s with rc := { s.rc with window := false } } else s
  s.endReverify

/-! ## Entry to ACTIVE and to DOWN -/

/-- The notices and the bell packet that this part last sent over a link go again (R275, R515). -/
def State.resendBell (s : State) (l : Nat) : State :=
  let again := (s.bell.notices ++ s.bell.sent).filter fun p => p.dest == s.peerAddress l && s.inSession &&
    (s.router (l / 8)).exit (l / 8) (4 ≤ l % 8) p == l
  again.foldl (fun s p => s.inject 15 p) s

/-- Roll call at an entry of a link to ACTIVE (R292, R294). -/
def State.rollActive (s : State) (l : Nat) : State :=
  let s := s.modRoll l fun x => { x with heard := none, window := !s.rc.window && s.used l, echoes := [], hop := 0 }
  let s := s.announce l
  if s.rc.plan.isSome then s.echoes l else s

/-- The link lies on the routes of the job's slice. -/
def State.onRoutes (s : State) (l : Nat) : Bool := s.routeLinks.contains l

/-- Payload of a bell notice (Table 11-5): only the I/O dies of a member in a lesson hold a step count. -/
def State.noticeBytes (s : State) (l : Nat) (type : Byte) : List Byte :=
  let c : CauseRec :=
    { cycle := if s.isMember && s.lessonOpen then satCycle (s.ioCount (l / 8)) else 0xFFFFFF
      part := s.rc.address, die := BitVec.ofNat 2 (l / 8), unit := BitVec.ofNat 8 l, bit := 4, source := 2 }
  [type, s.bell.relAttempt.setWidth 8] ++ toBytes 2 (0x10 : BitVec 16) ++ toBytes 4 (causeWhere c) ++
  toBytes 3 c.cycle ++ toBytes 5 s.bell.relNumber

/-- A width change or a loss of a link on the job's routes (R252, R285, R515): LINKREPLAY at a member end, and a
notice to the root. -/
def State.linkEvent (s : State) (l : Nat) (type : Byte) : State :=
  if s.inSession && s.onRoutes l then
    let s := if s.isMember then s.cause cLinkReplay (s.ioCount (l / 8)) (l / 8) l 2 else s
    s.passNotice (s.bellPacket 0xD s.job.root (s.noticeBytes l type))
  else s

/-- A member has been reset (R283): its part, or a neighbour where it was the root, ends the job with MEMBER_RESET. -/
def State.memberReset (s : State) (a : FabricAddr) : State :=
  if a == s.job.root then s.endEverywhere .faulted 6 else s.fault 6

/-- A part reset of the part at the far end (R283, R284): a member's faults the job, a relay part's opens the
re-verification. -/
def State.peerReset (s : State) (l : Nat) : State :=
  if s.inSession && s.onRoutes l then
    let a := s.peerAddress l
    if bit s.job.members (memberIndex s.job.low s.job.high a) then s.memberReset a
    else
      let s := if s.isMember then s.cause cRelay (s.ioCount (l / 8)) (l / 8) l 2 else s
      let s := s.modRoll l fun x => { x with reverify := true }
      (s.tellReverify s.rc.address 0).tellReverify a 0
  else s

/-- A link in DOWN keeps nothing of its packets but the waiting bell packets (R254, R284), and its lanes are
whole again (R250). -/
def Link.fall (x : Link) (reason : BitVec 4) : Link :=
  { x with
    phase := .down, width := 0, reason := reason, rxOk := 0xFF, feedOk := 0xFF, peerRxOk := 0xFF, peerTxOk := 0xFF
    nextSeq := 0, replayBuffer := [], resend := [], lastResend := none, expected := 0, accepted := false
    nakSet := false, sent := [], returned := [], freed := [], rxHeld := [], txFlits := [], rxBodies := []
    storedTag := none, replayCount := 0, badCodewords := [], peerTrain := none, lanes := []
    txSlot := 0, txWords := [], txQueue := x.txQueue.filter fun p => p.cls == 0 }

/-- A link enters DOWN. -/
def State.fall (s : State) (l : Nat) (reason : BitVec 4) : State :=
  let x := s.link l
  let lost := (x.txQueue.filter fun p => p.cls != 0).length
  let s := s.restLink l (x.fall reason)
  let s := s.modRouter (l / 8) fun r => { r with otherDrops := r.otherDrops + BitVec.ofNat 32 lost }
  let s := { s with rt := { s.rt with
    queue := s.rt.queue.filter fun e => !(e.die.toNat == l / 8 && e.port.toNat == l % 8) } }
  let s := s.modRoll l fun y => { y with heard := none, window := false }
  let s := if reason = 5 then s.peerReset l else s.linkEvent l 2
  s.rollUpdate

/-- Links in FAILED start training again (Table 10-7). -/
def State.restartFailed (s : State) : State :=
  (List.range (linksOf s.fused.variant)).foldl (fun s l =>
    let x := s.link l
    if x.phase == .failed then s.restLink l (x.fall x.reason) else s) s

/-- The roll-call window opens (R296). -/
def State.openWindow (s : State) : State :=
  State.rollUpdate { s.restartFailed with rc := { s.restartFailed.rc with window := s.rc.plan.isSome } }

/-! ## The commands -/

/-- ANNOUNCE: from the peer of a link; one received while the link is not ACTIVE is discarded (R298). -/
def execAnnounce (link : BitVec 5) (n : Neighbour) (s : State) : Host.Outcome State Fault Refusal :=
  let l := link.toNat
  .next (
    let s := s.takeNeighbour 1 n
    if (s.link l).phase == .active then
      (s.modRoll l fun x => { x with heard := some n, window := false }).rollUpdate
    else s)

/-- ANNOUNCE_REPEAT: this part announces itself on a link again. -/
def execAnnounceRepeat (link : BitVec 5) (s : State) : Host.Outcome State Fault Refusal :=
  let l := link.toNat
  .next (if (s.link l).phase == .active then s.announce l else s)

/-- ECHO_REQ: answered with an ECHO_RESP on the same link; the port times are in I/O die cycles. -/
def execEchoReq (link : BitVec 5) (n : Neighbour) (arrival departure : Nat) (s : State) :
    Host.Outcome State Fault Refusal :=
  let l := link.toNat
  .next (
    let s := s.takeNeighbour 2 n
    if (s.link l).phase == .active then
      s.sendNeighbour l 3 (s.self l n.cookie (BitVec.ofNat 32 (departure - arrival)))
    else s)

/-- Hop delay in nanoseconds of round trips less their turnarounds, in cycles of 0.8 ns (R293). -/
def hopDelay (l : List Nat) : Nat :=
  match l with
  | [] => 0
  | x :: t => (4 * t.foldl min x + 5) / 10

/-- Eight echoes have been measured: the delay is recorded (R293); a re-verified link keeps the recorded one. -/
def State.recordHop (s : State) (l : Nat) : State :=
  let x := s.rollOf l
  let h := hopDelay x.echoes
  let s := s.modRoll l fun x => { x with hop := h, recorded := if x.reverify then x.recorded else h }
  let s := if x.reverify then s else s.commitFabric .nothing
  s.rollUpdate

/-- ECHO_RESP: the requester measures; eight results give the hop delay. -/
def execEchoResp (link : BitVec 5) (n : Neighbour) (roundTrip : Nat) (s : State) :
    Host.Outcome State Fault Refusal :=
  let l := link.toNat
  .next (
    let s := s.takeNeighbour 3 n
    let x := s.rollOf l
    if (s.link l).phase == .active && s.rc.plan.isSome && x.echoes.length < 8 then
      let s := s.modRoll l fun x => { x with echoes := x.echoes ++ [roundTrip - n.turnaround.toNat] }
      if x.echoes.length = 7 then s.recordHop l else s
    else s)

/-- ROLL_CALL_WINDOW_CLOSE: 1,500 ms after it opened. -/
def execRollCallWindowClose (s : State) : Host.Outcome State Fault Refusal :=
  .next (State.rollUpdate { s with rc := { s.rc with window := false } })

/-- LINK_WINDOW_CLOSE: 1,500 ms after a link's entry to ACTIVE. -/
def execLinkWindowClose (link : BitVec 5) (s : State) : Host.Outcome State Fault Refusal :=
  .next ((s.modRoll link.toNat fun x => { x with window := false }).rollUpdate)

/-- RELAY_REVERIFY_TIMEOUT: at the root, limit_us after the verdict (R284). -/
def execRelayReverifyTimeout (s : State) : Host.Outcome State Fault Refusal :=
  .next (if s.isRoot && s.inSession && s.held then s.fault 4 else s)

end Sys2Proof.Machine
end

