-- ==== Sys2Proof/Machine/Links.lean ====
section
/-! DEFINITION. The optical links (chapter 10): flits, acknowledgement and replay, credits, training and
degradation. -/

namespace Sys2Proof.Machine

/-! ## CRC-32C (R235) -/

/-- One bit of CRC-32C, reflected. -/
def crc32Bit (c : Word) : Word := if bit c 0 then (c >>> 1) ^^^ 0x82F63B78 else c >>> 1

/-- CRC-32C of a byte string. -/
def crc32c (l : List Byte) : Word :=
  (l.foldl (fun (c : Word) (b : Byte) =>
    let c := c ^^^ b.setWidth 32
    crc32Bit (crc32Bit (crc32Bit (crc32Bit (crc32Bit (crc32Bit (crc32Bit (crc32Bit c)))))))) 0xFFFFFFFF) ^^^ 0xFFFFFFFF

/-- CRC of a flit body behind its prefix. -/
def flitCrc (pre : BitVec 16) (body : BitVec 480) : Word := crc32c (toBytes 2 pre ++ toBytes 60 body)

/-! ## Packets as bytes (R236, R264) -/

/-- The 16 header bytes as one number. -/
def headerBits (p : Packet) : BitVec 128 :=
  BitVec.ofNat 128 (p.kind.toNat + 2 ^ 4 * p.cls.toNat + 2 ^ 6 * p.vc.toNat + 2 ^ 7 * p.epoch.toNat +
    2 ^ 9 * p.mark.toNat + 2 ^ 10 * p.untagged.toNat + 2 ^ 12 * p.dest.toNat + 2 ^ 28 * p.source.toNat +
    2 ^ 44 * p.slice.toNat + 2 ^ 52 * p.tagBell.toNat + 2 ^ 60 * p.tagAttempt.toNat + 2 ^ 64 * p.length.toNat +
    2 ^ 73 * p.rest.toNat)

/-- A packet from its header and payload. -/
def packetFrom (h : BitVec 128) (payload : Vec) : Packet :=
  { kind := h.extractLsb' 0 4, cls := h.extractLsb' 4 2, vc := h.extractLsb' 6 1, epoch := h.extractLsb' 7 2
    mark := bit h 9, untagged := bit h 10, dest := h.extractLsb' 12 16, source := h.extractLsb' 28 16
    slice := h.extractLsb' 44 8, tagBell := h.extractLsb' 52 8, tagAttempt := h.extractLsb' 60 4
    length := h.extractLsb' 64 9, rest := h.extractLsb' 73 55, payload := payload }

/-- Header and payload as one number, byte 0 lowest. -/
def packetBits (p : Packet) : BitVec 2400 :=
  (headerBits p).setWidth 2400 |||
    ((p.payload &&& BitVec.ofNat 2048 (2 ^ (8 * p.length.toNat) - 1)).setWidth 2400 <<< (128 : Nat))

/-- The flits of a packet, not numbered yet. -/
def flitsFrom (p : Packet) : List SentFlit :=
  (List.range (flitsOf p)).map fun i =>
    { seq := 0, first := i == 0, channel := BitVec.ofNat 3 (channelOf p), body := (packetBits p).extractLsb' (480 * i) 480
      cls := p.cls, tagBell := p.tagBell, tagAttempt := p.tagAttempt }

/-- A packet from the bodies of its flits. -/
def packetOfBodies (l : List (BitVec 480)) : Packet :=
  let all : BitVec 2400 := packFields 480 5 fun i => (l[i]?).getD 0
  packetFrom (all.extractLsb' 0 128) (all.extractLsb' 128 2048)

/-- Payload length announced by a first flit's body. -/
def bodyLength (b : BitVec 480) : Nat := (b.extractLsb' 64 9).toNat

/-- Channel announced by a first flit's body. -/
def bodyChannel (b : BitVec 480) : Nat := 2 * (b.extractLsb' 4 2).toNat + (b.extractLsb' 6 1).toNat

/-! ## Replay (R240, R244, R252) -/

/-- The link marks packets of a tag. -/
def Link.marksTag (x : Link) (tb : BitVec 8) (ta : BitVec 4) : Bool := 2 ≤ x.replayCount && x.storedTag == some (tb, ta)

/-- A kept flit with the replay mark of its packet's tag. -/
def Link.markFlit (x : Link) (f : SentFlit) : SentFlit :=
  if f.first && x.marksTag f.tagBell f.tagAttempt then { f with body := f.body ||| BitVec.ofNat 480 (2 ^ 9) } else f

/-- Begin a replay: the flits are sent again, counted, and the tag of R244 taken before anything is resent. -/
def Link.replay (x : Link) (l : List SentFlit) (ns : Nat) : Link :=
  let x := { x with replays := x.replays + 1, lastResend := l.head?.map fun (f : SentFlit) => (f.seq, ns) }
  let x := match (l.filter fun f => f.cls != 0).getLast? with
    | none => x
    | some f =>
      let tag := some (f.tagBell, f.tagAttempt)
      let n := if x.storedTag == tag then x.replayCount + 1 else 1
      { x with storedTag := tag, replayCount := n, marks := if 2 ≤ n then x.marks + 1 else x.marks }
  { x with resend := l.map x.markFlit, replayBuffer := x.replayBuffer.map x.markFlit }

/-- Flits still to be acknowledged from a sequence number on. -/
def Link.fromSeq (x : Link) (n : BitVec 12) : List SentFlit := x.replayBuffer.dropWhile fun f => f.seq != n

/-- Free every flit up to an acknowledged one. -/
def Link.ack (x : Link) (n : BitVec 12) : Link :=
  match x.fromSeq n with
  | [] => x
  | _ :: t => { x with replayBuffer := t, resend := x.resend.filter fun f => t.any fun g => g.seq == f.seq }

/-! ## Widths (R251) -/

/-- Lowest aligned group of w healthy lanes. -/
def laneGroup (ok : BitVec 8) (w : Nat) : Option Nat :=
  ((List.range (8 / w)).find? fun q => (List.range w).all fun i => bit ok (w * q + i)).map fun q => w * q

/-- Healthy lanes in the two directions: this end's receiving ones with the peer's transmitter, its transmitting
ones with the peer's receiver. -/
def Link.rxHealthy (x : Link) : BitVec 8 := x.rxOk &&& x.peerTxOk
def Link.txHealthy (x : Link) : BitVec 8 := x.feedOk &&& x.peerRxOk

/-- Width and first lanes of the groups: transmitting, receiving. -/
def Link.usable (x : Link) : Option (Nat × Nat × Nat) :=
  [8, 4, 2, 1].findSome? fun w =>
    match laneGroup x.txHealthy w, laneGroup x.rxHealthy w with
    | some a, some b => some (w, a, b)
    | _, _ => none

/-- A lane of the group in use has failed. -/
def Link.groupFailed (x : Link) : Bool :=
  (List.range x.width).any fun i =>
    !bit x.txHealthy (x.txFirst.toNat + i) || !bit x.rxHealthy (x.rxFirst.toNat + i)

/-- Take a width and its groups. -/
def Link.takeWidth (x : Link) (u : Nat × Nat × Nat) : Link :=
  { x with width := u.1, txFirst := BitVec.ofNat 3 u.2.1, rxFirst := BitVec.ofNat 3 u.2.2 }

/-- What a TRAIN flit says of the peer. -/
def Link.heardTrain (x : Link) (f : TrainFlit) : Link :=
  { x with peerTrain := some f, peerStepping := f.stepping, peerRxOk := f.rxOk, peerTxOk := f.txOk }

/-! ## Receiving data (R239, R243, R245) -/

/-- Accept a flit in order. -/
def Link.accept (x : Link) (body : BitVec 480) (first : Bool) : Link :=
  let bodies := if first then [body] else if x.rxBodies.isEmpty then [] else x.rxBodies ++ [body]
  -- flits of a packet that its successor cuts short are freed
  let cut := if first then x.rxBodies else []
  let old := match cut with
    | b :: _ => tabMod 0 x.rxHeld (bodyChannel b) (· - cut.length)
    | [] => x.rxHeld
  let freed := match cut with
    | b :: _ => tabMod 0 x.freed (bodyChannel b) (· + BitVec.ofNat 16 cut.length)
    | [] => x.freed
  { x with
    expected := x.expected + 1, accepted := true, nakSet := false, rxBodies := bodies, freed := freed
    rxHeld := match bodies with
      | b :: _ => tabMod 0 old (bodyChannel b) (· + 1)
      | [] => old }

/-- The packet whose last flit has come joins its router's queue. -/
def State.packetDone (s : State) (l : Nat) : State :=
  let x := s.link l
  match x.rxBodies with
  | [] => s
  | b :: _ =>
    if 16 + bodyLength b ≤ 60 * x.rxBodies.length || 5 ≤ x.rxBodies.length then
      let p := packetOfBodies x.rxBodies
      let s := s.setLink l { x with rxBodies := [] }
      s.queuePacket (BitVec.ofNat 2 (l / 8)) (BitVec.ofNat 4 (l % 8)) p
    else s

/-- A data flit at the receiver. -/
def State.dataFlit (s : State) (l : Nat) (first : Bool) (body : BitVec 480) (crc : Word) : State :=
  let x := s.link l
  if x.phase != .active then s
  else if crc == flitCrc (x.expected.setWidth 16) body then
    ((s.setLink l (x.accept body first)).countEvent 2 l 0x0202 1).packetDone l
  else (s.setLink l { x with crcErrors := x.crcErrors + 1, nakSet := true }).countEvent 2 l 0x0206 1

/-- DATA_FLIT. -/
def execDataFlit (link : BitVec 5) (first : Bool) (body : BitVec 480) (crc : Word) (s : State) :
    Host.Outcome State Fault Refusal :=
  .next (s.dataFlit link.toNat first body crc)

/-! ## STATUS flits -/

/-- The transmitter starts new codewords (R234, R247). -/
def Link.newWords (x : Link) : Link := { x with txSlot := 0, txWords := [] }

/-- Enter DEGRADE (R250, R252). -/
def Link.degrade (x : Link) : Link := { x.newWords with phase := .degrade, oldWidth := x.width, lanes := [] }

/-- A link enters DEGRADE: the PF's fault vector is signalled (Table 15-15). -/
def State.degradeLink (s : State) (l : Nat) : State := (s.setLink l (s.link l).degrade).msix 0 3

/-- A link enters FAILED: the same. -/
def State.failLink (s : State) (l : Nat) (x : Link) (reason : BitVec 4) : State :=
  (s.setLink l { x with phase := .failed, reason := reason, wasFailed := true }).msix 0 3

/-- A lane of the group in use may have failed. -/
def State.checkGroup (s : State) (l : Nat) : State :=
  let x := s.link l
  if x.phase == .active && x.groupFailed then s.degradeLink l else s

/-- Acknowledgement, credits and lane health of a STATUS flit, and the resend that it asks for. -/
def Link.status (x : Link) (f : StatusFlit) (ns : Nat) : Link :=
  let x := if f.ackValid then x.ack f.ackSeq else x
  let x := { x with
    peerRxOk := f.rxOk
    returned := (List.range 8).foldl (fun t c => tabSet 0 t c ((f.credits[c]?).getD 0)) x.returned }
  let l := x.fromSeq f.nakSeq
  let late := match x.lastResend with
    | some (n, t) => !(n == f.nakSeq && ns < t + 200)
    | none => true
  if f.nak && late && !l.isEmpty then x.replay l ns else x

/-- Count the replays that a change of a link has begun. -/
def State.countReplay (s : State) (l : Nat) (x y : Link) : State :=
  if x.replays == y.replays then s else (s.countEvent 2 l 0x0204 1).probe 6 l

/-- A STATUS flit at a link. -/
def State.statusFlit (s : State) (l : Nat) (f : StatusFlit) (ns : Nat) : State :=
  let x := s.link l
  if x.phase == .active then
    ((s.setLink l (x.status f ns)).countReplay l x (x.status f ns)).checkGroup l
  else s

/-- STATUS_FLIT. -/
def execStatusFlit (link : BitVec 5) (f : StatusFlit) (nanosecond : Nat) (s : State) :
    Host.Outcome State Fault Refusal :=
  .next (s.statusFlit link.toNat f nanosecond)

/-- REPLAY_TIMEOUT: no acknowledgement for 1 µs; the transmitter resends from the oldest flit. -/
def execReplayTimeout (at_ : LinkTime) (s : State) : Host.Outcome State Fault Refusal :=
  let l := at_.link.toNat
  let x := s.link l
  .next (if x.phase == .active && !x.replayBuffer.isEmpty then
      ((s.setLink l (x.replay x.replayBuffer at_.nanosecond)).countEvent 2 l 0x0204 1).probe 6 l
    else s)

/-! ## Training (R246 to R251) -/

/-- The versions this part lists (Table 10-9). -/
def ownMinor (x : Stepping) : Byte :=
  match x with
  | .a0 => 0
  | .b0 => 1

/-- The version both ends run: majors listed by the peer, this part's only major being 1 (R248). -/
def commonMinor (x : Stepping) (l : List (Byte × Byte)) : Option Byte :=
  (l.find? fun v => v.1 == 1).map fun v => if v.2.toNat < (ownMinor x).toNat then v.2 else ownMinor x

/-- The link is ACTIVE from CHECK: numbers, credits and counts start again. -/
def Link.enterActive (x : Link) : Link :=
  { x.newWords with
    phase := .active, nextSeq := 0, replayBuffer := [], resend := [], lastResend := none, expected := 0
    accepted := false, nakSet := false, sent := [], returned := [], freed := [], rxHeld := [], txFlits := []
    rxBodies := [], sinceControl := 0, lanes := []
    retrains := if x.wasActive then x.retrains + 1 else x.retrains, wasActive := true }

/-- The reason of a link without a usable width: its laser feed where every wavelength of it has failed (log 143). -/
def Link.noWidth (x : Link) : BitVec 4 := if x.feedOk = 0 then 6 else 4

/-- The width agreed in NEGOTIATE, when the peer computes the same. -/
def State.negotiate (s : State) (l : Nat) (f : TrainFlit) : State :=
  let x := (s.link l).heardTrain f
  match commonMinor s.fused.stepping f.versions with
  | none => s.failLink l x 3
  | some n =>
    match x.usable with
    | none => s.failLink l x x.noWidth
    | some u =>
      let x := { x with major := 1, minor := n }
      if f.width.toNat = u.1 then s.setLink l { x.newWords.takeWidth u with phase := .check } else s.setLink l x

/-- A width change makes the transmitter mark the lesson in progress, that of the last RELEASE that the part issued or
forwarded, in what it sends and resends from then on; a resend that it marks is counted (R244, R252). -/
def Link.markLesson (x : Link) (tag : BitVec 8 × BitVec 4) (marks : Word) : Link :=
  let x := { x with storedTag := some tag, replayCount := max 2 x.replayCount }
  let marked := x.resend.any fun f => f.first && x.marksTag f.tagBell f.tagAttempt
  { x with
    resend := x.resend.map x.markFlit, replayBuffer := x.replayBuffer.map x.markFlit
    marks := if marked && x.marks == marks then x.marks + 1 else x.marks }

/-- The link returns to ACTIVE from DEGRADE: it resends from its oldest flit; a change of width marks the lesson
in progress and reaches the job (R252). Roll call sees no new neighbour (log 144). -/
def State.endDegrade (s : State) (l : Nat) (u : Nat × Nat × Nat) (ns : Nat) : State :=
  let old := s.link l
  let changed := u.1 != old.oldWidth
  let x := { old.newWords.takeWidth u with phase := .active, retrains := old.retrains + 1, resend := [] }
  let x := if x.replayBuffer.isEmpty then x else x.replay x.replayBuffer ns
  let x := if changed then x.markLesson (s.bell.relNumber.setWidth 8, s.bell.relAttempt) old.marks else x
  let s := (s.countReplay l old x).setLink l x
  let s := if changed then s.linkEvent l 1 else s
  (s.resendBell l).rollUpdate

/-- A TRAIN flit in DEGRADE. -/
def State.regroup (s : State) (l : Nat) (f : TrainFlit) (ns : Nat) : State :=
  let x := (s.link l).heardTrain f
  match x.usable with
  | none => s.fall l x.noWidth
  | some u => if f.width.toNat = u.1 then (s.setLink l x).endDegrade l u ns else s.setLink l x

/-- A TRAIN flit at a link. -/
def State.train (s : State) (l : Nat) (f : TrainFlit) (ns : Nat) : State :=
  let x := s.link l
  match x.phase with
  | .negotiate => s.negotiate l f
  | .check =>
    -- the peer has failed a lane in its own check and negotiates again
    if f.state = 3 && (x.heardTrain f).groupFailed then
      State.negotiate (s.setLink l { x.newWords with phase := .negotiate }) l f
    else s
  | .degrade => s.regroup l f ns
  | .active =>
    -- the peer has seen a lane of the group in use fail
    if f.state = 6 && (x.heardTrain f).groupFailed then (s.degradeLink l).regroup l f ns else s
  | _ => s

/-- TRAIN. -/
def execTrain (at_ : LinkTime) (f : TrainFlit) (s : State) : Host.Outcome State Fault Refusal :=
  .next (s.train at_.link.toNat f at_.nanosecond)

/-- A link of the part. -/
def State.hasLink (s : State) (l : Nat) : Bool := l < linksOf s.fused.variant

/-- LINK_LIGHT_DETECT: light for 1 ms takes a link out of DOWN; a link that the plan leaves unused trains where a
peer drives it (R294). -/
def execLinkLightDetect (link : BitVec 5) (s : State) : Host.Outcome State Fault Refusal :=
  let l := link.toNat
  let x := s.link l
  .next (
    if s.hasLink l && s.pw.domainB && (x.phase == .down || x.phase == .disabled) then
      s.setLink l { x with phase := .detect }
    else s)

/-- LINK_CODEWORD_LOCK: a lane has locked. -/
def execLinkCodewordLock (link : BitVec 5) (s : State) : Host.Outcome State Fault Refusal :=
  let l := link.toNat
  let x := s.link l
  .next (if x.phase == .detect then s.setLink l { x with phase := .lock } else s)

/-- LINK_DETECT_TIMEOUT: 10 ms without lock. -/
def execLinkDetectTimeout (link : BitVec 5) (s : State) : Host.Outcome State Fault Refusal :=
  let l := link.toNat
  let x := s.link l
  .next (if x.phase == .detect then s.restLink l (x.fall 2) else s)

/-- LINK_LOCK_DONE: the lanes that locked within 50 ms are deskewed; the others have failed. -/
def execLinkLockDone (link : BitVec 5) (locked : BitVec 8) (s : State) : Host.Outcome State Fault Refusal :=
  let l := link.toNat
  let x := s.link l
  .next (if x.phase == .lock then s.setLink l { x.newWords with phase := .negotiate, rxOk := x.rxOk &&& locked } else s)

/-- LINK_CHECK_DONE: the receiving lanes of the group that failed the PRBS31 check; none, and no lane of either group
known to have failed: the link is ACTIVE. -/
def execLinkCheckDone (link : BitVec 5) (failed : BitVec 8) (s : State) : Host.Outcome State Fault Refusal :=
  let l := link.toNat
  let x := s.link l
  .next (
    if x.phase == .check then
      if failed = 0 && !x.groupFailed then (((s.setLink l x.enterActive).rollActive l).resendBell l).rollUpdate
      else s.setLink l { x.newWords with phase := .negotiate, rxOk := x.rxOk &&& ~~~failed, peerTrain := none }
    else s)

/-! ## Lane failures and the loss of a link (R250, R254) -/

/-- A lane of a link fails. -/
def State.laneFail (s : State) (l lane : Nat) (transmit : Bool) : State :=
  let x := s.link l
  let m : BitVec 8 := ~~~BitVec.ofNat 8 (2 ^ lane)
  let x := if transmit then { x with feedOk := x.feedOk &&& m } else { x with rxOk := x.rxOk &&& m }
  (s.setLink l x).checkGroup l

/-- A wavelength of a laser feed has fallen below its threshold: the transmitting lane fails on each of the four links
that the feed serves (R231, R250). -/
def State.feedFail (s : State) (l lane : Nat) : State :=
  (List.range 4).foldl (fun s i =>
    let k := 4 * (l / 4) + i
    if (s.link k).phase == .down || (s.link k).phase == .disabled then s else s.laneFail k lane true) s

/-- LANE_FAIL: loss of light or lock on a receiving lane, or the laser feed of a transmitting one. -/
def execLaneFail (link : BitVec 5) (lane : BitVec 3) (transmit : Bool) (s : State) :
    Host.Outcome State Fault Refusal :=
  let l := link.toNat
  .next (
    if !s.hasLink l then s
    else if transmit then s.feedFail l lane.toNat
    else if (s.link l).phase != .down then s.laneFail l lane.toNat false
    else s)

/-- DEGRADE_TIMEOUT: 50 µs without an agreed width. -/
def execDegradeTimeout (link : BitVec 5) (s : State) : Host.Outcome State Fault Refusal :=
  let l := link.toNat
  .next (if (s.link l).phase == .degrade then s.fall l 8 else s)

/-- LINK_DOWN: an ACTIVE link loses light (1) or lock (2) on every receiving lane, or its peer to a part reset (5);
Table 10-7 names no other way out of ACTIVE to DOWN. -/
def execLinkDown (link : BitVec 5) (reason : BitVec 4) (s : State) : Host.Outcome State Fault Refusal :=
  let l := link.toNat
  .next (
    if (s.link l).phase == .active && (reason = 1 || reason = 2 || reason = 5) then s.fall l reason
    else s)

/-! ## Codewords (R233, R234, R237) -/

/-- The STATUS flit of a link-control body. -/
def statusOfBody (b : BitVec 480) : StatusFlit :=
  { ackSeq := b.extractLsb' 16 12, ackValid := bit b 28, nakSeq := b.extractLsb' 32 12, nak := bit b 44
    credits := (List.range 8).map fun c => b.extractLsb' (48 + 16 * c) 16, rxOk := b.extractLsb' 176 8 }

/-- The TRAIN flit of a link-control body. -/
def trainOfBody (b : BitVec 480) : TrainFlit :=
  { state := b.extractLsb' 8 8
    versions := (List.range 4).map fun i => (b.extractLsb' (16 + 16 * i) 8, b.extractLsb' (24 + 16 * i) 8)
    stepping := b.extractLsb' 80 8, rxOk := b.extractLsb' 88 8, txOk := b.extractLsb' 96 8
    width := b.extractLsb' 104 8, txFirst := b.extractLsb' 112 8 }

/-- A flit that fails its CRC. -/
def State.badFlit (s : State) (l : Nat) (counted : Bool) : State :=
  let x := s.link l
  if x.phase == .active then
    (s.setLink l { x with
      nakSet := true, crcErrors := if counted then x.crcErrors + 1 else x.crcErrors }).countEvent 2 l 0x0206 1
  else s

/-- One slot of a codeword. -/
def State.slot (s : State) (l : Nat) (w : BitVec 5140) (i ns : Nat) : State :=
  let body : BitVec 480 := w.extractLsb' (512 * i) 480
  let crc : Word := w.extractLsb' (512 * i + 480) 32
  let start := bit w (5120 + i)
  let control := bit w (5130 + i)
  if control then
    if start then s.badFlit l true
    else if crc != flitCrc 0xF000 body then s
    else
      match (body.extractLsb' 0 8).toNat with
      | 0 => s.statusFlit l (statusOfBody body) ns
      | 1 => s.train l (trainOfBody body) ns
      | _ => s
  else s.dataFlit l start body crc

/-- One slot position of a round of codewords, lane by lane of the group. -/
def State.slotRow (s : State) (l : Nat) (ws : List (Option (BitVec 5140))) (i ns : Nat) : State :=
  ws.foldl (fun s w => match w with
    | none => s.badFlit l false
    | some w => s.slot l w i ns) s

/-- Lanes whose codewords are dealt together: the receiving group of an ACTIVE link (R234). -/
def Link.rxLanes (x : Link) : List Nat := (List.range x.width).map (x.rxFirst.toNat + ·)

/-- Deal the oldest codewords of the lanes once each lane of the group has one. -/
def State.deal (s : State) (l ns : Nat) : State :=
  let x := s.link l
  let heads := x.rxLanes.map fun k => (tabGet [] x.lanes k).head?
  if !heads.isEmpty && heads.all Option.isSome then
    let lanes := x.rxLanes.foldl (fun t k => tabMod [] t k (·.drop 1)) x.lanes
    let s := s.setLink l { x with lanes := lanes }
    (List.range 10).foldl (fun s i => s.slotRow l (heads.filterMap id) i ns) s
  else s

/-- Eight uncorrectable codewords of a lane within 1 ms (R250). -/
def Link.badLane (x : Link) (lane ns : Nat) : Bool :=
  8 ≤ (x.badCodewords.filter fun e => e.1 == lane && ns < e.2 + 1000000).length

/-- Count what the decoder made of a codeword of a lane (R237, R255). -/
def Link.noteWord (x : Link) (lane : Nat) (d : Option (BitVec 5140 × Nat)) (ns : Nat) : Link :=
  match d with
  | some (_, n) => { x with fecCorrected := x.fecCorrected + BitVec.ofNat 32 n }
  | none =>
    { x with
      fecUncorrectable := x.fecUncorrectable + 1
      badCodewords := (x.badCodewords.filter fun e => ns < e.2 + 1000000) ++ [(lane, ns)] }

/-- The codewords of a lane's flits: in ACTIVE those of the group are dealt in link order; during training each lane's
flits stand alone (R234, R247). -/
def State.takeWord (s : State) (l lane : Nat) (message : Option (BitVec 5140)) (ns : Nat) : State :=
  let x := s.link l
  if x.phase == .active then
    if x.rxLanes.contains lane then
      (s.setLink l { x with lanes := tabMod [] x.lanes lane (· ++ [message]) }).deal l ns
    else s
  else
    match message with
    | none => s
    | some w => (List.range 10).foldl (fun s i => s.slotRow l [some w] i ns) s

/-- CODEWORD_RECEIVE: a codeword of a lane, its message and parity symbols as they arrive, is decoded (R233, R237); eight uncorrectable ones within 1 ms fail the
lane (R250). -/
def execCodewordReceive (link : BitVec 5) (lane : BitVec 3) (message : BitVec 5140) (parity : BitVec 300)
    (nanosecond : Nat) (s : State) : Host.Outcome State Fault Refusal :=
  let l := link.toNat
  let x := s.link l
  let k := lane.toNat
  .next (
    if !s.hasLink l || x.phase == .down || x.phase == .disabled || x.phase == .failed then s
    else
      let d := rsDecode (parity ++ message)
      let x := x.noteWord k d nanosecond
      let s := (s.setLink l x).takeWord l k (d.map (·.1)) nanosecond
      if d.isNone && x.badLane k nanosecond && bit x.rxOk k then s.laneFail l k false else s)

/-! ## Transmitting (R238, R241, R245) -/

/-- Receive-buffer flits of a channel (Table 10-6). -/
def channelFlits (c : Nat) : Nat := if c < 2 then 32 else if c < 6 then 256 else 640

/-- Credit left on a channel. -/
def Link.creditOf (x : Link) (c : Nat) : Nat :=
  channelFlits c - (tabGet 0 x.sent c - tabGet 0 x.returned c).toNat

/-- The STATUS flit that this end sends now. -/
def Link.statusNow (x : Link) : StatusFlit :=
  { ackSeq := x.expected - 1, ackValid := x.accepted, nakSeq := x.expected, nak := x.nakSet
    credits := (List.range 8).map fun c => tabGet 0 x.freed c, rxOk := x.rxOk }

/-- Code of a link state (Table 10-7). -/
def linkCode : LinkPhase → Byte
  | .down => 0 | .detect => 1 | .lock => 2 | .negotiate => 3 | .check => 4 | .active => 5 | .degrade => 6
  | .failed => 7 | .disabled => 8

/-- The TRAIN flit that this end sends now. -/
def State.trainNow (s : State) (x : Link) : TrainFlit :=
  let (w, a) : Nat × Nat := match x.usable with
    | some u => (u.1, u.2.1)
    | none => (0, 0)
  { state := linkCode x.phase, versions := [(1, ownMinor s.fused.stepping), (0, 0), (0, 0), (0, 0)]
    stepping := steppingByte s.fused.stepping, rxOk := x.rxOk, txOk := x.feedOk, width := BitVec.ofNat 8 w
    txFirst := BitVec.ofNat 8 a }

/-- The packet to start: bell class first, then the oldest; each channel in order and within its credit; only
NEIGHBOUR packets on a link that is not MATCH (R263, R297). -/
def State.nextPacket (s : State) (l : Nat) (x : Link) : Option Packet :=
  let open_ := s.rollKind l == some 0
  let heads := (List.range 8).filterMap fun c =>
    x.txQueue.find? fun p => channelOf p == c && (open_ || isNeighbour p)
  let ready (p : Packet) : Bool := heads.contains p && flitsOf p ≤ x.creditOf (channelOf p)
  match x.txQueue.find? fun p => ready p && p.cls == 0 with
  | some p => some p
  | none => x.txQueue.find? ready

/-! ### Codewords (R233 to R235, R247) -/

/-- The body of a STATUS flit (Table 10-4). -/
def statusBody (f : StatusFlit) : BitVec 480 :=
  ofBytes 480 ([0, 0] ++
    natToBytes 2 (f.ackSeq.toNat + if f.ackValid then 4096 else 0) ++ natToBytes 2 (f.nakSeq.toNat + if f.nak then 4096 else 0) ++
    (List.range 8).flatMap (fun c => toBytes 2 (f.credits.getD c 0)) ++ [f.rxOk])

/-- The body of a TRAIN flit (Table 10-8). -/
def trainBody (f : TrainFlit) : BitVec 480 :=
  ofBytes 480 ([1, f.state] ++
    (List.range 4).flatMap (fun i => [(f.versions.getD i (0, 0)).1, (f.versions.getD i (0, 0)).2]) ++
    [f.stepping, f.rxOk, f.txOk, f.width, f.txFirst])

/-- A flit: its body and the CRC behind a prefix (R235). -/
def flitBits (pre : BitVec 16) (body : BitVec 480) : BitVec 512 := flitCrc pre body ++ body

/-- A flit in a slot of a lane's codeword, with its bits of the slot map (Table 10-3). -/
def Link.putSlot (x : Link) (lane i : Nat) (flit : BitVec 512) (start control : Bool) : Link :=
  let map := (if start then 2 ^ i else 0) + (if control then 2 ^ (10 + i) else 0)
  let put : BitVec 5140 := (flit.setWidth 5140 <<< (512 * i)) ||| (BitVec.ofNat 5140 map <<< (5120 : Nat))
  { x with txWords := tabMod 0 x.txWords lane (· ||| put) }

/-- Full codewords of some lanes leave (R233). -/
def State.emitWords (s : State) (l : Nat) (lanes : List Nat) : State :=
  let x := s.link l
  lanes.foldl (fun s k => s.emit (.codeword (BitVec.ofNat 5 l) k (rsEncode (tabGet 0 x.txWords k)))) (s.setLink l x.newWords)

/-- The next link slot of an ACTIVE link: flit position i of the group's n-th lane is link slot w i + n of its
codewords (R234). -/
def State.dealSlot (s : State) (l : Nat) (flit : BitVec 512) (start control : Bool) : State :=
  let x := s.link l
  let w := x.width
  let lane (n : Nat) : Nat := x.txFirst.toNat + n
  let y := { x.putSlot (lane (x.txSlot % w)) (x.txSlot / w) flit start control with txSlot := x.txSlot + 1 }
  let s := s.setLink l y
  if y.txSlot = 10 * w then s.emitWords l ((List.range w).map lane) else s

/-- The next slot of each lane of a set carries a TRAIN flit of its own (R247). -/
def State.trainSlot (s : State) (l : Nat) (lanes : List Nat) (f : TrainFlit) : State :=
  let x := s.link l
  let y := lanes.foldl (fun y k => y.putSlot k x.txSlot (flitBits 0xF000 (trainBody f)) false true) x
  let y := { y with txSlot := x.txSlot + 1 }
  let s := ((s.setLink l y).countEvent 2 l 0x0203 1).emit (.trainFlit (BitVec.ofNat 5 l) lanes f)
  if y.txSlot = 10 then s.emitWords l lanes else s

/-! ### Slots -/

/-- A data flit takes the next slot. -/
def State.sendData (s : State) (l : Nat) (f : SentFlit) : State :=
  (s.emit (.dataFlit (BitVec.ofNat 5 l) f.seq f.first f.body)).dealSlot l (flitBits (f.seq.setWidth 16) f.body) f.first false

/-- Send the next flit of the packet in hand. -/
def State.sendFlit (s : State) (l : Nat) (x : Link) : State :=
  match x.txFlits with
  | [] => s
  | f :: t =>
    let f := { f with seq := x.nextSeq }
    let c := f.channel.toNat
    let s := (s.setLink l { x with
      txFlits := t, nextSeq := x.nextSeq + 1, replayBuffer := x.replayBuffer ++ [f]
      sent := tabMod 0 x.sent c (· + 1), sinceControl := x.sinceControl + 1 }).countEvent 2 l 0x0201 1
    s.sendData l f

/-- Send a STATUS flit. -/
def State.sendStatus (s : State) (l : Nat) (x : Link) : State :=
  let s := ((s.setLink l { x with sinceControl := 0 }).countEvent 2 l 0x0203 1).emit
    (.statusFlit (BitVec.ofNat 5 l) x.statusNow)
  s.dealSlot l (flitBits 0xF000 (statusBody x.statusNow)) false true

/-- One slot of an ACTIVE link. -/
def State.sendSlot (s : State) (l : Nat) (x : Link) : State :=
  if 127 ≤ x.sinceControl then s.sendStatus l x
  else
    match x.resend with
    | f :: t =>
      ((s.setLink l { x with resend := t, sinceControl := x.sinceControl + 1 }).countEvent 2 l 0x0205 1).sendData l f
    | [] =>
      if 64 * x.width ≤ x.replayBuffer.length then s.sendStatus l x
      else if !x.txFlits.isEmpty then s.sendFlit l x
      else
        match s.nextPacket l x with
        | none => s.sendStatus l x
        | some p =>
          let q := if x.marksTag p.tagBell p.tagAttempt then { p with mark := true } else p
          s.sendFlit l { x with txQueue := x.txQueue.erase p, txFlits := flitsFrom q }

/-- Lanes of the transmitting group. -/
def Link.txLanes (x : Link) : List Nat := (List.range x.width).map (x.txFirst.toNat + ·)

/-- FLIT_SLOT_TRANSMIT: a data flit or a STATUS flit in ACTIVE; TRAIN flits on all eight lanes in NEGOTIATE and on the
group in use in DEGRADE. -/
def execFlitSlotTransmit (link : BitVec 5) (s : State) : Host.Outcome State Fault Refusal :=
  let l := link.toNat
  let x := s.link l
  .next (
    match x.phase with
    | .active => s.sendSlot l x
    | .negotiate => s.trainSlot l (List.range 8) (s.trainNow x)
    | .degrade => s.trainSlot l x.txLanes (s.trainNow x)
    | _ => s)

/-! ## Optical readings (R231, R250, Tables 10-13, 21-10) -/

/-- A feed reading below +14.5 dBm, in hundredths. -/
def feedLow (feed : BitVec 16) : Bool := feed != 0x8000 && feed.toInt < 1450

/-- Set the readings of a lane. -/
def State.setOptics (s : State) (l lane : Nat) (f : Optics → Optics) : State :=
  let x := s.link l
  s.setLink l { x with optics := tabMod .reset x.optics lane f }

/-- OPTICAL_READINGS_REFRESH: the readings of a lane, every 1 ms (Table 10-13); the feed's is that of the four links
that it serves. -/
def execOpticalReadingsRefresh (link : BitVec 5) (lane : BitVec 3) (tx rx feed ber : BitVec 16) (s : State) :
    Host.Outcome State Fault Refusal :=
  let l := link.toNat
  let k := lane.toNat
  .next (
    if s.hasLink l then
      let s := s.setOptics l k fun x => { x with tx := tx, rx := rx, ber := ber }
      let s := (List.range 4).foldl (fun s i => s.setOptics (4 * (l / 4) + i) k fun x => { x with feed := feed }) s
      if feedLow feed then s.feedFail l k else s
    else s)

end Sys2Proof.Machine
end

