-- ==== Sys2Proof/Machine/Clock.lean ====
section
/-! DEFINITION. One reference cycle: what happens though no command comes (R71, R443; log 6, DESIGN CHOICE). -/

namespace Sys2Proof.Machine

/-- An output of a die's router holds a packet for which its link has no credit (R262, R443). -/
def State.starved (s : State) (d : Nat) : Bool :=
  (List.range 8).any fun i =>
    let l := 8 * d + i
    let x := s.link l
    x.phase == .active && x.txFlits.isEmpty && (s.nextPacket l x).isNone &&
      x.txQueue.any fun p => x.creditOf (channelOf p) < flitsOf p

/-- The events that are time (Table 18-3): a cycle in which an output is held up, and, in each cycle that ends a
microsecond of the reference (1,250 cycles; log 60), a microsecond in DEGRADE. -/
def State.countTime (s : State) : State :=
  let s := (pick s.axes s.starved).foldl (fun s d => s.countEvent 3 d 0x0306 1) s
  if s.ts.now.ticks % 1250 = 0 then
    (pick (linksOf s.fused.variant) fun l => (s.link l).phase == .degrade).foldl (fun s l => s.countEvent 2 l 0x0207 1) s
  else s

/-- One reference cycle passes: the islands that no command of the table advances count on (R71), and the counters
of time with them. -/
def State.tick (s : State) : State :=
  State.countTime { s with ts := { s.ts with now := { s.ts.now with ticks := s.ts.now.ticks + 1 } } }

end Sys2Proof.Machine
end

