-- ==== Sys2Proof/Machine/Secrets.lean ====
section
/-! DEFINITION. Keys derived from the device secret, encryption at rest, and signed objects (R308 to R313, R456,
R460 to R463). -/

namespace Sys2Proof.Machine

/-! ## Keys (R456, Table 19-2) -/

/-- ASCII bytes of a text. -/
def ascii (t : String) : List Byte := t.toList.map fun c => BitVec.ofNat 8 c.toNat

/-- SHA3-512 of a byte string, as bytes. -/
def hash (b : List Byte) : List Byte := toBytes 64 (Config.sha3 b)

/-- The first n bytes of SHA3-512(device secret ‖ label ‖ 0x00 ‖ context). -/
def State.seed (s : State) (label : String) (context : List Byte) (n : Nat) : List Byte :=
  (hash (toBytes 32 s.fused.deviceSecret ++ ascii label ++ [0] ++ context)).take n

/-- Seeds and keys. -/
def State.identitySeed (s : State) : List Byte := s.seed "EF9400 IDENTITY" [] 32
def State.aliasSeed (s : State) : List Byte := s.seed "EF9400 ALIAS" (toBytes 64 s.runningSlot.digest) 32
def State.wrapSeed (s : State) : List Byte := s.seed "EF9400 KEYWRAP" [] 64
def State.storageKey (s : State) : List Byte := s.seed "EF9400 STORAGE" [] 32
def State.recordKey (s : State) : List Byte := s.seed "EF9400 RECORD" [] 32

/-! ## Blocks at rest (R308 to R310) -/

/-- Block header (Table 13-3). -/
def blockHeader13 (kind : Byte) (object : Word) (generation : BitVec 16) (index : BitVec 24) : List Byte :=
  [kind, 1, 0, 0] ++ toBytes 4 object ++ toBytes 2 generation ++ [0, 0] ++ toBytes 3 index ++ [0] ++
  List.replicate 16 0

/-- Block nonce (Table 13-4). -/
def blockNonce (kind : Byte) (object : Word) (generation : BitVec 16) (index : BitVec 24) : List Byte :=
  toBytes 3 index ++ toBytes 4 object ++ toBytes 2 generation ++ [kind, 0, 0]

/-- The key-ring entry of a tenant. -/
def State.keyEntry (s : State) (t : BitVec 12) : Option KeyEntry := s.sec.keyRing.find? fun e => e.tenant == t

/-- The at-rest key of a kind (Table 13-2); none for an adapter of a tenant without an entry. -/
def State.restKey (s : State) (kind : Byte) (tenant : BitVec 12) : Option (List Byte) :=
  if kind = 2 then (s.keyEntry tenant).map (·.adapterKey) else some s.storageKey

/-! ## Wrapped keys (R313, R466) -/

/-- The wrapping key of a ciphertext bound to a header. -/
def State.wrapKey (s : State) (kemCt header : List Byte) : List Byte :=
  (hash (Config.mlKemDecaps s.wrapSeed kemCt ++ hash header)).take 32

/-- An all-zero nonce. -/
def zeroNonce : List Byte := List.replicate 12 0

/-! ## Signed objects (R462, R463) -/

/-- Bytes of an ML-DSA-87 signature and public key. -/
def sigBytes : Nat := 4627
def pubBytes : Nat := 2592

/-- A signature over the SHA3-512 digest of a message. -/
def verifyDigest (key message sig : List Byte) : Bool := Config.mlDsaVerify key (hash message) sig

/-- The parts of a signed object: header, body, signature. -/
def objHeader (b : List Byte) : List Byte := b.take 64
def objLength (b : List Byte) : Nat := natAt b 4 4
def objBody (b : List Byte) : List Byte := (b.drop 64).take (objLength b)
def objSig (b : List Byte) : List Byte := b.drop (64 + objLength b)
def objType (b : List Byte) : Nat := natAt b 0 1
def objCounter (b : List Byte) : BitVec 64 := fieldAt 64 b 16

/-- Format and type of an object for a carrier that takes these types. -/
def objFormed (types : List Nat) (b : List Byte) : Bool :=
  b.length == 64 + objLength b + sigBytes && b.length ≤ 1048576 && types.contains (objType b) &&
  natAt b 1 1 == 1 && natAt b 3 1 == 0 && (bytesAt b 24 40).all (· == 0)

/-- The public key under which an object is to verify (Table 19-7). -/
def State.objKey (s : State) (b : List Byte) : List Byte :=
  if objType b = 1 then objBody b
  else if objType b = 0x20 && s.sec.padlock == .opened then Config.debugKey
  else s.sec.owner

/-- Body of an object is of its type's form. -/
def objBodyFormed (b : List Byte) : Bool :=
  let n := objLength b
  match objType b with
  | 1 => n == pubBytes
  | 2 => n == 8
  | 3 => n == 0
  | 4 => n == pubBytes
  | 5 => n == 0
  | 0x10 => 1568 + 4 + 16 ≤ n
  | 0x20 => n == 1 && (natAt b 64 1) / 4 == 0
  | _ => false

/-- The checks of R463 before the state: true where the object passes them. -/
def State.objVerifies (s : State) (types : List Nat) (b : List Byte) : Bool :=
  objFormed types b && objBodyFormed b && fieldAt 64 b 8 == s.fused.serial &&
  !(s.objKey b).isEmpty && verifyDigest (s.objKey b) (b.take (64 + objLength b)) (objSig b) &&
  decide (s.sec.ownerCounter.toNat < (objCounter b).toNat)

/-- OWNED or LOCKED. -/
def State.owned (s : State) : Bool := s.sec.padlock != .opened

end Sys2Proof.Machine
end

