-- ==== Sys2Proof/Machine/WeightStore.lean ====
section
/-! DEFINITION. The weight store (R305 to R311, R323 to R326, R336 to R339): objects, placement, restores and
wear. -/

namespace Sys2Proof.Machine

/-! ## Generations -/

/-- Highest generation of an object ever accepted (R311). -/
def State.highest (s : State) (adapter : Bool) (object : Word) : Nat :=
  ((s.nv.generations.filter fun g => g.adapter == adapter && g.object == object).map fun g => g.generation.toNat).foldl max 0

/-- The committed generation of an object. -/
def State.committedGen (s : State) (adapter : Bool) (object : Word) : Option GenEntry :=
  s.nv.generations.find? fun g => g.adapter == adapter && g.object == object && g.state == .committed

/-- Kind of an object (Table 13-2). -/
def kindOf (adapter : Bool) : Byte := if adapter then 2 else 1

/-- A block index lies in ranges of (first, count). -/
def inRanges (l : List (Nat × Nat)) (k : Nat) : Bool := l.any fun r => r.1 ≤ k && k < r.1 + r.2

/-- The store block of an object's block. -/
def State.storeBlock (s : State) (kind : Byte) (object : Word) (generation : BitVec 16) (index : BitVec 24) :
    Option StoreBlock :=
  s.nv.blocks.find? fun b =>
    b.kind == kind && b.object == object && b.generation == generation && b.index == index

/-! ## Stacks and erase blocks -/

/-- A stack of the part; absent ones of the variant read ABSENT. -/
def State.stack (s : State) (k : Nat) : Stack :=
  if k < stacksOf s.fused.variant then tabGet .reset s.nv.stackTab k else { Stack.reset with state := .absent, free := 0 }

/-- Spare erase blocks of a stack (Table 13-1): 5,888 less the 5,462 of user capacity, and on stacks 0 to 2 less the
32 of the persistent store. -/
def spareBlocks (k : Nat) : Nat := if k < 3 then 394 else 426

/-- Spare erase blocks left. -/
def State.sparesLeft (s : State) (k : Nat) : Nat :=
  if (s.stack k).state == .absent then 0 else spareBlocks k - (s.stack k).retired

/-- Change a stack. -/
def State.modStack (s : State) (k : Nat) (f : Stack → Stack) : State :=
  { s with nv := { s.nv with stackTab := tabMod .reset s.nv.stackTab k f } }

/-- Some stack has failed: FAULT_N (R503). -/
def State.stackFailed (s : State) : Bool :=
  (List.range (stacksOf s.fused.variant)).any fun k => (s.stack k).state == .failed

/-- Stack of a block index (R307). -/
def State.stackOf (s : State) (index : Nat) : Nat := index % stacksOf s.fused.variant

/-- An erase block of a stack, by stack and number. -/
def State.eraseBlock (s : State) (k e : Nat) : EraseBlock := tabGet .reset s.nv.eraseBlocks (8192 * k + e)

/-- Store blocks that an erase block holds. -/
def State.blocksIn (s : State) (k e : Nat) : Nat :=
  (s.nv.blocks.filter fun b => b.stack == k && b.eraseBlock == e).length

/-- The first of a list for which a key is least. -/
def leastBy (key : Nat → Nat) : List Nat → Option Nat
  | [] => none
  | e :: t =>
    match leastBy key t with
    | some b => if key b < key e then some b else some e
    | none => some e

/-- Erase blocks of user capacity that a stack can still use. -/
def State.usable (s : State) (k : Nat) : List Nat :=
  (List.range 5462).filter fun e => !(s.stack k).gone.contains e

/-- The erase block that takes the next store block of a stack: of those with room, the one of the lowest erase
count (R336); none on a full stack. -/
def State.openBlock (s : State) (k : Nat) : Option Nat :=
  leastBy (fun e => (s.eraseBlock k e).erases) ((s.usable k).filter fun e => s.blocksIn k e < 384)

/-- The least free block number of a stack (R306; log 145). -/
def State.freeNumber (s : State) (k : Nat) : Nat :=
  let used := (s.nv.blocks.filter fun b => b.stack == k).map (·.number)
  ((List.range (used.length + 1)).find? fun n => !used.contains n).getD 0

/-- Store block number (R306). -/
def StoreBlock.name (b : StoreBlock) : Nat := b.stack % 8 * 2 ^ 21 + b.number % 2 ^ 21

/-- Put a programmed block in its place: a free one, or that of the block it replaces. Without a free one the block is not
stored. -/
def State.place13 (s : State) (b : StoreBlock) : State :=
  match s.openBlock b.stack, s.storeBlock b.kind b.object b.generation b.index with
  | some e, some old =>
    let new := { b with eraseBlock := e, number := old.number }
    { s with nv := { s.nv with blocks := s.nv.blocks.map fun x => if x == old then new else x } }
  | some e, none =>
    if (s.stack b.stack).free = 0 then s
    else
      let new := { b with eraseBlock := e, number := s.freeNumber b.stack }
      State.modStack { s with nv := { s.nv with blocks := s.nv.blocks ++ [new] } } b.stack
        fun x => { x with free := x.free - 1 }
  | none, _ => s

/-- Name of a store block among the lost ones. -/
def StoreBlock.lostName (b : StoreBlock) : Byte × Word × BitVec 16 × BitVec 24 := (b.kind, b.object, b.generation, b.index)

/-- Take blocks away: their places are free again, and a block that is gone is no lost one (R340). -/
def State.freeBlocks (s : State) (p : StoreBlock → Bool) : State :=
  let gone := s.nv.blocks.filter p
  let s := { s with nv := { s.nv with
    blocks := s.nv.blocks.filter fun b => !p b
    lost := s.nv.lost.filter fun l => !gone.any fun b => b.lostName == l } }
  gone.foldl (fun s b => s.modStack b.stack fun x => { x with free := x.free + 1 }) s

/-- A stack whose last spare is gone becomes READ_ONLY. -/
def Stack.settle (x : Stack) (k : Nat) : Stack :=
  { x with state := if spareBlocks k ≤ x.retired && x.state == .online then .readOnly else x.state }

/-- Retire an erase block: a spare takes its place, where there is one left (R336). -/
def State.retireBlock (s : State) (k e : Nat) : State :=
  if s.sparesLeft k = 0 then s.modStack k fun x => { x with gone := x.gone ++ [e] }
  else
    State.modStack { s with nv := { s.nv with eraseBlocks := tabErase s.nv.eraseBlocks (8192 * k + e) } } k
      fun x => Stack.settle { x with retired := x.retired + 1 } k

/-- Erase an erase block: its count rises and its reads are 0; at 3,000 cycles, or where the erase fails, it is retired
(R336, R337). -/
def State.eraseOne (s : State) (k e : Nat) (failed : Bool) : State :=
  let n := (s.eraseBlock k e).erases + 1
  let s := { s with nv := { s.nv with
    eraseBlocks := tabSet .reset s.nv.eraseBlocks (8192 * k + e) { erases := n, reads := 0 } } }
  let s := s.modStack k fun y => { y with maxErase := max y.maxErase n }
  if failed || 3000 ≤ n then s.retireBlock k e else s

/-- Store blocks of an erase block. -/
def State.held13 (s : State) (k e : Nat) : List StoreBlock := s.nv.blocks.filter fun b => b.stack == k && b.eraseBlock == e

/-- Copy store blocks into erase blocks that a choice gives; a block that finds no place stays where it is. -/
def State.copyBlocks (s : State) (move : List StoreBlock) (place : State → Option Nat) : State :=
  move.foldl (fun s b => match place s with
    | some x =>
      { s with nv := { s.nv with blocks := s.nv.blocks.map fun y => if y == b then { b with eraseBlock := x } else y } }
    | none => s) s

/-- Move the valid blocks out of an erase block into others, unchanged (R311), and erase it once it is empty. -/
def State.emptyBlock (s : State) (k e : Nat) (place : State → Option Nat) (failed : Bool) : State :=
  let s := s.copyBlocks (s.held13 k e) place
  if (s.held13 k e).isEmpty then s.eraseOne k e failed else s

/-- Another erase block with room. -/
def State.elsewhere (s : State) (k e : Nat) : Option Nat :=
  leastBy (fun x => (s.eraseBlock k x).erases) ((s.usable k).filter fun x => x != e && s.blocksIn k x < 384)

/-- Where the erase counts of a stack differ by more than 300, the blocks of the least worn erase block in use move into
the most worn free one (R336; log 146). -/
def State.levelWear (s : State) (k : Nat) : State :=
  if (s.stack k).maxErase ≤ 300 then s
  else
    let l := s.usable k
    let erases (e : Nat) : Nat := (s.eraseBlock k e).erases
    let most := (l.map erases).foldl max 0
    match leastBy erases l, leastBy erases (l.filter fun e => s.blocksIn k e != 0),
      leastBy (fun e => most - erases e) (l.filter fun e => s.blocksIn k e == 0) with
    | some least, some cold, some worn =>
      if erases least + 300 < most && erases cold < erases worn then s.emptyBlock k cold (fun _ => some worn) false else s
    | _, _, _ => s

/-- Relocate the valid blocks of an erase block and erase it (R337, R338). -/
def State.relocateBlock (s : State) (k e : Nat) (failed : Bool) : State :=
  (s.emptyBlock k e (fun s => s.elsewhere k e) failed).levelWear k

/-- Erase blocks of a stack that fail a program, one after another, are retired, their valid blocks moved. -/
def State.failPrograms (s : State) (k : Nat) : Nat → State
  | 0 => s
  | n + 1 =>
    match s.openBlock k with
    | some e => ((s.copyBlocks (s.held13 k e) fun s => s.elsewhere k e).retireBlock k e).failPrograms k n
    | none => s

/-- What the WEAR record holds of a stack (Table 13-11). -/
def State.wearOf (s : State) : List (StackState × Nat × Nat × List Nat) :=
  (List.range (stacksOf s.fused.variant)).map fun k =>
    let x := s.stack k
    (x.state, x.maxErase, x.retired, x.gone)

/-- A change of the stacks' wear statistics that retires a block or changes a state is recorded. -/
def State.recordWear (s : State) (before : State) : State :=
  let kept (l : List (StackState × Nat × Nat × List Nat)) := l.map fun e => (e.1, e.2.2)
  if kept s.wearOf == kept before.wearOf then s else s.startCommit 0x0A .wear .nothing

/-- Programming and erasing go on: no stack sensor has suspended them, and no power cut (R334, Table 20-4). -/
def State.mayProgram (s : State) : Bool := !s.pw.stacksHot && !s.cutting

/-- The controller works on a stack. -/
def State.stackWorks (s : State) (k : Nat) : Bool :=
  s.mayProgram && (s.stack k).state != .failed && (s.stack k).state != .absent

/-- READ_DISTURB_RELOCATE: an erase block that has been read 500,000 times (R337). -/
def execReadDisturbRelocate (stack : BitVec 3) (work : EraseWork) (s : State) :
    Host.Outcome State Fault Refusal :=
  let k := stack.toNat
  .next (
    if s.stackWorks k && 500000 ≤ (s.eraseBlock k work.block).reads then
      State.recordWear ((s.relocateBlock k work.block work.eraseFails).modStack k fun x => { x with disturb := x.disturb + 1 }) s
    else s)

/-- RETENTION_REFRESH: an erase block not programmed for 4,000 powered hours, or read with more than 40 corrected
bits in a codeword (R338). -/
def execRetentionRefresh (stack : BitVec 3) (work : EraseWork) (s : State) :
    Host.Outcome State Fault Refusal :=
  let k := stack.toNat
  .next (
    if s.stackWorks k then
      State.recordWear ((s.relocateBlock k work.block work.eraseFails).modStack k fun x => { x with refresh := x.refresh + 1 }) s
    else s)

/-! ## Lost blocks and restores (R323 to R325, R516) -/

/-- A block of an object that this part does not hold (R516). -/
def State.unheld (s : State) (e : MapEntry) : Bool :=
  match s.genOf e.adapter e.object e.generation with
  | some g => g.state == .prepared || !inRanges g.share e.index.toNat
  | none => true

/-- Name of a lost block. -/
def lostName (e : MapEntry) : Byte × Word × BitVec 16 × BitVec 24 := (kindOf e.adapter, e.object, e.generation, e.index.setWidth 24)

/-- A read has found a block lost: recorded and signalled once. -/
def State.lose (s : State) (name : Byte × Word × BitVec 16 × BitVec 24) : State :=
  if s.nv.lost.contains name then s
  else State.msix { s with nv := { s.nv with lost := s.nv.lost ++ [name] } } 0 3

/-- The restore map names a lost block or one that the part does not hold. -/
def State.mapDamaged (s : State) : Bool :=
  s.nv.restoreMap.any fun e => s.nv.lost.contains (lostName e) || s.unheld e

/-- Count a read of a store block. -/
def State.countRead (s : State) (b : StoreBlock) (ldpcFailed corrected : Nat) : State :=
  let k := 8192 * b.stack + b.eraseBlock
  let s := { s with nv := { s.nv with
    eraseBlocks := tabMod .reset s.nv.eraseBlocks k fun x => { x with reads := x.reads + 1 } } }
  s.modStack b.stack fun x =>
    { x with ce := x.ce + BitVec.ofNat 32 corrected, ue := x.ue + BitVec.ofNat 32 ldpcFailed }

/-- Decrypt a store block under its at-rest key; none where its tag fails. -/
def State.openBlock13 (s : State) (b : StoreBlock) (tenant : BitVec 12) : Option (List Byte) :=
  match s.restKey b.kind tenant with
  | none => none
  | some key =>
    Config.gcmOpen key (blockNonce b.kind b.object b.generation b.index)
      (blockHeader13 b.kind b.object b.generation b.index) b.ciphertext (toBytes 16 b.tag)

/-- Read a store block and check it (R325): the state, and the plaintext; none where the block is lost. -/
def State.readStored (s : State) (b : StoreBlock) (tenant : BitVec 12) (ldpcFailed corrected : Nat) :
    State × Option (List Byte) :=
  let s := s.countRead b ldpcFailed corrected
  if ldpcFailed ≠ 0 then (s.lose b.lostName, none)
  else
    match s.openBlock13 b tenant with
    | none => ((s.modStack b.stack fun x => { x with tagFail := x.tagFail + 1 }).lose b.lostName, none)
    | some p => (s, some p)

/-- Read the block that an entry names, for a restore (R323, R516). -/
def State.readEntry (s : State) (e : MapEntry) (ldpcFailed corrected : Nat) : State × Option (List Byte) :=
  if s.unheld e then (s, none)
  else
    match s.storeBlock (kindOf e.adapter) e.object e.generation (e.index.setWidth 24), s.genOf e.adapter e.object e.generation with
    | some b, some g => s.readStored b g.tenant ldpcFailed corrected
    | _, _ => (s.lose (lostName e), none)

/-- One restore of the list: written into SRAM, or lost. -/
def State.restoreOne (s : State) (e : MapEntry) (ldpcFailed corrected : Nat) : State :=
  match s.readEntry e ldpcFailed corrected with
  | (s, none) => { s with nv := { s.nv with lostMet := s.nv.lostMet + 1 } }
  | (s, some p) =>
    let s := s.putBytes (65536 * e.block) 256 p
    { s with nv := { s.nv with restoredCount := s.nv.restoredCount + 1 } }

/-! ## Adapter slots (R323, R360, R361) -/

/-- A slot's restore has met a lost block: the slot is to be left empty, which the registrar does for every member. -/
def State.loseSlot (s : State) (k : Nat) : State :=
  let s := { s with
    sv := { s.sv with slots := tabMod .reset s.sv.slots k fun x => { x with lost := true, loaded := false } }
    nv := { s.nv with slotReads := s.nv.slotReads.filter fun r => r.slot != k } }
  if s.isRoot then s else s.emit (.firmware s.job.root (.slotLost k))

/-- A slot has all its blocks. -/
def State.slotFull (s : State) (x : AdapterSlot) : Bool :=
  match s.job.image with
  | some im => (s.slotShare im x).length ≤ x.restored
  | none => false

/-- One restore into a slot. -/
def State.restoreSlot (s : State) (r : SlotRead) (ldpcFailed corrected : Nat) : State :=
  match s.readEntry r.entry ldpcFailed corrected with
  | (s, none) => s.loseSlot r.slot
  | (s, some p) =>
    let s := s.putBytes (65536 * r.entry.block) 256 p
    { s with sv := { s.sv with slots := tabMod .reset s.sv.slots r.slot fun x =>
        let x := { x with restored := x.restored + 1 }
        { x with loaded := s.slotFull x } } }

/-! ## WEIGHTS_RESTORE -/

/-- Response body of WEIGHTS_RESTORE on this part. -/
def State.restoreBody (s : State) : List Byte := natToBytes 4 s.nv.restoredCount ++ natToBytes 4 s.nv.lostMet

/-- WEIGHTS_RESTORE is answered once every member has restored: the busiest member's blocks, all lost blocks. -/
def State.finishRestore (s : State) : State :=
  if s.job.order == 0x21 && s.job.awaiting.isEmpty then
    let n := (s.job.results.map fun r => natAt r.2.2 0 4).foldl max 0
    let k := (s.job.results.map fun r => natAt r.2.2 4 4).sum
    s.answerJob stOk (natToBytes 4 n ++ natToBytes 4 k)
  else s

/-- A WEIGHTS_RESTORE ends on this part once its blocks are read and its map is recorded (R329). -/
def State.endRestore (s : State) : State :=
  if s.nv.restoring && s.nv.restores.isEmpty && !s.nv.commits.any (fun c => c.type == 7) then
    let s := { s with nv := { s.nv with restoring := false }, job := { s.job with restored := true } }
    if s.isRoot then (s.giveResult s.rc.address 0x21 0 s.restoreBody).finishRestore
    else s.emit (.firmware s.job.root (.done s.rc.address 0x21 0 s.restoreBody))
  else s

/-- RESTORE_BLOCK_READ: the oldest restore that waits, those of the weight map before those of adapter slots;
`ldpcFailed` codewords fail to decode, `corrected` are corrected. -/
def execRestoreBlockRead (ldpcFailed corrected : Nat) (s : State) : Host.Outcome State Fault Refusal :=
  .next (
    if s.mayTransfer && s.pw.domainA then
      match s.nv.restores, s.nv.slotReads with
      | e :: t, _ => (State.restoreOne { s with nv := { s.nv with restores := t } } e ldpcFailed corrected).endRestore
      | [], r :: t => State.restoreSlot { s with nv := { s.nv with slotReads := t } } r ldpcFailed corrected
      | [], [] => s
    else s)

/-! ## Free space (R319, R320) -/

/-- A restore map of the part names a generation. -/
def State.mapNames (s : State) (g : GenEntry) : Bool :=
  s.nv.restoreMap.any fun e => e.adapter == g.adapter && e.object == g.object && e.generation == g.generation

/-- A superseded generation that no restore map names leaves the store. -/
def State.dropSuperseded (s : State) : State :=
  let gone := s.nv.generations.filter fun g => g.state == .superseded && !s.mapNames g
  let s := { s with nv := { s.nv with generations := s.nv.generations.filter fun g => !gone.contains g } }
  gone.foldl (fun s g =>
    s.freeBlocks fun b => b.kind == kindOf g.adapter && b.object == g.object && b.generation == g.generation) s

/-- The blocks of a shard that are still to be programmed fit the free blocks of their stacks. -/
def State.fits (s : State) (missing : List Nat) : Bool :=
  (List.range (stacksOf s.fused.variant)).all fun k =>
    let n := (missing.filter fun i => s.stackOf i == k).length
    n = 0 || ((s.stack k).state == .online && n ≤ (s.stack k).free)

end Sys2Proof.Machine
end

