-- ==== Sys2Proof/Machine/Distribution.lean ====
section
/-! DEFINITION. Distribution of objects (R312 to R322): the reader, the receiving parts, and the commit in two
phases. -/

namespace Sys2Proof.Machine

/-! ## Manifests (R312, Tables 13-5, 13-6) -/

/-- Part entries, blocks, and total length of a manifest. -/
def mfParts (b : List Byte) : Nat := natAt b 16 2
def mfBlocks (b : List Byte) : Nat := natAt b 12 4
def mfSigned (b : List Byte) : Nat := 64 + 1792 * mfParts b + 16 * mfBlocks b
def mfLength (b : List Byte) : Nat := mfSigned b + sigBytes

/-- Entry i of a manifest. -/
def mfEntry (b : List Byte) (i : Nat) : List Byte := bytesAt b (64 + 1792 * i) 1792

/-- Shard ranges of an entry. -/
def mfShard (e : List Byte) : List (Nat × Nat) :=
  (List.range (natAt e 8 2)).map fun j => (natAt e (1632 + 8 * j) 4, natAt e (1636 + 8 * j) 4)

/-- Tag table entry of a block. -/
def mfTag (b : List Byte) (k : Nat) : BitVec 128 := fieldAt 128 b (64 + 1792 * mfParts b + 16 * k)

/-- Ranges that stay within the object and do not overlap; an empty one overlaps none. -/
def shardFormed (blocks : Nat) (l : List (Nat × Nat)) : Bool :=
  l.all (fun r => r.1 + r.2 ≤ blocks) &&
  (List.range l.length).all fun i => (List.range i).all fun j =>
    match l[i]?, l[j]? with
    | some a, some b => a.2 = 0 || b.2 = 0 || a.1 + a.2 ≤ b.1 || b.1 + b.2 ≤ a.1
    | _, _ => true

/-- A manifest keeps its format for a kind. -/
def mfFormed (kind : Nat) (b : List Byte) : Bool :=
  b.length == mfLength b && natAt b 0 1 == 1 && natAt b 2 1 == kind && natAt b 3 1 == 0 &&
  (bytesAt b 18 46).all (· == 0) && 1 ≤ mfBlocks b && mfBlocks b ≤ 16777216 && 1 ≤ mfParts b && mfParts b ≤ 4096 &&
  natAt b 10 2 ≤ 4095 &&
  (List.range (mfParts b)).all fun i =>
    let e := mfEntry b i
    1 ≤ natAt e 8 2 && natAt e 8 2 ≤ 16 && (bytesAt e 10 6).all (· == 0) && (bytesAt e 1760 32).all (· == 0) &&
    shardFormed (mfBlocks b) (mfShard e)

/-- The signature of a manifest verifies under the owner key. -/
def State.mfVerifies (s : State) (b : List Byte) : Bool :=
  !s.sec.owner.isEmpty && Config.mlDsaVerify s.sec.owner (b.take (mfSigned b)) (b.drop (mfSigned b))

/-- Manifest digest. -/
def mfDigest (b : List Byte) : BitVec 512 := Config.sha3 (b.take (mfSigned b))

/-- First 8 bytes of a manifest digest. -/
def short (d : BitVec 512) : BitVec 64 := d.setWidth 64

/-- The first entry of a serial. -/
def mfFind (b : List Byte) (serial : BitVec 64) : Option (List Byte) :=
  ((List.range (mfParts b)).map (mfEntry b)).find? fun e => fieldAt 64 e 0 == serial

/-! ## Common -/

/-- A distribution is in progress on the part (R321, R478). -/
def State.distributing (s : State) : Bool :=
  match s.nv.dist with
  | some d => d.state != .incomplete && d.state != .idle
  | none => false

/-- Change the distribution. -/
def State.modDist (s : State) (f : Dist → Dist) : State := { s with nv := { s.nv with dist := s.nv.dist.map f } }

/-- Blocks of a shard not yet durable. -/
def Dist.missing (d : Dist) : List Nat := (rangeBlocks d.shard).filter fun k => !d.durable.contains k

/-- Ascending runs of block indices. -/
def runs : List Nat → List (Nat × Nat)
  | [] => []
  | k :: t =>
    match runs t with
    | (a, n) :: r => if k + 1 = a then (k, n + 1) :: r else (k, 1) :: (a, n) :: r
    | [] => [(k, 1)]

/-- Parts of a box. -/
def boxParts (low high : FabricAddr) : List FabricAddr :=
  let n (k : Nat) := boxExtent low high k
  (List.range (n 0 * n 1 * n 2 * n 3)).map (memberAddress low high)

/-- The store region of the part: region 255 with no job in session, otherwise the image's (R315). -/
def State.storeRegionNow (s : State) : Option Nat :=
  if s.inSession then s.job.image.bind fun im => storeRegion im s.member else some 255

/-- Region 255 as the store region: its place in memory is firmware's and not stated, a base aligned to 256 B; it is
large enough for a frame (log 18). -/
def State.openStoreRegion (s : State) (reader : FabricAddr) : State :=
  let (n, s) := s.draw
  s.setRegion 255 { Region.reset with
    kind := .localRegion, base := Config.freeBits 32 n ++ (0 : Byte), slotsLog := 9 + (Config.freeBits 3 n).setWidth 5, consumerFirmware := true
    producerPart := reader, producerEngine := true }

/-! ## The reader (R314, R316, R317) -/

/-- A frame of the reader for a block. -/
def Dist.frameOf (d : Dist) (kind : Byte) (index : Nat) (data : List Byte) : Frame :=
  { objKind := kind, format := 1, object := d.object, generation := d.generation, index := BitVec.ofNat 24 index
    tag := mfTag d.manifestBytes index, pass := d.pass.setWidth 8, sequence := BitVec.ofNat 32 d.passFrames
    digest := short d.digest, data := data }

/-- An END_OF_PASS frame. -/
def Dist.endFrame (d : Dist) : Frame := { d.frameOf 0 0 [] with objKind := 0, format := 0, tag := 0 }

/-- The ciphertext of a block at the reader: from the host, or a read of its own distribution copy (log 148). -/
def State.sourceBlock (s : State) (d : Dist) (index : Nat) : State × Option (List Byte) :=
  if d.fromCopy then
    match s.storeBlock 3 d.object d.generation (BitVec.ofNat 24 index) with
    | some b => s.readStored b d.tenant 0 0
    | none => (s, none)
  else (s, hostRead d.host (d.hostAddr + 65536 * index) 65536)

/-- Response body of WEIGHTS_PROGRAM and ADAPTER_STORE. -/
def Dist.body (d : Dist) : List Byte :=
  let (a, st) : FabricAddr × BitVec 16 := match d.refusing with
    | some r => r
    | none => (0, 0)
  natToBytes 1 d.pass.toNat ++ [0, 0, 0] ++ toBytes 2 a ++ toBytes 2 st ++ natToBytes 4 d.framesSent

/-- A pending generation takes the place of another of its object, whose blocks leave the store. -/
def State.putProgress (s : State) (p : Progress) : State :=
  let mine (q : Progress) : Bool := q.adapter == p.adapter && q.object == p.object
  let left := s.nv.progress.filter fun q => mine q && q.generation != p.generation &&
    (s.genOf q.adapter q.object q.generation).isNone
  let s := s.freeBlocks fun b => left.any fun q =>
    b.kind == kindOf q.adapter && b.object == q.object && b.generation == q.generation
  { s with nv := { s.nv with progress := (s.nv.progress.filter fun q => !mine q) ++ [p] } }

/-- The durable blocks of a distribution stay as the pending generation, and a DIST_PROGRESS record names them (R317,
R334). -/
def State.commitProgress (s : State) (d : Dist) : State :=
  if d.key.isEmpty || d.refusal ≠ 0 || d.repair then s
  else
    let p : Progress :=
      { adapter := d.adapter, object := d.object, generation := d.generation, digest := d.digest, durable := d.durable }
    (s.putProgress p).startCommit 0x0C (.progress p) .nothing

/-- A distribution ends without commit on this part. -/
def State.leaveDist (s : State) : State :=
  match s.nv.dist with
  | none => s
  | some d => (s.modDist fun d => { d with state := .incomplete, waits := [], programming := [] }).commitProgress d

/-- The reader ends a distribution without commit, on every part of the box (R317). -/
def State.endIncomplete (s : State) (status : BitVec 16) : State :=
  match s.nv.dist with
  | none => s
  | some d =>
    let s := s.tellAll (d.parts.filter fun a => a != s.rc.address) (.distEnd (short d.digest))
    s.leaveDist.answerAll d.waits status d.body

/-- The reader's distribution has ended. -/
def State.takeDistEnd (s : State) (source : FabricAddr) (digest : BitVec 64) : State :=
  match s.nv.dist with
  | none => s
  | some d =>
    if !d.reader && d.readerPart == source && (d.digest = 0 || short d.digest == digest) && s.distributing then s.leaveDist
    else s

/-- Send one BLOCK frame. -/
def State.sendBlock (s : State) (index : Nat) : State :=
  match s.nv.dist with
  | none => s
  | some d =>
    match s.sourceBlock d index with
    | (s, some b) =>
      (s.emit (.frame (d.frameOf (kindOf d.adapter) index b))).modDist fun d =>
        { d with framesSent := d.framesSent + 1, passFrames := d.passFrames + 1 }
    | (s, none) => if d.fromCopy then s else s.endIncomplete 0x0C

/-- One pass: the blocks in ascending order, then END_OF_PASS. -/
def State.sendPass (s : State) (blocks : List Nat) : State :=
  let s := s.modDist fun d =>
    { d with state := .waitNak, pass := d.pass + 1, answered := [], asked := [], resends := 0, passFrames := 0 }
  let s := blocks.foldl (fun s k => if s.distributing then s.sendBlock k else s) s
  match s.nv.dist with
  | some d => if d.state == .waitNak then s.emit (.frame d.endFrame) else s
  | none => s

/-- MANIFEST frames of a manifest. -/
def manifestFrames (b : List Byte) : List Frame :=
  (List.range ((b.length + 65535) / 65536)).map fun i =>
    { objKind := 0, format := 0, object := 0, generation := 0, index := BitVec.ofNat 24 i, tag := 0, pass := 1
      sequence := BitVec.ofNat 32 i, digest := 0, data := bytesAt b (65536 * i) 65536 }

/-- A generation that the reader itself holds as pending: this distribution resumes it (R317, R335). -/
def State.resumes (s : State) (d : Dist) : Bool :=
  (s.nv.generations.any fun g => g.state == .prepared && g.adapter == d.adapter && g.digest == d.digest) ||
  s.nv.progress.any fun p => p.adapter == d.adapter && p.digest == d.digest

/-- The reader starts: it names itself, sends the manifest and the first pass; in repair mode, and where it resumes, that
pass asks only what is missing. -/
def State.beginReader (s : State) (d : Dist) : State :=
  let s := State.wake { s with nv := { s.nv with dist := some d } }
  let others := d.parts.filter fun a => a != s.rc.address
  let s := s.tellAll others (.reader d.repair d.boxLow d.boxHigh)
  let s := if s.inSession then s else s.openStoreRegion s.rc.address
  let s := s.emitAll ((manifestFrames d.manifestBytes).map .frame)
  s.sendPass (if d.repair || s.resumes d then [] else List.range d.blocks)

/-- Once every part has sent PREPARED and none misses a block, the reader records its decision as committing (R318). -/
def State.tryDecide (s : State) : State :=
  match s.nv.dist with
  | none => s
  | some d =>
    if d.reader && d.state == .prepared && d.parts.all fun a => d.preparedParts.contains a then
      let e : Decision :=
        { adapter := d.adapter, complete := false, object := d.object, generation := d.generation
          parts := d.parts.length, boxLow := d.boxLow, boxHigh := d.boxHigh, digest := d.digest, unanswered := d.parts }
      let s := s.modDist fun d => { d with state := .committing }
      s.startCommit 6 (.decisions [e]) .sendCommits
    else s

/-- Every part of the box has answered a pass. -/
def State.passDone (s : State) (d : Dist) : State :=
  let blocks := (List.range d.blocks).filter (inRanges d.asked)
  if blocks.isEmpty then (s.modDist fun d => { d with state := .prepared }).tryDecide
  else if 8 ≤ d.pass.toNat then s.endIncomplete 0x20
  else s.sendPass blocks

/-- A STORE_NAK at the reader. -/
def State.takeNak (s : State) (source : FabricAddr) (pass : Nat) (more : Bool) (digest : BitVec 64)
    (ranges : List (Nat × Nat)) : State :=
  match s.nv.dist with
  | none => s
  | some d =>
    if d.reader && d.state == .waitNak && digest == short d.digest && pass = d.pass.toNat &&
        d.parts.contains source && !d.answered.contains source then
      let d := { d with
        asked := d.asked ++ ranges, answered := if more then d.answered else d.answered ++ [source] }
      let s := { s with nv := { s.nv with dist := some d } }
      if d.parts.all fun a => d.answered.contains a then s.passDone d else s
    else s

/-- A part refuses the distribution: the reader keeps the first refusal (R322). -/
def State.takeRefusal (s : State) (member : FabricAddr) (status : BitVec 16) : State :=
  s.modDist fun d =>
    if d.reader && d.parts.contains member && d.refusing.isNone then { d with refusing := some (member, status) } else d

/-- STORE_NAK. -/
def execStoreNak (source : FabricAddr) (pass : Byte) (more : Bool) (digest : BitVec 64) (ranges : List (Nat × Nat))
    (s : State) : Host.Outcome State Fault Refusal :=
  .next (s.takeNak source pass.toNat more digest ranges)

/-- END_OF_PASS_RESEND: every 100 ms, at most three times, to the parts that have not answered. -/
def execEndOfPassResend (s : State) : Host.Outcome State Fault Refusal :=
  .next (
    match s.nv.dist with
    | none => s
    | some d =>
      if d.reader && d.state == .waitNak then
        if d.resends < 3 then
          let silent := d.parts.filter fun a => !d.answered.contains a
          (s.emitAll (silent.map fun a => .frameTo a d.endFrame)).modDist fun d => { d with resends := d.resends + 1 }
        else s.endIncomplete 0x20
      else s)

/-! ## The receiving part -/

/-- This part refuses the distribution. -/
def State.refuseDist (s : State) (reader : FabricAddr) (status : BitVec 16) : State :=
  let s := s.modDist fun d => { d with refusal := status }
  if reader == s.rc.address then
    s.modDist fun d => if d.refusing.isSome then d else { d with refusing := some (reader, status) }
  else s.emit (.firmware reader (.refusal s.rc.address status))

/-- A new distribution at a receiving part. -/
def emptyDist (reader : FabricAddr) (repairing : Bool) (low high : FabricAddr) : Dist :=
  { state := .manifest, reader := false, readerPart := reader, pass := 0, repair := repairing, keepCopy := false
    fromCopy := false, adapter := false, object := 0, generation := 0, tenant := 0, blocks := 0, digest := 0
    manifest := [], manifestBytes := [], host := [], hostAddr := 0, key := [], shard := [], tags := [], durable := []
    programming := [], refusal := 0, boxLow := low, boxHigh := high, parts := [], answered := [], asked := []
    preparedParts := [], resends := 0, framesSent := 0, passFrames := 0, refusing := none, waits := [] }

/-- A distribution that gives way to a new one of its reader leaves its durable blocks behind. -/
def State.keepPending (s : State) : State := if s.distributing then s.leaveDist else s

/-- This part is in a distribution of another reader (R321). -/
def State.takenBy (s : State) (reader : FabricAddr) : Bool :=
  s.distributing && s.nv.dist.any fun d => d.readerPart != reader

/-- A reader names itself: the declared producer of the store region becomes its engine (R314, R315). A reader that
names itself again starts anew. -/
def State.takeReader (s : State) (reader : FabricAddr) (repairing : Bool) (low high : FabricAddr) : State :=
  if s.nv.storeFault || !s.pw.firmware then s
  else if s.takenBy reader || s.storeRegionNow.isNone then s.emit (.firmware reader (.refusal s.rc.address 9))
  else
    let s := s.keepPending
    let s := State.wake { s with nv := { s.nv with dist := some (emptyDist reader repairing low high) } }
    if s.inSession then s else s.openStoreRegion reader

/-- A box lies in this part's slice, or this part is in none (R321). -/
def State.boxInSlice (s : State) (low high : FabricAddr) : Bool :=
  s.rt.slice == 0 || (List.range s.axes).all fun k =>
    let r := s.router k
    r.low.toNat ≤ coord low k && coord high k ≤ r.high.toNat

/-- READER_NOTICE. -/
def execReaderNotice (box : ReaderBox) (repairing : Bool) (s : State) : Host.Outcome State Fault Refusal :=
  .next (s.takeReader box.reader repairing box.low box.high)

/-- The header piece of a frame (Table 13-7). -/
def frameHeader13 (f : Frame) (type : Byte) : Vec :=
  ofBytes 2048 (blockHeader13 f.objKind f.object f.generation f.index ++ toBytes 16 f.tag ++
    [type, f.pass, 0, 0] ++ toBytes 4 f.sequence ++ toBytes 8 f.digest)

/-- The 257 pieces of a frame (R314). -/
def framePieces13 (f : Frame) (type : Byte) : List Vec := frameHeader13 f type :: granulesOfBytes f.data 256

/-- Pieces brought with no job in session: each lands or is ignored (R217); then firmware takes the slots. -/
def State.landIdle (s : State) (n : Nat) (l : List Vec) : State :=
  (l.foldl (fun s v => s.landEngine n v) s).consumeRegion n

/-- Pieces brought in a recess: firmware takes each slot as it fills, so that what does not fit waits (R222). -/
def State.landInRecess (s : State) (n : Nat) (l : List Vec) : State :=
  l.foldl (fun s v => ((s.consumeRegion n).landCommitted n v).consumeRegion n) s

/-- A frame lands in the store region (R314): the state, and whether firmware has the whole frame. -/
def State.landFrame (s : State) (d : Dist) (f : Frame) (type : Byte) : Option (State × Bool) :=
  match s.storeRegionNow with
  | none => none
  | some n =>
    let r := s.region n
    if r.kind == .localRegion && r.producerEngine && r.producerPart == d.readerPart && s.mayTransfer then
      if s.inSession then some (s.landInRecess n (framePieces13 f type), true)
      else some (s.landIdle n (framePieces13 f type), !r.overrun && 257 ≤ r.roomCommitted)
    else none

/-- Pieces that no region takes are discarded. -/
def State.discardFrame (s : State) : State := { s with cq := { s.cq with discards := s.cq.discards + 257 } }

/-- The blocks of a pending generation of this manifest that the part holds (R317, R335); none where it has none
pending. -/
def State.pendingBlocks (s : State) (adapter : Bool) (object : Word) (generation : BitVec 16) (digest : BitVec 512) :
    Option (List Nat) :=
  match s.genOf adapter object generation with
  | some g => if g.state == .prepared && g.digest == digest then some (rangeBlocks g.share) else none
  | none =>
    (s.nv.progress.find? fun p =>
      p.adapter == adapter && p.object == object && p.generation == generation && p.digest == digest).map fun p =>
      p.durable.filter fun k => (s.storeBlock (kindOf adapter) object generation (BitVec.ofNat 24 k)).isSome

/-- Blocks of a shard that the part already holds for the distribution: in repair mode all but the lost ones;
otherwise those of the pending generation. -/
def State.alreadyDurable (s : State) (adapter : Bool) (object : Word) (generation : BitVec 16) (digest : BitVec 512)
    (repairing : Bool) (shard : List (Nat × Nat)) : List Nat :=
  let all := rangeBlocks shard
  if repairing then all.filter fun k => !s.nv.lost.contains (kindOf adapter, object, generation, BitVec.ofNat 24 k)
  else
    let held := (s.pendingBlocks adapter object generation digest).getD []
    all.filter fun k => held.contains k

/-- The generation may be programmed (R311); 0 where it may: it is higher than any accepted, or the pending one of the same
manifest; a repair is of a generation held, under its own manifest. -/
def State.generationRefusal (s : State) (adapter : Bool) (object : Word) (generation : BitVec 16)
    (digest : BitVec 512) (repairing : Bool) : BitVec 16 :=
  let top := s.highest adapter object
  if repairing then
    (if (s.genOf adapter object generation).any fun g => g.digest == digest then 0 else 0x21)
  else if generation.toNat ≠ 0 && (top < generation.toNat || (s.pendingBlocks adapter object generation digest).isSome) then
    0
  else if top = 0xFFFF then 0x22
  else 0x21

/-- The refusals of Table 13-9 at a receiving part, in order; with the entry and the key where there is none. -/
def State.manifestRefusal (s : State) (d : Dist) (b : List Byte) : BitVec 16 × List Byte × List Byte :=
  let kind := natAt b 2 1
  let adapter := kind == 2
  if !s.owned then (7, [], [])
  else if s.storeRegionNow.isNone then (9, [], [])
  else if !s.boxInSlice d.boxLow d.boxHigh then (0x24, [], [])
  else if !s.mfVerifies b then (0x25, [], [])
  else if !(mfFormed 1 b || mfFormed 2 b) then (0x26, [], [])
  else match mfFind b s.fused.serial with
    | none => (0x27, [], [])
    | some e =>
      let wrap := s.wrapKey (bytesAt e 16 1568) (b.take 64)
      match Config.gcmOpen wrap zeroNonce [] (bytesAt e 1584 32) (bytesAt e 1616 16) with
      | none => (0x28, e, [])
      | some key =>
        let tenant : BitVec 12 := BitVec.ofNat 12 (natAt b 10 2)
        let gen : BitVec 16 := fieldAt 16 b 8
        let object : Word := fieldAt 32 b 4
        let g := s.generationRefusal adapter object gen (mfDigest b) d.repair
        let shard := mfShard e
        let have_ := s.alreadyDurable adapter object gen (mfDigest b) d.repair shard
        if adapter && (s.keyEntry tenant).isNone then (0x29, e, [])
        else if g ≠ 0 then (g, e, [])
        else if !s.fits ((rangeBlocks shard).filter fun k => !have_.contains k) then (0x23, e, [])
        else (0, e, key)

/-- Record type of an object's generations (Table 13-11). -/
def genRecord (adapter : Bool) : Byte := if adapter then 5 else 6

/-- The high-water entry of a generation accepted (R311, R341). -/
def highWaterOf (adapter : Bool) (object : Word) (generation : BitVec 16) (tenant : BitVec 12) : GenEntry :=
  { adapter := adapter, object := object, generation := generation, state := .highWater, tenant := tenant, digest := 0
    share := [] }

/-- A generation higher than any before is accepted: recorded before a block of it is programmed (R311; log 149). -/
def State.noteHighest (s : State) (adapter : Bool) (object : Word) (generation : BitVec 16) (tenant : BitVec 12) : State :=
  if generation.toNat ≤ s.highest adapter object then s
  else s.startCommit (genRecord adapter) (.generations [highWaterOf adapter object generation tenant]) .nothing

/-- That record is still in flight. -/
def State.highPending (s : State) (d : Dist) : Bool :=
  s.nv.commits.any fun c => c.effect == .generations [highWaterOf d.adapter d.object d.generation d.tenant]

/-- The whole manifest has arrived. -/
def State.receiveManifest (s : State) (d : Dist) (b : List Byte) : State :=
  let adapter := natAt b 2 1 == 2
  let object : Word := fieldAt 32 b 4
  let gen : BitVec 16 := fieldAt 16 b 8
  let (status, e, key) := s.manifestRefusal d b
  let shard := if e.isEmpty then [(0, mfBlocks b)] else sortBy (·.1) (mfShard e)
  let d := { d with
    state := if d.reader then d.state else .pass
    adapter := adapter, object := object, generation := gen, tenant := BitVec.ofNat 12 (natAt b 10 2)
    blocks := mfBlocks b, digest := mfDigest b, key := key, shard := shard
    tags := (rangeBlocks shard).foldl (fun t k => tabSet 0 t k (mfTag b k)) []
    durable := if status = 0 then s.alreadyDurable adapter object gen (mfDigest b) d.repair shard else [] }
  let s := { s with nv := { s.nv with dist := some d } }
  if status = 0 then s.noteHighest adapter object gen d.tenant else s.refuseDist d.readerPart status

/-- The manifest assembled from its frames, once they are all there. -/
def Dist.assembled (d : Dist) : Option (List Byte) :=
  match tabGet [] d.manifest 0 with
  | [] => none
  | b0 =>
    let n := mfLength b0
    let frames := (n + 65535) / 65536
    if (List.range frames).all fun i => !(tabGet [] d.manifest i).isEmpty then
      some (((List.range frames).flatMap fun i => bytesAt (tabGet [] d.manifest i) 0 65536).take n)
    else none

/-- MANIFEST_FRAME. -/
def execManifestFrame (f : Frame) (s : State) : Host.Outcome State Fault Refusal :=
  .next (
    match s.nv.dist with
    | none => s.discardFrame
    | some d =>
      match s.landFrame d f 1 with
      | none => s.discardFrame
      | some (s, whole) =>
        if whole && d.key.isEmpty && d.refusal = 0 && f.digest == 0 then
          let d := { d with manifest := tabSet [] d.manifest f.index.toNat f.data }
          let s := { s with nv := { s.nv with dist := some d } }
          match d.assembled with
          | some b => s.receiveManifest d b
          | none => s
        else s)

/-- Encrypt the plaintext of a block at rest. -/
def State.sealBlock (s : State) (kind : Byte) (key : List Byte) (d : Dist) (index : BitVec 24) (p : List Byte) :
    StoreBlock :=
  let (ct, tag) := Config.gcmSeal key (blockNonce kind d.object d.generation index)
    (blockHeader13 kind d.object d.generation index) p
  { kind := kind, object := d.object, generation := d.generation, index := index, stack := s.stackOf index.toNat
    number := 0, eraseBlock := 0, ciphertext := ct, tag := ofBytes 128 tag }

/-- The frame's block belongs to the distribution and its tags verify: the plaintext. -/
def Dist.checkBlock (d : Dist) (f : Frame) : Option (List Byte) :=
  if f.objKind == kindOf d.adapter && f.format == 1 && f.object == d.object && f.generation == d.generation &&
      f.tag == tabGet 0 d.tags f.index.toNat then
    Config.gcmOpen d.key (blockNonce f.objKind f.object f.generation f.index)
      (blockHeader13 f.objKind f.object f.generation f.index) f.data (toBytes 16 f.tag)
  else none

/-- A block of the shard is checked, encrypted again and programmed. -/
def State.keepBlock (s : State) (d : Dist) (f : Frame) : State :=
  let k := f.index.toNat
  if inRanges d.shard k && !d.durable.contains k && !(d.programming.any fun b => b.kind != 3 && b.index == f.index) then
    match d.checkBlock f, s.restKey (kindOf d.adapter) d.tenant with
    | some p, some key =>
      s.modDist fun d => { d with programming := d.programming ++ [s.sealBlock (kindOf d.adapter) key d f.index p] }
    | _, _ => s
  else s

/-- A stack has room for a distribution copy's block beside what the shard still needs (R320). -/
def State.copyFits (s : State) (d : Dist) (k : Nat) : Bool :=
  let shard := (d.missing.filter fun i => s.stackOf i == k).length
  let copies := (d.programming.filter fun b => b.kind == 3 && b.stack == k).length
  (s.stack k).state == .online && shard + copies < (s.stack k).free

/-- The reader's own distribution copy of a block, where there is room for it. -/
def State.keepCopy (s : State) (d : Dist) (f : Frame) : State :=
  if d.reader && d.keepCopy && (s.storeBlock 3 d.object d.generation f.index).isNone &&
      s.copyFits d (s.stackOf f.index.toNat) then
    s.modDist fun d => { d with programming := d.programming ++ [s.sealBlock 3 s.storageKey d f.index f.data] }
  else s

/-- BLOCK_FRAME. -/
def execBlockFrame (f : Frame) (s : State) : Host.Outcome State Fault Refusal :=
  .next (
    match s.nv.dist with
    | none => s.discardFrame
    | some d =>
      match s.landFrame d f 2 with
      | none => s.discardFrame
      | some (s, whole) =>
        if whole && f.digest == short d.digest && !d.key.isEmpty && d.refusal = 0 && s.mayProgram && d.state != .incomplete then
          let s := s.modDist fun d => if d.reader then d else { d with pass := BitVec.ofNat 4 f.pass.toNat }
          (s.keepBlock d f).keepCopy d f
        else s)

/-- The pages of a block are programmed, after `failures` erase blocks that failed (R336): it is durable, and a lost one
is repaired. A block that finds no place stays missing. -/
def State.blockDone (s : State) (object : Word) (generation : BitVec 16) (index : BitVec 24) (failures : Nat) : State :=
  match s.nv.dist with
  | none => s
  | some d =>
    let mine (b : StoreBlock) : Bool := b.object == object && b.generation == generation && b.index == index
    let done := d.programming.filter mine
    if done.isEmpty || s.highPending d then s
    else
      let t := done.foldl (fun s b => s.place13 b) (s.failPrograms (s.stackOf index.toNat) failures)
      let kept := done.any (fun b => b.kind != 3) && (t.storeBlock (kindOf d.adapter) object generation index).isSome
      let t := t.modDist fun d =>
        { d with
          programming := d.programming.filter fun b => !mine b
          durable := if kept && !d.durable.contains index.toNat then d.durable ++ [index.toNat] else d.durable }
      let name := (kindOf d.adapter, object, generation, index)
      let t := if kept then { t with nv := { t.nv with lost := t.nv.lost.filter fun l => l != name } } else t
      t.recordWear s

/-! ## Commit (R318, R341) -/

/-- COMMIT for each part that has not answered, this part's own apart. -/
def State.sendCommit (s : State) (e : Decision) : State :=
  s.emitAll ((e.unanswered.filter fun a => a != s.rc.address).map fun a => .distribution a 0x12 (short e.digest))

/-- The generation entry that a COMMIT names by its digest: a prepared one, or one committed before. -/
def State.genByDigest (s : State) (digest : BitVec 64) : Option GenEntry :=
  let named (g : GenEntry) : Bool := g.state != .highWater && short g.digest == digest
  match s.nv.generations.find? fun g => g.state == .prepared && named g with
  | some g => some g
  | none => s.nv.generations.find? named

/-- A part has answered COMMITTED at the reader (R341). -/
def State.takeCommitted (s : State) (source : FabricAddr) (digest : BitVec 64) : State :=
  match s.nv.decisions.find? fun e => !e.complete && short e.digest == digest && e.unanswered.contains source with
  | none => s
  | some e =>
    let rest := e.unanswered.filter fun a => a != source
    let new := { e with unanswered := rest, complete := rest.isEmpty }
    let s := { s with nv := { s.nv with decisions := s.nv.decisions.map fun q => if q == e then new else q } }
    if rest.isEmpty then
      let s := s.startCommit 6 (.decisions [new]) .nothing
      match s.nv.dist with
      | some d =>
        if d.reader && short d.digest == digest then
          let s := { s with nv := { s.nv with dist := none } }
          s.answerAll d.waits stOk d.body
        else s
      | none => s
    else s

/-- This part has committed: it tells the reader. -/
def State.tellCommitted (s : State) (target : FabricAddr) (digest : BitVec 64) : State :=
  if target == s.rc.address then s.takeCommitted target digest
  else
    let s := match s.nv.dist with
      | some d => if !d.reader && short d.digest == digest then { s with nv := { s.nv with dist := none } } else s
      | none => s
    s.emit (.distribution target 0x13 digest)

/-- COMMIT at a part: the record is written with the generation committed and the previous one superseded; one
already committed is answered again. -/
def State.takeCommit (s : State) (source : FabricAddr) (digest : BitVec 64) : State :=
  match s.genByDigest digest with
  | none => s
  | some g =>
    if g.state != .prepared then s.tellCommitted source digest
    else
      let old := s.committedGen g.adapter g.object
      let entries := (match old with
        | some o => [{ o with state := .superseded }]
        | none => []) ++ [{ g with state := .committed }]
      s.startCommit (genRecord g.adapter) (.generations entries) (.sendCommitted source digest)

/-- COMMIT. -/
def execCommit (source : FabricAddr) (digest : BitVec 64) (s : State) : Host.Outcome State Fault Refusal :=
  .next (s.takeCommit source digest)

/-- A part has prepared, at the reader. -/
def State.takePrepared (s : State) (source : FabricAddr) (digest : BitVec 64) : State :=
  match s.nv.dist with
  | none => s
  | some d =>
    if d.reader && short d.digest == digest && d.parts.contains source && !d.preparedParts.contains source &&
        (d.state == .waitNak || d.state == .prepared) then
      let d := { d with preparedParts := d.preparedParts ++ [source] }
      State.tryDecide { s with nv := { s.nv with dist := some d } }
    else s

/-- PREPARED. -/
def execPrepared (source : FabricAddr) (digest : BitVec 64) (s : State) : Host.Outcome State Fault Refusal :=
  .next (s.takePrepared source digest)

/-- COMMITTED. -/
def execCommitted (source : FabricAddr) (digest : BitVec 64) (s : State) : Host.Outcome State Fault Refusal :=
  .next (s.takeCommitted source digest)

/-- The committing decisions go out, this part's own share at once. -/
def State.sendCommits (s : State) : State :=
  (s.nv.decisions.filter fun e => !e.complete).foldl (fun s e =>
    let s := s.sendCommit e
    if e.unanswered.contains s.rc.address then s.takeCommit s.rc.address (short e.digest) else s) s

/-- COMMIT_RESEND: every 100 ms, to the parts that have not answered. -/
def execCommitResend (s : State) : Host.Outcome State Fault Refusal := .next s.sendCommits

/-- This part has prepared: it tells the reader. -/
def State.tellPrepared (s : State) (target : FabricAddr) (digest : BitVec 64) : State :=
  if target == s.rc.address then s.takePrepared target digest
  else (s.emit (.distribution target 0x11 digest)).modDist fun d =>
    if d.reader then d else { d with state := .prepared }

/-- Every block of the shard is durable: the record names the generation prepared; in repair mode it stands. -/
def State.prepare (s : State) (d : Dist) : State :=
  if d.repair then s.tellPrepared d.readerPart (short d.digest)
  else
    let g : GenEntry :=
      { adapter := d.adapter, object := d.object, generation := d.generation, state := .prepared, tenant := d.tenant
        digest := d.digest, share := d.shard }
    s.startCommit (genRecord d.adapter) (.generations [g]) (.sendPrepared d.readerPart (short d.digest))

/-- Answer an END_OF_PASS to the reader, in messages of at most 30 ranges. -/
def State.sendNaks (s : State) (d : Dist) (pass : Nat) : Nat → List (Nat × Nat) → State
  | 0, _ => s
  | n + 1, l =>
    let more := 30 < l.length
    let s := if d.readerPart == s.rc.address then s.takeNak s.rc.address pass more (short d.digest) (l.take 30)
      else s.emit (.storeNak d.readerPart (BitVec.ofNat 8 pass) more (short d.digest) (l.take 30))
    if more then s.sendNaks d pass n (l.drop 30) else s

/-- The generation of the distribution is already prepared, or on its way to be. -/
def State.preparing (s : State) (d : Dist) : Bool :=
  s.nv.commits.any (fun c => match c.after with
    | .sendPrepared _ g => g == short d.digest
    | _ => false) ||
  s.nv.generations.any fun g => g.state == .prepared && g.digest == d.digest

/-- END_OF_PASS: the blocks not yet durable are listed; a part that refuses lists its whole shard; a part without
any prepares. -/
def execEndOfPass (f : Frame) (s : State) : Host.Outcome State Fault Refusal :=
  .next (
    match s.nv.dist with
    | none => s.discardFrame
    | some d =>
      match s.landFrame d f 3 with
      | none => s.discardFrame
      | some (s, whole) =>
        if whole && f.digest == short d.digest && d.state != .incomplete && !(d.key.isEmpty && d.refusal = 0) then
          let miss := d.missing
          let l := if d.refusal = 0 then runs miss else d.shard.filter fun r => r.2 != 0
          -- a generation with nothing missing is prepared before the answer leaves
          let s := if d.refusal = 0 && miss.isEmpty then
              (if s.preparing d then
                (if s.nv.generations.any fun g => g.state == .prepared && g.digest == d.digest then
                  s.tellPrepared d.readerPart (short d.digest) else s)
              else s.prepare d)
            else s
          s.sendNaks d f.pass.toNat (l.length + 1) l
        else s)

end Sys2Proof.Machine
end

