-- ==== Sys2Proof/Machine/Commit.lean ====
section
/-! DEFINITION. What a completed record commit makes durable (R327 to R331, Table 13-11). -/

namespace Sys2Proof.Machine

/-! ## The key ring and the padlock (R461 to R467) -/

/-- Tenants of a ring whose entry is gone from another, or holds another adapter key there (R467). -/
def tenantsGone (old new : List KeyEntry) : List (BitVec 12) :=
  (old.filter fun e => !new.any fun f => f.tenant == e.tenant && f.adapterKey == e.adapterKey).map (·.tenant)

/-- Tenants whose prefix key changes. -/
def prefixesChanged (old new : List KeyEntry) : List (BitVec 12) :=
  (old.filter fun e => new.any fun f => f.tenant == e.tenant && f.prefixKey != e.prefixKey).map (·.tenant)

/-- The stored adapters of tenants leave the catalogue; the highest generations stay (R311, R467). -/
def State.dropAdapters (s : State) (l : List (BitVec 12)) : State :=
  let gone := s.nv.generations.filter fun g => g.adapter && l.contains g.tenant && g.state != .highWater
  let s := { s with nv := { s.nv with generations := s.nv.generations.filter fun g => !gone.contains g } }
  gone.foldl (fun s g =>
    s.freeBlocks fun b => b.kind == 2 && b.object == g.object && b.generation == g.generation) s

/-- The key ring is replaced. -/
def State.setKeyRing (s : State) (new : List KeyEntry) : State :=
  let old := s.sec.keyRing
  let gone := tenantsGone old new
  let s := { s with
    sec := { s.sec with keyRing := new }
    sv := if s.isRegistrar && s.inSession then { s.sv with
      removedTenants := s.sv.removedTenants ++ gone
      changedPrefixes := s.sv.changedPrefixes ++ prefixesChanged old new } else s.sv }
  s.dropAdapters gone

/-- The table of a router that no slice uses (Table 11-10). -/
def Router.clear (r : Router) : Router :=
  { r with low := 0, high := 0, full := false, dir := 0xFFFFFFFF, linkmap := 0xE4E4, bellmap := 0xE4E4 }

/-- Coordinates and extents of the routers follow the plan (Table 11-9). -/
def State.placeRouters (s : State) : State :=
  (List.range s.axes).foldl (fun s k => s.modRouter k fun r =>
    { r with coord := BitVec.ofNat 4 (coord s.rc.address k), extent := BitVec.ofNat 5 (s.campus k) }) s

/-- RELEASE erases the plan, the fabric address, the slice assignment and every object; the highest generations
stay (R311). -/
def State.eraseOwned (s : State) : State :=
  let s := s.freeBlocks fun _ => true
  let s := { s with
    rc := { s.rc with plan := none, address := 0, window := false }
    nv := { s.nv with
      generations := s.nv.generations.filter fun g => decide (g.state = GenState.highWater)
      decisions := [], restoreMap := [], lost := [], dist := none, progress := [] } }
  s.placeRouters.clearSlice

/-- Take the padlock where an object leads (Table 19-5). -/
def State.setPadlock (s : State) (state : Padlock) (owner : List Byte) (mask counter : BitVec 64)
    (erase clearRing : Bool) : State :=
  let s := if clearRing then s.setKeyRing [] else s
  let s := if erase then s.eraseOwned else s
  { s with sec := { s.sec with padlock := state, owner := owner, lockMask := mask, ownerCounter := counter } }

/-- Debug mode begins (R446). -/
def State.enterDebug (s : State) (counter : BitVec 64) : State :=
  let s := s.setKeyRing []
  { s with
    sec := { s.sec with ownerCounter := counter }
    dg := { s.dg with debugMode := true, debugMark := true }
    hi := { s.hi with debug := true } }

/-! ## The plan (Table 12-10) -/

/-- A plan leaves a link it does not use DISABLED; every other starts again from DOWN, without a packet. -/
def State.placeLink (s : State) (l : Nat) : State :=
  s.restLink l { (s.link l).fall 0 with txQueue := [] }

/-- The address of the held plan (R299). -/
def State.planAddress (s : State) : FabricAddr :=
  match s.planEntry with
  | some e => e.address
  | none => 0

/-- Acceptance of a plan: links, routing table, epoch, address, window (Table 12-10). -/
def State.acceptPlan (s : State) (p : Plan) : State :=
  let s := { s with
    rc := { s.rc with plan := some p, links := [] }
    rt := { s.rt with
      routers := tabMap (fun _ r => r.clear) s.rt.routers, epoch := 0, slice := 0, role := 0, queue := [], kept := []
      keptLinks := [] } }
  let s := { s with rc := { s.rc with address := s.planAddress } }
  let s := (List.range (linksOf s.fused.variant)).foldl (fun s l => s.placeLink l) s
  s.placeRouters.openWindow

/-! ## Generations, decisions and slots -/

/-- One entry replaces another: that of its object and generation; the high-water entry of its object; and the prepared
one of its object, of which there is at most one (R341). -/
def GenEntry.replaces (e g : GenEntry) : Bool :=
  g.adapter == e.adapter && g.object == e.object &&
  (if e.state == .highWater then g.state == .highWater
    else g.state != .highWater && (g.generation == e.generation || (e.state == .prepared && g.state == .prepared)))

/-- Entries take the place of those they replace; a prepared generation that gives way leaves the store. -/
def State.putGenerations (s : State) (l : List GenEntry) : State :=
  let gone := s.nv.generations.filter fun g => l.any fun e => e.replaces g
  let left := gone.filter fun g => !l.any fun e => g.state == .highWater || e.generation == g.generation
  let s := { s with nv := { s.nv with
    generations := (s.nv.generations.filter fun g => !gone.contains g) ++ l
    progress := s.nv.progress.filter fun p => !l.any fun e =>
      !decide (e.state = GenState.highWater) && e.adapter == p.adapter && e.object == p.object && e.generation == p.generation } }
  State.dropSuperseded (s.freeBlocks fun b => left.any fun g =>
    b.kind == kindOf g.adapter && b.object == g.object && b.generation == g.generation)

/-- Decision entries replace those of their digest. -/
def State.putDecisions (s : State) (l : List Decision) : State :=
  let rest := s.nv.decisions.filter fun d => !l.any fun e => e.digest == d.digest
  { s with nv := { s.nv with decisions := rest ++ l } }

/-- The image is confirmed (R474). -/
def State.confirm (s : State) : State :=
  let x := s.sec
  let run := { s.runningSlot with state := SlotState.good, failedTrials := 0, activate := false }
  let counter := if x.antiRollback.toNat < run.security.toNat then run.security else x.antiRollback
  let other := if x.running = 0 then x.slotB else x.slotA
  let other := if other.security.toNat < counter.toNat then FirmwareSlot.reset else other
  { s with sec := { x with
      slotA := if x.running = 0 then run else other
      slotB := if x.running = 0 then other else run
      antiRollback := counter, trial := false } }

/-- Apply what a record holds. -/
def State.applyEffect (s : State) : Effect → State
  | .keyRing l c => ({ s with sec := { s.sec with ownerCounter := c } } : State).setKeyRing l
  | .padlock st o m c e r =>
    let s := s.setPadlock st o m c e r
    if e then { s with nv := { s.nv with fabric := s.fabricNow } } else s
  | .debug c => s.enterDebug c
  | .plan p =>
    let s := s.acceptPlan p
    { s with nv := { s.nv with fabric := s.fabricNow } }
  | .fences _ => s
  | .restoreMap _ => s.dropSuperseded
  | .generations l => s.putGenerations l
  | .decisions l => s.putDecisions l
  | .slots a b c =>
    let counter := if s.sec.ownerCounter.toNat < c.toNat then c else s.sec.ownerCounter
    { s with sec := { s.sec with slotA := a, slotB := b, ownerCounter := counter } }
  | .confirm => s.confirm
  | .progress p => s.putProgress p
  | .fabric r => { s with nv := { s.nv with fabric := r } }
  | .wear => s
  | .rewrite _ => s

/-- Answer a service request; the response is kept for a repeat of the request (R470). -/
def State.serve (s : State) (mac : Nat) (a : ServiceAnswer) : State :=
  ({ s with sec := { s.sec with answered := tabSet none s.sec.answered mac (some a) } } : State).emit
    (.service mac a.type a.sequence a.status a.body)

/-! ## The journal (R327, R328, R332, R341) -/

/-- Code of a generation state (Table 13-17). -/
def genCode : GenState → Nat
  | .prepared => 1
  | .committed => 2
  | .superseded => 3
  | .highWater => 4

/-- Order of generation entries (Table 13-16): image id, generation, state. -/
def GenEntry.order (g : GenEntry) : Nat := (g.object.toNat * 65536 + g.generation.toNat) * 8 + genCode g.state

/-- A generation entry (Table 13-17). -/
def GenEntry.bytes (g : GenEntry) : List Byte :=
  toBytes 4 g.object ++ toBytes 2 g.generation ++ [BitVec.ofNat 8 (genCode g.state)] ++ List.replicate 9 0 ++
  (if g.state == .highWater then List.replicate 64 0 else toBytes 64 g.digest)

/-- A decision entry (Table 13-18). -/
def Decision.bytes (e : Decision) : List Byte :=
  [kindOf e.adapter, if e.complete then 2 else 1] ++ natToBytes 2 e.parts ++ toBytes 4 e.object ++
  toBytes 2 e.generation ++ toBytes 2 e.boxLow ++ toBytes 2 e.boxHigh ++ [0, 0] ++ toBytes 64 e.digest ++
  List.replicate 16 0

/-- Body of a WEIGHT_GENERATIONS record (Table 13-16). -/
def weightsBody (l : List GenEntry) (k : List Decision) : List Byte :=
  natToBytes 4 l.length ++ natToBytes 4 k.length ++ List.replicate 8 0 ++
  (sortBy GenEntry.order l).flatMap GenEntry.bytes ++ k.flatMap Decision.bytes

/-- Body of a record: the plan as delivered (R287), Table 13-16, and for the others what the manual does not lay out. -/
def Content.body (type sequence : Nat) : Content → List Byte
  | .plan (some p) => p.bytes
  | .weights l k => weightsBody l k
  | _ => Config.recordBody type sequence

/-- Content of a record as the part stands. -/
def State.content (s : State) (type : Byte) : Content :=
  match type.toNat with
  | 1 => .plan s.rc.plan
  | 2 => .fabric s.nv.fabric
  | 3 => .owner s.sec.padlock s.sec.owner s.sec.lockMask
  | 4 => .keyRing s.sec.keyRing
  | 5 => .adapters (s.nv.generations.filter (·.adapter))
  | 6 => .weights (s.nv.generations.filter fun g => !g.adapter) s.nv.decisions
  | 7 => .restoreMap s.nv.restoreMap
  | 8 => .slots { s.sec.slotA with image := [] } { s.sec.slotB with image := [] }
  | 9 => .antiRollback s.sec.ownerCounter s.sec.antiRollback
  | 0x0A => .wear s.wearOf
  | 0x0B => .fences s.ts.fences
  | _ => .progress s.nv.progress

/-- Content that a commit writes for a type: what it was started with, or as the part then stands. -/
def State.committedContent (s : State) (e : Effect) (type : Byte) : Content :=
  match e with
  | .fences t => .fences t
  | .restoreMap l => .restoreMap l
  | _ => s.content type

/-- Major in which the running image writes a type: the boot ROM's two records and TILE_FENCES stay in major 1 (R468). -/
def State.writesMajor (s : State) (type : Byte) : Byte :=
  if type = 8 || type = 9 || type = 0x0B then 1 else (s.runningSlot.majors.head?).getD 1

/-- The running image reads a major of a type (R333). -/
def State.readsMajor (s : State) (type major : Byte) : Bool :=
  major == s.writesMajor type || (type != 8 && type != 9 && type != 0x0B && s.runningSlot.majors.contains major)

/-- Nonce of a record (R328). -/
def recordNonce (sequence : BitVec 64) (type : Byte) : List Byte := toBytes 8 sequence ++ [type, 0, 0, 0]

/-- Header bytes 0 to 31 of a record (Table 13-12). -/
def recordHeader (type major : Byte) (length : Nat) (sequence : BitVec 64) : List Byte :=
  [type, major, 0, 0] ++ natToBytes 4 length ++ toBytes 8 sequence ++ List.replicate 16 0

/-- A record copy, before it has a place; its body is at most 1 MiB. -/
def State.recordCopy (s : State) (type : Byte) (sequence : BitVec 64) (x : Content) : RecordCopy :=
  let body := (x.body type.toNat sequence.toNat).take 1048576
  let major := s.writesMajor type
  let h := recordHeader type major body.length sequence
  let (ct, tag) := Config.gcmSeal s.recordKey (recordNonce sequence type) h body
  { block := 0, pages := (64 + body.length + 16383) / 16384, type := type, sequence := sequence, major := major
    bytes := h ++ tag ++ List.replicate 16 0 ++ ct, content := x, verifies := true }

/-- Record copies on a stack. -/
def State.copies (s : State) (k : Nat) : List RecordCopy := tabGet [] s.nv.journal k

/-- Program pages of a journal erase block that are taken; it has 1,536. -/
def State.pagesIn (s : State) (k j : Nat) : Nat := (((s.copies k).filter fun c => c.block == j).map (·.pages)).sum

/-- The erase block number of journal erase block j: behind those of user capacity. -/
def journalErase (j : Nat) : Nat := 5462 + j

/-- Journal erase blocks of a stack that are still usable. -/
def State.journalBlocks (s : State) (k : Nat) : List Nat :=
  (List.range 32).filter fun j => !(s.stack k).gone.contains (journalErase j)

/-- Erased journal erase blocks, the least worn first. -/
def State.erasedJournal (s : State) (k : Nat) : List Nat :=
  sortBy (fun j => (s.eraseBlock k (journalErase j)).erases) ((s.journalBlocks k).filter fun j => s.pagesIn k j == 0)

/-- Where a copy of so many pages goes: behind the newest copy, or into an erased erase block. -/
def State.journalPlaces (s : State) (k pages : Nat) : List Nat :=
  let newest := ((s.copies k).getLast?).map (·.block)
  ((s.journalBlocks k).filter fun j => some j == newest && s.pagesIn k j != 0 && s.pagesIn k j + pages ≤ 1536) ++
  s.erasedJournal k

/-- The stacks among 0 to 2 that take record copies (R330). -/
def State.copyStacks (s : State) : List Nat :=
  (List.range 3).filter fun k => (s.stack k).state == .online || (s.stack k).state == .readOnly

/-- Write a record on a stack, in none of the erase blocks that have failed; a stack that cannot place it is FAILED. -/
def State.writeCopy (s : State) (c : RecordCopy) (k : Nat) (bad : List Nat) : State :=
  match (s.journalPlaces k c.pages).find? fun j => !bad.contains j with
  | some j => { s with nv := { s.nv with journal := tabMod [] s.nv.journal k fun l => l ++ [{ c with block := j }] } }
  | none => s.modStack k fun x => { x with state := .failed }

/-- Journal erase blocks of a stack that fail the programming of a copy, in the order tried. -/
def State.badJournal (s : State) (failed : List (Nat × Nat)) (k : Nat) : List Nat :=
  (s.journalPlaces k 1).take (((failed.filter fun e => e.1 == k).map (·.2)).sum)

/-- Write the records of a commit on every stack that takes copies; erase blocks that fail are retired (R330, R336). -/
def State.writeRecords (s : State) (c : Commit) (failed : List (Nat × Nat)) : State :=
  let bad := s.badJournal failed
  let t := s.copyStacks.foldl (fun s k => (bad k).foldl (fun s j => s.retireBlock k (journalErase j)) s) s
  let l := c.types.zipIdx.map fun e =>
    t.recordCopy e.1 (c.sequence + BitVec.ofNat 64 e.2) (t.committedContent c.effect e.1)
  l.foldl (fun t x => t.copyStacks.foldl (fun t k => t.writeCopy x k (bad k)) t) t

/-- A commit with fewer than three copies is degraded; the first is signalled (R330). -/
def State.noteDegraded (s : State) : State :=
  if 3 ≤ s.copyStacks.length then s
  else
    let s := { s with nv := { s.nv with degraded := true } }
    if s.nv.degradedTold then s else State.msix { s with nv := { s.nv with degradedTold := true } } 0 3

/-- Copies of a type on the stacks that can be read. -/
def State.typeCopies (s : State) (type : Byte) : List RecordCopy :=
  s.copyStacks.flatMap fun k => (s.copies k).filter fun c => c.type == type

/-- The copy of the highest sequence number. -/
def newestCopy (l : List RecordCopy) : Option RecordCopy :=
  l.foldl (fun best c => match best with
    | none => some c
    | some b => if b.sequence.toNat < c.sequence.toNat then some c else some b) none

/-- The current record of a type (R331). -/
def State.currentRecord (s : State) (type : Byte) : Option RecordCopy :=
  newestCopy ((s.typeCopies type).filter fun c => c.verifies && s.readsMajor type c.major)

/-- Types with a current record. -/
def State.currentTypes (s : State) : List Byte :=
  ((List.range 12).map fun i => BitVec.ofNat 8 (i + 1)).filter fun t => (s.currentRecord t).isSome

/-- A copy that an image in TRIAL keeps for the fallback image: the newest verifying one of its major (R333). -/
def State.keptCopy (s : State) (c : RecordCopy) : Bool :=
  s.sec.trial && c.verifies &&
  (newestCopy ((s.typeCopies c.type).filter fun x => x.verifies && x.major == c.major)).any fun x => x.sequence == c.sequence

/-- A copy that another has replaced. -/
def State.superseded (s : State) (c : RecordCopy) : Bool :=
  !s.keptCopy c && (s.currentRecord c.type).any fun x => x.sequence != c.sequence

/-- The journal erase blocks of a stack that hold only superseded copies. -/
def State.staleJournal (s : State) (k : Nat) : List Nat :=
  (List.range 32).filter fun j =>
    let l := (s.copies k).filter fun c => c.block == j
    !l.isEmpty && l.all s.superseded

/-- The end of a compaction: those blocks are erased (R332). -/
def State.eraseJournal (s : State) : State :=
  let gone := s.copyStacks.map fun k => (k, s.staleJournal k)
  gone.foldl (fun s e => e.2.foldl (fun s j =>
    let s := { s with nv := { s.nv with
      journal := tabMod [] s.nv.journal e.1 fun l => l.filter fun c => c.block != j } }
    if (s.stack e.1).gone.contains (journalErase j) then s else s.eraseOne e.1 (journalErase j) false) s) s

/-- An erase block of a stack that a compaction would leave with superseded copies alone: none in it is kept for a fallback
image, and the newest copy is elsewhere. -/
def State.compactable (s : State) (k : Nat) : Bool :=
  let newest := ((s.copies k).getLast?).map (·.block)
  (s.copies k).any fun c => some c.block != newest &&
    !(s.copies k).any fun x => x.block == c.block && x.major != s.writesMajor x.type && s.keptCopy x

/-- The journal area of a stack is full: at most one erased erase block is left (log 147). -/
def State.journalFull (s : State) : Bool := s.copyStacks.any fun k => (s.erasedJournal k).length ≤ 1 && s.compactable k

/-- A compaction is under way. -/
def State.compacting (s : State) : Bool := s.nv.commits.any fun c => c.after == .eraseJournal

/-- Write current records again, each as a new commit; the last one carries what follows. -/
def State.rewriteAll (s : State) (a : After) : List Byte → State
  | [] => s
  | [t] => s.startCommit t (.rewrite [t]) a
  | t :: u :: l => (s.startCommit t (.rewrite [t]) .nothing).rewriteAll a (u :: l)

/-- Compaction of a full journal (R332). -/
def State.compact (s : State) : State :=
  if s.journalFull && !s.compacting then s.rewriteAll .eraseJournal s.currentTypes else s

/-- Complete decision entries leave the record that is next written (R341). -/
def State.dropDecisions (s : State) (c : Commit) : State :=
  if c.types.contains 6 then
    { s with nv := { s.nv with decisions := s.nv.decisions.filter fun d => !d.complete } }
  else s

/-- A commit completes: its effect holds, its records are written. -/
def State.complete (s : State) (c : Commit) (failed : List (Nat × Nat)) : State :=
  let t := (s.dropDecisions c).applyEffect c.effect
  (t.writeRecords c failed).noteDegraded.recordWear t

end Sys2Proof.Machine
end

