-- ==== Sys2Proof/Machine/Mailbox.lean ====
section
/-! DEFINITION. The mailbox (chapter 16): requests landing, the checks of R403, responses, and the commands that
report on the part. -/

namespace Sys2Proof.Machine

/-! ## Requests (R398 to R400, R404, R408) -/

/-- Opcodes of Table 16-5. -/
def opcodes : List Nat :=
  [0x01, 0x02, 0x03, 0x10, 0x11, 0x12, 0x13, 0x14, 0x15, 0x16, 0x20, 0x21, 0x22, 0x23, 0x24, 0x30, 0x31, 0x32,
   0x40, 0x41, 0x50, 0x51, 0x60, 0x61, 0x62, 0x63, 0x70, 0x71, 0x72]

/-- Requests taken and not yet answered. -/
def Mailbox.held (x : Mailbox) : Nat := x.queue.length + x.running + x.responses.length

/-- The length field is allowed. -/
def lengthAllowed (n : Nat) : Bool := n % 4 == 0 && 32 ≤ n && n ≤ 3840

/-- A request from its bytes. -/
def requestOf (b : List Byte) : MailRequest :=
  { opcode := fieldAt 16 b 2, sequence := fieldAt 32 b 4, cookie := fieldAt 64 b 16, major := (b[0]?).getD 0
    minor := (b[1]?).getD 0, body := (b.take (natAt b 8 4)).drop 32 }

/-- Empty the buffer. -/
def Mailbox.clear (x : Mailbox) : Mailbox := { x with inBytes := [], inMask := [], inFree := x.held < 4 }

/-- Discard a message. -/
def Mailbox.discard (x : Mailbox) : Mailbox := ({ x with discards := x.discards + 1 } : Mailbox).clear

/-- In STORE_FAULT only IDENTIFY and ATTEST are answered (R403). -/
def State.takesRequest (s : State) (r : MailRequest) : Bool :=
  !s.nv.storeFault || r.opcode == 0x02 || r.opcode == 0x70

/-- Take a request, or discard it. -/
def State.takeMessage (s : State) (x : Mailbox) (b : List Byte) : Mailbox :=
  let r := requestOf b
  if s.takesRequest r then ({ x with queue := x.queue ++ [r] } : Mailbox).clear else x.discard

/-- Bytes land in the buffer. -/
def Mailbox.land (x : Mailbox) (off : Nat) : List Byte → Mailbox
  | [] => x
  | b :: t =>
    let y : Mailbox := { x with inBytes := tabSet 0 x.inBytes off b, inMask := tabSet false x.inMask off true }
    y.land (off + 1) t

/-- The first n bytes of the buffer have landed. -/
def Mailbox.landed (x : Mailbox) (n : Nat) : Bool := (List.range n).all fun i => tabGet false x.inMask i

/-- The first n bytes of the buffer. -/
def Mailbox.bytes (x : Mailbox) (n : Nat) : List Byte := (List.range n).map fun i => tabGet 0 x.inBytes i

/-- A buffer after bytes have landed: discarded on its length, taken when it is visible, or left. -/
def State.checkBuffer (s : State) (x : Mailbox) : Mailbox :=
  if x.landed 12 then
    let n := natAt (x.bytes 12) 8 4
    if !lengthAllowed n then x.discard else if x.landed n then s.takeMessage x (x.bytes n) else x
  else x

/-- A host write to the mailbox-in of a function, through the BAR and at the address where the buffer begins. -/
def State.mailboxWrite (s : State) (k : Nat) (bar2 : Bool) (base off : Nat) (bytes : List Byte) : State :=
  let x := s.mbox k
  if !x.inFree then s.violate k 4 bar2 (base + off)
  else if s.hi.ready then s.setMbox k (s.checkBuffer (x.land off bytes))
  else s

/-- A BMP message over I3C: dropped before the part is ready and while four are held. -/
def State.i3cMessage (s : State) (bytes : List Byte) : State :=
  let x := s.mbox 64
  if s.hi.ready && s.rc.dynamic.isSome && x.held < 4 then
    let n := natAt bytes 8 4
    s.setMbox 64 (if 12 ≤ bytes.length && lengthAllowed n && bytes.length = n then s.takeMessage x bytes else x.discard)
  else s

/-- MAILBOX_REQUEST: bytes reach the mailbox-in of a function, or a whole message the I3C transport (64). -/
def execMailboxRequest (tr : BitVec 7) (offset : BitVec 12) (bytes : List Byte) (s : State) :
    Host.Outcome State Fault Refusal :=
  let k := tr.toNat
  .next (if k < 64 then s.mailboxWrite k true 0x10000 offset.toNat bytes else if k = 64 then s.i3cMessage bytes else s)

/-! ## Responses (R399, R405, R408) -/

/-- A body, padded to a multiple of 4 bytes. -/
def padded (b : List Byte) : List Byte := b ++ List.replicate ((4 - b.length % 4) % 4) 0

/-- The bytes of a response. -/
def responseBytes (r : MailResponse) : List Byte :=
  let b := padded r.body
  [r.major, r.minor] ++ toBytes 2 r.opcode ++ toBytes 4 r.sequence ++ natToBytes 4 (32 + b.length) ++
  toBytes 2 r.status ++ [1, 0] ++ toBytes 8 r.cookie ++ List.replicate 8 0 ++ b

/-- The message type and vendor number that precede a BMP message over I3C. -/
def vendorPrefix : List Byte := [0x7F, 0x00, 0x4D, 0x0A, 0x2E]

/-- Write the oldest response that waits: to mailbox-out while it is free, or onto I3C. -/
def State.writeResponse (s : State) (k : Nat) : State :=
  let x := s.mbox k
  match x.responses with
  | [] => s
  | r :: t =>
    let y : Mailbox := { x with responses := t }
    let y : Mailbox := { y with inFree := y.held < 4 }
    if k = 64 then (s.setMbox k y).emit (.i3cResponse (vendorPrefix ++ responseBytes r))
    else if x.outValid then s
    else (s.setMbox k { y with outValid := true, outBytes := responseBytes r }).msix k 0

/-- MB_OUT_RELEASE: the host writes 1 to out_valid. -/
def State.releaseOut (s : State) (k : Nat) : State :=
  if k < 64 then s.setMbox k { s.mbox k with outValid := false } else s

/-- MB_OUT_RELEASE. -/
def execMbOutRelease (tr : BitVec 7) (s : State) : Host.Outcome State Fault Refusal := .next (s.releaseOut tr.toNat)

/-! ## Starting a command (R402 to R404) -/

/-- The transport's next command can start: none of its own runs, and a HELLO waits for the earlier responses. -/
def Mailbox.ready (x : Mailbox) : Bool :=
  match x.queue with
  | [] => false
  | r :: _ => x.running = 0 && (r.opcode != 1 || x.responses.isEmpty)

/-- It is this transport's turn: it is ready, and no transport before it is. -/
def State.mailTurn (s : State) (k : Nat) : Bool := (s.mbox k).ready && s.mb.all fun e => k ≤ e.1 || !e.2.ready

/-- The first three checks of R403; they do not apply in STORE_FAULT. -/
def State.sessionStatus (s : State) (x : Mailbox) (r : MailRequest) : BitVec 16 :=
  if s.nv.storeFault then 0
  else if x.session && (r.major != x.major || r.minor != x.minor) then 0x01
  else if !x.session then 0x03
  else if r.sequence != x.expected then 0x02
  else 0

/-- Which transports may issue a command: the PF, the VFs, I3C. -/
structure Issuers where
  vf : Bool
  i3c : Bool
  deriving DecidableEq, Repr

/-- PF only; every transport; PF and I3C. -/
def onlyPf : Issuers := ⟨false, false⟩
def everyone : Issuers := ⟨true, true⟩
def pfOrI3c : Issuers := ⟨false, true⟩

/-- The transport is among the issuers. -/
def Issuers.grants (i : Issuers) (k : Nat) : Bool := k = 0 || (k < 64 && i.vf) || (k = 64 && i.i3c)

/-- Checks 5 to 7 of R403. -/
def State.commandStatus (s : State) (granted formed persistent : Bool) : BitVec 16 :=
  if !granted then 0x06 else if !formed then 0x05 else if persistent && s.sec.trial then 0x0E else 0

/-- What a command is in Table 16-5 and Table 16-6: opcode, issuers, shortest body, whether the counts fit, whether
it changes a persistent record. -/
structure CommandKind where
  opcode : Nat
  issuers : Issuers
  length : Nat
  persistent : Bool
  deriving DecidableEq, Repr

/-- The answer address of a request. -/
def waitingOf (k : Nat) (x : Mailbox) (r : MailRequest) : Waiting :=
  { transport := BitVec.ofNat 7 k, opcode := r.opcode, sequence := r.sequence, cookie := r.cookie, life := x.life }

/-- Take the request at the head of a transport's queue: it is started. -/
def State.startRequest (s : State) (k : Nat) (x : Mailbox) (t : List MailRequest) (counted : Bool) : State :=
  s.setMbox k { x with
    queue := t, running := x.running + 1, expected := if counted then x.expected + 1 else x.expected }

/-- Start the command at the head of a transport's queue, if it is of this kind: the checks of R403 in order, then
its effect. `granted` adds to the issuers; `fits` tells that every count fits the body. -/
def State.command (s : State) (tr : BitVec 7) (kind : CommandKind) (granted : Bool) (fits : List Byte → Bool)
    (run : State → Waiting → List Byte → State) : State :=
  let k := tr.toNat
  let x := s.mbox k
  match x.queue with
  | [] => s
  | r :: t =>
    if r.opcode.toNat = kind.opcode && s.mailTurn k then
      let a := s.sessionStatus x r
      let b := s.commandStatus (kind.issuers.grants k && granted)
        (kind.length ≤ r.body.length && fits r.body) kind.persistent
      let s := s.startRequest k x t (a = 0 && !s.nv.storeFault)
      let w := waitingOf k x r
      if a != 0 then s.answer w a [] else if b != 0 then s.answer w b [] else run s w r.body
    else s

/-- Any body fits. -/
def anyBody (_ : List Byte) : Bool := true

/-- A request of a reserved opcode is refused. -/
def State.refuseReserved (s : State) (k : Nat) : State :=
  let x := s.mbox k
  match x.queue with
  | [] => s
  | r :: t =>
    if !opcodes.contains r.opcode.toNat && s.mailTurn k then
      let a := s.sessionStatus x r
      (s.startRequest k x t (a = 0)).answer (waitingOf k x r) (if a != 0 then a else 0x04) []
    else s

/-- MAILBOX_RESPONSE: a request of a reserved opcode at the head is answered, and the oldest response is written. -/
def execMailboxResponse (tr : BitVec 7) (s : State) : Host.Outcome State Fault Refusal :=
  .next ((s.refuseReserved tr.toNat).writeResponse tr.toNat)

/-! ## HELLO (R401) -/

/-- The (major, minor) pairs of a HELLO. -/
def helloPairs (b : List Byte) : List (Nat × Nat) :=
  (List.range (natAt b 0 1)).map fun i => (natAt b (4 + 2 * i) 1, natAt b (5 + 2 * i) 1)

/-- The status of a malformed HELLO: LENGTH where the body has no room for its pairs, RANGE for a count outside 1 to 6. -/
def helloStatus (b : List Byte) : BitVec 16 :=
  let n := natAt b 0 1
  if b.length < 4 + 2 * n then 0x05 else if n = 0 || 6 < n then 0x0B else 0

/-- Response body of HELLO. -/
def State.helloBody (s : State) : List Byte :=
  [1, 0, 0, 0] ++ toBytes 4 s.runningSlot.version ++ natToBytes 2 3840 ++ [4, 0, 0, 0, 0, 0]

/-- HELLO: the part lists (1, 0). -/
def execHello (tr : BitVec 7) (s : State) : Host.Outcome State Fault Refusal :=
  let k := tr.toNat
  let x := s.mbox k
  .next (
    match x.queue with
    | [] => s
    | r :: t =>
      if r.opcode == 1 && s.mailTurn k && k ≤ 64 then
        let w := waitingOf k x r
        let s := s.startRequest k x t false
        if helloStatus r.body != 0 then s.answer w (helloStatus r.body) []
        else if (helloPairs r.body).any fun p => p.1 = 1 then
          let y := s.mbox k
          (s.setMbox k { y with session := true, expected := r.sequence + 1, major := 1, minor := 0 }).answer w stOk
            s.helloBody
        else s.answer w 0x01 []
      else s)

/-! ## IDENTIFY -/

/-- House number (Table 12-8). -/
def State.houseNumber (s : State) : Nat :=
  let a := s.rc.address
  let m (k : Nat) := (s.campus k + 1) / 2
  if ioDiesOf s.fused.variant = 2 then coord a 0 / 2 + m 0 * (coord a 1 / 4)
  else coord a 0 / 2 + m 0 * (coord a 1 / 2 + m 1 * (coord a 2 / 2 + m 2 * coord a 3))

/-- Codes of the job states (R410). -/
def jobCode : JobState → Byte
  | .none => 0 | .created => 1 | .assigned => 2 | .loaded => 3 | .relocated => 4 | .inSession => 5 | .ended => 6

/-- Digest of the plan held. -/
def State.planDigest (s : State) : BitVec 64 :=
  match s.rc.plan with
  | some p => p.digest
  | none => 0

/-- Response body of IDENTIFY, over the service port too (R470). -/
def State.identifyBody (s : State) : List Byte :=
  let l := s.report12
  natToBytes 2 0x9400 ++ [steppingByte s.fused.stepping, padlockByte s.sec.padlock] ++ toBytes 8 s.fused.serial ++
  toBytes 4 s.runningSlot.version ++ toBytes 2 s.rc.address ++ natToBytes 1 s.position ++ natToBytes 1 s.rollState ++
  natToBytes 2 s.houseNumber ++ [jobCode s.job.state] ++ natToBytes 1 l.length ++ toBytes 8 s.planDigest ++ l.flatten

/-- IDENTIFY. -/
def execIdentify (tr : BitVec 7) (s : State) : Host.Outcome State Fault Refusal :=
  .next (s.command tr ⟨0x02, everyone, 0, false⟩ true anyBody fun s w _ => s.answer w stOk s.identifyBody)

/-! ## CAPS (R416) -/

/-- Tiles that are not fenced (Table 4-17). -/
def State.usableMap (s : State) : BitVec 1024 := packFields 1 1024 fun t => ofBit (!s.fenced t)

/-- Bytes 0 to 79 of the capability table. -/
def State.capsHead (s : State) : List Byte :=
  let v := s.fused.variant
  let b0 := s.fused.stepping == .b0
  let m := layersOf v
  [1, 0] ++ natToBytes 2 512 ++ natToBytes 2 0x9400 ++
  [steppingByte s.fused.stepping, if s.fused.gradeG2 then 2 else 1] ++
  natToBytes 1 m ++ natToBytes 1 (stacksOf v) ++ natToBytes 1 (ioDiesOf v) ++ natToBytes 1 (linksOf v) ++
  natToBytes 1 s.gradeStep ++ [if b0 then 3 else 1, 1, 1, 1, 1, 1, 1, if b0 then 1 else 0, 1, 0, 0] ++
  natToBytes 2 1024 ++ natToBytes 2 (popcount s.usableMap 1024) ++ natToBytes 4 524288 ++
  natToBytes 4 (if m = 4 then 33280 else 16896) ++ natToBytes 4 (if stacksOf v = 8 then 1024 else 512) ++
  natToBytes 4 1048576 ++ natToBytes 2 256 ++ natToBytes 2 2048 ++ natToBytes 4 131072 ++ natToBytes 4 131072 ++
  natToBytes 2 64 ++ natToBytes 2 2048 ++ natToBytes 2 64 ++ [15, 0] ++ natToBytes 2 4096 ++ natToBytes 2 3840 ++
  natToBytes 2 0x6E4B ++ [0, 0] ++ natToBytes 4 5048878 ++ natToBytes 4 4500

/-- The capability table. -/
def State.capsTable (s : State) : List Byte :=
  s.capsHead ++ List.replicate 48 0 ++ toBytes 128 s.usableMap ++ List.replicate 256 0

/-- CAPS. -/
def execCaps (tr : BitVec 7) (s : State) : Host.Outcome State Fault Refusal :=
  .next (s.command tr ⟨0x03, everyone, 0, false⟩ true anyBody fun s w _ => s.answer w stOk s.capsTable)

/-! ## UPDATE_STATUS -/

/-- Codes of slot states (Table 16-6). -/
def slotCode : SlotState → Byte
  | .empty => 0 | .good => 1 | .trial => 2 | .bad => 3

/-- Response body of UPDATE_STATUS; the seconds left in a TRIAL come from a clock that the model does not hold. -/
def State.updateBody (s : State) : List Byte × State :=
  let (n, s) := s.draw
  let x := s.sec
  let failed := if x.slotA.state == .trial then x.slotA.failedTrials else if x.slotB.state == .trial then
    x.slotB.failedTrials else 0
  (toBytes 1 (x.running.setWidth 8) ++ [if x.trial then 1 else 0] ++
    (if x.trial then toBytes 2 (Config.freeBits 16 n) else [0, 0]) ++ toBytes 4 x.slotA.version ++
    toBytes 4 x.slotB.version ++ [slotCode x.slotA.state, slotCode x.slotB.state] ++ natToBytes 1 failed ++ [0] ++
    toBytes 8 x.antiRollback, s)

/-- UPDATE_STATUS. -/
def execUpdateStatus (tr : BitVec 7) (s : State) : Host.Outcome State Fault Refusal :=
  .next (s.command tr ⟨0x71, pfOrI3c, 0, false⟩ true anyBody fun s w _ =>
    let (b, s) := s.updateBody
    s.answer w stOk b)

end Sys2Proof.Machine
end

