-- ==== Sys2Proof/Machine/Jobs.lean ====
section
/-! DEFINITION. The job commands (R280 to R282, R410, R421 to R428): what each does on one part of the box, and how the
root carries it to the others. -/

namespace Sys2Proof.Machine

/-! ## Orders of the root -/

/-- Begin a job command that every one of these parts answers. -/
def State.beginOrder (s : State) (op : BitVec 16) (parts : List FabricAddr) : State :=
  { s with job := { s.job with order := op, awaiting := parts, results := [] } }

/-- A command waits for the job command in progress. -/
def State.addWait (s : State) (w : Waiting) : State := { s with job := { s.job with waits := s.job.waits ++ [w] } }

/-- Member index of a part of the box. -/
def Job.indexOf (j : Job) (a : FabricAddr) : Nat := memberIndex j.low j.high a

/-- Of answers with a status, the one first in a ranking, of the lowest member index among equals. -/
def Job.firstRefusal (j : Job) (rank : BitVec 16 → Nat) : Option (BitVec 16 × List Byte) :=
  let bad := j.results.filter fun r => r.2.1 != 0
  (sortBy (fun r => rank r.2.1 * 4096 + j.indexOf r.1) bad).head?.map (·.2)

/-- Body that names the job. -/
def State.jobBody (s : State) : List Byte := toBytes 2 s.job.id

/-! ## JOB_CREATE -/

/-- A new job record on a part, and what JOB_CREATE resets (R66, R225, R374, R436, R441). -/
def State.freshJob (s : State) (id : BitVec 16) (seed : BitVec 64) (replayLimit : BitVec 4) (recessMin : Nat)
    (attach : BitVec 64) : State :=
  let zero (_ : Nat) (x : Tile) : Tile := { x with totals := [], counters := [] }
  let a := s.rc.address
  { s with
    bell := { Bell.reset with
      replayLimit := replayLimit, recessMin := BitVec.ofNat 20 (min 0xFFFFF (max 2048 recessMin)) }
    cq := { s.cq with table := s.cq.table.filter fun e => 256 ≤ e.1 }
    dg := { s.dg with
      digestBell := 0, digestValid := false, digestLesson := 0, digestRun := 0, tensors := [], terms := []
      cntOn := 0, cntSel := [], cntTiles := 0, cnt := [], cntCopy := [], placements := [], placed := false }
    tiles := tabMap zero s.tiles
    sv := { Serving.reset with committed := s.sv.committed }
    sec := { s.sec with snapshot := none }
    job := { Job.reset with state := .created, id := id, seed := seed, attach := attach, low := a, high := a, root := a } }

/-- JOB_CREATE. -/
def State.jobCreate (s : State) (w : Waiting) (b : List Byte) : State :=
  if s.job.state != .none || s.rt.slice != 0 then s.answer w 0x09 []
  else if 15 < natAt b 8 1 then s.answer w 0x0B []
  else
    let (n, s) := s.draw
    let s := s.freshJob (Config.freeBits 16 n) (fieldAt 64 b 0) (BitVec.ofNat 4 (natAt b 8 1)) (natAt b 12 4)
      (fieldAt 64 b 16)
    s.answer w stOk s.jobBody

/-- JOB_CREATE. -/
def execJobCreate (tr : BitVec 7) (s : State) : Host.Outcome State Fault Refusal :=
  .next (s.command tr ⟨0x10, onlyPf, 24, false⟩ true anyBody fun s w b => s.jobCreate w b)

/-- A job command names this part's job and finds it in a state: NO_JOB, STATE, or none. -/
def State.jobStatus (s : State) (b : List Byte) (state : JobState) : BitVec 16 :=
  if s.job.state == .none || fieldAt 16 b 0 != s.job.id then 0x0A else if s.job.state == state then 0 else 0x08

/-! ## SLICE_ASSIGN -/

/-- A box corner from its four bytes. -/
def cornerOf (b : List Byte) (off : Nat) : FabricAddr :=
  BitVec.ofNat 16 ((List.range 4).map fun k => natAt b (off + k) 1 % 16 * 16 ^ k).sum

/-- Positions of a box. -/
def boxSize (low high : FabricAddr) : Nat :=
  boxExtent low high 0 * boxExtent low high 1 * boxExtent low high 2 * boxExtent low high 3

/-- Members of a box by the map of a body. -/
def boxMembers (b : List Byte) (low high : FabricAddr) : BitVec 4096 :=
  fieldAt 4096 b 16 &&& BitVec.ofNat 4096 (2 ^ boxSize low high - 1)

/-- SLICE_SHAPE does not apply (R281). -/
def State.shapeOk (s : State) (b : List Byte) : Bool :=
  (List.range 4).all (fun k =>
    let lo := natAt b (4 + k) 1
    let hi := natAt b (8 + k) 1
    if k < s.axes then lo ≤ hi && hi < s.campus k else lo == 0 && hi == 0) &&
  boxMembers b (cornerOf b 4) (cornerOf b 8) != 0

/-- The member with the lowest fabric address. -/
def rootOf (low high : FabricAddr) (members : BitVec 4096) : FabricAddr :=
  memberAddress low high (((List.range 4096).find? fun i => bit members i).getD 0)

/-- Direction table of an axis over the assigned box (R259). -/
def State.dirTable (s : State) (k : Nat) : Word :=
  let j := s.job
  let full := s.boxFull j.low j.high k
  packFields 2 16 fun d =>
    if coord j.low k ≤ d && d ≤ coord j.high k then
      BitVec.ofNat 2 (direction full (s.campus k) (coord s.rc.address k) d)
    else 3

/-- The routing table that firmware writes at slice assignment, and the links of the bell tree (R276). -/
def State.fillRoutes (s : State) : State :=
  let j := s.job
  (List.range s.axes).foldl (fun s k => s.modRouter k fun r =>
    { r with
      low := BitVec.ofNat 4 (coord j.low k), high := BitVec.ofNat 4 (coord j.high k), full := s.boxFull j.low j.high k
      dir := s.dirTable k, linkmap := s.linkMapOf k, bellmap := s.linkMapOf k }) s

/-- Every link of the part that lies in the box carries packets, and each direction of the box has one (R281, R297). -/
def State.boxLinksServe (s : State) : Bool :=
  (List.range s.axes).all fun k => [false, true].all fun neg =>
    !s.boxStep k neg ||
      (let l := (List.range 4).filter fun i => s.used (8 * k + (if neg then 4 else 0) + i)
       !l.isEmpty && l.all fun i => s.linkServes (8 * k + (if neg then 4 else 0) + i))

/-- One-way delay of the hop to the parent, as roll call measured it (R41, R293). -/
def State.parentHop (s : State) : Nat :=
  match lastAxis s.job.root s.rc.address, s.parentOf s.rc.address with
  | some k, some p =>
    let neg := s.boxDirection k s.job.root s.rc.address == 1
    (s.rollOf (mappedLink (s.router k).bellmap k neg (bundleIndex s.rc.address p))).recorded
  | _, _ => 0

/-- The assignment on one part: SLICE_OVERLAP, SLICE_ABSENT, or the part holds it. -/
def State.assignHere (s : State) (slice : BitVec 8) (low high : FabricAddr) (members : BitVec 4096)
    (root : FabricAddr) (epoch : BitVec 2) (limitUs : Word) : BitVec 16 × State :=
  if s.rt.slice != 0 then (0x13, s)
  else
    let t := { s with job := { s.job with low := low, high := high, members := members, root := root, state := .assigned } }
    if s.rc.plan.isNone || !t.boxLinksServe then (0x15, s)
    else
      let role := if t.isMember then 1 else 2
      let t := t.fillRoutes
      let t := { t with
        rt := { t.rt with slice := slice, role := role, epoch := epoch }
        bell := { t.bell with limitUs := limitUs } }
      (0, t.commitFabric (.reply 0x11 (natToBytes 2 t.parentHop)))

/-- Bell delay of a part: the hops of its path from the root, from the answers. -/
def State.pathDelay (s : State) (a : FabricAddr) : Nat → Nat
  | 0 => 0
  | n + 1 =>
    match s.parentOf a, s.job.results.find? fun r => r.1 == a with
    | some p, some r => natAt r.2.2 0 2 + s.pathDelay p n
    | _, _ => 0

/-- 32 cycles of a step in nanoseconds, rounded up (Table 3-2: 8 / (4 + step) ns). -/
def cycles32 (step : Nat) : Nat := (256 + 3 + step) / (4 + step)

/-- A part's bell delay and release target. -/
def State.setDelays (s : State) (b : List Byte) : State :=
  { s with bell := { s.bell with delayNs := fieldAt 16 b 0, targetNs := fieldAt 16 b 2 } }

/-- Give a part its delays. -/
def State.sendDelays (s : State) (target : Nat) (a : FabricAddr) (d : Nat) : State :=
  let b := natToBytes 2 d ++ natToBytes 2 target
  if a == s.rc.address then s.setDelays b else s.emit (.firmware a (.order 0x8011 b))

/-- The assignment is off: the root's job is CREATED again, and the parts that took it release it. -/
def State.undoAssign (s : State) : State :=
  let took := (s.job.results.filter fun r => r.2.1 == 0 && r.1 != s.rc.address).map (·.1)
  let s := s.tellAll took (.stop s.job.id true)
  let s := if s.job.results.any fun r => r.2.1 == 0 && r.1 == s.rc.address then
      s.clearSlice.commitFabric .nothing else s
  let a := s.rc.address
  { s with job := { s.job with state := .created, low := a, high := a, root := a, members := 0 } }

/-- Every part has answered SLICE_ASSIGN. -/
def State.finishAssign (s : State) : State :=
  let r := s.job.results
  if r.any fun e => e.2.1 == 0x13 then s.undoAssign.answerJob 0x13 []
  else if r.length < boxSize s.job.low s.job.high || r.any (fun e => e.2.1 != 0) then s.undoAssign.answerJob 0x15 []
  else
    let delays := r.map fun e => (e.1, s.pathDelay e.1 64)
    let target := (delays.map (·.2)).foldl max 0 + cycles32 s.pw.step.toNat
    let s := delays.foldl (fun s e => s.sendDelays target e.1 e.2) s
    s.answerJob stOk (toBytes 2 s.job.root ++ natToBytes 2 s.job.memberList.length ++ natToBytes 2 target)

/-- A part of the campus by the plan. -/
def State.planned (s : State) (a : FabricAddr) : Bool :=
  match s.rc.plan with
  | some p => p.entries.any fun e => e.address == a
  | none => false

/-- The root sends the assignment to every part of the box. -/
def State.sendAssign (s : State) (slice : BitVec 8) (low high : FabricAddr) (members : BitVec 4096) (limitUs : Word) :
    State :=
  let a := s.rc.address
  let parts := (boxParts low high).filter fun q => q == a || s.planned q
  let map := pick 4096 fun i => bit members i
  let s := { s with job := { s.job with low := low, high := high, members := members, root := a } }
  let s := s.beginOrder 0x11 parts
  let others := parts.filter fun q => q != a
  let s := s.tellAll others (.create s.job.id s.job.seed (s.bell.replayLimit.setWidth 8) (s.bell.recessMin.setWidth 32))
  let s := s.tellAll others (.assign s.job.id slice low high map a s.rt.epoch limitUs)
  let (st, s) := s.assignHere slice low high members a s.rt.epoch limitUs
  if st = 0 then s else s.giveResult a 0x11 st []

/-- SLICE_ASSIGN at the root. -/
def State.sliceAssign (s : State) (w : Waiting) (b : List Byte) : State :=
  let st := s.jobStatus b .created
  let low := cornerOf b 4
  let high := cornerOf b 8
  let members := boxMembers b low high
  if st != 0 then s.answer w st []
  else if natAt b 2 1 = 0 then s.answer w 0x0B []
  else if !s.shapeOk b then s.answer w 0x14 []
  else if rootOf low high members != s.rc.address then s.answer w 0x0F []
  else
    let relays := popcount members (boxSize low high) < boxSize low high
    let s := (s.addWait w).sendAssign (fieldAt 8 b 2) low high members (if relays then 5000000 else 10000)
    if s.job.awaiting.isEmpty then s.finishAssign else s

/-- SLICE_ASSIGN. -/
def execSliceAssign (tr : BitVec 7) (s : State) : Host.Outcome State Fault Refusal :=
  .next (s.command tr ⟨0x11, onlyPf, 528, true⟩ true anyBody fun s w b => s.sliceAssign w b)

/-! ## TT_LOAD -/

/-- A member's checks, at the root beside those of the image alone; an accepted image is loaded. -/
def State.loadHere (s : State) (im : Image) (alone : Option LoadFault) : BitVec 16 × List Byte × State :=
  match earlierFault (s.checkMember im) alone with
  | some f =>
    let (b, s) := s.faultBody f
    (f.status, b, s)
  | none =>
    (0, List.replicate 12 0, { s with
      job := { s.job with
        image := some im, symbols := im.symbolTable, state := .loaded, setGranules := [], setBytes := []
        completeSets := [], restored := false, discardedFrames := 0 }
      ts := { s.ts with profileB1 := im.profileB1 } })

/-- A refused image leaves the job ASSIGNED. -/
def State.dropImage (s : State) : State :=
  { s with job := { s.job with image := none, symbols := [], state := .assigned } }

/-- What this root tells its lock-step partner of its job (R437). -/
def State.offerOf (s : State) : LockMessage :=
  match s.job.image with
  | some im => .offer im.digest s.job.seed im.determinism s.bell.replayLimit
  | none => .offer 0 s.job.seed [] s.bell.replayLimit

/-- Tell the partner. -/
def State.sendOffer (s : State) : State :=
  match s.dg.partner with
  | some p => s.emit (.lockstep p s.offerOf)
  | none => s

/-- Every member has checked the image. -/
def State.finishLoad (s : State) : State :=
  match s.job.firstRefusal faultOrder with
  | some (st, b) => ((s.tellAll s.otherMembers (.order 0x8012 s.jobBody)).dropImage).answerJob st b
  | none => s.sendOffer.answerJob stOk (List.replicate 12 0)

/-- TT_LOAD with the directory and the sections fetched. -/
def State.loadFetched (s : State) (w : Waiting) (d : List Byte) (length : Nat) (raw : List (List Byte)) : State :=
  let l := metadata d 0 raw
  let im := imageFrom d l
  match checkFormat d length raw im with
  | some f =>
    let (b, s) := s.faultBody f
    s.answer w f.status b
  | none =>
    let s := (s.addWait w).beginOrder 0x12 s.job.memberList
    let s := s.tellAll s.otherMembers (.image d l)
    let (st, b, s) := s.loadHere im (checkImage d raw im)
    let s := s.giveResult s.rc.address 0x12 st b
    if s.job.awaiting.isEmpty then s.finishLoad else s

/-- TT_LOAD at the root: a malformed directory is refused before its sections are fetched. -/
def State.ttLoad (s : State) (host : HostMem) (w : Waiting) (b : List Byte) : State :=
  let st := s.jobStatus b .assigned
  let n := natAt b 4 4
  let addr := natAt b 8 8
  if st != 0 then s.answer w st []
  else if addr % 64 != 0 then s.answer w 0x0B []
  else match hostRead host addr n with
    | none => s.answer w 0x0C []
    | some d =>
      if !headerOk d || n != 128 + 32 * dirSections d then s.loadFetched w d n []
      else match fetchSections host d 0 (dirSections d) with
        | none => s.answer w 0x0C []
        | some raw => s.loadFetched w d n raw

/-- TT_LOAD. -/
def execTtLoad (tr : BitVec 7) (host : HostMem) (s : State) : Host.Outcome State Fault Refusal :=
  .next (s.command tr ⟨0x12, onlyPf, 16, false⟩ true anyBody fun s w b => s.ttLoad host w b)

/-! ## TT_RELOCATE -/

/-- A member relocates its copy and installs its timetable store region (R425). -/
def State.relocateHere (s : State) : List Byte × State :=
  match s.job.image with
  | none => ([], s)
  | some im =>
    let (im, n) := s.relocate s.job.symbols im
    let s := { s with job := { s.job with image := some im, state := .relocated, restored := false } }
    (natToBytes 4 n ++ natToBytes 4 (awaitingSymbols s.job.symbols), s.installStore im)

/-- Every member has relocated: the root's counts are reported. -/
def State.finishRelocate (s : State) : State :=
  let b := match s.job.results.find? fun r => r.1 == s.rc.address with
    | some r => r.2.2
    | none => []
  s.answerJob stOk b

/-- TT_RELOCATE at the root. -/
def State.ttRelocate (s : State) (w : Waiting) (b : List Byte) : State :=
  let st := s.jobStatus b .loaded
  if st != 0 then s.answer w st []
  else
    let s := (s.addWait w).beginOrder 0x13 s.job.memberList
    let s := s.tellAll s.otherMembers (.order 0x13 s.jobBody)
    let (r, s) := s.relocateHere
    let s := s.giveResult s.rc.address 0x13 0 r
    if s.job.awaiting.isEmpty then s.finishRelocate else s

/-- TT_RELOCATE. -/
def execTtRelocate (tr : BitVec 7) (s : State) : Host.Outcome State Fault Refusal :=
  .next (s.command tr ⟨0x13, onlyPf, 2, false⟩ true anyBody fun s w b => s.ttRelocate w b)

/-! ## TT_PATCH -/

/-- Symbols and values of a body. -/
def patchPairs (b : List Byte) : List (Word × BitVec 64) :=
  (List.range (natAt b 2 2)).map fun i => (fieldAt 32 b (8 + 16 * i), fieldAt 64 b (16 + 16 * i))

/-- The symbols are known, await a value, and are named once. -/
def State.patchNames (s : State) (l : List (Word × BitVec 64)) : Bool :=
  l.all fun p =>
    (l.filter fun q => q.1 == p.1).length == 1 &&
      s.job.symbols.any fun y => y.symbol == p.1 && y.value.isNone

/-- Symbols with the values of a patch. -/
def patchedSymbols (l : List (Word × BitVec 64)) (symbols : List SymbolValue) : List SymbolValue :=
  symbols.map fun y => match l.find? fun p => p.1 == y.symbol with
    | some p => if y.value.isNone then { y with value := some p.2 } else y
    | none => y

/-- The records that a patch applies. -/
def State.patchRecords (s : State) (im : Image) (l : List (Word × BitVec 64)) : List Reloc :=
  im.relocs.filter fun r => r.kind = 4 && (match s.job.symbols[r.operand]? with
    | some y => l.any fun p => p.1 == y.symbol
    | none => false)

/-- The image with a patch applied. -/
def State.patchedImage (s : State) (im : Image) (l : List (Word × BitVec 64)) : Image :=
  (s.applyRelocs (patchedSymbols l s.job.symbols) im (s.patchRecords im l)).1

/-- A record changes this member's copy of a section of one of these kinds. -/
def State.ownTarget (s : State) (im : Image) (r : Reloc) (kinds : List Nat) : Bool :=
  match im.sections[r.sect]? with
  | some x => kinds.contains x.kind.toNat && (x.member == 0xFFFF || x.member.toNat == s.member)
  | none => false

/-- Checks 10 and 11 on the fields that a patch changes. -/
def State.patchCheck (s : State) (b : List Byte) : BitVec 16 × List Byte × State :=
  match s.job.image with
  | none => (0, [], s)
  | some im =>
    let l := patchPairs b
    let hits (kinds : List Nat) : Bool := (s.patchRecords im l).any fun r => s.ownTarget im r kinds
    let copy := s.patchedImage im l
    match firstFault [if hits [0x04, 0x0C] then s.checkRegions copy else none,
        if hits [0x08] then s.checkReloc copy else none] with
    | none => (0, [], s)
    | some f =>
      let (b, s) := s.faultBody f
      (f.status, b, s)

/-- A member takes the values. -/
def State.patchHere (s : State) (b : List Byte) : State :=
  match s.job.image with
  | none => s
  | some im =>
    let l := patchPairs b
    let im := s.patchedImage im l
    State.installStore { s with job := { s.job with image := some im, symbols := patchedSymbols l s.job.symbols } } im

/-- Every member holds the values. -/
def State.finishPatch (s : State) : State := s.answerJob stOk (natToBytes 4 (awaitingSymbols s.job.symbols))

/-- Every member has checked the patch: refused, or given to all. -/
def State.finishPatchCheck (s : State) (b : List Byte) : State :=
  match s.job.firstRefusal faultOrder with
  | some (st, r) => s.answerJob st r
  | none =>
    let s := s.beginOrder 0x8014 s.job.memberList
    let s := s.tellAll s.otherMembers (.order 0x8014 b)
    let s := (s.patchHere b).giveResult s.rc.address 0x8014 0 []
    if s.job.awaiting.isEmpty then s.finishPatch else s

/-- TT_PATCH at the root. -/
def State.ttPatch (s : State) (w : Waiting) (b : List Byte) : State :=
  let st := s.jobStatus b .relocated
  let n := natAt b 2 2
  if st != 0 then s.answer w st []
  else if n = 0 || 64 < n || !s.patchNames (patchPairs b) then s.answer w 0x0B []
  else
    let s := (s.addWait w).beginOrder 0x14 s.job.memberList
    let s := { s with job := { s.job with orderBody := b } }
    let s := s.tellAll s.otherMembers (.order 0x14 b)
    let (st, r, s) := s.patchCheck b
    let s := s.giveResult s.rc.address 0x14 st r
    if s.job.awaiting.isEmpty then s.finishPatchCheck b else s

/-- TT_PATCH. -/
def execTtPatch (tr : BitVec 7) (s : State) : Host.Outcome State Fault Refusal :=
  .next (s.command tr ⟨0x14, onlyPf, 8, false⟩ true (fun b => 8 + 16 * natAt b 2 2 ≤ b.length)
    fun s w b => s.ttPatch w b)

/-! ## JOB_START (R428) -/

/-- Every bundle set of this member is complete. -/
def State.setsComplete (s : State) (im : Image) : Bool :=
  im.sections.all fun x =>
    x.kind != 3 || !(x.member == 0xFFFF || x.member.toNat == s.member) || s.job.completeSets.contains x.id.toNat

/-- The conditions of JOB_START on a member: the status of the first that fails. -/
def State.startCheck (s : State) : BitVec 16 :=
  match s.job.image with
  | none => 0x08
  | some im =>
    if s.job.state != .relocated || awaitingSymbols s.job.symbols != 0 || !s.setsComplete im ||
        (!(weightEntries im s.member).isEmpty && !s.job.restored) then 0x08
    else if !(weightEntries im s.member).isEmpty && s.mapDamaged then 0x16
    else match firstFault [s.checkElp im, s.checkWidth im, s.checkTiles im] with
      | some f => f.status
      | none => 0

/-- Order of the statuses of JOB_START. -/
def startOrder (st : BitVec 16) : Nat :=
  match st.toNat with
  | 0x08 => 0 | 0x16 => 1
  | _ => faultOrder st

/-- The lock-step partner has named this root, with the same image, seed, profile and replay limit (R437). -/
def State.pairAgrees (s : State) : Bool :=
  match s.dg.partner with
  | none => true
  | some p => s.dg.offer == some (p, s.offerOf)

/-- The steps of JOB_START on one part of the box; the restore map of a job without weights is empty. -/
def State.startHere (s : State) (b : List Byte) : State :=
  let s := s.wake
  let s := { s with
    job := { s.job with termCount := fieldAt 32 b 0, termsDone := 0 }, bell := { s.bell with index := 0 } }
  let s := match s.job.image with
    | some im => if s.isMember then
        let s := s.installJob im s.nextIndex
        if (weightEntries im s.member).isEmpty && !s.nv.restoreMap.isEmpty then
          State.recordMap { s with nv := { s.nv with restoreMap := [] } } .nothing
        else s
      else s
    | none => s
  { s with
    job := { s.job with state := .inSession }
    dg := { s.dg with paired := natAt b 4 1 == 1 } }

/-- Every member has met its conditions: the job starts on all parts. -/
def State.finishStartCheck (s : State) : State :=
  match s.job.firstRefusal startOrder with
  | some (st, _) => s.answerJob st []
  | none =>
    let b := s.job.orderBody
    let s := s.beginOrder 0x8015 (s.rc.address :: s.otherParts)
    let s := s.tellAll s.otherParts (.order 0x8015 b)
    let s := s.startHere b
    let s := s.giveResult s.rc.address 0x8015 0 (toBytes 1 ((s.stepWanted (some 0)).setWidth 8))
    if s.job.awaiting.isEmpty then s.finishStart else s

/-- JOB_START at the root. -/
def State.jobStart (s : State) (w : Waiting) (b : List Byte) : State :=
  let st := s.jobStatus b .relocated
  if st != 0 then s.answer w st []
  else
    let paired : Byte := if s.dg.partner.isSome then 1 else 0
    let s := (s.addWait w).beginOrder 0x15 s.job.memberList
    let s := { s with job := { s.job with orderBody := bytesAt b 4 4 ++ [paired] } }
    let s := s.tellAll s.otherMembers (.order 0x15 s.jobBody)
    let s := s.giveResult s.rc.address 0x15 (if s.pairAgrees then s.startCheck else 0x08) []
    if s.job.awaiting.isEmpty then s.finishStartCheck else s

/-- JOB_START. -/
def execJobStart (tr : BitVec 7) (s : State) : Host.Outcome State Fault Refusal :=
  .next (s.command tr ⟨0x15, onlyPf, 8, false⟩ true anyBody fun s w b => s.jobStart w b)

/-! ## JOB_STOP (R32, R415, R451) -/

/-- A debug stop holds the recess in progress. -/
def State.stopHeld (s : State) : Bool :=
  (s.bell.phase == .recess || s.bell.phase == .ready) &&
    (s.dg.stopped || (s.dg.debugMode && s.bell.lastDirty && bit s.bell.causes cClockStop))

/-- Release a job that is not in session. -/
def State.releaseEnded (s : State) (w : Waiting) : State :=
  let body := s.stopBody
  let s := s.tellAll s.otherParts (.stop s.job.id true)
  s.releaseJob (.respondAll [w] body)

/-- JOB_STOP at the root. -/
def State.jobStop (s : State) (w : Waiting) (b : List Byte) : State :=
  let release := natAt b 2 1 % 2 == 1
  if s.job.state == .none || fieldAt 16 b 0 != s.job.id then s.answer w 0x0A []
  else if s.job.state == .ended then
    if release then s.releaseEnded w else s.answer w stOk s.stopBody
  else
    let s := State.addWait { s with job := { s.job with stop := some release } } w
    if s.inSession then (if s.stopHeld then s.endEverywhere .stopped 0 else s) else s.endEverywhere .idle 0

/-- JOB_STOP. -/
def execJobStop (tr : BitVec 7) (s : State) : Host.Outcome State Fault Refusal :=
  .next (s.command tr ⟨0x16, onlyPf, 3, false⟩ true anyBody fun s w b => s.jobStop w b)

/-! ## WEIGHTS_RESTORE (R324) -/

/-- A restore-map entry from a weight-map entry; generation 0 is resolved now. -/
def State.mapEntry (s : State) (e : List Byte) : MapEntry :=
  let adapter := natAt e 5 1 == 2
  let object : Word := fieldAt 32 e 8
  let gen : BitVec 16 := fieldAt 16 e 6
  { block := natAt e 0 5 % 2 ^ 37 / 65536, adapter := adapter, object := object
    generation := if gen = 0 then (match s.committedGen adapter object with
      | some g => g.generation
      | none => 0) else gen
    index := fieldAt 32 e 12 }

/-- The model tag of the job (R355): over the manifest digests of its weight images, in ascending image id. -/
def State.modelTagOf (s : State) (im : Image) : BitVec 64 :=
  let all := im.sections.flatMap fun x => if x.kind == 8 then (weightEntries im x.member.toNat).map s.mapEntry else []
  let images := ((all.filter fun e => !e.adapter).map fun e => (e.object.toNat, e.generation)).eraseDups
  let digests := (sortBy (·.1) images).filterMap fun e => (s.genOf false (BitVec.ofNat 32 e.1) e.2).map (·.digest)
  (Config.sha3 (digests.flatMap (toBytes 64))).setWidth 64

/-- A member sets its restore map and restores it. -/
def State.restoreHere (s : State) : State :=
  match s.job.image with
  | none => s
  | some im =>
    let map := (weightEntries im s.member).map s.mapEntry
    let s := State.recordMap { s with job := { s.job with modelTag := s.modelTagOf im }, nv := { s.nv with
      restoreMap := map, restores := map, restoredCount := 0, lostMet := 0, restoring := true } } .endRestore
    s.wake.endRestore

/-- WEIGHTS_RESTORE at the root. -/
def State.weightsRestore (s : State) (w : Waiting) (b : List Byte) : State :=
  let st := s.jobStatus b .relocated
  if st != 0 then s.answer w st []
  else
    let s := (s.addWait w).beginOrder 0x21 s.job.memberList
    (s.tellAll s.otherMembers (.order 0x21 s.jobBody)).restoreHere

/-- WEIGHTS_RESTORE. -/
def execWeightsRestore (tr : BitVec 7) (s : State) : Host.Outcome State Fault Refusal :=
  .next (s.command tr ⟨0x21, onlyPf, 2, true⟩ true anyBody fun s w b => s.weightsRestore w b)

/-! ## The orders at the other parts of the box -/

/-- Answer an order to the root. -/
def State.reply (s : State) (op st : BitVec 16) (b : List Byte) : State :=
  s.emit (.firmware s.job.root (.done s.rc.address op st b))

/-- A part of the box carries out an order of the root. -/
def State.obey (s : State) (op : BitVec 16) (b : List Byte) : State :=
  match op.toNat with
  | 0x8011 => s.setDelays b
  | 0x8012 => s.dropImage
  | 0x13 =>
    let (r, s) := s.relocateHere
    s.reply op 0 r
  | 0x14 =>
    let (st, r, s) := s.patchCheck b
    s.reply op st r
  | 0x8014 => (s.patchHere b).reply op 0 []
  | 0x15 => s.reply op s.startCheck []
  | 0x8015 =>
    let s := s.startHere b
    s.reply op 0 (toBytes 1 ((if s.isMember then s.stepWanted (some 0) else 7).setWidth 8))
  | 0x21 => s.restoreHere
  | _ => s

/-- The root goes on once every part has answered. -/
def State.orderDone (s : State) : State :=
  if s.job.awaiting.isEmpty then
    match s.job.order.toNat with
    | 0x11 => s.finishAssign
    | 0x12 => s.finishLoad
    | 0x13 => s.finishRelocate
    | 0x14 => s.finishPatchCheck s.job.orderBody
    | 0x8014 => s.finishPatch
    | 0x15 => s.finishStartCheck
    | 0x8015 => s.finishStart
    | 0x21 => s.finishRestore
    | _ => s
  else s

/-- A part's answer at the root. -/
def State.takeResult (s : State) (part : FabricAddr) (op st : BitVec 16) (b : List Byte) : State :=
  if s.isRoot && s.job.order == op && s.job.awaiting.contains part then (s.giveResult part op st b).orderDone else s

end Sys2Proof.Machine
end

