-- ==== Sys2Proof/Machine/Commands.lean ====
section
/-! DEFINITION. The other mailbox commands without a signed object: serving, power, routing, counters, debug,
lock-step, attestation. -/

namespace Sys2Proof.Machine

/-- The body of the request at the head of a transport's queue. -/
def State.headBody (s : State) (k : Nat) : List Byte :=
  match (s.mbox k).queue with
  | [] => []
  | r :: _ => r.body

/-- Job id of a body is this part's job. -/
def State.namesJob (s : State) (b : List Byte) : Bool := s.job.state != .none && fieldAt 16 b 0 == s.job.id

/-! ## ADAPTER_BIND (R414) -/

/-- ADAPTER_BIND at the registrar part: it waits for order 7 of the next term recess. -/
def State.adapterBind (s : State) (w : Waiting) (b : List Byte) : State :=
  let op := natAt b 2 1
  let adapter : Word := fieldAt 32 b 4
  let tenant : BitVec 12 := BitVec.ofNat 12 (natAt b 8 2)
  if !s.namesJob b then s.answer w 0x0A []
  else if !s.inSession || !s.isRegistrar then s.answer w 0x08 []
  else if 4095 < natAt b 8 2 || (s.keyEntry tenant).isNone then s.answer w 0x29 []
  else if 1 < op || (s.adapterGen tenant adapter).isNone then s.answer w 0x0B []
  else
    let p : PinRequest := { pin := op == 0, adapter := adapter, tenant := tenant, wait := w }
    { s with sv := { s.sv with pinRequests := s.sv.pinRequests ++ [p] } }

/-- ADAPTER_BIND. -/
def execAdapterBind (tr : BitVec 7) (s : State) : Host.Outcome State Fault Refusal :=
  .next (s.command tr ⟨0x23, onlyPf, 10, false⟩ true anyBody fun s w b => s.adapterBind w b)

/-! ## Power (R415, R480, R484) -/

/-- POWER_STEP. -/
def State.powerStep (s : State) (w : Waiting) (b : List Byte) : State :=
  let step := natAt b 0 1
  if s.gradeStep < step then s.answer w 0x10 []
  else
    let s := { s with pw := { s.pw with requested := BitVec.ofNat 3 step, stepWaits := s.pw.stepWaits ++ [w] } }
    if s.inSession && s.isMember then s else s.settleStep.holdStep

/-- POWER_STEP. -/
def execPowerStep (tr : BitVec 7) (s : State) : Host.Outcome State Fault Refusal :=
  .next (s.command tr ⟨0x30, onlyPf, 1, false⟩ true anyBody fun s w b => s.powerStep w b)

/-- POWER_LIMIT: lowered in session it waits for the next release; otherwise it is held at once. -/
def State.powerLimit (s : State) (w : Waiting) (b : List Byte) : State :=
  let n := natAt b 0 1
  if 3 < n then s.answer w 0x0B []
  else
    let l : BitVec 2 := BitVec.ofNat 2 n
    let s := { s with pw := { s.pw with nextLimit := some l, limitWaits := s.pw.limitWaits ++ [w] } }
    if s.inSession && s.isMember && n < s.pw.limit.toNat then s else s.holdLimit.settleStep

/-- POWER_LIMIT. -/
def execPowerLimit (tr : BitVec 7) (s : State) : Host.Outcome State Fault Refusal :=
  .next (s.command tr ⟨0x31, pfOrI3c, 1, false⟩ true anyBody fun s w b => s.powerLimit w b)

/-- The running job's image declares a half-layer in use. -/
def State.halfInUse (s : State) (die half : Nat) : Bool :=
  s.inSession && (match s.job.image with
    | some im => declaredHalves im s.member die / 2 ^ half % 2 == 1
    | none => false)

/-- A state of a half-layer that a request of BANK_POWER is content with. -/
def gateDone (up : Bool) (g : BitVec 2) : Bool := if up then g == 0 else g == 2

/-- BANK_POWER (R207, R208). -/
def State.bankPower (s : State) (w : Waiting) (b : List Byte) : State :=
  let die := natAt b 0 1
  let half := natAt b 1 1
  let op := natAt b 2 1
  if 3 < die || 2 * layersOf s.fused.variant ≤ half || 1 < op then s.answer w 0x0B []
  else if op = 0 && s.halfInUse die half then s.answer w 0x11 []
  else if gateDone (op == 1) (s.gateOf die half) then s.answer w stOk (toBytes 1 ((s.gateOf die half).setWidth 8))
  else
    let r : GateRequest := { die := BitVec.ofNat 2 die, half := BitVec.ofNat 3 half, up := op == 1 }
    let s := { s with mem := { s.mem with gateWaits := s.mem.gateWaits ++ [(r, w)] } }
    if op = 0 && s.inSession then { s with mem := { s.mem with gateRequests := s.mem.gateRequests ++ [r] } }
    else s.gateNow r

/-- BANK_POWER. -/
def execBankPower (tr : BitVec 7) (s : State) : Host.Outcome State Fault Refusal :=
  .next (s.command tr ⟨0x32, onlyPf, 3, false⟩ true anyBody fun s w b => s.bankPower w b)

/-! ## Routing tables (R278, R279) -/

/-- This part drains, for a part that waits for its quiet. -/
def State.drainHere (s : State) (asker : FabricAddr) : State :=
  { s with rt := { s.rt with drain := true, drainAskers := s.rt.drainAskers ++ [asker] } }

/-- Other parts of the slice, as the job record names them. -/
def State.sliceParts (s : State) : List FabricAddr := if s.job.state == .none then [] else s.otherParts

/-- ROUTE_DRAIN. -/
def State.routeDrain (s : State) (w : Waiting) (b : List Byte) : State :=
  let op := natAt b 1 1
  let a := s.rc.address
  if natAt b 0 1 = 0 || natAt b 0 1 ≠ s.rt.slice.toNat || 1 < op then s.answer w 0x0B []
  else if op = 0 then
    if s.inSession then s.answer w 0x08 []
    else (s.tellAll s.sliceParts (.order 0x40 [0])).undrain.answer w stOk []
  else
    let s := s.tellAll s.sliceParts (.order 0x40 ([1] ++ toBytes 2 a))
    let s := { s with rt := { s.rt with
      drainWaits := s.rt.drainWaits ++ [w], drainAwaiting := a :: s.sliceParts } }
    s.drainHere a

/-- ROUTE_DRAIN. -/
def execRouteDrain (tr : BitVec 7) (s : State) : Host.Outcome State Fault Refusal :=
  .next (s.command tr ⟨0x40, onlyPf, 2, false⟩ true anyBody fun s w b => s.routeDrain w b)

/-- ROUTE_SET: at once with no job in session; in session it waits for step 9 of the recess in which the slice has
drained (R279). -/
def State.routeSet (s : State) (w : Waiting) (b : List Byte) : State :=
  if s.inSession && !s.rt.drain then s.answer w 0x08 []
  else if 2 < natAt b 1 1 then s.answer w 0x0B []
  else if s.inSession then
    { s with rt := { s.rt with routeWaits := s.rt.routeWaits ++ [(w, b)] } }
  else s.routeSetNow w b

/-- ROUTE_SET. -/
def execRouteSet (tr : BitVec 7) (s : State) : Host.Outcome State Fault Refusal :=
  .next (s.command tr ⟨0x41, onlyPf, 80, true⟩ true anyBody fun s w b => s.routeSet w b)

/-! ## Counters (R441 to R444) -/

/-- Selectors of a scope (Table 18-3). -/
def selectorListed (scope sel : Nat) : Bool :=
  sel = 0 || (match scope with
    | 0 => 1 ≤ sel && sel ≤ 0x0E
    | 1 => 0x0101 ≤ sel && sel ≤ 0x0108
    | 2 => 0x0201 ≤ sel && sel ≤ 0x0207
    | _ => 0x0301 ≤ sel && sel ≤ 0x0308)

/-- A VF is attached to a job. -/
def State.ownJob (s : State) (k : Nat) : Bool := k = 0 || k = 64 || s.attached k

/-- COUNTERS_ENABLE. -/
def State.countersEnable (s : State) (w : Waiting) (b : List Byte) : State :=
  let scope := natAt b 0 1
  let op := natAt b 1 1
  if 3 < scope || 1 < op ||
      (op = 1 && !(List.range 8).all fun i => selectorListed scope (natAt b (4 + 2 * i) 2)) then s.answer w 0x0B []
  else if s.inSession then { s with dg := { s.dg with cntWaits := s.dg.cntWaits ++ [(w, b)] } }
  else (s.applyCounters b).answer w stOk []

/-- COUNTERS_ENABLE. -/
def execCountersEnable (tr : BitVec 7) (s : State) : Host.Outcome State Fault Refusal :=
  let k := tr.toNat
  let granted := s.ownJob k && (k = 0 || natAt (s.headBody k) 0 1 = 0)
  .next (s.command tr ⟨0x50, ⟨true, false⟩, 148, false⟩ granted anyBody fun s w b => s.countersEnable w b)

/-- The flag summary (R185). -/
def State.flagBody (s : State) : List Byte :=
  (List.range 4).flatMap fun f =>
    let x := tabGet { set := false, bell := 0, part := 0, tile := 0 : FlagSummary } s.job.flagSummary f
    toBytes 5 x.bell ++ [if x.set then 1 else 0] ++ toBytes 2 x.part ++ toBytes 2 (x.tile.setWidth 16) ++
      List.replicate 6 0

/-- Contexts that are not FREE, and visible REQ_OPENs, of the functions that a predicate selects. -/
def State.openCount (s : State) (p : Nat → Bool) : Nat :=
  (s.sv.contexts.filter fun e => e.2.state != .free && p e.2.function.toNat).length
def State.pendingCount (s : State) (p : Nat → Bool) : Nat :=
  if s.isRegistrar then (s.pendingOpens.filter fun e => p e.2.1).length else 0
def State.pausedCount (s : State) (p : Nat → Bool) : Nat :=
  (s.sv.contexts.filter fun e => e.2.paused && p e.2.function.toNat).length

/-- The registrar status (Table 14-10): of the whole job, or of a VF's own requests. -/
def State.registrarBody (s : State) (k : Nat) : List Byte :=
  let p (f : Nat) : Bool := k = 0 || k = 64 || f = k
  let sent := (s.sv.tokensSent.filter fun e => p e.1).map fun e => e.2.toNat
  let pool := match s.job.image with
    | some im => servingPool im
    | none => 0
  let rows := (s.sv.contexts.filter fun e => e.2.state != .free).map fun e => e.2.rows
  let middle :=
    natToBytes 4 rows.sum ++ natToBytes 4 (s.sv.freePages pool).length ++
    natToBytes 4 (s.sv.cachedFree pool).length ++ natToBytes 4 s.sv.reservedPages ++
    natToBytes 2 (s.sv.slots.filter fun e => e.2.references != 0 || e.2.pins != 0).length ++
    natToBytes 2 (s.sv.slots.filter fun e => e.2.adapter != 0 && !e.2.loaded && !e.2.lost).length ++
    toBytes 8 s.sv.admittedCount ++ toBytes 8 s.sv.prefixHits ++ toBytes 8 s.sv.prefixMisses
  natToBytes 4 (s.openCount p) ++ natToBytes 4 (s.pendingCount p) ++ natToBytes 4 (s.pausedCount p) ++
  (if k = 0 || k = 64 then middle else List.replicate 44 0) ++ natToBytes 8 sent.sum

/-- Eight counts behind the time-stamp of their sample. -/
def State.countsBody (s : State) (count : Nat → BitVec 64) : List Byte :=
  toBytes 8 s.dg.cntStamp ++ (List.range 8).flatMap fun i => toBytes 8 (count i)

/-- Instances of a scope. -/
def State.instances (s : State) (scope : Nat) : Nat :=
  match scope with
  | 1 => 4
  | 2 => linksOf s.fused.variant
  | _ => s.axes

/-- COUNTERS_READ. -/
def State.countersRead (s : State) (k : Nat) (w : Waiting) (b : List Byte) : State :=
  let n := natAt b 2 2
  match natAt b 0 1 with
  | 0 => s.answer w stOk s.flagBody
  | 1 => s.answer w stOk (s.registrarBody k)
  | 2 => if n < 1024 then s.answer w stOk (s.countsBody fun i => tabGet 0 (s.tile n).totals i) else s.answer w 0x0B []
  | 3 =>
    let scope := n / 256 % 4
    let inst := n % 256
    if n < 1024 && scope != 0 && inst < s.instances scope then
      s.answer w stOk (s.countsBody fun i => tabGet 0 s.dg.cntCopy (256 * (64 * scope + inst) + i))
    else s.answer w 0x0B []
  | _ => s.answer w 0x0B []

/-- COUNTERS_READ. -/
def execCountersRead (tr : BitVec 7) (s : State) : Host.Outcome State Fault Refusal :=
  let k := tr.toNat
  let granted := s.ownJob k && (k = 0 || k = 64 || natAt (s.headBody k) 0 1 ≤ 2)
  .next (s.command tr ⟨0x51, everyone, 4, false⟩ granted anyBody fun s w b => s.countersRead k w b)

/-! ## Debug (R449, R451, R453) -/

/-- DEBUG_PROBE. -/
def State.debugProbe (s : State) (w : Waiting) (b : List Byte) : State :=
  if s.dg.debugMode then
    let t := (List.range 16).foldl (fun t i => tabSet 0 t i (fieldAt 16 b (2 * i))) []
    State.answer { s with dg := { s.dg with probes := t } } w stOk []
  else s.answer w 0x08 []

/-- DEBUG_PROBE. -/
def execDebugProbe (tr : BitVec 7) (s : State) : Host.Outcome State Fault Refusal :=
  .next (s.command tr ⟨0x61, onlyPf, 32, false⟩ true anyBody fun s w b => s.debugProbe w b)

/-- A breakpoint stop of this kind holds the part's ready. -/
def State.brokenBy (s : State) (kind : Nat) : Bool := s.dg.stopped && !s.dg.hazard && s.dg.stopKind.toNat == kind

/-- DEBUG_BREAK: op 0 for the kind that fired lets the part send its ready. -/
def State.debugBreak (s : State) (w : Waiting) (b : List Byte) : State :=
  let op := natAt b 0 1
  let kind := natAt b 1 1
  if !s.dg.debugMode then s.answer w 0x08 []
  else if 1 < op || 2 < kind || (op = 1 && 1023 < natAt b 2 2 && natAt b 2 2 != 0xFFFF) then s.answer w 0x0B []
  else
    let rest := s.dg.breakpoints.filter fun x => x.kind.toNat != kind
    let new : Breakpoint := { kind := BitVec.ofNat 2 kind, tile := fieldAt 16 b 2, value := fieldAt 64 b 8 }
    let s := { s with
      bell := if op = 0 && s.brokenBy kind then { s.bell with withheld := false } else s.bell
      dg := { s.dg with breakpoints := if op = 0 then rest else rest ++ [new] } }
    s.answer w stOk []

/-- DEBUG_BREAK. -/
def execDebugBreak (tr : BitVec 7) (s : State) : Host.Outcome State Fault Refusal :=
  .next (s.command tr ⟨0x62, onlyPf, 16, false⟩ true anyBody fun s w b => s.debugBreak w b)

/-! ## Lock-step (R437 to R440) -/

/-- LOCKSTEP. -/
def State.lockstep (s : State) (w : Waiting) (b : List Byte) : State :=
  let op := natAt b 2 1
  if !s.namesJob b then s.answer w 0x0A []
  else if 1 < op then s.answer w 0x0B []
  else if op = 1 then
    if s.job.state == .created || s.job.state == .assigned then
      let s := State.sendOffer { s with dg := { s.dg with
        partner := some (fieldAt 16 b 4), lockMismatch := false, lockBell := 0, lockMember := 0 } }
      s.answer w stOk s.lockBody
    else s.answer w 0x08 []
  else if s.inSession then { s with dg := { s.dg with unpairAtBell := s.dg.unpairAtBell ++ [w] } }
  else
    let s := s.leavePair
    s.answer w stOk s.lockBody

/-- LOCKSTEP. -/
def execLockstep (tr : BitVec 7) (s : State) : Host.Outcome State Fault Refusal :=
  .next (s.command tr ⟨0x63, onlyPf, 6, false⟩ true anyBody fun s w b => s.lockstep w b)

/-- A message of the partner, or of a root that names this one. -/
def State.takeLock (s : State) (partner : FabricAddr) (m : LockMessage) : State :=
  match m with
  | .offer _ _ _ _ => { s with dg := { s.dg with offer := some (partner, m) } }
  | .withdraw =>
    let s := if s.dg.offer.any fun e => e.1 == partner then { s with dg := { s.dg with offer := none } } else s
    if s.dg.partner == some partner && s.inSession then { s with dg := { s.dg with paired := false, partner := none } } else s
  | .digest bell value members =>
    if s.isRoot && s.dg.paired && s.dg.partner == some partner then
      State.compareSlices { s with dg := { s.dg with partnerSlice := some (bell, value), partnerMembers := members } }
    else s

/-- LOCKSTEP_DIGEST: a lock-step message over the service port. -/
def execLockstepDigest (partner : FabricAddr) (m : LockMessage) (s : State) : Host.Outcome State Fault Refusal :=
  .next (s.takeLock partner m)

/-- LOCKSTEP_PLACEMENT: the leader's records of a term recess. -/
def execLockstepPlacement (partner : FabricAddr) (bell : BitVec 40) (records : List PlacementRec) (s : State) :
    Host.Outcome State Fault Refusal :=
  .next (
    if s.dg.paired && s.dg.partner == some partner && s.follows then
      let d := { s.dg with placements := s.dg.placements ++ [(bell.toNat, records)] }
      let s := State.tryPlacement { s with dg := d }
      -- bell 0 of a job with an empty prologue has waited for it
      if s.dg.placed && s.bell.phase == .idle then s.orderDone else s
    else s)

/-! ## ATTEST (R458 to R460) -/

/-- A DER certificate behind its length. -/
def certificateBytes (c : List Byte) : List Byte := natToBytes 4 c.length ++ c

/-- The alias, key-wrapping and device certificates (Table 19-3). -/
def State.certificates (s : State) : List Byte :=
  let run := s.runningSlot
  let ext := toBytes 64 run.digest ++ toBytes 4 run.version ++ toBytes 8 run.security ++
    [s.sec.running.setWidth 8, if s.sec.trial then 1 else 0, if s.sec.bootDebug then 1 else 0]
  certificateBytes (Config.certificate s.identitySeed s.fused.serial (Config.mlDsaPublic s.aliasSeed) ext) ++
  certificateBytes (Config.certificate s.identitySeed s.fused.serial (Config.mlKemPublic s.wrapSeed) []) ++
  certificateBytes s.fused.deviceCert

/-- The bytes of a report before its signature; `total` is the length of the whole. -/
def reportBody (serial : BitVec 64) (stepping : Byte) (x : Snapshot) (nonce : List Byte) (tenant : BitVec 16)
    (total : Nat) : List Byte :=
  let l := (x.adapters.filter fun e => e.1.toNat == tenant.toNat).map (·.2)
  [1, 0, 0, 0] ++ natToBytes 4 total ++ toBytes 8 serial ++ [stepping, x.padlock, x.flags, 0] ++
  toBytes 4 x.version ++ toBytes 8 x.security ++ toBytes 5 x.bell ++ [0] ++ toBytes 2 tenant ++
  natToBytes 4 x.weights.length ++ natToBytes 4 l.length ++ List.replicate 16 0 ++ bytesAt nonce 0 64 ++
  toBytes 64 x.firmware ++ toBytes 64 x.configuration ++ x.weights.flatten ++ l.flatten

/-- What the report of this moment is built from (R459). -/
def State.attested (s : State) : Snapshot :=
  if s.inSession then s.sec.snapshot.getD (s.snapshotNow 0xFFFFFFFFFF) else s.snapshotNow 0xFFFFFFFFFF

/-- A new report (Table 19-4). -/
def State.attestReport (s : State) (nonce : List Byte) (tenant : BitVec 16) : List Byte :=
  let x := s.attested
  let stepping := steppingByte s.fused.stepping
  let certs := s.certificates
  let n := (reportBody s.fused.serial stepping x nonce tenant 0).length
  let body := reportBody s.fused.serial stepping x nonce tenant (n + sigBytes + certs.length)
  body ++ bytesAt (Config.mlDsaSign s.aliasSeed (hash body)) 0 sigBytes ++ certs

/-- ATTEST. -/
def State.attest (s : State) (k : Nat) (w : Waiting) (b : List Byte) : State :=
  let nonce := bytesAt b 0 64
  let tenant : BitVec 16 := fieldAt 16 b 64
  let off := natAt b 68 4
  let piece (r : List Byte) : List Byte := natToBytes 4 r.length ++ natToBytes 4 off ++ (r.drop off).take 3800
  if off = 0 then
    let r := s.attestReport nonce tenant
    (s.setMbox k { s.mbox k with report := some (nonce, tenant, r) }).answer w stOk (piece r)
  else match (s.mbox k).report with
    | some (n, t, r) => if n == nonce && t == tenant then s.answer w stOk (piece r) else s.answer w 0x08 []
    | none => s.answer w 0x08 []

/-- A function may name a tenant. -/
def State.tenantUsable (s : State) (k : Nat) (tenant : Nat) : Bool :=
  k = 0 || k = 64 || tenant = 0xFFFF ||
    s.sec.keyRing.any fun e => e.tenant.toNat == tenant && bit e.functions k

/-- ATTEST. -/
def execAttest (tr : BitVec 7) (s : State) : Host.Outcome State Fault Refusal :=
  let k := tr.toNat
  .next (s.command tr ⟨0x70, everyone, 72, false⟩ (s.tenantUsable k (natAt (s.headBody k) 64 2)) anyBody
    fun s w b => s.attest k w b)

end Sys2Proof.Machine
end

