-- ==== Sys2Proof/Machine/Reset.lean ====
section
/-! DEFINITION. Supplies, power states, resets and start-up (chapter 20), and the triggers from temperature and
power. -/

namespace Sys2Proof.Machine

/-! ## Clearing the domains (R25, R488) -/

/-- A tile after a part reset: what firmware counts per word since power-up stays (R112). -/
def Tile.afterReset (x : Tile) : Tile :=
  { Tile.reset with storeUeSeen := x.storeUeSeen, ibUeSeen := x.ibUeSeen }

/-- Tiles after a part reset. -/
def resetTiles (t : Tab Tile) : Tab Tile := (tabMap (fun _ x => x.afterReset) t).filter fun e => e.2 != .reset

/-- Domain A alone is reset or off: the stretched cycles and the discards count on since part reset (R84). -/
def Tile.afterCompute (x : Tile) : Tile :=
  { x.afterReset with
    isle := { Island.reset with stretch := { Stretch.reset with stretched := x.isle.stretched } }
    discards := x.discards }

/-- Tiles of a domain A that is reset or off. -/
def computeTiles (t : Tab Tile) : Tab Tile := (tabMap (fun _ x => x.afterCompute) t).filter fun e => e.2 != .reset

/-- The counts of the stepped islands with domain A reset or off; the I/O dies and the controller count on. -/
def Epoch.afterCompute (e : Epoch) : Epoch :=
  let f (id : Nat) (x : Stretch) : Stretch :=
    if id < 24576 then { Stretch.reset with stretched := x.stretched } else x
  { e with isles := (tabMap f e.isles).filter fun e => e.2 != .reset, halted := none, gated := none, missed := 0 }

/-- The counts after domain A has been reset or switched off. -/
def Stamps.afterCompute (t : Stamps) : Stamps :=
  { t with now := t.now.afterCompute, before := t.before.afterCompute }

/-- A router after a reset: its coordinate and extent are the FABRIC record's (Tables 11-9, 11-10). -/
def Router.afterReset (r : Router) : Router := { Router.reset with coord := r.coord, extent := r.extent }

/-- The mount restores the routing table of the FABRIC record (R284). -/
def State.restoreRoutes (s : State) : State :=
  (List.range s.axes).foldl (fun s k =>
    let f := tabGet .reset s.nv.fabric.routers k
    s.modRouter k fun r =>
      { r with low := f.low, high := f.high, full := f.full, dir := f.dir, linkmap := f.linkmap, bellmap := f.bellmap }) s

/-- The fabric after a reset. -/
def Fabric.afterReset (f : Fabric) : Fabric :=
  { Fabric.reset with
    epoch := f.epoch, slice := f.slice, role := f.role, routers := tabMap (fun _ r => r.afterReset) f.routers }

/-- A link's roll call after a reset: the recorded delay stays; a relay part's links on the routes of a job are verified
again (R284, R298). -/
def RollEntry.afterReset (x : RollEntry) (again : Bool) : RollEntry :=
  { RollEntry.reset with recorded := x.recorded, reverify := again }

/-- Roll call of every link after a reset. -/
def State.rollAfterReset (s : State) : Tab RollEntry :=
  let again := if s.rt.role == 2 && s.inSession then s.routeLinks else []
  (List.range 32).foldl (fun t l => tabSet .reset t l ((s.rollOf l).afterReset (again.contains l))) []

/-- A stack after a reset: its counters are zero. -/
def Stack.afterReset (x : Stack) : Stack :=
  { x with ce := 0, ue := 0, tagFail := 0, refresh := 0, disturb := 0 }

/-- The store after a reset: what its records and blocks hold. -/
def Store.afterReset (v : Store) : Store :=
  { Store.reset with
    stackTab := tabMap (fun _ x => x.afterReset) v.stackTab, eraseBlocks := v.eraseBlocks, blocks := v.blocks
    generations := v.generations, decisions := v.decisions, lost := v.lost, journal := v.journal
    nextSequence := v.nextSequence, restoreMap := v.restoreMap, progress := v.progress
    fabric := v.fabric }

/-- Every mailbox is reset (R407). -/
def resetMailbox (x : Mailbox) : Mailbox := { Mailbox.reset with life := x.life + 1 }

/-- Mailboxes of every transport. -/
def resetMailboxes (t : Tab Mailbox) : Tab Mailbox :=
  (List.range 65).foldl (fun t k => tabSet .reset t k (resetMailbox (tabGet .reset t k))) t

/-- Commits that have not started never will; their sequence numbers are given back (R328, R334). -/
def State.dropUnstarted (s : State) : State :=
  let n := ((s.nv.commits.filter fun c => !c.started).flatMap Commit.types).length
  { s with nv := { s.nv with
      commits := s.nv.commits.filter (·.started), nextSequence := s.nv.nextSequence - BitVec.ofNat 64 n } }

/-- A power-up of the standby domain or a reset finds each record commit in flight committed or absent (R490). -/
def State.settleCommits (s : State) : State :=
  let s := s.dropUnstarted
  let l := s.nv.commits
  let s := { s with nv := { s.nv with commits := [] } }
  let s := l.foldl (fun s c =>
    let (n, s) := s.draw
    if bit (Config.freeBits 1 n) 0 then s.complete c [] else s) s
  s.dropUnstarted

/-- Links that were MATCH under the image now leaving (R473). -/
def State.matchNow (s : State) : List Nat := pick (linksOf s.fused.variant) fun l => s.rollKind l == some 0

/-- Domains A, B and C are reset, with a power state, a cause for PW_LAST_RESET, and the DEBUG mark that stays. -/
def State.resetDomains (s : State) (state : PowerState) (cause : BitVec 4) (mark : Bool) : State :=
  let relay := s.rt.role == 2
  let keep := if s.sec.trial then s.sec.matchBefore else s.matchNow
  { s with
    tiles := resetTiles s.tiles
    bell := .reset
    job := if relay then s.job else .reset
    mem := .reset, cq := .reset, lkSelect := 0, lkLane := 0, links := []
    rt := s.rt.afterReset
    rc := { s.rc with window := false, eid := 0, links := s.rollAfterReset }
    nv := s.nv.afterReset, sv := .reset, hi := .reset, mb := resetMailboxes s.mb
    dg := { Debug.reset with debugMark := mark, tapIr := s.dg.tapIr, tapData := s.dg.tapData }
    sec := { s.sec with
      trial := false, recovery := false, secretLocked := false, update := none, answered := []
      matchBefore := keep, bootDebug := mark, snapshot := none }
    pw := { Power.reset with state := state, lastReset := cause, rom := s.pw.rom }
    pins := { s.pins with thermTrip := false, hotTrip := false }
    ts := { Stamps.reset with fences := s.ts.fences } }

/-! ## The boot ROM (R456, R457, R469, R475) -/

/-- A slot whose third trial has failed is bad. -/
def FirmwareSlot.judge (x : FirmwareSlot) : FirmwareSlot :=
  if x.state == .trial && !x.activate && 3 ≤ x.failedTrials then { x with state := .bad } else x

/-- The slot starts a trial. -/
def FirmwareSlot.begin_ (x : FirmwareSlot) : FirmwareSlot := { x with activate := false, failedTrials := x.failedTrials + 1 }

/-- A confirmed slot that the anti-rollback counter allows. -/
def State.bootable (s : State) (x : FirmwareSlot) : Bool :=
  x.state == .good && s.sec.antiRollback.toNat ≤ x.security.toNat

/-- A record that the boot ROM commits, before firmware starts (R468, R469, Table 20-6). -/
def State.commitNow (s : State) (type : Byte) (e : Effect) : State :=
  let c : Commit := { type := type, sequence := s.nv.nextSequence, started := true, effect := e, after := .nothing }
  State.complete { s with nv := { s.nv with
    nextSequence := s.nv.nextSequence + BitVec.ofNat 64 c.types.length } } c []

/-- The image chosen runs: firmware starts. -/
def State.startImage (s : State) (slot : BitVec 1) (trial : Bool) : State :=
  { s with
    sec := { s.sec with running := slot, trial := trial, secretLocked := true }
    pw := { s.pw with firmware := true, startup := 1 } }

/-- The boot ROM chooses an image. -/
def State.boot (s : State) : State :=
  let a := s.sec.slotA.judge
  let b := s.sec.slotB.judge
  let s := if a == s.sec.slotA && b == s.sec.slotB then s else s.commitNow 8 (.slots a b 0)
  if a.state == .trial && a.activate then (s.commitNow 8 (.slots a.begin_ b 0)).startImage 0 true
  else if b.state == .trial && b.activate then (s.commitNow 8 (.slots a b.begin_ 0)).startImage 1 true
  else if s.bootable a && s.bootable b && a.security == b.security then
    let (n, s) := s.draw
    s.startImage (Config.freeBits 1 n) false
  else if s.bootable a && (!s.bootable b || b.security.toNat < a.security.toNat) then s.startImage 0 false
  else if s.bootable b then s.startImage 1 false
  else { s with sec := { s.sec with recovery := true, secretLocked := true }, pw := { s.pw with startup := 1 } }

/-- Step 1 completes once input and reference are good and no reset is held (R491, R505). -/
def State.tryBoot (s : State) : State :=
  if s.pins.vsb && s.pins.inputGood && s.pins.refclk && !s.pins.partRst && s.pw.startup = 0 then s.boot else s

/-- Start-up step 1: the boot ROM starts, domains B and C power up. -/
def State.startUp (s : State) : State :=
  if s.pins.vsb && s.pins.inputGood && !s.pins.partRst then
    State.tryBoot { s with pw := { s.pw with state := .p0, domainB := true, domainC := true, rom := true } }
  else s

/-! ## Part reset and cold reset (Table 20-5) -/

/-- Causes 7 and 8 stay through the P3 that follows them. -/
def State.resetCause (s : State) (cause : BitVec 4) : BitVec 4 :=
  if s.pw.state == .p3 && s.pw.causeStays then s.pw.lastReset else cause

/-- A part reset. -/
def State.partReset (s : State) (cause : BitVec 4) : State :=
  let s := s.fenceAtBell.settleCommits
  (s.resetDomains .p0 (s.resetCause cause) s.dg.debugMode).startUp

/-- A cold reset. -/
def State.coldReset (s : State) : State :=
  let s := s.settleCommits.resetDomains .p0 0 s.dg.debugMode
  let clear (_ : Nat) (x : Tile) : Tile := { x with storeUeSeen := [], ibUeSeen := [] }
  { s with
    tiles := (tabMap clear s.tiles).filter fun e => e.2 != .reset
    rc := { s.rc with dynamic := none, straps := 0 }
    pw := { s.pw with rom := false }
    dg := { s.dg with tapIr := .idcode, tapData := [] }
    pins := { s.pins with vsb := false } }

/-- PART_RESET: PART_RST_N goes low for 10 µs (cause 1), or the millisecond after a PW_RESET write has passed
(cause 2); the TRIAL watchdog and UPDATE_ACTIVATE take theirs in their own commands. -/
def execPartReset (cause : BitVec 4) (s : State) : Host.Outcome State Fault Refusal :=
  .next (
    if cause = 1 && s.pins.vsb then
      State.partReset { s with pins := { s.pins with partRst := true } } 1
    else if cause = 2 && s.pw.resetPending && !s.pins.partRst then s.partReset 2
    else s)

/-- PART_RST_N_RELEASE. -/
def execPartRstNRelease (s : State) : Host.Outcome State Fault Refusal :=
  .next (
    if s.pins.partRst then State.startUp { s with pins := { s.pins with partRst := false } } else s)

/-- TRIAL_WATCHDOG_EXPIRY (R475). -/
def execTrialWatchdogExpiry (s : State) : Host.Outcome State Fault Refusal :=
  .next (if s.sec.trial && !s.pins.partRst then s.partReset 3 else s)

/-! ## The power cut (R334, R494, R495) -/

/-- Power-off of domains A, B and C: the part is in P3; `stays` after the power-cut procedure. -/
def State.powerOff (s : State) (cause : BitVec 4) (stays : Bool) : State :=
  let s := s.resetDomains .p3 cause (s.dg.debugMode || s.dg.debugMark)
  { s with pw := { s.pw with causeStays := stays } }

/-- Store blocks of a distribution that are still being programmed. -/
def State.stillProgramming (s : State) : Bool :=
  match s.nv.dist with
  | some d => !d.programming.isEmpty
  | none => false

/-- Every record commit in flight has completed or could not start: the cut ends. -/
def State.endCut (s : State) : State :=
  if s.cutting && (!s.nv.charged || (s.nv.commits.isEmpty && !s.stillProgramming)) then
    s.dropUnstarted.powerOff s.pw.lastReset true
  else s

/-- The job as an input failure leaves it: clocks stopped, the status sent, the root told. -/
def State.cutJob (s : State) : State :=
  if s.inSession && s.isMember then
    let s := (s.cause cClockStop (s.ioCount 0) 0 0 3).stopClocks
    let s := s.gatherSend
    if s.isRoot then s.fault 6 else s.emit (.firmware s.job.root (.inputFailure s.rc.address))
  else s

/-- The distribution in progress names its durable blocks, once the store blocks in progress are programmed (R334). -/
def State.cutDist (s : State) : State :=
  match s.nv.dist with
  | some d => if s.distributing && d.programming.isEmpty then s.commitProgress d else s
  | none => s

/-- The store blocks in progress are programmed on the hold-up store. -/
def State.finishBlocks (s : State) : State :=
  match s.nv.dist with
  | some d =>
    if s.nv.charged && !d.programming.isEmpty then
      (d.programming.foldl (fun s b => s.blockDone b.object b.generation b.index 0) s).cutDist
    else s
  | none => s

/-- The power-cut procedure begins. -/
def State.cut (s : State) (cause : BitVec 4) : State :=
  let s := { s with pw := { s.pw with lastReset := cause }, pins := { s.pins with inputGood := false } }
  s.cutJob.cutDist

/-- INPUT_FAILURE: ignored while PART_RST_N is low. -/
def execInputFailure (s : State) : Host.Outcome State Fault Refusal :=
  .next (
    if s.pins.partRst || !s.pins.inputGood then s
    else if s.pw.firmware then (s.cut 7).endCut
    else
      let s := { s with pins := { s.pins with inputGood := false } }
      if s.pw.state == .p3 then s else s.powerOff 7 true)

/-- Every commit in flight completes on the hold-up store. -/
def State.finishCommits (s : State) : State :=
  let s := s.dropUnstarted
  let l := s.nv.commits
  let s := { s with nv := { s.nv with commits := [] } }
  (if s.nv.charged then l.foldl (fun s c => s.complete c []) s else s).dropUnstarted

/-- VSB_LOSS: the power-cut procedure first, then a cold reset. -/
def execVsbLoss (s : State) : Host.Outcome State Fault Refusal :=
  .next (
    let up := s.pins.inputGood
    let s := if s.pw.firmware && up && !s.pins.partRst then (s.cut 7).finishBlocks.finishCommits else s
    let s := s.coldReset
    { s with pins := { s.pins with inputGood := false } })

/-- Copies that decayed without power, by stack, type and sequence number. -/
def State.markFailing (s : State) (failing : List (BitVec 2 × Byte × BitVec 64)) : State :=
  let mark (k : Nat) (c : RecordCopy) : RecordCopy :=
    if failing.any fun e => e.1.toNat == k && e.2.1 == c.type && e.2.2 == c.sequence then { c with verifies := false } else c
  { s with nv := { s.nv with journal := tabMap (fun k l => l.map (mark k)) s.nv.journal } }

/-- VSB_GOOD: the standby domain starts and samples the straps. The operand also names the copies in the journal that
decayed while the part stood without power (log 76). -/
def execVsbGood (on : PowerOn) (s : State) : Host.Outcome State Fault Refusal :=
  .next (
    if s.pins.vsb then s
    else State.markFailing { s with pins := { s.pins with vsb := true }, rc := { s.rc with straps := on.straps } } on.failing)

/-- INPUT_GOOD. -/
def execInputGood (s : State) : Host.Outcome State Fault Refusal :=
  .next (
    if s.pins.vsb && !s.pins.inputGood && !s.cutting then
      State.startUp { s with pins := { s.pins with inputGood := true } }
    else s)

/-- REFCLK_PRESENT. -/
def execRefclkPresent (s : State) : Host.Outcome State Fault Refusal :=
  .next (
    let s := { s with pins := { s.pins with refclk := true } }
    if s.pw.rom then s.tryBoot else s)

/-- REFCLK_LOSS: the lesson is OVERSTRETCH and firmware takes a part reset; its cause code is not stated. -/
def execRefclkLoss (s : State) : Host.Outcome State Fault Refusal :=
  .next (
    let s := { s with pins := { s.pins with refclk := false } }
    if s.pw.firmware then
      let s := if s.inSession && s.isMember then s.cause cOverstretch (s.ioCount 0) 0 0 3 else s
      let (n, s) := s.draw
      s.partReset (Config.freeBits 4 n)
    else s)

/-- HOLDUP_STORE_CHARGED. -/
def execHoldupStoreCharged (s : State) : Host.Outcome State Fault Refusal :=
  .next (
    if s.pins.inputGood then
      { s with nv := { s.nv with
          charged := true, chargePct := 100, commits := s.nv.commits.map fun c => { c with started := true } } }
    else s)

/-! ## Start-up steps 2 to 7 (R331, R491, R492) -/

/-- A record as a content holds it (Table 13-11). -/
def State.loadContent (s : State) : Content → State
  | .plan p => { s with rc := { s.rc with plan := p } }
  | .fabric r =>
    let s := { s with nv := { s.nv with fabric := r }, rt := { s.rt with slice := r.slice, role := r.role } }
    (List.range 32).foldl (fun s l => s.modRoll l fun x => { x with recorded := tabGet 0 r.hops l }) s
  | .owner p k m => { s with sec := { s.sec with padlock := p, owner := k, lockMask := m } }
  | .keyRing l => { s with sec := { s.sec with keyRing := l } }
  | .adapters l => { s with nv := { s.nv with generations := (s.nv.generations.filter fun g => !g.adapter) ++ l } }
  | .weights l k =>
    -- the record does not name the parts that have answered (Table 13-18)
    let again (e : Decision) : Decision := { e with unanswered := if e.complete then [] else boxParts e.boxLow e.boxHigh }
    { s with nv := { s.nv with
        generations := (s.nv.generations.filter (·.adapter)) ++ l, decisions := k.map again } }
  | .restoreMap l => { s with nv := { s.nv with restoreMap := l } }
  | .slots a b =>
    -- the images are bulk data outside the journal
    { s with sec := { s.sec with
        slotA := { a with image := s.sec.slotA.image }, slotB := { b with image := s.sec.slotB.image } } }
  | .antiRollback o v => { s with sec := { s.sec with ownerCounter := o, antiRollback := v } }
  | .wear l => l.zipIdx.foldl (fun s e => s.modStack e.2 fun x =>
      { x with state := e.1.1, maxErase := e.1.2.1, retired := e.1.2.2.1, gone := e.1.2.2.2 }) s
  | .fences t => { s with ts := { s.ts with fences := t } }
  | .progress l => { s with nv := { s.nv with progress := l } }

/-- Content of a type of which no copy can be read: none. -/
def emptyContent (type : Byte) : Option Content :=
  match type.toNat with
  | 1 => some (.plan none)
  | 2 => some (.fabric .reset)
  | 4 => some (.keyRing [])
  | 5 => some (.adapters [])
  | 6 => some (.weights [] [])
  | 7 => some (.restoreMap [])
  | 0x0B => some (.fences [])
  | 0x0C => some (.progress [])
  | _ => none

/-- Load a type's current record. What a commit was still to record is absent. -/
def State.loadType (s : State) (type : Byte) : State :=
  match s.currentRecord type with
  | some c => s.loadContent c.content
  | none =>
    if (s.typeCopies type).isEmpty && (type == 1 || type == 4 || type == 5 || type == 6) then s
    else match emptyContent type with
      | some x => s.loadContent x
      | none => s

/-- Record types in order. -/
def recordTypes : List Byte := (List.range 12).map fun i => BitVec.ofNat 8 (i + 1)

/-- Stacks on which the current record of a type stands in a verifying copy. -/
def State.goodStacks (s : State) (c : RecordCopy) : List Nat :=
  s.copyStacks.filter fun k => (s.copies k).any fun x => x.type == c.type && x.sequence == c.sequence && x.verifies

/-- Missing or failing copies of the current record of a type. -/
def State.missingCopies (s : State) (type : Byte) : Nat :=
  match s.currentRecord type with
  | some c => s.copyStacks.length - (s.goodStacks c).length
  | none => 0

/-- An OWNER or ANTI_ROLLBACK record has a header but no copy that verifies, or no stack takes copies. -/
def State.mountFails (s : State) : Bool :=
  s.copyStacks.isEmpty ||
  [(3 : Byte), 9].any fun t => !(s.typeCopies t).isEmpty && !(s.typeCopies t).any (·.verifies)

/-- Records to be written again: those with a missing or failing copy (R331), and at a start in TRIAL those of an older
major (R333). -/
def State.staleTypes (s : State) : List Byte :=
  recordTypes.filter fun t => s.missingCopies t != 0 ||
    (s.sec.trial && (s.currentRecord t).any fun c => c.major != s.writesMajor t)

/-- A block that a generation or the progress record names. -/
def State.mapped13 (s : State) (b : StoreBlock) : Bool :=
  b.kind == 3 || (s.genOf (b.kind == 2) b.object b.generation).isSome ||
  s.nv.progress.any fun p =>
    (b.kind == 2) == p.adapter && b.object == p.object && b.generation == p.generation && p.durable.contains b.index.toNat

/-- The mount (R331): current records are loaded, and their missing copies written again. -/
def State.mount (s : State) : State :=
  let n := (recordTypes.map s.missingCopies).sum
  let few := recordTypes.any fun t => (s.currentRecord t).any fun c => (s.goodStacks c).length < 3
  let s := recordTypes.foldl State.loadType s
  let s := s.rewriteAll .nothing s.staleTypes
  let s := { s with
    nv := { s.nv with repairs := BitVec.ofNat 16 (min n 0xFFFF), degraded := few }
    rc := { s.rc with address := s.planAddress } }
  (s.dropSuperseded.freeBlocks fun b => !s.mapped13 b).restoreRoutes

/-- STORE_MOUNT: steps 2 to 4; in STORE_FAULT the part is ready at once. -/
def execStoreMount (s : State) : Host.Outcome State Fault Refusal :=
  .next (
    if s.pw.firmware && s.pw.startup = 1 then
      if s.mountFails then
        State.msix { s with
          nv := { s.nv with storeFault := true }, hi := { s.hi with ready := true }, pw := { s.pw with startup := 7 } } 0 3
      else
        let s := s.mount
        let s := (List.range (linksOf s.fused.variant)).foldl (fun s l => s.placeLink l) s
        State.openWindow { s with pw := { s.pw with startup := 4 } }
    else s)

/-- Domain A powers up: every word zero after the self-test. -/
def State.powerA (s : State) : State :=
  { s with pw := { s.pw with domainA := true, startup := 5 }, mem := { s.mem with bytes := [], ue := [], ce := [] } }

/-- DOMAIN_A_POWER_UP: the hold-up store is charged and the window is closed. -/
def execDomainAPowerUp (s : State) : Host.Outcome State Fault Refusal :=
  .next (
    if s.pw.firmware && s.pw.startup = 4 && s.nv.charged && !s.rc.window then s.powerA else s)

/-- SELF_TEST_COMPLETE: failures (tile, cause 1 or 2) are fenced and the restore map is restored. -/
def execSelfTestComplete (failures : List (BitVec 10 × BitVec 4)) (s : State) : Host.Outcome State Fault Refusal :=
  .next (
    if s.pw.domainA && s.pw.startup = 5 then
      let l := (failures.filter fun e => e.2 == 1 || e.2 == 2).map fun e => (e.1.toNat, e.2)
      let s := s.fence (l.filter fun e => !s.fenced e.1)
      { s with
        pw := { s.pw with startup := 6 }
        nv := { s.nv with restores := s.nv.restoreMap, restoredCount := 0, lostMet := 0 } }
    else s)

/-- STARTUP_RESTORE_COMPLETE: the part is ready. -/
def execStartupRestoreComplete (s : State) : Host.Outcome State Fault Refusal :=
  .next (
    if s.pw.startup = 6 && s.nv.restores.isEmpty then
      { s with hi := { s.hi with ready := true }, pw := { s.pw with startup := 7, state := .p0 } }
    else s)

/-! ## Compute reset (R488) -/

/-- Domain A is reset; a member's job faults. -/
def State.computeReset (s : State) (cause : BitVec 4) : State :=
  let s := (if s.inSession && s.isMember then s.fault 6 else s).fenceAtBell
  { s with
    tiles := computeTiles s.tiles
    mem := { Mem.reset with select := s.mem.select, dies := s.mem.dies }
    pw := { s.pw with
      state := .p2, domainA := false, lastReset := cause, tripped := false, thermalTrip := false, powerTrip := false
      throttleDue := false }
    dg := { s.dg with stopped := false }
    nv := { s.nv with restores := [], restoring := false }
    ts := s.ts.afterCompute }

/-- PW_RESET_COMPUTE: a PW_RESET write (R489). -/
def execPwResetCompute (value : Word) (s : State) : Host.Outcome State Fault Refusal :=
  .next (
    if value.extractLsb' 16 16 == 0x9400 && value.extractLsb' 0 2 == (1 : BitVec 2) && s.pw.firmware && s.pw.startup = 7 then
      -- in P2 with domain A off only PW_CTRL op 2 brings it back (R487)
      let on := s.pw.domainA
      let s := s.computeReset 5
      if on then s.powerA else s
    else s)

/-- PW_RESET_PART: the reset follows 1 ms later. -/
def execPwResetPart (value : Word) (s : State) : Host.Outcome State Fault Refusal :=
  .next (
    if value.extractLsb' 16 16 == 0x9400 && value.extractLsb' 0 2 == (2 : BitVec 2) && s.pw.firmware then
      { s with pw := { s.pw with resetPending := true } }
    else s)

/-! ## Power states (R477, R478, R493) -/

/-- DMA, a restore or a distribution runs. -/
def State.working (s : State) : Bool :=
  s.distributing || !s.nv.restores.isEmpty || s.hi.fns.any fun e => e.2.transfers.any fun t => t.status.isNone

/-- P1_IDLE_ENTRY: 10 ms with no job in session and no such work. -/
def execP1IdleEntry (s : State) : Host.Outcome State Fault Refusal :=
  .next (
    if s.pw.state == .p0 && s.pw.startup = 7 && s.pw.domainA && !s.inSession && !s.working then
      { s with pw := { s.pw with state := .p1 }, ts := { s.ts with now := s.ts.now.gate } }
    else s)

/-- PW_CTRL op 1 and op 3 are refused. -/
def State.refusesPower (s : State) : Bool :=
  s.job.state != .none || s.distributing || s.sec.update.isSome

/-- An op ignored. -/
def State.powerRefused (s : State) : State := { s with pw := { s.pw with refused := true } }

/-- PW_CTRL_ENTER_P2. -/
def execPwCtrlEnterP2 (s : State) : Host.Outcome State Fault Refusal :=
  .next (
    if !s.pw.firmware then s
    else if s.refusesPower || !(s.pw.state == .p0 || s.pw.state == .p1) then s.powerRefused
    else
      { s with
        tiles := computeTiles s.tiles
        mem := { Mem.reset with select := s.mem.select, dies := s.mem.dies }
        pw := { s.pw with state := .p2, domainA := false, refused := false, tripped := false, powerTrip := false }
        ts := s.ts.afterCompute
        nv := { s.nv with restores := [], restoring := false } })

/-- PW_CTRL_LEAVE_P2: domain A powers up, then steps 5 and 6. -/
def execPwCtrlLeaveP2 (s : State) : Host.Outcome State Fault Refusal :=
  .next (
    if !s.pw.firmware then s
    else if s.pw.state == .p2 && !s.pw.domainA then
      State.powerA { s with pw := { s.pw with refused := false } }
    else s.powerRefused)

/-- A shutdown that op 3 has begun ends once every record commit is complete (R493): the links fall and the domains power
off. -/
def State.endShutdown (s : State) : State :=
  if s.shuttingDown && s.nv.commits.isEmpty then s.powerOff s.pw.lastReset false else s

/-- PW_CTRL_ENTER_P3: the shutdown begins. -/
def execPwCtrlEnterP3 (s : State) : Host.Outcome State Fault Refusal :=
  .next (
    if !s.pw.firmware then s
    else if s.refusesPower || s.pw.state == .p3 then s.powerRefused
    else State.endShutdown { s with pw := { s.pw with state := .p3, refused := false } })

/-! ## Power and temperature samples (R480 to R487) -/

/-- A trip stops the stepped clocks (R80). -/
def State.trip (s : State) : State :=
  let s := if s.inSession && s.isMember && !s.clocksStopped then s.cause cClockStop (s.isle 0x2000).count 0 0 3 else s
  let s := s.stopClocks
  { s with pw := { s.pw with tripped := true } }

/-- The mean over the last 20 samples is 97 % of the limit in force. -/
def windowTrips (samples : List Nat) (limit : Nat) : Bool :=
  let w := samples.drop (samples.length - 20)
  w.length == 20 && 97 * limit * 20 ≤ 100 * w.sum

/-- POWER_SAMPLE: every microsecond. -/
def execPowerSample (watts : Nat) (voltage : BitVec 16) (s : State) : Host.Outcome State Fault Refusal :=
  .next (
    if s.pw.firmware then
      let all := s.pw.samples ++ [watts]
      let l := all.drop (all.length - 100)
      let s := { s with pw := { s.pw with samples := l, voltage := voltage, energy := s.pw.energy + watts } }
      if windowTrips l (limitWatts s.pw.limit) && s.pw.domainA && !s.pw.powerTrip then
        let s := if s.pw.tripped then s else s.trip
        { s with pw := { s.pw with
            powerTrip := true, powerTrips := s.pw.powerTrips + 1
            measured := if s.inSession then tabSet (0, 0) s.pw.measured s.bell.index (0, 0) else s.pw.measured } }
      else s
    else s)

/-- The sensor is on the part (R485). -/
def sensorThere (v : Variant) (i : Nat) : Bool :=
  if i < 64 then true else if i < 72 then (i - 64) / 2 < ioDiesOf v else i - 72 < stacksOf v

/-- A reading of sensor i at or above a bound in eighths of a degree. -/
def State.sensorAt (s : State) (lo n : Nat) (bound : Int) : Bool :=
  (List.range n).any fun j =>
    let x := tabGet 0x8000 s.pw.temps (lo + j)
    x != 0x8000 && bound ≤ x.toInt

/-- Every compute-die sensor reads 90 °C or less. -/
def State.cool (s : State) : Bool := !s.sensorAt 0 64 721

/-- The first reading of a thermal trip. -/
def State.thermalTrip (s : State) : State :=
  if s.pw.thermalTrip then s
  else
    let t := s.pw.step
    let s := s.trip
    { s with
      pw := { s.pw with
        thermalTrip := true, thermalTrips := s.pw.thermalTrips + 1, thermalStep := if t.toNat < 2 then 0 else t - 2 }
      pins := { s.pins with thermTrip := true } }
    |>.settleStep

/-- Shutdown to P2 on temperature (R487). -/
def State.thermalShutdown (s : State) : State :=
  let s := s.computeReset 6
  { s with pins := { s.pins with thermTrip := true } }

/-- Shutdown to P3 on an I/O-die or stack sensor. -/
def State.hotCut (s : State) : State :=
  let good := s.pins.inputGood
  let s := (s.cut 8).finishBlocks.finishCommits
  let s := s.powerOff 8 true
  { s with pins := { s.pins with inputGood := good, hotTrip := true } }

/-- TEMPERATURE_SAMPLE: one reading per sensor, in sensor order. -/
def execTemperatureSample (readings : List (BitVec 16)) (s : State) : Host.Outcome State Fault Refusal :=
  .next (
    if s.pw.firmware then
      let temps := (List.range 80).foldl (fun t i =>
        tabSet 0x8000 t i (if sensorThere s.fused.variant i then readings.getD i 0x8000 else 0x8000)) []
      let s := { s with pw := { s.pw with temps := temps } }
      let hot := s.sensorAt 72 8 680 || (s.pw.stacksHot && s.sensorAt 72 8 641)
      let s := { s with pw := { s.pw with stacksHot := hot, throttleDue := s.sensorAt 0 64 760 } }
      if s.cutting then s
      else if s.sensorAt 64 8 880 || s.sensorAt 72 8 760 then s.hotCut
      else if s.pw.domainA && s.sensorAt 0 64 920 then s.thermalShutdown
      else if s.pw.domainA && s.sensorAt 0 64 840 then s.thermalTrip
      else s
    else s)

/-- THERMAL_STEP_RISE: 100 ms with every compute-die sensor at 90 °C or less. -/
def execThermalStepRise (s : State) : Host.Outcome State Fault Refusal :=
  .next (
    if s.pw.firmware && s.cool then
      if s.inSession && s.isMember then { s with pw := { s.pw with riseDue := true } }
      else
        let t := s.pw.thermalStep
        State.settleStep { s with pw := { s.pw with thermalStep := if t = 7 then 7 else t + 1 } }
    else s)

/-- COOLDOWN_READY: THERM_TRIP_N is released and the ready is no longer withheld for the trip. -/
def execCooldownReady (s : State) : Host.Outcome State Fault Refusal :=
  .next (
    if s.pw.firmware && s.pins.thermTrip && s.cool then
      { s with
        pins := { s.pins with thermTrip := false }, pw := { s.pw with thermalTrip := false } }
    else s)

/-! ## The open-drain outputs (R503) -/

/-- PW_STATE.throttled. -/
def State.throttled (s : State) : Bool := s.pw.thermalStep != 7

/-- FAULT_N is driven low. -/
def State.faultLow (s : State) : Bool := s.pw.rom && (s.sec.recovery || s.nv.storeFault || s.stackFailed)

/-- ALERT_N is driven low. -/
def State.alertLow (s : State) : Bool := s.pw.rom && (s.throttled || s.pw.tripped)

/-- THERM_TRIP_N is driven low. -/
def State.thermTripLow (s : State) : Bool := s.pw.rom && (s.pins.thermTrip || s.pins.hotTrip)

/-! ## TRIAL_CONFIRM (R473, R474) -/

/-- Conditions of a confirmation. -/
def State.mayConfirm (s : State) : Bool :=
  s.sec.trial && !s.nv.storeFault && 6 ≤ s.pw.startup &&
  (s.rc.plan.isNone ||
    (s.usedLinks.all (fun l => (s.link l).wasActive || (s.link l).wasFailed) && !s.rc.window &&
      s.sec.matchBefore.all fun l => s.rollKind l == some 0))

/-- TRIAL_CONFIRM. -/
def execTrialConfirm (s : State) : Host.Outcome State Fault Refusal :=
  .next (
    if s.mayConfirm && !s.nv.commits.any (fun c => c.effect == .confirm) then s.startCommit 8 .confirm .nothing else s)

end Sys2Proof.Machine
end

