-- ==== Sys2Proof/Machine/CommitDone.lean ====
section
/-! DEFINITION. The completion of what the persistent and the weight store program (R316, R329 to R332): what follows a
record commit, and a power cut that waits for it. -/

namespace Sys2Proof.Machine

/-- What follows a commit. -/
def State.applyAfter (s : State) : After → State
  | .nothing => s
  | .respond w body => s.answer w stOk body
  | .respondAll l body => s.answerAll l stOk body
  | .reply op body =>
    if s.isRoot then s.takeResult s.rc.address op 0 body
    else if s.job.state == .none then s
    else s.reply op 0 body
  | .endRestore => s.endRestore
  | .eraseJournal => s.eraseJournal
  | .service mac seq type body => s.serve mac ⟨seq, type, 0, body⟩
  | .activate mac seq => s.serve mac ⟨seq, 6, 0, []⟩
  | .sendPrepared a d => s.tellPrepared a d
  | .sendCommitted a d => s.tellCommitted a d
  | .sendCommits => s.sendCommits

/-- RECORD_COMMIT_DONE: the oldest commit completes on the stacks that take copies; `failed` gives for a stack how many of
its journal erase blocks failed to take a copy. -/
def execRecordCommitDone (failed : List (Nat × Nat)) (s : State) : Host.Outcome State Fault Refusal :=
  .next (
    match s.nv.commits with
    | [] => s
    | c :: t =>
      if c.started then State.endShutdown (
        let s := State.complete { s with nv := { s.nv with commits := t } } c failed
        if s.copyStacks.isEmpty then
          State.endCut (State.msix { s with nv := { s.nv with commits := [], storeFault := true } } 0 3)
        else
          let s := (s.applyAfter c.after).compact.endCut
          -- the activation's part reset follows its response
          match c.after with
          | .activate _ _ => if s.pins.inputGood then s.partReset 4 else s
          | _ => s)
      else s)

/-- BLOCK_PROGRAM_DONE: the block is durable; in a power cut the record of the durable blocks follows the last one
(R334). -/
def execBlockProgramDone (object : Word) (generation : BitVec 16) (block : BlockOutcome) (s : State) :
    Host.Outcome State Fault Refusal :=
  .next (
    let t := s.blockDone object generation block.index block.failures
    if t.cutting && s.stillProgramming && !t.stillProgramming then t.cutDist.endCut else t)

end Sys2Proof.Machine
end

