-- ==== Sys2Proof/Machine/Objects.lean ====
section
/-! DEFINITION. The commands that carry a signed object or a manifest (R312, R321, R322, R446, R461 to R467). -/

namespace Sys2Proof.Machine

/-! ## WEIGHTS_PROGRAM and ADAPTER_STORE (R316, R321, R322) -/

/-- The box of a distribution: its corners lie in the campus in order, this part lies in it, and it is wholly within
this part's slice or wholly outside it (R321). -/
def State.distBoxOk (s : State) (b : List Byte) : Bool :=
  let low := cornerOf b 24
  let high := cornerOf b 28
  let formed := (List.range 4).all fun k =>
    let lo := natAt b (24 + k) 1
    let hi := natAt b (28 + k) 1
    if k < s.axes then lo ≤ hi && hi < s.campus k else lo == 0 && hi == 0
  formed && inBox low high s.rc.address && s.boxInSlice low high

/-- The distribution that a request starts on its reader. -/
def State.newDist (s : State) (adapter : Bool) (w : Waiting) (b manifest : List Byte) (host : HostMem) : Dist :=
  let low := cornerOf b 24
  let high := cornerOf b 28
  { emptyDist s.rc.address (natAt b 13 1 / 2 % 2 = 1) low high with
    reader := true, keepCopy := natAt b 13 1 % 2 = 1, fromCopy := natAt b 12 1 = 1, adapter := adapter
    object := fieldAt 32 manifest 4, generation := fieldAt 16 manifest 8
    tenant := BitVec.ofNat 12 (natAt manifest 10 2), blocks := mfBlocks manifest, digest := mfDigest manifest
    manifestBytes := manifest, host := host, hostAddr := natAt b 16 8
    parts := boxParts low high, waits := [w] }

/-- The reader's part of Table 13-9, in its order; then the distribution begins. -/
def State.program (s : State) (adapter : Bool) (host : HostMem) (w : Waiting) (b : List Byte) : State :=
  if !s.owned then s.answer w 0x07 []
  else if s.distributing || s.storeRegionNow.isNone then s.answer w 0x09 []
  else if !s.distBoxOk b then s.answer w 0x24 []
  else if 1 < natAt b 12 1 then s.answer w 0x0B []
  else match hostRead host (natAt b 0 8) (natAt b 8 4) with
    | none => s.answer w 0x0C []
    | some m =>
      if !s.mfVerifies m then s.answer w 0x25 []
      else if !mfFormed (if adapter then 2 else 1) m then s.answer w 0x26 []
      else s.beginReader (s.newDist adapter w b m host)

/-- WEIGHTS_PROGRAM. -/
def execWeightsProgram (tr : BitVec 7) (host : HostMem) (s : State) : Host.Outcome State Fault Refusal :=
  .next (s.command tr ⟨0x20, onlyPf, 32, true⟩ true anyBody fun s w b => s.program false host w b)

/-- ADAPTER_STORE. -/
def execAdapterStore (tr : BitVec 7) (host : HostMem) (s : State) : Host.Outcome State Fault Refusal :=
  .next (s.command tr ⟨0x22, onlyPf, 32, true⟩ true anyBody fun s w b => s.program true host w b)

/-! ## Signed objects (R412, R462, R463) -/

/-- Fetch the object that a body names, check it, and go on: DMA_ERROR, SIGNATURE, or the continuation. -/
def State.withObject (s : State) (host : HostMem) (types : List Nat) (w : Waiting) (b : List Byte)
    (k : State → List Byte → State) : State :=
  let n := natAt b 8 4
  if 1048576 < n then s.answer w 0x0D []
  else match hostRead host (natAt b 0 8) n with
    | none => s.answer w 0x0C []
    | some o => if s.objVerifies types o then k s o else s.answer w 0x0D []

/-! ## KEYRING_SET (R466, R467) -/

/-- Entries of a KEY_RING body. -/
def ringCount (body : List Byte) : Nat := natAt body 1568 4

/-- The decrypted entries of a KEY_RING object; none where its form or its tag fails. -/
def State.openRing (s : State) (o : List Byte) : Option (List Byte) :=
  let body := objBody o
  let n := ringCount body
  if 1 ≤ n && n ≤ 4096 && body.length = 1572 + 80 * n + 16 then
    Config.gcmOpen (s.wrapKey (bytesAt body 0 1568) (objHeader o)) zeroNonce [] (bytesAt body 1572 (80 * n))
      (bytesAt body (1572 + 80 * n) 16)
  else none

/-- An entry of Table 19-8: its operation and what it sets; none for a reserved operation or index. -/
def ringEntry (e : List Byte) : Option (Bool × KeyEntry) :=
  let op := natAt e 2 1
  if (op = 1 || op = 2) && natAt e 0 2 ≤ 4095 then
    some (op = 1, {
      tenant := BitVec.ofNat 12 (natAt e 0 2), functions := fieldAt 64 e 8, adapterKey := bytesAt e 16 32
      prefixKey := if natAt e 3 1 % 2 = 1 then some (bytesAt e 48 32) else none })
  else none

/-- The entries of an object, all of them in order; none where one is reserved. -/
def ringEntries (n : Nat) (p : List Byte) : Option (List (Bool × KeyEntry)) :=
  (List.range n).mapM fun i => ringEntry (bytesAt p (80 * i) 80)

/-- Apply one entry: SET puts it in place of its index's, REMOVE drops that. -/
def applyRingEntry (ring : List KeyEntry) (e : Bool × KeyEntry) : List KeyEntry :=
  let rest := ring.filter fun x => x.tenant != e.2.tenant
  if e.1 then rest ++ [e.2] else rest

/-- A verified KEY_RING object: the record commit that holds the new ring and the owner counter. -/
def State.keyringSet (s : State) (w : Waiting) (o : List Byte) : State :=
  match s.openRing o with
  | none => s.answer w 0x0D []
  | some p =>
    match ringEntries (ringCount (objBody o)) p with
    | none => s.answer w 0x0B []
    | some l =>
      let ring := l.foldl applyRingEntry s.sec.keyRing
      s.startCommit 4 (.keyRing ring (objCounter o)) (.respond w (natToBytes 2 ring.length))

/-- KEYRING_SET. -/
def execKeyringSet (tr : BitVec 7) (host : HostMem) (s : State) : Host.Outcome State Fault Refusal :=
  .next (s.command tr ⟨0x24, onlyPf, 12, true⟩ true anyBody fun s w b =>
    if !s.owned then s.answer w 0x07 [] else s.withObject host [0x10] w b fun s o => s.keyringSet w o)

/-! ## DEBUG_AUTH (R446, R464) -/

/-- DEBUG_AUTH: debug mode begins once the empty key ring is committed. -/
def execDebugAuth (tr : BitVec 7) (host : HostMem) (s : State) : Host.Outcome State Fault Refusal :=
  .next (s.command tr ⟨0x60, onlyPf, 12, true⟩ true anyBody fun s w b =>
    if s.inSession then s.answer w 0x09 []
    else s.withObject host [0x20] w b fun s o =>
      if natAt (objBody o) 0 1 / 2 % 2 = 0 then s.answer w 0x07 []
      else s.startCommit 4 (.debug (objCounter o)) (.respond w []))

/-! ## PADLOCK (R461, Table 19-5) -/

/-- What a verified object does in a state: the state, owner key and lock mask it leads to, whether everything owned
is erased, and whether the key ring is emptied; none where the table does not list it. -/
def padlockEvent (p : Padlock) (owner : List Byte) (o : List Byte) :
    Option (Padlock × List Byte × BitVec 64 × Bool × Bool) :=
  match objType o, p with
  | 1, .opened => some (.owned, objBody o, 0, false, false)
  | 2, .owned => some (.locked, owner, fieldAt 64 (objBody o) 0, false, false)
  | 3, .locked => some (.owned, owner, 0, false, false)
  | 4, .owned => some (.owned, objBody o, 0, false, true)
  | 4, .locked => some (.owned, objBody o, 0, false, true)
  | 5, .owned => some (.opened, [], 0, true, true)
  | 5, .locked => some (.opened, [], 0, true, true)
  | _, _ => none

/-- A verified object of the padlock. -/
def State.padlockSet (s : State) (w : Waiting) (o : List Byte) : State :=
  match padlockEvent s.sec.padlock s.sec.owner o with
  | none => s.answer w 0x07 []
  | some (state, owner, mask, erase, clear) =>
    if erase && s.job.state != .none then s.answer w 0x08 []
    else s.startCommit 3 (.padlock state owner mask (objCounter o) erase clear) (.respond w [padlockByte state])

/-- PADLOCK. -/
def execPadlock (tr : BitVec 7) (host : HostMem) (s : State) : Host.Outcome State Fault Refusal :=
  .next (s.command tr ⟨0x72, onlyPf, 12, true⟩ true anyBody fun s w b =>
    -- a known object that is no event of the padlock passes on to PADLOCK (Table 19-5)
    s.withObject host [1, 2, 3, 4, 5, 0x10, 0x20] w b fun s o => s.padlockSet w o)

end Sys2Proof.Machine
end

