-- ==== Sys2Proof/Machine/Service.lean ====
section
/-! DEFINITION. The service port: IDENTIFY, the cabling plan, and firmware updates (R287 to R290, R470 to R472). -/

namespace Sys2Proof.Machine

/-! ## Requests (R470) -/

/-- A request of a source may start: the one before it is answered, and no mailbox command is ready to start. -/
def State.serviceTurn (s : State) (mac : Nat) : Bool :=
  (s.nv.commits.all fun c => match c.after with
    | .service m _ _ _ => m != mac
    | .activate m _ => m != mac
    | _ => true) &&
  s.mb.all fun e => !e.2.ready

/-- Take a request: while the part answers messages of this kind, and its turn has come. A repeat of the request last
answered gets its response again. -/
def State.request (s : State) (mac : Nat) (sequence : Word) (takes : Bool) (run : State → State) : State :=
  if (s.pw.firmware || s.sec.recovery) && takes && s.serviceTurn mac then
    match tabGet none s.sec.answered mac with
    | some a =>
      if a.sequence == sequence then s.emit (.service mac a.type a.sequence a.status a.body) else run s
    | none => run s
  else s

/-- SERVICE_IDENTIFY: answered in recovery and in STORE_FAULT too (R331, R469). -/
def execServiceIdentify (mac : Nat) (sequence : Word) (s : State) : Host.Outcome State Fault Refusal :=
  .next (s.request mac sequence true fun s => s.serve mac ⟨sequence, 1, 0, s.identifyBody⟩)

/-- SERVICE_UPDATE_STATUS. -/
def execServiceUpdateStatus (mac : Nat) (sequence : Word) (s : State) : Host.Outcome State Fault Refusal :=
  .next (s.request mac sequence (!s.nv.storeFault) fun s =>
    let (b, s) := s.updateBody
    s.serve mac ⟨sequence, 7, 0, b⟩)

/-! ## PLAN (R287 to R290) -/

/-- Part entries of a plan, and the bytes that its signature covers. -/
def planParts (b : List Byte) : Nat := natAt b 2 2
def planSigned (b : List Byte) : List Byte := b.take (64 + 16 * planParts b)

/-- A plan from its bytes. -/
def planOf (b : List Byte) : Plan :=
  { axes := natAt b 4 1, extent := (List.range 4).map fun k => natAt b (5 + k) 1, serial := fieldAt 64 b 16
    campus := fieldAt 64 b 24, digest := fieldAt 64 (hash (planSigned b)) 0, bytes := b
    entries := (List.range (planParts b)).map fun i =>
      { serial := fieldAt 64 b (64 + 16 * i), address := fieldAt 16 b (72 + 16 * i), used := fieldAt 32 b (74 + 16 * i) } }

/-- Extent of a plan on an axis. -/
def Plan.size (p : Plan) (k : Nat) : Nat := (p.extent[k]?).getD 1

/-- Positions of the campus of a plan. -/
def Plan.volume (p : Plan) : Nat := p.size 0 * p.size 1 * p.size 2 * p.size 3

/-- PLAN_FORMAT does not apply. -/
def planFormed (b : List Byte) : Bool :=
  let p := planOf b
  let n := planParts b
  b.length == 64 + 16 * n + sigBytes && natAt b 0 1 == 1 && (bytesAt b 9 7).all (· == 0) &&
  (bytesAt b 32 32).all (· == 0) && ((List.range n).all fun i => natAt b (78 + 16 * i) 2 == 0) &&
  2 ≤ p.axes && p.axes ≤ 4 &&
  ((List.range 4).all fun k => if k < p.axes then 1 ≤ p.size k && p.size k ≤ 16 else p.size k == 1) &&
  p.volume ≤ 4096 && 1 ≤ n && n ≤ p.volume

/-- The address one position along an axis, around the campus (R256). -/
def Plan.step (p : Plan) (a : FabricAddr) (k : Nat) (neg : Bool) : FabricAddr :=
  let c := coord a k
  let n := p.size k
  let d := if neg then (c + n - 1) % n else (c + 1) % n
  BitVec.ofNat 16 (a.toNat - c * 16 ^ k + d * 16 ^ k)

/-- A used link of an entry lies on an axis of the plan and its planned peer uses its own end (R289). -/
def Plan.linkSound (p : Plan) (e : PlanEntry) (l : Nat) : Bool :=
  !bit e.used l ||
    (l / 8 < p.axes && p.size (l / 8) != 1 &&
      p.entries.any fun q => q.address == p.step e.address (l / 8) (4 ≤ l % 8) && bit q.used (peerLink l))

/-- No serial and no address appears twice. -/
def Plan.distinct (p : Plan) : Bool :=
  let n := p.entries.length
  (p.entries.map (·.serial)).eraseDups.length == n && (p.entries.map (·.address)).eraseDups.length == n

/-- PLAN_ENTRIES does not apply. -/
def Plan.entriesSound (p : Plan) : Bool :=
  p.distinct &&
  p.entries.all fun e => ((List.range 4).all fun k => coord e.address k < p.size k) && (List.range 32).all (p.linkSound e)

/-- PLAN_SELF does not apply. -/
def State.planNames (s : State) (p : Plan) : Bool :=
  (p.entry s.fused.serial).isSome && p.axes == ioDiesOf s.fused.variant

/-- The serial is greater than the held plan's. -/
def State.planNewer (s : State) (p : Plan) : Bool :=
  match s.rc.plan with
  | some q => decide (q.serial.toNat < p.serial.toNat)
  | none => true

/-- The first check of Table 12-3 that fails, by its place in the table, and 0 for none. -/
def State.planRefusal (s : State) (b : List Byte) : Nat :=
  let p := planOf b
  if !s.owned then 1
  else if s.inSession || s.rt.role != 0 then 2
  else if !verifyDigest s.sec.owner (planSigned b) (b.drop (planSigned b).length) then 3
  else if !s.planNewer p then 4
  else if !planFormed b then 5
  else if !p.entriesSound then 6
  else if !s.planNames p then 7
  else 0

/-- PLAN: checked, then committed; answered once the record is committed. The numbers of its refusals are not stated. -/
def execPlan (mac : Nat) (sequence : Word) (bytes : List Byte) (s : State) : Host.Outcome State Fault Refusal :=
  .next (s.request mac sequence (s.pw.firmware && !s.nv.storeFault) fun s =>
    if s.sec.trial then s.serve mac ⟨sequence, 2, 3, []⟩
    else
      let r := s.planRefusal bytes
      if r ≠ 0 then s.serve mac ⟨sequence, 2, Config.planStatus r, []⟩
      else s.startCommit 1 (.plan (planOf bytes)) (.service mac sequence 2 []))

/-! ## Updates (R471, R472) -/

/-- Fields of a package header (Table 19-13). -/
def pkVersion (b : List Byte) : Word := fieldAt 32 b 8
def pkSecurity (b : List Byte) : BitVec 64 := fieldAt 64 b 12
def pkLength (b : List Byte) : Nat := natAt b 20 4
def pkBase (b : List Byte) : List Byte := bytesAt b 24 64
def pkDigest (b : List Byte) : BitVec 512 := fieldAt 512 b 88
def pkDelta (b : List Byte) : Nat := natAt b 152 4
def pkFull (b : List Byte) : Bool := (pkBase b).all (· == 0)

/-- Bytes of an AUTHORISATION object. -/
def authBytes : Nat := 64 + 1 + sigBytes

/-- The signing certificate of UPDATE_BEGIN, and the AUTHORISATION behind it when LOCKED. -/
def State.beginCert (s : State) (b : List Byte) : List Byte :=
  let rest := b.drop (256 + sigBytes)
  if s.sec.padlock == .locked then rest.take (rest.length - authBytes) else rest
def beginAuth (b : List Byte) : List Byte := b.drop (b.length - authBytes)

/-- A package header keeps its format. -/
def headerFormed (b : List Byte) : Bool :=
  256 + sigBytes ≤ b.length && natAt b 0 1 == 1 && natAt b 2 2 == 0 && (bytesAt b 157 99).all (· == 0) &&
  natAt b 156 1 < 4 && pkLength b ≤ 67108864

/-- LOCKED needs an AUTHORISATION with the update bit. -/
def State.updateAllowed (s : State) (b : List Byte) : Bool :=
  s.sec.padlock != .locked ||
    (256 + sigBytes + authBytes ≤ b.length && s.objVerifies [0x20] (beginAuth b) &&
      natAt (objBody (beginAuth b)) 0 1 % 2 == 1)

/-- The hold-up store is charged and the input is at 44 V or more. -/
def State.powered (s : State) : Bool := s.nv.charged && 4400 ≤ s.pw.voltage.toNat

/-- Roll call runs, or a used link is on its way up. -/
def State.fabricBusy (s : State) : Bool :=
  s.rollState = 1 || s.usedLinks.any fun l =>
    match (s.link l).phase with
    | .detect | .lock | .negotiate | .check | .degrade => true
    | _ => false

/-- A die sensor reads outside 10 to 85 °C. -/
def State.dieOutside (s : State) : Bool :=
  (List.range 72).any fun i =>
    let x := tabGet 0x8000 s.pw.temps i
    x != 0x8000 && (x.toInt < 80 || 680 < x.toInt)

/-- The checks that begin and activate share, by their codes. -/
def State.updateBusy (s : State) : BitVec 16 :=
  if s.inSession then 2 else if s.sec.trial then 3 else 0
def State.updateUnfit (s : State) : BitVec 16 :=
  if !s.powered then 5 else if s.fabricBusy then 6 else if s.dieOutside then 7 else 0

/-- The vendor's signature and certificate verify. -/
def State.vendorSigned (s : State) (b : List Byte) : Bool :=
  match Config.vendorKey (s.beginCert b) with
  | some key => verifyDigest key (b.take 160) (bytesAt b 256 sigBytes)
  | none => false

/-- The part's stepping is among a package's. -/
def State.steppingNamed (s : State) (b : List Byte) : Bool :=
  let m := natAt b 156 1
  if s.fused.stepping == .b0 then m / 2 % 2 == 1 else m % 2 == 1

/-- The base of a package is none, or the running image. -/
def State.baseHeld (s : State) (b : List Byte) : Bool :=
  pkFull b || (!s.sec.recovery && pkBase b == toBytes 64 s.runningSlot.digest)

/-- Checks of Table 19-12 at UPDATE_BEGIN, in order. -/
def State.beginStatus (s : State) (b : List Byte) : BitVec 16 :=
  if !headerFormed b then 1
  else if s.updateBusy != 0 then s.updateBusy
  else if !s.updateAllowed b then 4
  else if s.updateUnfit != 0 then s.updateUnfit
  else if !s.vendorSigned b then 8
  else if !s.steppingNamed b then 9
  else if (pkSecurity b).toNat < s.sec.antiRollback.toNat then 10
  else if !s.baseHeld b then 11
  else 0

/-- The slots with the inactive one replaced. -/
def State.inactiveSlot (s : State) (x : FirmwareSlot) : FirmwareSlot × FirmwareSlot :=
  if s.sec.running = 0 then (s.sec.slotA, x) else (x, s.sec.slotB)

/-- UPDATE_BEGIN: the inactive slot is committed empty, with the counter of an AUTHORISATION that it consumes. -/
def execUpdateBegin (mac : Nat) (sequence : Word) (bytes : List Byte) (s : State) : Host.Outcome State Fault Refusal :=
  .next (s.request mac sequence (!s.nv.storeFault) fun s =>
    let st := s.beginStatus bytes
    if st != 0 then s.serve mac ⟨sequence, 3, st, []⟩
    else
      let counter := if s.sec.padlock == .locked then objCounter (beginAuth bytes) else 0
      let (a, b) := s.inactiveSlot .reset
      let s := { s with sec := { s.sec with update := some { header := bytes.take 256, pieces := [] } } }
      s.startCommit 8 (.slots a b counter) (.service mac sequence 3 []))

/-- UPDATE_DATA: delta bytes at an offset; without an update in progress they are dropped. -/
def execUpdateData (mac : Nat) (sequence : Word) (offset : Word) (bytes : List Byte) (s : State) :
    Host.Outcome State Fault Refusal :=
  .next (s.request mac sequence (!s.nv.storeFault) fun s =>
    let add (u : Update) : Update := { u with pieces := (offset.toNat, bytes) :: u.pieces }
    let s := { s with sec := { s.sec with update := s.sec.update.map add } }
    s.serve mac ⟨sequence, 4, 0, []⟩)

/-- Byte i of the delta, where a piece has brought it. -/
def Update.byte (u : Update) (i : Nat) : Option Byte :=
  (u.pieces.find? fun p => p.1 ≤ i && i < p.1 + p.2.length).bind fun p => p.2[i - p.1]?

/-- The delta, once all of it has come. -/
def Update.delta (u : Update) : Option (List Byte) := (List.range (pkDelta u.header)).mapM u.byte

/-- Apply the operations of a delta to a result (R471), at most n of them; none where the delta is bad. -/
def applyDelta (base : List Byte) (full : Bool) : Nat → List Byte → List Byte → Option (List Byte)
  | 0, _, _ => none
  | n + 1, d, r =>
    match d with
    | [] => none
    | op :: t =>
      if op = 0 then (if t.isEmpty then some r else none)
      else if op = 1 then
        let off := natAt t 0 4
        let len := natAt t 4 4
        if full || t.length < 8 || base.length < off + len || 67108864 < r.length + len then none
        else applyDelta base full n (t.drop 8) (r ++ bytesAt base off len)
      else if op = 2 then
        let len := natAt t 0 4
        if t.length < 4 + len || 67108864 < r.length + len then none
        else applyDelta base full n (t.drop (4 + len)) (r ++ bytesAt t 4 len)
      else none

/-- The result of an update; none for a bad delta. -/
def State.updateResult (s : State) (u : Update) : Option (List Byte) :=
  u.delta.bind fun d =>
    (applyDelta (if s.sec.recovery then [] else s.runningSlot.image) (pkFull u.header) d.length d []).bind fun r =>
      if r.length = pkLength u.header then some r else none

/-- UPDATE_END: the result is written to the inactive slot, and on a digest match the slot is committed as trial. -/
def execUpdateEnd (mac : Nat) (sequence : Word) (s : State) : Host.Outcome State Fault Refusal :=
  .next (s.request mac sequence (!s.nv.storeFault) fun s =>
    match s.sec.update with
    | none => s.serve mac ⟨sequence, 5, 1, []⟩
    | some u =>
      match s.updateResult u with
      | none => s.serve mac ⟨sequence, 5, 1, []⟩
      | some r =>
        let s := { s with sec := { s.sec with update := none } }
        if Config.sha3 r != pkDigest u.header then s.serve mac ⟨sequence, 5, 12, []⟩
        else
          let x : FirmwareSlot :=
            { state := .trial, version := pkVersion u.header, security := pkSecurity u.header
              digest := pkDigest u.header, image := r, failedTrials := 0, activate := false
              majors := let m := Config.recordMajors (pkDigest u.header); m.1 :: m.2 }
          let (a, b) := s.inactiveSlot x
          s.startCommit 8 (.slots a b 0) (.service mac sequence 5 (toBytes 64 (pkDigest u.header))))

/-- Checks of Table 19-12 at UPDATE_ACTIVATE, in order. -/
def State.activateStatus (s : State) (slot : Nat) : BitVec 16 :=
  let x := if slot = 0 then s.sec.slotA else if slot = 1 then s.sec.slotB else FirmwareSlot.reset
  if s.updateBusy != 0 then s.updateBusy
  else if s.updateUnfit != 0 then s.updateUnfit
  else if x.state == .bad then 13
  else if x.state == .empty || (!s.sec.recovery && slot = s.sec.running.toNat) then 14
  else 0

/-- UPDATE_ACTIVATE: the flag is committed, the request answered, and the part takes a part reset. -/
def execUpdateActivate (mac : Nat) (sequence : Word) (slot : Byte) (s : State) : Host.Outcome State Fault Refusal :=
  .next (s.request mac sequence (!s.nv.storeFault) fun s =>
    let st := s.activateStatus slot.toNat
    if st != 0 then s.serve mac ⟨sequence, 6, st, []⟩
    else
      let set (on : Bool) (x : FirmwareSlot) : FirmwareSlot := if on then { x with activate := true } else x
      let a := set (slot == 0) s.sec.slotA
      let b := set (slot == 1) s.sec.slotB
      s.startCommit 8 (.slots a b 0) (.activate mac sequence))

end Sys2Proof.Machine
end

