-- ==== Sys2Proof/Machine/Registers.lean ====
section
/-! DEFINITION. The register maps: what each register reads (Tables 2-9, 3-7, 4-15, 8-7, 9-4, 10-11, 11-8, 13-13, 15-2 to
15-8, 15-16, 16-2, 18-4, 18-7, 20-7). An offset without a register reads none. -/

namespace Sys2Proof.Machine

/-! ## Words -/

/-- A register from its fields: a number and its lowest bit. -/
def fields (l : List (Nat × Nat)) : Word := BitVec.ofNat 32 (l.map fun e => e.1 * 2 ^ e.2).sum

/-- A flag as a number. -/
def flag (b : Bool) : Nat := if b then 1 else 0

/-- A word of a wider register. -/
def wordOf (x : BitVec w) (k : Nat) : Word := x.extractLsb' (32 * k) 32

/-- A word of a number. -/
def natWord (x k : Nat) : Word := BitVec.ofNat 32 (x / 2 ^ (32 * k))

/-- Word k of a block of eight 64-bit counts. -/
def countWord (count : Nat → BitVec 64) (off : Nat) : Word := wordOf (count (off / 8 % 8)) (off / 4 % 2)

/-! ## The privileged blocks -/

/-- HI_ status (Table 15-16). -/
def State.hiReg (s : State) (off : Nat) : Option Word :=
  let h := s.hi
  match off with
  | 0x00 => some (wordOf h.viol 0)
  | 0x04 => some (wordOf h.viol 1)
  | 0x08 => some (fields [(h.violFn.toNat, 0), (h.violKind.toNat, 6), (flag h.violBar2, 9)])
  | 0x0C => some h.violAddr
  | _ => none

/-- BL_ (Tables 2-9 to 2-14). -/
def State.blReg (s : State) (off : Nat) : Option Word :=
  let b := s.bell
  match off with
  | 0x00 => some (wordOf b.number 0)
  | 0x04 => some (wordOf b.number 1)
  | 0x08 => some (fields [(b.causes.toNat, 0), (b.attempt.toNat, 16), (b.replayLimit.toNat, 20),
      ((phaseCode b.phase).toNat, 24)])
  | 0x0C => some b.firstWhere
  | 0x10 => some (b.firstCycle.setWidth 32)
  | 0x14 => some (b.recessMin.setWidth 32)
  | 0x18 => some b.limitUs
  | 0x1C => some (fields [(b.delayNs.toNat, 0), (b.targetNs.toNat, 16)])
  | 0x20 => some b.replays
  | 0x24 => some (fields [(b.faultCode.toNat, 0), (flag b.faulted, 8)])
  | 0x28 => some b.seq
  | _ => none

/-- TS_ (Tables 3-7 to 3-9). -/
def State.tsReg (s : State) (off : Nat) : Option Word :=
  let t := s.ts
  match off with
  | 0x00 => some (t.select.setWidth 32)
  | 0x04 => some (fields [(flag t.done, 1), (flag t.stopped, 2)])
  | 0x08 => some (wordOf t.stamp 0)
  | 0x0C => some (wordOf t.stamp 1)
  | 0x10 => some t.stretch
  | 0x14 => some (t.lessonStretch.setWidth 32)
  | 0x18 => some (t.debt.setWidth 32)
  | _ => none

/-- TC_STATE.state (Table 4-16). -/
def State.tileState (s : State) (t : Nat) : Nat :=
  if s.fenced t then 3
  else if s.job.state == .none || !s.pw.domainA then 0
  else if (s.tileIsle t).stopped then 2 else 1

/-- TC_ (Tables 4-15 to 4-17). -/
def State.tcReg (s : State) (off : Nat) : Option Word :=
  let t := s.ts.tcSelect.toNat
  let x := s.tile t
  match off with
  | 0x00 => some (s.ts.tcSelect.setWidth 32)
  | 0x04 => some (fields [(s.tileState t, 0), (x.active.toNat, 2), (x.validInactive, 3), (flag s.ts.profileB1, 11),
      ((s.fenceOf t).toNat, 12)])
  | 0x08 => some (BitVec.ofNat 32 (s.declared s.comingIndex t))
  | 0x0C => some s.ts.discards
  | 0x10 => some (BitVec.ofNat 32 (1024 - popcount s.usableMap 1024))
  | _ => if 0x40 ≤ off && off < 0xC0 then some (wordOf s.usableMap ((off - 0x40) / 4)) else none

/-- XB_ (Tables 8-7 to 8-9). -/
def State.xbReg (s : State) (off : Nat) : Option Word :=
  let d := s.mem.select.toNat
  let r := s.dieRegs d
  match off with
  | 0x00 => some (s.mem.select.setWidth 32)
  | 0x04 => some r.ceCount
  | 0x08 => some r.ueCount
  | 0x0C => some (r.ueAddr.setWidth 32)
  | 0x10 => some (fields [(r.ueAddr.toNat / 2 ^ 32, 0), (r.ueKind.toNat, 3), (flag r.ueMapped, 5)])
  | 0x14 => some r.late
  | 0x18 => some r.collide
  | 0x1C => some r.red
  | 0x20 => some (fields ((List.range 8).map fun k => ((s.gateOf d k).toNat, 2 * k)))
  | 0x24 => some (fields [(r.scrubPasses.toNat, 0), (r.scrubQuantum.toNat, 16)])
  | _ => none

/-- Code of a region kind. -/
def regionCode : RegionKind → Nat
  | .off => 0 | .localRegion => 1 | .forward => 2

/-- CQ_ (Tables 9-4 to 9-6). -/
def State.cqReg (s : State) (off : Nat) : Option Word :=
  let r := if s.cq.select.toNat < 1280 then s.region s.cq.select.toNat else .reset
  match off with
  | 0x00 => some (s.cq.select.setWidth 32)
  | 0x04 => some (wordOf r.base 0 &&& 0xFFFFFF00)
  | 0x08 => some (wordOf r.base 1)
  | 0x0C => some (fields [(regionCode r.kind, 0), (r.slotsLog.toNat, 2), (r.slotLog.toNat, 7), (flag r.overrun, 10)])
  | 0x10 => some (fields [(r.producerPart.toNat, 0), (r.producerTile.toNat, 16), (flag r.producerEngine, 26),
      (flag r.producerFirmware, 27)])
  | 0x14 => some (fields [(r.consumerTile.toNat, 0), (flag r.consumerFirmware, 10)])
  | 0x18 => some (fields [(r.homePart.toNat, 0), (r.homeRegion.toNat, 16)])
  | 0x1C => some r.head
  | 0x20 => some r.tail
  | 0x24 => some r.headSh
  | 0x28 => some r.tailSh
  | 0x2C => some s.cq.underruns
  | 0x30 => some s.cq.overruns
  | 0x34 => some s.cq.discards
  | _ => none

/-- Transmitting lanes not failed: this end's feed check with the peer's report. -/
def Link.txOk (x : Link) : BitVec 8 := x.feedOk &&& x.peerRxOk

/-- LK_ (Tables 10-11 to 10-13). -/
def State.lkReg (s : State) (off : Nat) : Option Word :=
  -- a link of an absent I/O die reads DISABLED (R226)
  let x := if s.hasLink s.lkSelect.toNat then s.link s.lkSelect.toNat
    else { Link.reset with phase := .disabled, reason := 7 }
  let o := tabGet .reset x.optics s.lkLane.toNat
  match off with
  | 0x00 => some (fields [(s.lkSelect.toNat, 0), (s.lkLane.toNat, 5)])
  | 0x04 => some (fields [((linkCode x.phase).toNat, 0), (x.width, 4), (x.txFirst.toNat, 8), (x.rxFirst.toNat, 11),
      (x.reason.toNat, 14)])
  | 0x08 => some (fields [(x.minor.toNat, 0), (x.major.toNat, 8), (x.peerStepping.toNat, 16)])
  | 0x0C => some (fields [(x.rxOk.toNat, 0), (x.txOk.toNat, 8)])
  | 0x10 => some x.crcErrors
  | 0x14 => some x.fecCorrected
  | 0x18 => some x.fecUncorrectable
  | 0x1C => some x.replays
  | 0x20 => some x.marks
  | 0x24 => some x.retrains
  | 0x28 => some (o.tx.setWidth 32)
  | 0x2C => some (o.rx.setWidth 32)
  | 0x30 => some (o.feed.setWidth 32)
  | 0x34 => some (o.ber.setWidth 32)
  | _ => none

/-- RT_ (Tables 11-8 to 11-10). -/
def State.rtReg (s : State) (off : Nat) : Option Word :=
  let k := s.rt.select.toNat
  let r := s.router k
  match off with
  | 0x00 => some (s.rt.select.setWidth 32)
  | 0x04 => some (fields [(s.rt.epoch.toNat, 0), (flag (s.routerQuiet k), 2), (flag s.rt.drain, 3), (s.rt.slice.toNat, 4),
      (s.rt.role.toNat, 12)])
  | 0x08 => some (fields [(r.coord.toNat, 0), (r.extent.toNat, 4), (r.low.toNat, 9), (r.high.toNat, 13), (flag r.full, 17)])
  | 0x0C => some r.dir
  | 0x10 => some (r.linkmap.setWidth 32)
  | 0x14 => some r.packets
  | 0x18 => some r.epochDrops
  | 0x1C => some r.sliceDrops
  | 0x20 => some r.otherDrops
  | 0x24 => some r.rfDrops
  | _ => none

/-- Codes of stack states and of NV_DIST. -/
def stackCode : StackState → Nat
  | .absent => 0 | .online => 1 | .readOnly => 2 | .failed => 3
def distCode : DistState → Nat
  | .idle => 0 | .manifest => 1 | .pass => 2 | .waitNak => 3 | .prepared => 4 | .committing => 5 | .incomplete => 6

/-- NV_WEAR of a stack. -/
def wearWord (x : Stack) (spares : Nat) : Word :=
  fields [(min x.maxErase 0xFFF, 0), (min 100 (x.maxErase * 100 / 3000), 12), (min spares 426, 19)]

/-- A stack holds a copy of the persistent store, as the mount has found it. -/
def State.holdsJournal (s : State) (k : Nat) : Bool := 4 ≤ s.pw.startup && (s.copies k).any (·.verifies)

/-- Registers of the distribution. -/
def State.distReg (s : State) (off : Nat) : Word :=
  match s.nv.dist with
  | none => 0
  | some d =>
    match off with
    | 0x24 => fields [(distCode d.state, 0), (flag d.reader, 3), (d.pass.toNat, 4), (d.generation.toNat, 16)]
    | 0x28 => BitVec.ofNat 32 d.durable.length
    | _ => BitVec.ofNat 32 (d.shard.map (·.2)).sum

/-- NV_ (Tables 13-13 to 13-15). -/
def State.nvReg (s : State) (off : Nat) : Option Word :=
  let v := s.nv
  let x := s.stack v.select.toNat
  match off with
  | 0x00 => some (v.select.setWidth 32)
  | 0x04 => some (fields [(stackCode x.state, 0), (flag (s.holdsJournal v.select.toNat), 2)])
  | 0x08 => some (BitVec.ofNat 32 x.free)
  | 0x0C => some (wearWord x (s.sparesLeft v.select.toNat))
  | 0x10 => some x.ce
  | 0x14 => some x.ue
  | 0x18 => some x.tagFail
  | 0x1C => some x.refresh
  | 0x20 => some x.disturb
  | 0x24 => some (s.distReg 0x24)
  | 0x28 => some (s.distReg 0x28)
  | 0x2C => some (s.distReg 0x2C)
  | 0x30 => some (BitVec.ofNat 32 v.lost.length)
  | 0x34 => some (fields [(v.repairs.toNat, 0), (flag v.degraded, 16), (flag v.storeFault, 17)])
  | 0x38 => some (fields [(flag v.charged, 0), (v.chargePct.toNat, 1)])
  | _ => none

/-- Codes of power states. -/
def powerCode : PowerState → Nat
  | .p0 => 0 | .p1 => 1 | .p2 => 2 | .p3 => 3

/-- The hottest compute-die sensor and its number, the lowest among equals; no reading where none has one. -/
def State.hottest (s : State) : BitVec 16 × Nat :=
  (List.range 64).foldl (fun a i =>
    let x := tabGet 0x8000 s.pw.temps i
    if a.1.toInt < x.toInt then (x, i) else a) (0x8000, 0)

/-- The limit step for the next lesson (R482). -/
def State.limitNow (s : State) : Nat := s.limitStep (if s.inSession then s.comingIndex else none)

/-- PW_ (Tables 20-7, 20-8). -/
def State.pwReg (s : State) (off : Nat) : Option Word :=
  let p := s.pw
  let n := p.samples.length
  match off with
  | 0x00 => some (fields [(powerCode p.state, 0), (p.step.toNat, 2), (p.requested.toNat, 5), (s.limitNow, 8),
      (p.thermalStep.toNat, 11), (p.limit.toNat, 14), (flag s.throttled, 16), (flag p.tripped, 17), (flag p.refused, 18)])
  | 0x04 => some 0
  | 0x08 => some 0
  | 0x0C => some (fields [(p.voltage.toNat, 0), (if n = 0 then 0 else p.samples.sum / n, 16)])
  | 0x10 => some (natWord (p.energy / 1000) 0)
  | 0x14 => some (natWord (p.energy / 1000) 1)
  | 0x18 => some (p.sensorSel.setWidth 32)
  | 0x1C => some ((tabGet 0x8000 p.temps p.sensorSel.toNat).setWidth 32)
  | 0x20 => some (fields [(s.hottest.1.toNat, 0), (s.hottest.2, 16)])
  | 0x24 => some p.throttles
  | 0x28 => some (fields [(p.thermalTrips.toNat, 0), (p.powerTrips.toNat, 16)])
  | 0x2C => some (p.lastReset.setWidth 32)
  | _ => none

/-! ## Counters, digests and debug (Tables 18-4, 18-5, 18-7) -/

/-- A counter of an instance of a scope, as copied for reading. -/
def State.countCopy (s : State) (scope inst off : Nat) : Word :=
  countWord (fun i => tabGet 0 s.dg.cntCopy (256 * (64 * scope + inst) + i)) off

/-- The tensors with a digest, 32 to a word. -/
def State.tensorMap (s : State) (k : Nat) : Word :=
  packFields 1 32 fun i => ofBit (tabGet none s.dg.tensors (32 * k + i)).isSome

/-- The digest and counter registers from BAR0 0x021_0000 on. -/
def State.countReg (s : State) (off : Nat) : Option Word :=
  let d := s.dg
  match off with
  | 0x00 => some (d.cntOn.setWidth 32)
  | 0x08 => some (wordOf d.cntStamp 0)
  | 0x0C => some (wordOf d.cntStamp 1)
  | 0x30000 => some (wordOf d.digestBell 0)
  | 0x30004 => some (fields [(d.digestBell.toNat / 2 ^ 32, 0), (flag d.digestValid, 8)])
  | 0x30008 => some (wordOf d.digestLesson 0)
  | 0x3000C => some (wordOf d.digestLesson 1)
  | 0x30010 => some (wordOf d.digestRun 0)
  | 0x30014 => some (wordOf d.digestRun 1)
  | 0x30018 => some (wordOf d.lockBell 0)
  | 0x3001C => some (fields [(d.lockBell.toNat / 2 ^ 32, 0), (flag d.lockMismatch, 8), (d.lockMember.toNat, 9)])
  | _ =>
    if 0x40 ≤ off && off < 0x80 then
      let k := (off - 0x40) / 2
      some (fields [((tabGet 0 d.cntSel k).toNat, 0), ((tabGet 0 d.cntSel (k + 1)).toNat, 16)])
    else if 0x1000 ≤ off && off < 0x1100 then some (s.countCopy 1 ((off - 0x1000) / 64) off)
    else if 0x2000 ≤ off && off < 0x2800 then some (s.countCopy 2 ((off - 0x2000) / 64) off)
    else if 0x3000 ≤ off && off < 0x3100 then some (s.countCopy 3 ((off - 0x3000) / 64) off)
    else if 0x10000 ≤ off && off < 0x20000 then
      some (countWord (fun i => tabGet 0 (s.tile ((off - 0x10000) / 64)).totals i) off)
    else if 0x31000 ≤ off && off < 0x33000 then some (s.tensorMap ((off - 0x31000) / 4))
    else if 0x70000 ≤ off && off < 0xF0000 then
      some (wordOf ((tabGet none d.tensors ((off - 0x70000) / 8)).getD 0) (off / 4 % 2))
    else none

/-- Kinds of breakpoint that are armed. -/
def Debug.armed (d : Debug) : Nat :=
  ((List.range 3).map fun k => flag (d.breakpoints.any fun b => b.kind.toNat == k) * 2 ^ k).sum

/-- The register window of a tile. -/
def Tile.window (x : Tile) (off : Nat) : Word :=
  if off < 0x80 then tabGet 0 x.s (off / 4)
  else if off < 0x100 then wordOf (tabGet 0 x.a ((off - 0x80) / 8)) (off / 4 % 2)
  else if off < 0x140 then
    let k := (off - 0x100) / 8
    wordOf (if k = 0 then BitVec.allOnes 64 else tabGet 0 x.m k) (off / 4 % 2)
  else if 0x1000 ≤ off && off < 0x3000 then lane (tabGet 0 x.v ((off - 0x1000) / 256)) (off / 4 % 64)
  else if 0x4000 ≤ off && off < 0x14000 then
    lane (tabGet 0 x.acc ((off - 0x4000) / 256)) (off / 4 % 64)
  else 0

/-- The selected tile is stopped: the windows show it. -/
def State.inspected (s : State) : Option Nat :=
  let t := s.dg.inspect.toNat
  if (s.tile t).isle.stopped then some t else none

/-- The debug region of BAR0, in debug mode. -/
def State.debugReg (s : State) (off : Nat) : Option Word :=
  let d := s.dg
  match off with
  | 0x00 => some (fields [(flag d.stopped, 0), (flag d.hazard, 1), (d.armed, 2)])
  | 0x04 => some (fields [(d.stopTile.toNat, 0), (d.stopCode.toNat, 10), (d.stopKind.toNat, 16)])
  | 0x08 => some (d.stopCycle.setWidth 32)
  | 0x0C => some (wordOf d.stopBell 0)
  | 0x10 => some (fields [(d.stopBell.toNat / 2 ^ 32, 0), (d.stopAttempt.toNat, 8)])
  | 0x14 => some (wordOf d.stopTag 0)
  | 0x18 => some (wordOf d.stopTag 1)
  | 0x1C => some d.stopDetail
  | 0x20 => some (wordOf d.stopAddr 0)
  | 0x24 => some (wordOf d.stopAddr 1)
  | 0x40 => some (d.inspect.setWidth 32)
  | _ =>
    if 0x10000 ≤ off && off < 0x100000 then
      some (match s.inspected with
        | some t => (s.tile t).window (off - 0x10000)
        | none => 0)
    else if 0x100000 ≤ off && off < 0x180000 then
      some (match s.inspected with
        | some t => s.mem.vec (storeBase t + (off - 0x100000)) 4
        | none => 0)
    else none

/-! ## Functions (Tables 15-5 to 15-8, 16-2, 16-3) -/

/-- HI_PART and HI_STATE. -/
def State.partWord (s : State) : Word := fields [(0x9400, 0), ((steppingByte s.fused.stepping).toNat, 16)]
def State.stateWord (s : State) : Word :=
  fields [(flag s.hi.ready, 0), (flag s.nv.storeFault, 1), (flag s.hi.debug, 2), ((padlockByte s.sec.padlock).toNat, 3)]

/-- BAR0 identity. -/
def State.identityReg (s : State) (off : Nat) : Option Word :=
  match off with
  | 0x00 => some s.partWord
  | 0x04 => some (wordOf s.fused.serial 0)
  | 0x08 => some (wordOf s.fused.serial 1)
  | 0x0C => some s.stateWord
  | 0x10 => some (fields [(s.hi.linkSpeed.toNat, 0), (s.hi.linkWidth.toNat, 3), (flag s.hi.linkFlit, 8)])
  | _ => none

/-- BAR2 function identity. -/
def State.functionReg (s : State) (f off : Nat) : Option Word :=
  match off with
  | 0x00 => some (fields [(f, 0), (flag (f != 0), 6), (flag (s.attached f), 7), (flag (s.attached f && s.isRegistrar), 8)])
  | 0x04 => some s.partWord
  | 0x0C => some s.stateWord
  | _ => none

/-- HI_FN_ENABLE, that reads the lock mask in LOCKED (R464). -/
def State.enableMask (s : State) : BitVec 64 := if s.sec.padlock == .locked then s.sec.lockMask else s.hi.fnEnable

/-- Function controls of the PF. -/
def State.controlReg (s : State) (off : Nat) : Option Word :=
  match off with
  | 0x00 => some (wordOf s.enableMask 0)
  | 0x04 => some (wordOf s.enableMask 1)
  | _ => none

/-- Ingress and egress registers. -/
def State.ringReg (s : State) (f off : Nat) : Option Word :=
  let x := s.fn f
  match off with
  | 0x00 => some (BitVec.ofNat 32 (s.credit f))
  | 0x04 => some x.consumed
  | 0x08 => some (x.iqThreshold.setWidth 32)
  | 0x0C => some x.iqErrors
  | 0x20 => some (fields [(flag x.egEnable, 0)])
  | 0x24 => some x.egBaseLo
  | 0x28 => some x.egBaseHi
  | 0x2C => some (x.egSize.setWidth 32)
  | 0x30 => some (x.egThresh.setWidth 32)
  | 0x34 => some x.mirrorLo
  | 0x38 => some x.mirrorHi
  | 0x3C => some x.produced
  | 0x40 => some (fields [(flag x.badConsumed, 0), (flag x.dmaError, 1)])
  | _ => none

/-- Mailbox-out and its registers. -/
def State.mailReg (s : State) (f off : Nat) : Option Word :=
  let x := s.mbox f
  match off with
  | 0xF00 => some (fields [(flag x.inFree, 0), (flag x.outValid, 1), (flag x.session, 2), (min x.held 4, 3)])
  | 0xF04 => some x.expected
  | 0xF08 => some (fields [(x.minor.toNat, 0), (x.major.toNat, 8)])
  | 0xF0C => some x.discards
  | _ => if off < 0xF00 then some (fieldAt 32 (bytesAt x.outBytes off 4) 0) else none

/-! ## The maps (Tables 15-2 to 15-4) -/

/-- A register of the privileged region. -/
def State.privReg (s : State) (off : Nat) : Option Word :=
  let o := off % 4096
  match off / 4096 with
  | 0 => s.hiReg o
  | 1 => s.blReg o
  | 2 => s.tsReg o
  | 3 => s.tcReg o
  | 4 => s.xbReg o
  | 5 => s.cqReg o
  | 6 => s.lkReg o
  | 7 => s.rtReg o
  | 8 => s.nvReg o
  | 9 => s.pwReg o
  | n => if 16 ≤ n then s.countReg (off - 0x10000) else none

/-- The mailbox buffers: mailbox-in reads zero. -/
def State.mailboxReg (s : State) (f off : Nat) : Option Word :=
  if off < 0x1000 then some 0 else s.mailReg f (off - 0x1000)

/-- What a 4-byte read of BAR0 gives; none outside implemented space. -/
def State.readBar0 (s : State) (off : Nat) : Option Word :=
  if off % 4 ≠ 0 then none
  else if off < 0x100000 then s.identityReg off
  else if off < 0x102000 then s.mailboxReg 0 (off - 0x100000)
  else if 0x200000 ≤ off && off < 0x300000 then s.privReg (off - 0x200000)
  else if 0x1000000 ≤ off && off < 0x2000000 && s.dg.debugMode then s.debugReg (off - 0x1000000)
  else none

/-- What a 4-byte read of a function's BAR2 gives. -/
def State.readBar2 (s : State) (f off : Nat) : Option Word :=
  if off % 4 ≠ 0 then none
  else if off < 0x1000 then s.functionReg f off
  else if off < 0x2000 then (if f = 0 then s.controlReg (off - 0x1000) else none)
  else if 0x10000 ≤ off && off < 0x12000 then s.mailboxReg f (off - 0x10000)
  else if 0x100000 ≤ off && off < 0x200000 then some 0
  else if 0x200000 ≤ off && off < 0x201000 then s.ringReg f (off - 0x200000)
  else none

/-- A read of a register by a function. -/
def State.readReg (s : State) (f : Nat) (bar2 : Bool) (off : Nat) : Option Word :=
  if bar2 then s.readBar2 f off else if f = 0 then s.readBar0 off else none

end Sys2Proof.Machine
end

