-- ==== Sys2Proof/Machine/Endpoint.lean ====
section
/-! DEFINITION. Register writes, violations, function resets, the management bus and the test access port. -/

namespace Sys2Proof.Machine

/-! ## The time-stamp block (R82, R84, R85) -/

/-- TS_SAMPLE_TAKE: a sample goes to the island selected now. A take also clears stopped, which speaks of the last
sample (log 138). -/
def State.sampleTake (s : State) : State :=
  { s with ts := { s.ts with sampling := some s.ts.select, done := false, stopped := false } }

/-- TS_SAMPLE_TAKE. -/
def execTsSampleTake (s : State) : Host.Outcome State Fault Refusal := .next (if s.hi.ready then s.sampleTake else s)

/-- The counts of an island as a sample finds them: in the cycle of a release those of the cycle before it (R85). -/
def State.sampled (s : State) (id : Nat) : Island :=
  let i := s.isle id
  if i.count ≠ 0 then s.stamped i
  else if id < 8192 then { (s.tile (islandTile id)).before with stopped := i.stopped }
  else { s.ts.before.isle id with stopped := i.stopped }

/-- The island's power domain is off, or it is a fenced tile. -/
def State.unpowered (s : State) (id : Nat) : Bool :=
  (id < 24576 && !s.pw.domainA) || (24576 ≤ id && id < 32768 && !s.pw.domainB) || (id < 8192 && s.fenced (islandTile id))

/-- The island's clock is stopped by a trip or the debug logic, or gated in P1. -/
def State.clockHeld (s : State) (id : Nat) : Bool :=
  (s.isle id).stopped || (id < 16384 && s.pw.state == .p1)

/-- Put sampled values in place. -/
def Stamps.place (t : Stamps) (i : Island) (stopped : Bool) : Stamps :=
  { t with
    sampling := none, done := true, stopped := stopped
    stamp := (i.bell.setWidth 64 <<< (24 : Nat)) ||| (satCycle i.count).setWidth 64, stretch := i.stretched
    lessonStretch := BitVec.ofNat 13 (min i.lessonStretch 0x1FFF), debt := BitVec.ofNat 8 (min i.debt 0xFF) }

/-- TS_SAMPLE_DONE: the sample under way takes effect. A reserved kind or an absent island is no stopped one: stopped
reads 0 then (log 138). -/
def execTsSampleDone (s : State) : Host.Outcome State Fault Refusal :=
  .next (
    match s.ts.sampling with
    | none => s
    | some island =>
      let id := island.toNat
      let there := islandExists s.fused.variant id
      if !there || s.unpowered id then { s with ts := s.ts.place .reset there }
      else { s with ts := s.ts.place (s.sampled id) (s.clockHeld id) })

/-! ## The egress ring (R386) -/

/-- EG_CTRL.enable takes 1: the ring begins at index 0 with phase 1. -/
def Func.enableRing (x : Func) : Func :=
  if 7 ≤ x.egSize.toNat && x.egSize.toNat ≤ 20 then
    { x with egEnable := true, produced := 0, badConsumed := false, dmaError := false, consumedWord := 0 }
  else x

/-- EG_CTRL_ENABLE. -/
def execEgCtrlEnable (fn : BitVec 6) (s : State) : Host.Outcome State Fault Refusal :=
  .next (if s.hi.ready then s.modFn fn.toNat Func.enableRing else s)

/-- A register of the ingress and egress block is written. -/
def Func.writeRing (x : Func) (off : Nat) (v : Word) : Func :=
  match off with
  | 0x08 => { x with iqThreshold := v.setWidth 15 }
  | 0x20 => if bit v 0 then x.enableRing else { x with egEnable := false }
  | 0x24 => if x.egEnable then x else { x with egBaseLo := v &&& 0xFFFFF000 }
  | 0x28 => if x.egEnable then x else { x with egBaseHi := v }
  | 0x2C => if x.egEnable then x else { x with egSize := v.setWidth 5 }
  | 0x30 => { x with egThresh := v.setWidth 21 }
  | 0x34 => if x.egEnable then x else { x with mirrorLo := v &&& 0xFFFFFFC0 }
  | 0x38 => if x.egEnable then x else { x with mirrorHi := v }
  | _ => x

/-! ## Register writes (R7, R396) -/

/-- The state of a command that always completes. -/
def stateOf (s : State) : Host.Outcome State Fault Refusal → State
  | .next t => t
  | _ => s

/-- HI_VIOL: writing 1 clears. -/
def State.clearViol (s : State) (high : Bool) (v : Word) : State :=
  let m : BitVec 64 := v.setWidth 64 <<< (if high then 32 else 0 : Nat)
  { s with hi := { s.hi with viol := s.hi.viol &&& ~~~m } }

/-- PW_CTRL. -/
def State.writePwCtrl (s : State) (v : Word) : State :=
  match (v.extractLsb' 0 2).toNat with
  | 1 => stateOf s (execPwCtrlEnterP2 s)
  | 2 => stateOf s (execPwCtrlLeaveP2 s)
  | 3 => stateOf s (execPwCtrlEnterP3 s)
  | _ => s

/-- PW_RESET. -/
def State.writePwReset (s : State) (v : Word) : State :=
  stateOf s (execPwResetPart v (stateOf s (execPwResetCompute v s)))

/-- A register of the privileged region is written: those not named are read only. -/
def State.writePriv (s : State) (off : Nat) (v : Word) : State :=
  match off with
  | 0x0000 => s.clearViol false v
  | 0x0004 => s.clearViol true v
  | 0x2000 => { s with ts := { s.ts with select := v.setWidth 16 } }
  | 0x2004 => if bit v 0 then s.sampleTake else s
  | 0x3000 => { s with ts := { s.ts with tcSelect := v.setWidth 10 } }
  | 0x4000 => { s with mem := { s.mem with select := v.setWidth 2 } }
  | 0x5000 => { s with cq := { s.cq with select := v.setWidth 11 } }
  | 0x6000 => { s with lkSelect := v.setWidth 5, lkLane := v.extractLsb' 5 3 }
  | 0x7000 => { s with rt := { s.rt with select := v.setWidth 2 } }
  | 0x8000 => { s with nv := { s.nv with select := v.setWidth 3 } }
  | 0x9004 => s.writePwCtrl v
  | 0x9008 => s.writePwReset v
  | 0x9018 => { s with pw := { s.pw with sensorSel := v.setWidth 7 } }
  | _ => s

/-- HI_FN_ENABLE: the padlock forbids the write in LOCKED. -/
def State.writeControl (s : State) (off : Nat) (v : Word) : State :=
  if s.sec.padlock == .locked then s.violate 0 3 true (0x1000 + off)
  else
    let old := s.hi.fnEnable
    let new := if off = 0 then (old.extractLsb' 32 32 ++ v : BitVec 64) else (v ++ old.extractLsb' 0 32 : BitVec 64)
    { s with hi := { s.hi with fnEnable := new } }

/-- A write to a mailbox: the request buffer, the response buffer that takes none, or MB_STATE. -/
def State.writeMail (s : State) (f : Nat) (bar2 : Bool) (base off : Nat) (v : Word) : State :=
  if off < 0x1000 then s.mailboxWrite f bar2 base off (toBytes 4 v)
  else if off < 0x1F00 then s.violate f 1 bar2 (base + off)
  else if off = 0x1F00 && bit v 1 then s.releaseOut f
  else s

/-- A 4-byte write to BAR0. -/
def State.writeBar0 (s : State) (off : Nat) (v : Word) : State :=
  if 0x100000 ≤ off && off < 0x102000 then s.writeMail 0 false 0x100000 (off - 0x100000) v
  else if 0x200000 ≤ off && off < 0x300000 then s.writePriv (off - 0x200000) v
  else if off = 0x1000040 then { s with dg := { s.dg with inspect := v.setWidth 10 } }
  else s

/-- A 4-byte write to BAR2. -/
def State.writeBar2 (s : State) (f off : Nat) (v : Word) : State :=
  if 0x1000 ≤ off && off < 0x2000 then s.writeControl (off - 0x1000) v
  else if 0x10000 ≤ off && off < 0x12000 then s.writeMail f true 0x10000 (off - 0x10000) v
  else if 0x100000 ≤ off && off < 0x200000 then s.ingressWrite f (off - 0x100000) (toBytes 4 v)
  else if 0x200000 ≤ off then s.modFn f fun x => x.writeRing (off - 0x200000) v
  else s

/-- The kind of violation of an access that reaches no register. -/
def violationKind (f : Nat) (bar2 : Bool) (off : Nat) : Nat :=
  if bar2 && f ≠ 0 && 0x1000 ≤ off && off < 0x2000 then 2 else 1

/-- REGISTER_WRITE: takes effect under the register's access code; outside implemented space it is a violation. -/
def execRegisterWrite (fn : BitVec 6) (bar2 : Bool) (offset value : Word) (s : State) : Host.Outcome State Fault Refusal :=
  let f := fn.toNat
  let off := offset.toNat
  .next (
    if !s.hi.ready || (!bar2 && f ≠ 0) then s
    else match s.readReg f bar2 off with
      | none => s.violate f (violationKind f bar2 off) bar2 off
      | some _ => if bar2 then s.writeBar2 f off value else s.writeBar0 off value)

/-- ACCESS_VIOLATION: a forbidden access, of kind 1 to 4, is recorded. -/
def execAccessViolation (fn : BitVec 6) (bar2 : Bool) (offset : Word) (kind : BitVec 3) (s : State) :
    Host.Outcome State Fault Refusal :=
  .next (if 1 ≤ kind.toNat && kind.toNat ≤ 4 then s.violate fn.toNat kind.toNat bar2 offset.toNat else s)

/-! ## The endpoint (R375, R397, R407, R488) -/

/-- PCI_EXPRESS_LINK_CHANGE: to a speed and width of Table 15-1, or down. -/
def execPciExpressLinkChange (speed : BitVec 3) (width : BitVec 5) (flit : Bool) (s : State) :
    Host.Outcome State Fault Refusal :=
  let up := 4 ≤ speed.toNat && speed.toNat ≤ 6 && (width == 4 || width == 8 || width == 16) && flit == (speed == 6)
  .next (
    if speed == 0 then { s with hi := { s.hi with linkSpeed := 0, linkWidth := 0, linkFlit := false } }
    else if up && (s.pw.firmware || s.sec.recovery) then
      { s with hi := { s.hi with linkSpeed := speed, linkWidth := width, linkFlit := flit } }
    else s)

/-- A function has open requests. -/
def State.hasRequests (s : State) (f : Nat) : Bool :=
  s.sv.contexts.any fun e => e.2.state != .free && e.2.function.toNat == f

/-- Function Level Reset of one function. -/
def State.resetFn (s : State) (f : Nat) : State :=
  let x : Func := { Func.reset with flrCancel := s.hasRequests f }
  let s := State.setFn { s with sv := { s.sv with committed := s.sv.committed.filter fun e => e.function.toNat != f } } f x
  s.setMbox f (resetMailbox (s.mbox f))

/-- FLR: of the PF, every function's. -/
def State.flr (s : State) (f : Nat) : State :=
  if f = 0 then (List.range 64).foldl (fun s k => s.resetFn k) s else s.resetFn f

/-- FLR. -/
def execFlr (fn : BitVec 6) (s : State) : Host.Outcome State Fault Refusal :=
  .next (if s.hi.ready then s.flr fn.toNat else s)

/-- PERST_N: as a PF FLR; the endpoint retrains. -/
def execPerstN (s : State) : Host.Outcome State Fault Refusal :=
  .next (State.flr { s with hi := { s.hi with linkSpeed := 0, linkWidth := 0, linkFlit := false } } 0)

/-! ## The management bus (R301 to R303, R408) -/

/-- The Provisioned ID (Table 12-9). -/
def State.provisionedId (s : State) : BitVec 48 :=
  BitVec.ofNat 48 (0x6E4B * 2 ^ 33 + 0x9400 * 2 ^ 16 + s.rc.straps.toNat * 2 ^ 12 + s.fused.serial.toNat % 4096)

/-- The static address (R302). -/
def State.staticAddress (s : State) : BitVec 7 := 0x38 + s.rc.straps.setWidth 7

/-- The address at which the part answers on the management bus: as an I²C target at the static one while it holds no
dynamic address (R302, R303). -/
def State.busAddress (s : State) : Option (BitVec 7) :=
  if s.pins.vsb then some (s.rc.dynamic.getD s.staticAddress) else none

/-- The part takes part in dynamic address assignment: from step 3 of its start-up, and in P3, where the standby domain
alone answers (R479, Table 20-6). -/
def State.takesAddress (s : State) : Bool := s.pins.vsb && (4 ≤ s.pw.startup || !s.pw.domainC)

/-- I3C_DYNAMIC_ADDRESS: an assignment against this part's Provisioned ID, or of its static address (R302). -/
def execI3cDynamicAddress (address : BitVec 7) (provisionedId : BitVec 48) (s : State) :
    Host.Outcome State Fault Refusal :=
  .next (
    if s.takesAddress && (provisionedId == s.provisionedId || address == s.staticAddress) then { s with rc := { s.rc with dynamic := some address } } else s)

/-- I3C_RESET_DYNAMIC_ADDRESS: the part answers at its static address again, and the I3C session ends. -/
def execI3cResetDynamicAddress (s : State) : Host.Outcome State Fault Refusal :=
  .next (State.setMbox { s with rc := { s.rc with dynamic := none } } 64 (resetMailbox (s.mbox 64)))

/-- SET_ENDPOINT_ID: an MCTP control message that reaches the part at its dynamic address. -/
def execSetEndpointId (eid : Byte) (s : State) : Host.Outcome State Fault Refusal :=
  .next (
    if s.pw.firmware && s.rc.dynamic.isSome && eid != 0 && eid != 0xFF then { s with rc := { s.rc with eid := eid } } else s)

/-! ## The test access port (R454) -/

/-- The instruction in effect: EXTEST and the internal scans where they are allowed. -/
def State.tapInstr (s : State) : TapInstr :=
  match s.dg.tapIr with
  | .extest => if s.pins.partRst then .extest else .samplePreload
  | .internalScan => if s.dg.debugMode then .internalScan else .bypass
  | i => i

/-- IDCODE. -/
def State.idcode (s : State) : Word :=
  fields [(1, 0), (0x7FD, 1), (0x9400, 12), ((steppingByte s.fused.stepping).toNat % 16, 28)]

/-- Bits of a word, lowest first. -/
def bitsOf (x : BitVec w) : List Bool := (List.range w).map (bit x)

/-- Shift through the register of the instruction in effect; what the boundary and scan chains give out is not stated. -/
def State.tapShift (s : State) (tdi : List Bool) : State :=
  let n := tdi.length
  let done (s : State) (out : List Bool) : State :=
    State.emit { s with dg := { s.dg with tapData := tdi } } (.tdo (out.take n))
  match s.tapInstr with
  | .bypass => done s (false :: tdi)
  | .idcode => done s (bitsOf s.idcode ++ tdi)
  | _ =>
    let (k, s) := s.draw
    done s (bitsOf (Config.freeBits n k))

/-- TEST_ACCESS_PORT: in the standby domain; reset selects IDCODE (log 4). -/
def execTestAccessPort (op : TapOp) (s : State) : Host.Outcome State Fault Refusal :=
  let load (i : TapInstr) : State := { s with dg := { s.dg with tapIr := i, tapData := [] } }
  .next (
    if s.pins.vsb then
      match op with
      | .reset => load .idcode
      | .bypass => load .bypass
      | .idcode => load .idcode
      | .samplePreload => load .samplePreload
      | .extest => load .extest
      | .internalScan => load .internalScan
      | .shift tdi => s.tapShift tdi
    else s)

end Sys2Proof.Machine
end

