-- ==== Sys2Proof/Machine/FirmwareMessages.lean ====
section
/-! DEFINITION. What a firmware message does at the part it reaches (R40, R59, R185, R284, R359, R410, R438). -/

namespace Sys2Proof.Machine

/-- The phase of a code (Table 2-10). -/
def phaseOf (b : Byte) : Phase :=
  match b.toNat with
  | 0 => .idle | 1 => .lesson | 2 => .gather | 3 => .recess | 4 => .ready | 5 => .complete | 6 => .stopped
  | _ => .faulted

/-- A part of the box gets its job record. -/
def State.takeCreate (s : State) (root : FabricAddr) (job : BitVec 16) (seed : BitVec 64) (replayLimit : Byte)
    (recessMin : Word) : State :=
  if s.job.state == .none && s.rt.slice == 0 then
    let s := s.freshJob job seed (BitVec.ofNat 4 replayLimit.toNat) recessMin.toNat 0
    { s with job := { s.job with root := root } }
  else s

/-- A part of the box gets its assignment, and answers the root once it is recorded; a part that another job holds is in an overlap. -/
def State.takeAssign (s : State) (source : FabricAddr) (job : BitVec 16) (slice : BitVec 8) (low high : FabricAddr)
    (members : List Nat) (root : FabricAddr) (epoch : BitVec 2) (limitUs : Word) : State :=
  let answer (s : State) (st : BitVec 16) (b : List Byte) : State := s.emit (.firmware source (.done s.rc.address 0x11 st b))
  if s.job.state == .created && s.job.id == job && s.job.root == root then
    let map := members.foldl (fun (m : BitVec 4096) i => m ||| BitVec.ofNat 4096 (2 ^ i)) 0
    let (st, t) := s.assignHere slice low high map root epoch limitUs
    if st = 0 then t else answer { s with job := .reset } st []
  else answer s 0x13 []

/-- The root's image metadata at a member. -/
def State.takeImage (s : State) (d : List Byte) (l : List (List Byte × BitVec 512)) : State :=
  if s.job.state == .assigned && s.isMember then
    let (st, b, s) := s.loadHere (imageFrom d l) none
    s.reply 0x12 st b
  else s

/-- An order of the root, or of a part that drains the slice. -/
def State.takeOrder (s : State) (source : FabricAddr) (op : BitVec 16) (b : List Byte) : State :=
  if op = 0x40 then (if natAt b 0 1 = 1 then s.drainHere source else s.undrain)
  else if s.job.state != .none && source == s.job.root then s.obey op b
  else s

/-- A member has processed a bundle frame: the transfer that waits for it (R391). -/
def State.frameDone (s : State) (member : FabricAddr) : State :=
  match (s.fn 0).transfers.find? fun t => t.ttBlock && t.status.isNone && t.awaiting.contains member with
  | none => s
  | some t => s.modTransfer 0 t.slot fun t => { t with awaiting := t.awaiting.erase member }

/-- An answer to an order. -/
def State.takeDone (s : State) (member : FabricAddr) (op st : BitVec 16) (b : List Byte) : State :=
  if op = 0 then s.frameDone member
  else if op = 0x40 then s.partQuiet member
  else s.takeResult member op st b

/-- The end of the job: a member asks the root for a fault, or the root tells a part of its box; where the root itself has
been reset, a neighbour of it does (R283). -/
def State.takeEnd (s : State) (source : FabricAddr) (phase : Phase) (code : Byte) : State :=
  if s.isRoot then (if phase == .faulted && s.inSlice source then s.fault code else s)
  else if (source == s.job.root || (code = 6 && s.inSlice source)) && s.job.state != .none && s.job.state != .ended then s.endJob phase code
  else s

/-- A job stop or release that the root carries: it takes hold at once where the job is not in session. -/
def State.takeRelease (s : State) (source : FabricAddr) (job : BitVec 16) (release : Bool) : State :=
  if s.job.state != .none && s.job.id == job && source == s.job.root then
    if release && !s.inSession then s.releaseJob .nothing else { s with job := { s.job with stop := some release } }
  else if release && s.job.state == .none && s.rt.slice != 0 && s.nv.fabric.job == job && s.nv.fabric.root == source then
    -- a part reset has taken the job record, not the slice assignment of the FABRIC record
    s.clearSlice.commitFabric .nothing
  else s

/-- A member's lesson digest at the root (R438). -/
def State.takeDigest (s : State) (member : Nat) (bell : BitVec 40) (value : BitVec 64) : State :=
  if s.isRoot && s.dg.paired && bell == s.bell.number then
    let l := (member, value) :: s.dg.ownDigests.filter fun e => e.1 != member
    (State.trySlice { s with dg := { s.dg with ownDigests := l } }).compareSlices
  else s

/-- A member's flags of a committed lesson at the root (R185). -/
def State.takeFlags (s : State) (source : FabricAddr) (bell : BitVec 40) (l : List (Nat × BitVec 10)) : State :=
  if s.isRoot then l.foldl (fun s e => s.sumFlag e.1 bell source e.2) s else s

/-- A page in which a member read an uncorrectable error, at the registrar (R359). -/
def State.takePage (s : State) (page : Nat) : State :=
  if s.isRegistrar then
    let mark (_ : Nat) (c : Ctx) : Ctx := if c.pages.contains page then { c with damaged := true } else c
    { s with sv := { s.sv with
        contexts := tabMap mark s.sv.contexts, shadow := tabMap mark s.sv.shadow
        prefixes := s.sv.prefixes.filter fun p => p.page != page } }
  else s

/-- A relay part's narrowest link at the root (R59, R253, R285): below the image's width it faults the job, where the
replay limit does not; the ready and the release wait for every relay part's. -/
def State.takeWidthOf (s : State) (part : FabricAddr) (lanes : Nat) : State :=
  if s.isRoot && s.inSession then
    let s := { s with bell := { s.bell with widthsDue := s.bell.widthsDue.filter fun a => a != part } }
    let narrow := match s.job.image with
      | some im => lanes < im.minWidth
      | none => false
    if narrow && s.bell.attempt.toNat < s.bell.replayLimit.toNat then s.fault 4 else s.tryReady
  else s

/-- The registrar has named an adapter generation in a slot; in a term recess its restore begins at once (R360). -/
def State.takeBound (s : State) (source : FabricAddr) (slot : Nat) (adapter : Word) (generation : BitVec 16)
    (tenant : BitVec 12) : State :=
  if source == s.job.root && s.isMember then
    let s := s.nameSlot slot adapter generation tenant
    match s.job.image with
    | some im => if s.termRecess && s.bell.phase == .recess then s.fillSlots im else s
    | none => s
  else s

/-- A firmware message from a part. -/
def State.takeFirmware (s : State) (source : FabricAddr) : FwMessage → State
  | .create job seed limit recess => s.takeCreate source job seed limit recess
  | .assign job slice low high members root epoch limit =>
    s.takeAssign source job slice low high members root epoch limit
  | .order op b => s.takeOrder source op b
  | .image d l => s.takeImage d l
  | .done member op st b => s.takeDone member op st b
  | .digest member bell value => s.takeDigest member bell value
  | .flags bell l => s.takeFlags source bell l
  | .jobEnd phase code => s.takeEnd source (phaseOf phase) code
  | .damagedPage page => s.takePage page
  | .scrubbed member key =>
    if s.isRegistrar then { s with sv := { s.sv with scrubReports := s.sv.scrubReports ++ [(member, key)] } } else s
  | .stop job release => s.takeRelease source job release
  | .reverify member step => if s.isRoot then (s.rootReverify member step).heldCheck else s
  | .refusal member st => s.takeRefusal member st
  | .reader repairing low high => s.takeReader source repairing low high
  | .distEnd digest => s.takeDistEnd source digest
  | .bound slot adapter generation tenant =>
    s.takeBound source slot adapter generation tenant
  | .slotLost slot => if s.isRegistrar then s.loseSlot slot else s
  | .width part lanes => s.takeWidthOf part lanes
  | .inputFailure _ => if s.isRoot && s.inSlice source then s.fault 6 else s

/-- FIRMWARE_MESSAGE: taken while firmware runs and the store has no fault. -/
def execFirmwareMessage (source : FabricAddr) (m : FwMessage) (s : State) : Host.Outcome State Fault Refusal :=
  .next (if s.pw.firmware && !s.nv.storeFault then s.takeFirmware source m else s)

end Sys2Proof.Machine
end

