-- ==== Sys2Proof/Machine/Instructions.lean ====
section
/-! DEFINITION. The instruction rows: each issues its instruction in its tile's current cycle, with the fields
of its slot. A tile that issues nothing (R97, R114) leaves the state as it is. -/

namespace Sys2Proof.Machine

/-! ## Matrix slot (chapter 05) -/

/-- MXB (R123 to R128). -/
def execMxb (tile : BitVec 10) (f : MxFields) (s : State) : Host.Outcome State Fault Refusal :=
  .next (s.issueOne tile.toNat (mxWork false f tile.toNat))

/-- MXC: the shifted window (R135, R136). -/
def execMxc (tile : BitVec 10) (f : MxFields) (s : State) : Host.Outcome State Fault Refusal :=
  .next (s.issueOne tile.toNat (mxWork true f tile.toNat))

/-! ## Vector slot (chapter 07) -/

/-- VMOV: copy. -/
def execVmov (tile : BitVec 10) (f : VxFields) (s : State) : Host.Outcome State Fault Refusal :=
  .next (s.issueOne tile.toNat (vxWork .vmov f tile.toNat))

/-- IADD: INT32 addition (R164). -/
def execIadd (tile : BitVec 10) (f : VxFields) (s : State) : Host.Outcome State Fault Refusal :=
  .next (s.issueOne tile.toNat (vxWork .iadd f tile.toNat))

/-- ISUB: INT32 subtraction (R164). -/
def execIsub (tile : BitVec 10) (f : VxFields) (s : State) : Host.Outcome State Fault Refusal :=
  .next (s.issueOne tile.toNat (vxWork .isub f tile.toNat))

/-- IMUL: low product (R164). -/
def execImul (tile : BitVec 10) (f : VxFields) (s : State) : Host.Outcome State Fault Refusal :=
  .next (s.issueOne tile.toNat (vxWork .imul f tile.toNat))

/-- IMIN: signed minimum (R159). -/
def execImin (tile : BitVec 10) (f : VxFields) (s : State) : Host.Outcome State Fault Refusal :=
  .next (s.issueOne tile.toNat (vxWork .imin f tile.toNat))

/-- IMAX: signed maximum (R159). -/
def execImax (tile : BitVec 10) (f : VxFields) (s : State) : Host.Outcome State Fault Refusal :=
  .next (s.issueOne tile.toNat (vxWork .imax f tile.toNat))

/-- AND: bitwise AND (R159). -/
def execVand (tile : BitVec 10) (f : VxFields) (s : State) : Host.Outcome State Fault Refusal :=
  .next (s.issueOne tile.toNat (vxWork .band f tile.toNat))

/-- OR: bitwise OR (R159). -/
def execVor (tile : BitVec 10) (f : VxFields) (s : State) : Host.Outcome State Fault Refusal :=
  .next (s.issueOne tile.toNat (vxWork .bor f tile.toNat))

/-- XOR: bitwise XOR (R159). -/
def execVxor (tile : BitVec 10) (f : VxFields) (s : State) : Host.Outcome State Fault Refusal :=
  .next (s.issueOne tile.toNat (vxWork .bxor f tile.toNat))

/-- SHL: left shift (R159). -/
def execShl (tile : BitVec 10) (f : VxFields) (s : State) : Host.Outcome State Fault Refusal :=
  .next (s.issueOne tile.toNat (vxWork .shl f tile.toNat))

/-- SHR: logical right shift (R159). -/
def execShr (tile : BitVec 10) (f : VxFields) (s : State) : Host.Outcome State Fault Refusal :=
  .next (s.issueOne tile.toNat (vxWork .shr f tile.toNat))

/-- SAR: arithmetic right shift (R159). -/
def execSar (tile : BitVec 10) (f : VxFields) (s : State) : Host.Outcome State Fault Refusal :=
  .next (s.issueOne tile.toNat (vxWork .sar f tile.toNat))

/-- KEY: order key (R165). -/
def execKey (tile : BitVec 10) (f : VxFields) (s : State) : Host.Outcome State Fault Refusal :=
  .next (s.issueOne tile.toNat (vxWork .key f tile.toNat))

/-- VCMP: comparison into a mask (R165). -/
def execVcmp (tile : BitVec 10) (f : VxFields) (s : State) : Host.Outcome State Fault Refusal :=
  .next (s.issueOne tile.toNat (vxWork .vcmp f tile.toNat))

/-- VSEL: selection (R159). -/
def execVsel (tile : BitVec 10) (f : VxFields) (s : State) : Host.Outcome State Fault Refusal :=
  .next (s.issueOne tile.toNat (vxWork .vsel f tile.toNat))

/-- VPERM: permutation (R159). -/
def execVperm (tile : BitVec 10) (f : VxFields) (s : State) : Host.Outcome State Fault Refusal :=
  .next (s.issueOne tile.toNat (vxWork .vperm f tile.toNat))

/-- VRDA: accumulator row or column into a vector (R168). -/
def execVrda (tile : BitVec 10) (f : VxFields) (s : State) : Host.Outcome State Fault Refusal :=
  .next (s.issueOne tile.toNat (vxWork .vrda f tile.toNat))

/-- VWRA: vector into an accumulator row (R168). -/
def execVwra (tile : BitVec 10) (f : VxFields) (s : State) : Host.Outcome State Fault Refusal :=
  .next (s.issueOne tile.toNat (vxWork .vwra f tile.toNat))

/-- VGATH: gather (R170). -/
def execVgath (tile : BitVec 10) (f : VxFields) (s : State) : Host.Outcome State Fault Refusal :=
  .next (s.issueOne tile.toNat (vxWork .vgath f tile.toNat))

/-- VSCAT: scatter (R170, R171). -/
def execVscat (tile : BitVec 10) (f : VxFields) (s : State) : Host.Outcome State Fault Refusal :=
  .next (s.issueOne tile.toNat (vxWork .vscat f tile.toNat))

/-- FADD: FP32 addition (R161 to R163). -/
def execFadd (tile : BitVec 10) (f : VxFields) (s : State) : Host.Outcome State Fault Refusal :=
  .next (s.issueOne tile.toNat (vxWork .fadd f tile.toNat))

/-- FSUB: FP32 subtraction (R161 to R163). -/
def execFsub (tile : BitVec 10) (f : VxFields) (s : State) : Host.Outcome State Fault Refusal :=
  .next (s.issueOne tile.toNat (vxWork .fsub f tile.toNat))

/-- FMUL: FP32 multiplication (R161 to R163). -/
def execFmul (tile : BitVec 10) (f : VxFields) (s : State) : Host.Outcome State Fault Refusal :=
  .next (s.issueOne tile.toNat (vxWork .fmul f tile.toNat))

/-- FFMA: fused multiply-add (R161). -/
def execFfma (tile : BitVec 10) (f : VxFields) (s : State) : Host.Outcome State Fault Refusal :=
  .next (s.issueOne tile.toNat (vxWork .ffma f tile.toNat))

/-- FMAX: FP32 maximum (R161). -/
def execFmax (tile : BitVec 10) (f : VxFields) (s : State) : Host.Outcome State Fault Refusal :=
  .next (s.issueOne tile.toNat (vxWork .fmax f tile.toNat))

/-- FMIN: FP32 minimum (R161). -/
def execFmin (tile : BitVec 10) (f : VxFields) (s : State) : Host.Outcome State Fault Refusal :=
  .next (s.issueOne tile.toNat (vxWork .fmin f tile.toNat))

/-- VCVT: conversion (R172, R173). -/
def execVcvt (tile : BitVec 10) (f : VxFields) (s : State) : Host.Outcome State Fault Refusal :=
  .next (s.issueOne tile.toNat (vxWork .vcvt f tile.toNat))

/-- VSCAN: inclusive scan (R166). -/
def execVscan (tile : BitVec 10) (f : VxFields) (s : State) : Host.Outcome State Fault Refusal :=
  .next (s.issueOne tile.toNat (vxWork .vscan f tile.toNat))

/-- VSCANX: exclusive scan (R166). -/
def execVscanx (tile : BitVec 10) (f : VxFields) (s : State) : Host.Outcome State Fault Refusal :=
  .next (s.issueOne tile.toNat (vxWork .vscanx f tile.toNat))

/-- VRED: reduction (R167). -/
def execVred (tile : BitVec 10) (f : VxFields) (s : State) : Host.Outcome State Fault Refusal :=
  .next (s.issueOne tile.toNat (vxWork .vred f tile.toNat))

/-- VHIST: key histogram (R182). -/
def execVhist (tile : BitVec 10) (f : VxFields) (s : State) : Host.Outcome State Fault Refusal :=
  .next (s.issueOne tile.toNat (vxWork .vhist f tile.toNat))

/-- VFIRST: first lane at a threshold (R183). -/
def execVfirst (tile : BitVec 10) (f : VxFields) (s : State) : Host.Outcome State Fault Refusal :=
  .next (s.issueOne tile.toNat (vxWork .vfirst f tile.toNat))

/-- VACC: broadcast operation on a bank (R169). -/
def execVacc (tile : BitVec 10) (f : VxFields) (s : State) : Host.Outcome State Fault Refusal :=
  .next (s.issueOne tile.toNat (vxWork .vacc f tile.toNat))

/-- VSCANA: scan down a bank (R169). -/
def execVscana (tile : BitVec 10) (f : VxFields) (s : State) : Host.Outcome State Fault Refusal :=
  .next (s.issueOne tile.toNat (vxWork .vscana f tile.toNat))

/-- EXP2: 2^a (R175). -/
def execExp2 (tile : BitVec 10) (f : VxFields) (s : State) : Host.Outcome State Fault Refusal :=
  .next (s.issueOne tile.toNat (vxWork .exp2 f tile.toNat))

/-- LOG2: base-2 logarithm (R176). -/
def execLog2 (tile : BitVec 10) (f : VxFields) (s : State) : Host.Outcome State Fault Refusal :=
  .next (s.issueOne tile.toNat (vxWork .log2 f tile.toNat))

/-- RCP: reciprocal (R177). -/
def execRcp (tile : BitVec 10) (f : VxFields) (s : State) : Host.Outcome State Fault Refusal :=
  .next (s.issueOne tile.toNat (vxWork .rcp f tile.toNat))

/-- RSQRT: reciprocal square root (R177). -/
def execRsqrt (tile : BitVec 10) (f : VxFields) (s : State) : Host.Outcome State Fault Refusal :=
  .next (s.issueOne tile.toNat (vxWork .rsqrt f tile.toNat))

/-- SIN: sine (R178). -/
def execSin (tile : BitVec 10) (f : VxFields) (s : State) : Host.Outcome State Fault Refusal :=
  .next (s.issueOne tile.toNat (vxWork .sin f tile.toNat))

/-- COS: cosine (R178). -/
def execCos (tile : BitVec 10) (f : VxFields) (s : State) : Host.Outcome State Fault Refusal :=
  .next (s.issueOne tile.toNat (vxWork .cos f tile.toNat))

/-! ## Load and store slots (R92, R93) -/

/-- LDS: four bytes into a scalar register. -/
def execLds (tile : BitVec 10) (f : LdFields) (s : State) : Host.Outcome State Fault Refusal :=
  .next (s.issueOne tile.toNat (ldWork .lds f tile.toNat))

/-- LDV: a granule into a vector register. -/
def execLdv (tile : BitVec 10) (f : LdFields) (s : State) : Host.Outcome State Fault Refusal :=
  .next (s.issueOne tile.toNat (ldWork .ldv f tile.toNat))

/-- LDO: an operand-buffer row, plain, strided or transposed (R195 to R198). -/
def execLdo (tile : BitVec 10) (f : LdFields) (s : State) : Host.Outcome State Fault Refusal :=
  .next (s.issueOne tile.toNat (ldWork .ldo f tile.toNat))

/-- LDI: the next granule of the refill region (R107). -/
def execLdi (tile : BitVec 10) (f : LdFields) (s : State) : Host.Outcome State Fault Refusal :=
  .next (s.issueOne tile.toNat (ldWork .ldi f tile.toNat))

/-- STS: a scalar register. -/
def execSts (tile : BitVec 10) (f : StFields) (s : State) : Host.Outcome State Fault Refusal :=
  .next (s.issueOne tile.toNat (stWork false f tile.toNat))

/-- STV: the masked lanes of a vector register. -/
def execStv (tile : BitVec 10) (f : StFields) (s : State) : Host.Outcome State Fault Refusal :=
  .next (s.issueOne tile.toNat (stWork true f tile.toNat))

/-! ## Transfer slot (Table 4-8) -/

/-- SENDV (R95). -/
def execSendv (tile : BitVec 10) (src due : BitVec 5) (dest : BitVec 10) (destReg : BitVec 5) (s : State) :
    Host.Outcome State Fault Refusal :=
  .next (s.issueOne tile.toNat (sendvWork src due dest destReg tile.toNat))

/-- SENDS (R95). -/
def execSends (tile : BitVec 10) (src due : BitVec 5) (dest : BitVec 10) (destReg : BitVec 5) (s : State) :
    Host.Outcome State Fault Refusal :=
  .next (s.issueOne tile.toNat (sendsWork src due dest destReg tile.toNat))

/-- RED (R200). -/
def execRed (tile : BitVec 10) (src due : BitVec 5) (group : BitVec 8) (s : State) :
    Host.Outcome State Fault Refusal :=
  .next (s.issueOne tile.toNat (redWork src due group tile.toNat))

/-- PUT (R216, R266). -/
def execPut (tile : BitVec 10) (src : BitVec 5) (region : BitVec 8) (s : State) :
    Host.Outcome State Fault Refusal :=
  .next (s.issueOne tile.toNat (putWork src region tile.toNat))

/-! ## Control slot (Table 4-9) -/

/-- LOOP (R98, R99). -/
def execLoop (tile : BitVec 10) (trips : BitVec 16) (endIndex : BitVec 10) (s : State) :
    Host.Outcome State Fault Refusal :=
  .next (s.issueOne tile.toNat (loopWork trips endIndex tile.toNat))

/-- BRC (R99). -/
def execBrc (tile : BitVec 10) (level : BitVec 2) (value : BitVec 15) (target : BitVec 10) (s : State) :
    Host.Outcome State Fault Refusal :=
  .next (s.issueOne tile.toNat (brcWork level value target tile.toNat))

/-- ENDL (R97). -/
def execEndl (tile : BitVec 10) (s : State) : Host.Outcome State Fault Refusal :=
  .next (s.issueOne tile.toNat (endlWork tile.toNat))

/-- SETS (R96). -/
def execSets (tile : BitVec 10) (sd : BitVec 5) (imm : BitVec 20) (mode : BitVec 2) (s : State) :
    Host.Outcome State Fault Refusal :=
  .next (s.issueOne tile.toNat (setsWork sd imm mode tile.toNat))

/-- SETA (R96). -/
def execSeta (tile : BitVec 10) (ad : BitVec 4) (imm : BitVec 20) (mode : BitVec 3) (s : State) :
    Host.Outcome State Fault Refusal :=
  .next (s.issueOne tile.toNat (setaWork ad imm mode tile.toNat))

/-- SALU (R96). -/
def execSalu (tile : BitVec 10) (sd sa sb : BitVec 5) (fn : BitVec 4) (s : State) :
    Host.Outcome State Fault Refusal :=
  .next (s.issueOne tile.toNat (saluWork sd sa sb fn tile.toNat))

/-- RDCTL (R96, Table 4-10). -/
def execRdctl (tile : BitVec 10) (sd selector : BitVec 5) (s : State) : Host.Outcome State Fault Refusal :=
  .next (s.issueOne tile.toNat (rdctlWork sd selector tile.toNat))

/-- MSET (R96). -/
def execMset (tile : BitVec 10) (md : BitVec 3) (sa sb : BitVec 5) (s : State) :
    Host.Outcome State Fault Refusal :=
  .next (s.issueOne tile.toNat (msetWork md sa sb tile.toNat))

/-- RAND (R179 to R181). -/
def execRand (tile : BitVec 10) (vd sa : BitVec 5) (stream form : BitVec 2) (s : State) :
    Host.Outcome State Fault Refusal :=
  .next (s.issueOne tile.toNat (randWork vd sa stream form tile.toNat))

/-- DGSEL (R433). -/
def execDgsel (tile : BitVec 10) (tensor : BitVec 16) (s : State) : Host.Outcome State Fault Refusal :=
  .next (s.issueOne tile.toNat (dgselWork tensor tile.toNat))

end Sys2Proof.Machine
end

