-- ==== Sys2Proof/Machine/Dispatch.lean ====
section
/-! DEFINITION. Which meaning each command has. -/

namespace Sys2Proof.Machine

def exec (i : Instr) (s : State) : Host.Outcome State Fault Refusal :=
  match i with
  | .bundleFetch tile => Sys2Proof.Machine.execBundleFetch tile s
  | .lessonEnd tile => Sys2Proof.Machine.execLessonEnd tile s
  | .mxb tile f => Sys2Proof.Machine.execMxb tile f s
  | .mxc tile f => Sys2Proof.Machine.execMxc tile f s
  | .vmov tile f => Sys2Proof.Machine.execVmov tile f s
  | .iadd tile f => Sys2Proof.Machine.execIadd tile f s
  | .isub tile f => Sys2Proof.Machine.execIsub tile f s
  | .imul tile f => Sys2Proof.Machine.execImul tile f s
  | .imin tile f => Sys2Proof.Machine.execImin tile f s
  | .imax tile f => Sys2Proof.Machine.execImax tile f s
  | .vand tile f => Sys2Proof.Machine.execVand tile f s
  | .vor tile f => Sys2Proof.Machine.execVor tile f s
  | .vxor tile f => Sys2Proof.Machine.execVxor tile f s
  | .shl tile f => Sys2Proof.Machine.execShl tile f s
  | .shr tile f => Sys2Proof.Machine.execShr tile f s
  | .sar tile f => Sys2Proof.Machine.execSar tile f s
  | .key tile f => Sys2Proof.Machine.execKey tile f s
  | .vcmp tile f => Sys2Proof.Machine.execVcmp tile f s
  | .vsel tile f => Sys2Proof.Machine.execVsel tile f s
  | .vperm tile f => Sys2Proof.Machine.execVperm tile f s
  | .vrda tile f => Sys2Proof.Machine.execVrda tile f s
  | .vwra tile f => Sys2Proof.Machine.execVwra tile f s
  | .vgath tile f => Sys2Proof.Machine.execVgath tile f s
  | .vscat tile f => Sys2Proof.Machine.execVscat tile f s
  | .fadd tile f => Sys2Proof.Machine.execFadd tile f s
  | .fsub tile f => Sys2Proof.Machine.execFsub tile f s
  | .fmul tile f => Sys2Proof.Machine.execFmul tile f s
  | .ffma tile f => Sys2Proof.Machine.execFfma tile f s
  | .fmax tile f => Sys2Proof.Machine.execFmax tile f s
  | .fmin tile f => Sys2Proof.Machine.execFmin tile f s
  | .vcvt tile f => Sys2Proof.Machine.execVcvt tile f s
  | .vscan tile f => Sys2Proof.Machine.execVscan tile f s
  | .vscanx tile f => Sys2Proof.Machine.execVscanx tile f s
  | .vred tile f => Sys2Proof.Machine.execVred tile f s
  | .vhist tile f => Sys2Proof.Machine.execVhist tile f s
  | .vfirst tile f => Sys2Proof.Machine.execVfirst tile f s
  | .vacc tile f => Sys2Proof.Machine.execVacc tile f s
  | .vscana tile f => Sys2Proof.Machine.execVscana tile f s
  | .exp2 tile f => Sys2Proof.Machine.execExp2 tile f s
  | .log2 tile f => Sys2Proof.Machine.execLog2 tile f s
  | .rcp tile f => Sys2Proof.Machine.execRcp tile f s
  | .rsqrt tile f => Sys2Proof.Machine.execRsqrt tile f s
  | .sin tile f => Sys2Proof.Machine.execSin tile f s
  | .cos tile f => Sys2Proof.Machine.execCos tile f s
  | .lds tile f => Sys2Proof.Machine.execLds tile f s
  | .ldv tile f => Sys2Proof.Machine.execLdv tile f s
  | .ldo tile f => Sys2Proof.Machine.execLdo tile f s
  | .ldi tile f => Sys2Proof.Machine.execLdi tile f s
  | .sts tile f => Sys2Proof.Machine.execSts tile f s
  | .stv tile f => Sys2Proof.Machine.execStv tile f s
  | .sendv tile src due dest destReg => Sys2Proof.Machine.execSendv tile src due dest destReg s
  | .sends tile src due dest destReg => Sys2Proof.Machine.execSends tile src due dest destReg s
  | .red tile src due group => Sys2Proof.Machine.execRed tile src due group s
  | .put tile src region => Sys2Proof.Machine.execPut tile src region s
  | .loop tile trips endIndex => Sys2Proof.Machine.execLoop tile trips endIndex s
  | .brc tile level value target => Sys2Proof.Machine.execBrc tile level value target s
  | .endl tile => Sys2Proof.Machine.execEndl tile s
  | .sets tile sd imm mode => Sys2Proof.Machine.execSets tile sd imm mode s
  | .seta tile ad imm mode => Sys2Proof.Machine.execSeta tile ad imm mode s
  | .salu tile sd sa sb fn => Sys2Proof.Machine.execSalu tile sd sa sb fn s
  | .rdctl tile sd selector => Sys2Proof.Machine.execRdctl tile sd selector s
  | .mset tile md sa sb => Sys2Proof.Machine.execMset tile md sa sb s
  | .rand tile vd sa stream form => Sys2Proof.Machine.execRand tile vd sa stream form s
  | .dgsel tile tensor => Sys2Proof.Machine.execDgsel tile tensor s
  | .resultWriteback tile => Sys2Proof.Machine.execResultWriteback tile s
  | .mxRowWrite tile => Sys2Proof.Machine.execMxRowWrite tile s
  | .hingeEntryArrival tile entry => Sys2Proof.Machine.execHingeEntryArrival tile entry s
  | .hingeDueRelease tile => Sys2Proof.Machine.execHingeDueRelease tile s
  | .droopDetect island => Sys2Proof.Machine.execDroopDetect island s
  | .stretchDebtRecovery island => Sys2Proof.Machine.execStretchDebtRecovery island s
  | .sliceRequestServe die slice write now => Sys2Proof.Machine.execSliceRequestServe die slice write now s
  | .sliceRequestDrop die slice write now => Sys2Proof.Machine.execSliceRequestDrop die slice write now s
  | .collisionWindowExpiry die slice now => Sys2Proof.Machine.execCollisionWindowExpiry die slice now s
  | .reductionContribution die group now => Sys2Proof.Machine.execReductionContribution die group now s
  | .reductionClose die group now => Sys2Proof.Machine.execReductionClose die group now s
  | .pieceLanding piece => Sys2Proof.Machine.execPieceLanding piece s
  | .gatherStatusSend => Sys2Proof.Machine.execGatherStatusSend s
  | .bellGather p => Sys2Proof.Machine.execBellGather p s
  | .gatherTimeout => Sys2Proof.Machine.execGatherTimeout s
  | .bellVerdict p env => Sys2Proof.Machine.execBellVerdict p env s
  | .readySend env => Sys2Proof.Machine.execReadySend env s
  | .bellReady p => Sys2Proof.Machine.execBellReady p s
  | .releaseIssue elapsed => Sys2Proof.Machine.execReleaseIssue elapsed s
  | .bellRelease p => Sys2Proof.Machine.execBellRelease p s
  | .tileRelease => Sys2Proof.Machine.execTileRelease s
  | .bellNotice p => Sys2Proof.Machine.execBellNotice p s
  | .drainQuiet => Sys2Proof.Machine.execDrainQuiet s
  | .temperatureSample readings => Sys2Proof.Machine.execTemperatureSample readings s
  | .thermalStepRise => Sys2Proof.Machine.execThermalStepRise s
  | .cooldownReady => Sys2Proof.Machine.execCooldownReady s
  | .powerSample watts voltage => Sys2Proof.Machine.execPowerSample watts voltage s
  | .p1IdleEntry => Sys2Proof.Machine.execP1IdleEntry s
  | .inputGood => Sys2Proof.Machine.execInputGood s
  | .storeMount => Sys2Proof.Machine.execStoreMount s
  | .domainAPowerUp => Sys2Proof.Machine.execDomainAPowerUp s
  | .selfTestComplete failures => Sys2Proof.Machine.execSelfTestComplete failures s
  | .startupRestoreComplete => Sys2Proof.Machine.execStartupRestoreComplete s
  | .inputFailure => Sys2Proof.Machine.execInputFailure s
  | .vsbLoss => Sys2Proof.Machine.execVsbLoss s
  | .refclkLoss => Sys2Proof.Machine.execRefclkLoss s
  | .partReset cause => Sys2Proof.Machine.execPartReset cause s
  | .perstN => Sys2Proof.Machine.execPerstN s
  | .flr fn => Sys2Proof.Machine.execFlr fn s
  | .trialWatchdogExpiry => Sys2Proof.Machine.execTrialWatchdogExpiry s
  | .trialConfirm => Sys2Proof.Machine.execTrialConfirm s
  | .recordCommitDone failed => Sys2Proof.Machine.execRecordCommitDone failed s
  | .restoreBlockRead ldpcFailed corrected => Sys2Proof.Machine.execRestoreBlockRead ldpcFailed corrected s
  | .readDisturbRelocate stack work => Sys2Proof.Machine.execReadDisturbRelocate stack work s
  | .retentionRefresh stack work => Sys2Proof.Machine.execRetentionRefresh stack work s
  | .scrubIdleTick => Sys2Proof.Machine.execScrubIdleTick s
  | .halfLayerClosed die half => Sys2Proof.Machine.execHalfLayerClosed die half s
  | .halfLayerOpened die half => Sys2Proof.Machine.execHalfLayerOpened die half s
  | .codewordReceive link lane message parity nanosecond => Sys2Proof.Machine.execCodewordReceive link lane message parity nanosecond s
  | .dataFlit link first body crc => Sys2Proof.Machine.execDataFlit link first body crc s
  | .statusFlit link f nanosecond => Sys2Proof.Machine.execStatusFlit link f nanosecond s
  | .flitSlotTransmit link => Sys2Proof.Machine.execFlitSlotTransmit link s
  | .replayTimeout at_ => Sys2Proof.Machine.execReplayTimeout at_ s
  | .linkLightDetect link => Sys2Proof.Machine.execLinkLightDetect link s
  | .linkCodewordLock link => Sys2Proof.Machine.execLinkCodewordLock link s
  | .linkDetectTimeout link => Sys2Proof.Machine.execLinkDetectTimeout link s
  | .linkLockDone link locked => Sys2Proof.Machine.execLinkLockDone link locked s
  | .train at_ f => Sys2Proof.Machine.execTrain at_ f s
  | .linkCheckDone link failed => Sys2Proof.Machine.execLinkCheckDone link failed s
  | .laneFail link lane transmit => Sys2Proof.Machine.execLaneFail link lane transmit s
  | .degradeTimeout link => Sys2Proof.Machine.execDegradeTimeout link s
  | .linkDown link reason => Sys2Proof.Machine.execLinkDown link reason s
  | .packetRoute die port a => Sys2Proof.Machine.execPacketRoute die port a s
  | .putPacket p => Sys2Proof.Machine.execPutPacket p s
  | .getReqIssue now => Sys2Proof.Machine.execGetReqIssue now s
  | .getReq p now => Sys2Proof.Machine.execGetReq p now s
  | .getResp p => Sys2Proof.Machine.execGetResp p s
  | .mcast p => Sys2Proof.Machine.execMcast p s
  | .ringStart ring now => Sys2Proof.Machine.execRingStart ring now s
  | .rf link p => Sys2Proof.Machine.execRf link p s
  | .announce link n => Sys2Proof.Machine.execAnnounce link n s
  | .announceRepeat link => Sys2Proof.Machine.execAnnounceRepeat link s
  | .echoReq link n arrival departure => Sys2Proof.Machine.execEchoReq link n arrival departure s
  | .echoResp link n roundTrip => Sys2Proof.Machine.execEchoResp link n roundTrip s
  | .rollCallWindowClose => Sys2Proof.Machine.execRollCallWindowClose s
  | .linkWindowClose link => Sys2Proof.Machine.execLinkWindowClose link s
  | .relayReverifyTimeout => Sys2Proof.Machine.execRelayReverifyTimeout s
  | .readerNotice box repairing => Sys2Proof.Machine.execReaderNotice box repairing s
  | .manifestFrame f => Sys2Proof.Machine.execManifestFrame f s
  | .blockFrame f => Sys2Proof.Machine.execBlockFrame f s
  | .blockProgramDone object generation block => Sys2Proof.Machine.execBlockProgramDone object generation block s
  | .endOfPass f => Sys2Proof.Machine.execEndOfPass f s
  | .storeNak source pass more digest ranges => Sys2Proof.Machine.execStoreNak source pass more digest ranges s
  | .endOfPassResend => Sys2Proof.Machine.execEndOfPassResend s
  | .prepared source digest => Sys2Proof.Machine.execPrepared source digest s
  | .commit source digest => Sys2Proof.Machine.execCommit source digest s
  | .commitResend => Sys2Proof.Machine.execCommitResend s
  | .committed source digest => Sys2Proof.Machine.execCommitted source digest s
  | .ingressWrite fn offset bytes => Sys2Proof.Machine.execIngressWrite fn offset bytes s
  | .serviceTick env => Sys2Proof.Machine.execServiceTick env s
  | .reqOpen fn => Sys2Proof.Machine.execReqOpen fn s
  | .reqAppend fn => Sys2Proof.Machine.execReqAppend fn s
  | .reqCancel fn => Sys2Proof.Machine.execReqCancel fn s
  | .dataPut fn run => Sys2Proof.Machine.execDataPut fn run s
  | .ttBlock env => Sys2Proof.Machine.execTtBlock env s
  | .fence fn => Sys2Proof.Machine.execFence fn s
  | .transferComplete fn => Sys2Proof.Machine.execTransferComplete fn s
  | .bundleFrame f => Sys2Proof.Machine.execBundleFrame f s
  | .mailboxRequest tr offset bytes => Sys2Proof.Machine.execMailboxRequest tr offset bytes s
  | .mailboxResponse tr => Sys2Proof.Machine.execMailboxResponse tr s
  | .mbOutRelease tr => Sys2Proof.Machine.execMbOutRelease tr s
  | .hello tr => Sys2Proof.Machine.execHello tr s
  | .identify tr => Sys2Proof.Machine.execIdentify tr s
  | .caps tr => Sys2Proof.Machine.execCaps tr s
  | .jobCreate tr => Sys2Proof.Machine.execJobCreate tr s
  | .sliceAssign tr => Sys2Proof.Machine.execSliceAssign tr s
  | .ttLoad tr host => Sys2Proof.Machine.execTtLoad tr host s
  | .ttRelocate tr => Sys2Proof.Machine.execTtRelocate tr s
  | .ttPatch tr => Sys2Proof.Machine.execTtPatch tr s
  | .jobStart tr => Sys2Proof.Machine.execJobStart tr s
  | .jobStop tr => Sys2Proof.Machine.execJobStop tr s
  | .weightsProgram tr host => Sys2Proof.Machine.execWeightsProgram tr host s
  | .weightsRestore tr => Sys2Proof.Machine.execWeightsRestore tr s
  | .adapterStore tr host => Sys2Proof.Machine.execAdapterStore tr host s
  | .adapterBind tr => Sys2Proof.Machine.execAdapterBind tr s
  | .keyringSet tr host => Sys2Proof.Machine.execKeyringSet tr host s
  | .powerStep tr => Sys2Proof.Machine.execPowerStep tr s
  | .powerLimit tr => Sys2Proof.Machine.execPowerLimit tr s
  | .bankPower tr => Sys2Proof.Machine.execBankPower tr s
  | .routeDrain tr => Sys2Proof.Machine.execRouteDrain tr s
  | .routeSet tr => Sys2Proof.Machine.execRouteSet tr s
  | .countersEnable tr => Sys2Proof.Machine.execCountersEnable tr s
  | .countersRead tr => Sys2Proof.Machine.execCountersRead tr s
  | .debugAuth tr host => Sys2Proof.Machine.execDebugAuth tr host s
  | .debugProbe tr => Sys2Proof.Machine.execDebugProbe tr s
  | .debugBreak tr => Sys2Proof.Machine.execDebugBreak tr s
  | .lockstep tr => Sys2Proof.Machine.execLockstep tr s
  | .attest tr => Sys2Proof.Machine.execAttest tr s
  | .updateStatus tr => Sys2Proof.Machine.execUpdateStatus tr s
  | .padlock tr host => Sys2Proof.Machine.execPadlock tr host s
  | .serviceIdentify mac sequence => Sys2Proof.Machine.execServiceIdentify mac sequence s
  | .plan mac sequence bytes => Sys2Proof.Machine.execPlan mac sequence bytes s
  | .updateBegin mac sequence bytes => Sys2Proof.Machine.execUpdateBegin mac sequence bytes s
  | .updateData mac sequence offset bytes => Sys2Proof.Machine.execUpdateData mac sequence offset bytes s
  | .updateEnd mac sequence => Sys2Proof.Machine.execUpdateEnd mac sequence s
  | .updateActivate mac sequence slot => Sys2Proof.Machine.execUpdateActivate mac sequence slot s
  | .serviceUpdateStatus mac sequence => Sys2Proof.Machine.execServiceUpdateStatus mac sequence s
  | .lockstepDigest partner m => Sys2Proof.Machine.execLockstepDigest partner m s
  | .lockstepPlacement partner bell records => Sys2Proof.Machine.execLockstepPlacement partner bell records s
  | .i3cDynamicAddress address provisionedId => Sys2Proof.Machine.execI3cDynamicAddress address provisionedId s
  | .i3cResetDynamicAddress => Sys2Proof.Machine.execI3cResetDynamicAddress s
  | .setEndpointId eid => Sys2Proof.Machine.execSetEndpointId eid s
  | .egCtrlEnable fn => Sys2Proof.Machine.execEgCtrlEnable fn s
  | .tsSampleTake => Sys2Proof.Machine.execTsSampleTake s
  | .tsSampleDone => Sys2Proof.Machine.execTsSampleDone s
  | .pwCtrlEnterP2 => Sys2Proof.Machine.execPwCtrlEnterP2 s
  | .pwCtrlLeaveP2 => Sys2Proof.Machine.execPwCtrlLeaveP2 s
  | .pwCtrlEnterP3 => Sys2Proof.Machine.execPwCtrlEnterP3 s
  | .pwResetCompute value => Sys2Proof.Machine.execPwResetCompute value s
  | .pwResetPart value => Sys2Proof.Machine.execPwResetPart value s
  | .accessViolation fn bar2 offset kind => Sys2Proof.Machine.execAccessViolation fn bar2 offset kind s
  | .registerWrite fn bar2 offset value => Sys2Proof.Machine.execRegisterWrite fn bar2 offset value s
  | .firmwareMessage source m => Sys2Proof.Machine.execFirmwareMessage source m s
  | .vsbGood on => Sys2Proof.Machine.execVsbGood on s
  | .partRstNRelease => Sys2Proof.Machine.execPartRstNRelease s
  | .refclkPresent => Sys2Proof.Machine.execRefclkPresent s
  | .pciExpressLinkChange speed width flit => Sys2Proof.Machine.execPciExpressLinkChange speed width flit s
  | .holdupStoreCharged => Sys2Proof.Machine.execHoldupStoreCharged s
  | .opticalReadingsRefresh link lane tx rx feed ber => Sys2Proof.Machine.execOpticalReadingsRefresh link lane tx rx feed ber s
  | .testAccessPort op => Sys2Proof.Machine.execTestAccessPort op s

end Sys2Proof.Machine
end

