-- ==== Sys2Proof/Safety.lean ====
section
/-! DEFINITION. What the statements about the part are said in: the canonical form of memory, what a command leaves
unchanged, and what an issued instruction owes to its tile. -/

namespace Sys2Proof.Machine

/-! ## Memory -/

/-- The canonical form of memory: addresses strictly rising and no byte listed that reads as an unlisted one. -/
def Memory.wf (m : List Host.Cell) : Bool := tabWf 0 m

/-- The state's memory has the canonical form. -/
def State.memWf (s : State) : Prop := Memory.wf s.mem.bytes = true

/-- Every byte of working memory reads as before. -/
def State.sameMemory (s s' : State) : Prop := ∀ a, s'.mem.byte a = s.mem.byte a

/-! ## Tiles -/

/-- What an instruction writes in its tile: registers, sticky flags, operand buffers, cells, instruction buffer. -/
def Tile.regs (x : Tile) :
    Tab Word × Tab (BitVec 40) × Tab Vec × Tab (BitVec 64) × Tab Vec × BitVec 4 × Tab Vec × Tab (BitVec 1024) ×
      Tab Bundle :=
  (x.s, x.a, x.v, x.m, x.acc, x.flags, x.buf, x.cells, x.ib)

/-- Every register of every tile and every byte of memory is as before. -/
def State.keeps (s s' : State) : Prop := s.sameMemory s' ∧ ∀ u, (s'.tile u).regs = (s.tile u).regs

/-- The command's next state has these writes posted on tile t, those of other tiles as before, and every register
and every byte of memory unchanged. -/
def State.posts (s : State) (c : Instr) (t : Nat) (l : List PendWrite) : Prop :=
  ∃ s', exec c s = .next s' ∧ s.keeps s' ∧ (s'.tile t).pend = (s.tile t).pend ++ l ∧
    ∀ u, u ≠ t → (s'.tile u).pend = (s.tile u).pend

/-- The write of an instruction issued in the tile's current cycle, of latency l, by a slot (R100). -/
def Tile.owes (x : Tile) (slot : Slot) (l : Nat) (w : PendWrite) : Prop :=
  w.due = x.isle.count + l - 1 ∧ w.slot = slot ∧ w.issue = x.isle.count

/-- A flag is set by the write when some live lane sets it (R157, R184). -/
def flagsOf (live : Nat → Bool) (g : Nat → Flags) (fl : Flags) : Prop :=
  ∀ b, bit fl b = (List.range 64).any fun n => live n && bit (g n) b

/-- The write of a lane-by-lane instruction of latency l: live lanes take their words, masked lanes are kept or
zeroed (R157). -/
def Tile.owesLanes (x : Tile) (f : VxFields) (l : Nat) (g : Nat → Word × Flags) (w : PendWrite) : Prop :=
  x.owes .vx l w ∧ flagsOf (bit (x.rm f.mask)) (fun n => (g n).2) w.flags ∧
  ∃ data mask, w.op = .vreg f.vd data mask ∧ ∀ n, n < 64 →
    if bit (x.rm f.mask) n then lane mask n = 0xFFFFFFFF ∧ lane data n = (g n).1
    else lane mask n = (if f.zeroing then 0xFFFFFFFF else 0) ∧ lane data n = 0

/-- A lane-by-lane instruction. -/
def State.runsLanes (s : State) (c : Instr) (t : Nat) (f : VxFields) (l : Nat) (g : Nat → Word × Flags) : Prop :=
  ∃ w, s.posts c t [w] ∧ (s.tile t).owesLanes f l g w

/-- An instruction that writes every lane of vd, masked or not, with latency l (Table 7-2). -/
def State.runsAll (s : State) (c : Instr) (t : Nat) (f : VxFields) (l : Nat) (g : Nat → Word) (fl : Flags) : Prop :=
  ∃ w data, s.posts c t [w] ∧ (s.tile t).owes .vx l w ∧ w.op = .vreg f.vd data allBits ∧ w.flags = fl ∧
    ∀ n, n < 64 → lane data n = g n

/-- INT32 result of an exact sum: clamped under sat, else wrapped; overflow is set when it lies outside (R164). -/
def narrow32 (sat : Bool) (z : Int) : Word × Flags :=
  if z < -2147483648 then (if sat then 0x80000000 else BitVec.ofInt 32 z, flagOverflow)
  else if 2147483647 < z then (if sat then 0x7FFFFFFF else BitVec.ofInt 32 z, flagOverflow)
  else (BitVec.ofInt 32 z, 0)

/-- The running value of a scan before lane n: the identity at lane 0 and at a segment start, else the update of the
value before the lane below, where that lane is live (R166). -/
def scanBefore (op : Nat) (ftz sat : Bool) (live seg : Nat → Bool) (a : Nat → Word) : Nat → Word
  | 0 => scanId op
  | n + 1 =>
    if seg (n + 1) then scanId op
    else
      let r := scanBefore op ftz sat live seg a n
      if live n then (scanOp op ftz sat r (a n)).1 else r

/-- The command's next state has this instruction in progress on tile t; nothing is posted, no register changes. -/
def State.starts {α : Type} (s : State) (c : Instr) (t : Nat) (runs : Tile → List α) (q : α) (last : Tile → Prop) :
    Prop :=
  ∃ s', exec c s = .next s' ∧ s.keeps s' ∧ runs (s'.tile t) = runs (s.tile t) ++ [q] ∧ last (s'.tile t) ∧
    ∀ u, (s'.tile u).pend = (s.tile u).pend

/-- The command's next state is as before, but for counts and what the hall monitor reports. -/
def State.idles (s : State) (c : Instr) (t : Nat) : Prop := s.posts c t []

/-- A value in a scalar register at the end of the current cycle (latency 1). -/
def State.writesScalar (s : State) (c : Instr) (t : Nat) (sd : BitVec 5) (v : Word) : Prop :=
  ∃ w, s.posts c t [w] ∧ (s.tile t).owes .ct 1 w ∧ w.op = .sreg sd v ∧ w.flags = 0

/-! ## The mailbox -/

/-- The turn of transport k starts its oldest request, which has this opcode and body, the session's version and its
next sequence number, with no store fault and no trial; w is where it is answered, s1 the state with it started
(R402, R403). -/
def State.accepts (s : State) (k op : Nat) (b : List Byte) (w : Waiting) (s1 : State) : Prop :=
  let x := s.mbox k
  ∃ r t, x.queue = r :: t ∧ r.opcode = BitVec.ofNat 16 op ∧ r.body = b ∧ s.mailTurn k = true ∧ x.session = true ∧
    r.major = x.major ∧ r.minor = x.minor ∧ r.sequence = x.expected ∧ s.nv.storeFault = false ∧ s.sec.trial = false ∧
    w = waitingOf k x r ∧ s1 = s.startRequest k x t true

/-- The command answers a request with this status and body, in a state that is otherwise s1. -/
def State.says (s : State) (c : Instr) (s1 : State) (w : Waiting) (status : BitVec 16) (body : List Byte) : Prop :=
  exec c s = .next (s1.answer w status body)

end Sys2Proof.Machine
end

