-- ==== Sys2Proof/Certificates/Slice0/Obligations.lean ====
section
/-! DEFINITION. The statements about the part, for the provers. -/

open Sys2Proof Sys2Proof.Machine

/-! ## Tiles: the vector slot -/

/-- R159, R164, R165, Table 7-2: the moves and integer operations of the vector slot, lane by lane with latency 4; a
slot that is not legal is the VX NOP (R90, R160). Where the manual leaves it open, the reading of log 24 (the model's). -/
def Obligations.VxIntegerLanes : Prop :=
  ∀ (s : State) (t : BitVec 10) (f : VxFields), s.tileRuns t.toNat = true →
    let x := s.tile t.toNat
    let a := lane (x.rv f.va)
    let b (n : Nat) : Word := if f.bs then x.rs f.sb else lane (x.rv f.vb) n
    let runs (op : VxOp) (c : Instr) (g : Nat → Word × Flags) : Prop :=
      if vxLegal op f = true then s.runsLanes c t.toNat f 4 g else exec c s = .next s
    runs .vmov (.vmov t f) (fun n => (a n, 0)) ∧
    runs .iadd (.iadd t f) (fun n => narrow32 f.sat ((a n).toInt + (b n).toInt)) ∧
    runs .isub (.isub t f) (fun n => narrow32 f.sat ((a n).toInt - (b n).toInt)) ∧
    runs .imul (.imul t f) (fun n => (BitVec.ofNat 32 ((a n).toNat * (b n).toNat), 0)) ∧
    runs .imin (.imin t f) (fun n => (if (a n).toInt ≤ (b n).toInt then a n else b n, 0)) ∧
    runs .imax (.imax t f) (fun n => (if (b n).toInt ≤ (a n).toInt then a n else b n, 0)) ∧
    runs .band (.vand t f) (fun n => (a n &&& b n, 0)) ∧
    runs .bor (.vor t f) (fun n => (a n ||| b n, 0)) ∧
    runs .bxor (.vxor t f) (fun n => (a n ^^^ b n, 0)) ∧
    runs .shl (.shl t f) (fun n => (BitVec.ofNat 32 ((a n).toNat * 2 ^ ((b n).toNat % 32)), 0)) ∧
    runs .shr (.shr t f) (fun n => (BitVec.ofNat 32 ((a n).toNat / 2 ^ ((b n).toNat % 32)), 0)) ∧
    runs .sar (.sar t f) (fun n => (BitVec.ofInt 32 ((a n).toInt / 2 ^ ((b n).toNat % 32)), 0)) ∧
    runs .key (.key t f) (fun n => (if bit (a n) 31 then ~~~a n else a n ^^^ 0x80000000, 0)) ∧
    runs .vperm (.vperm t f) (fun n => (a ((b n).toNat % 64), 0))

/-- R161 to R163, R174 to R178, R90, Tables 4-12 and 7-1: FADD, FSUB, FMUL and FFMA in the mode that rnd names, FMAX
and FMIN, with latency 6; the six special functions with latency 12, and 11 under LP-B1; a slot that is not legal is
the VX NOP. Where the manual leaves it open, the reading of log 24 (the model's). -/
def Obligations.VxFloatLanes : Prop :=
  ∀ (s : State) (t : BitVec 10) (f : VxFields), s.tileRuns t.toNat = true →
    let x := s.tile t.toNat
    let a := lane (x.rv f.va)
    let b (n : Nat) : Word := if f.bs then x.rs f.sb else lane (x.rv f.vb) n
    let c (n : Nat) : Word := if f.cs then x.rs f.sc else lane (x.rv f.vc) n
    let r (n : Nat) : Rnd := if f.rnd = 0 then .rne else if f.rnd = 1 then .rtz else .sr (c n)
    let runs (op : VxOp) (i : Instr) (g : Nat → Word × Flags) : Prop :=
      if vxLegal op f = true then s.runsLanes i t.toNat f 6 g else exec i s = .next s
    runs .fadd (.fadd t f) (fun n => fadd32 (r n) f.ftz f.sat (a n) (b n)) ∧
    runs .fsub (.fsub t f) (fun n => fsub32 (r n) f.ftz f.sat (a n) (b n)) ∧
    runs .fmul (.fmul t f) (fun n => fmul32 (r n) f.ftz f.sat (a n) (b n)) ∧
    runs .ffma (.ffma t f) (fun n => ffma32 (r n) f.ftz f.sat (a n) (b n) (c n)) ∧
    runs .fmax (.fmax t f) (fun n => (fext32 true f.ftz (a n) (b n), 0)) ∧
    runs .fmin (.fmin t f) (fun n => (fext32 false f.ftz (a n) (b n), 0)) ∧
    let sfu (op : VxOp) (i : Instr) (k : Special) : Prop :=
      if vxLegal op f = true then
        s.runsLanes i t.toNat f (if s.ts.profileB1 then 11 else 12) (fun n => special k f.ftz f.sat (a n))
      else exec i s = .next s
    sfu .exp2 (.exp2 t f) .exp2 ∧ sfu .log2 (.log2 t f) .log2 ∧ sfu .rcp (.rcp t f) .rcp ∧
    sfu .rsqrt (.rsqrt t f) .rsqrt ∧ sfu .sin (.sin t f) .sin ∧ sfu .cos (.cos t f) .cos

/-- R159, R166, R167, R182, R183, Table 7-2: VSCAN and VSCANX, and VRED over all live lanes in order, with latency 6;
VSEL with latency 4, VFIRST and VHIST with latency 6; VRED, VSEL, VFIRST and VHIST write every lane of their
destination; a slot that is not legal is the VX NOP (R90, R160). Where the manual leaves it open, the reading of log 24
(the model's). -/
def Obligations.VxAcrossLanes : Prop :=
  (∀ (s : State) (t : BitVec 10) (f : VxFields), s.tileRuns t.toNat = true → f.rnd.toNat < 2 →
    let x := s.tile t.toNat
    let a := lane (x.rv f.va)
    let live := bit (x.rm f.mask)
    let op := f.aux.toNat % 4
    let seg (n : Nat) : Bool := f.aux.getLsbD 2 && bit (x.rm (f.vc.setWidth 3)) n
    let before := scanBefore op f.ftz f.sat live seg a
    let step (n : Nat) := scanOp op f.ftz f.sat (before n) (a n)
    let all := (List.range 64).foldl (fun q n =>
      if live n then ((scanOp op f.ftz f.sat q.1 (a n)).1, q.2 ||| (scanOp op f.ftz f.sat q.1 (a n)).2) else q)
      (scanId op, (0 : Flags))
    s.runsLanes (.vscan t f) t.toNat f 6 step ∧
    s.runsLanes (.vscanx t f) t.toNat f 6 (fun n => (before n, (step n).2)) ∧
    s.runsAll (.vred t f) t.toNat f 6 (fun _ => all.1) all.2) ∧
  (∀ (s : State) (t : BitVec 10) (f : VxFields), s.tileRuns t.toNat = true →
    let x := s.tile t.toNat
    let a := lane (x.rv f.va)
    let b (n : Nat) : Word := if f.bs then x.rs f.sb else lane (x.rv f.vb) n
    let c (n : Nat) : Word := if f.cs then x.rs f.sc else lane (x.rv f.vc) n
    let live := bit (x.rm f.mask)
    let sh := f.aux.toNat % 32
    let key (n : Nat) : Nat := (if f.aux.getLsbD 6 then a n else orderKey (a n)).toNat
    let hits (n : Nat) : Bool := live n && (sh == 26 || key n / 2 ^ (sh + 6) == (x.rs f.sb).toNat / 2 ^ (sh + 6))
    let bin (k : Nat) : Word := (List.range 64).foldl (fun y n =>
      if hits n && key n / 2 ^ sh % 64 == k then
        (if f.aux.getLsbD 5 then (fadd32 .rne f.ftz f.sat y (c n)).1 else y + 1)
      else y) (b k)
    let first := ((List.range 64).find? fun n => live n &&
      (fcmp32 f.ftz (a n) (b 0) == some .gt || fcmp32 f.ftz (a n) (b 0) == some .eq)).getD 64
    (vxLegal .vsel f = true → s.runsAll (.vsel t f) t.toNat f 4 (fun n => if live n then a n else b n) 0) ∧
    (vxLegal .vfirst f = true →
      s.runsAll (.vfirst t f) t.toNat f 6 (fun n => if n = 0 then BitVec.ofNat 32 first else 0) 0) ∧
    (vxLegal .vhist f = true → ∃ fl, s.runsAll (.vhist t f) t.toNat f 6 bin fl)) ∧
  (∀ (s : State) (t : BitVec 10) (f : VxFields), 2 ≤ f.rnd.toNat → exec (.vscan t f) s = .next s ∧
    exec (.vscanx t f) s = .next s ∧ exec (.vred t f) s = .next s ∧ exec (.vsel t f) s = .next s ∧
    exec (.vfirst t f) s = .next s ∧ exec (.vhist t f) s = .next s)

/-- R165, R172, R173: VCMP writes mask bits with latency 4; VCVT writes lanes, or the fields of one block of a
register of narrow elements, with latency 6. -/
def Obligations.VxCompareAndConvert : Prop :=
  ∀ (s : State) (t : BitVec 10) (f : VxFields), s.tileRuns t.toNat = true →
    let x := s.tile t.toNat
    let a := lane (x.rv f.va)
    let b (n : Nat) : Word := if f.bs then x.rs f.sb else lane (x.rv f.vb) n
    let live := bit (x.rm f.mask)
    let q := f.aux.toNat / 4 % 16
    (vxLegal .vcmp f = false → exec (.vcmp t f) s = .next s) ∧ (vxLegal .vcvt f = false → exec (.vcvt t f) s = .next s) ∧
    (vxLegal .vcmp f = true → ∃ w data mask, s.posts (.vcmp t f) t.toNat [w] ∧ x.owes .vx 4 w ∧ w.flags = 0 ∧
      w.op = .mreg (f.vd.setWidth 3) data mask ∧ ∀ n, n < 64 →
        bit mask n = (live n || f.zeroing) ∧
        bit data n = (live n && vcmpLane f.ftz (f.aux.toNat / 8 % 4) (f.aux.toNat % 8) (a n) (b n))) ∧
    (vxLegal .vcvt f = true → f.fmt = 2 →
      s.runsLanes (.vcvt t f) t.toNat f 6 (fun n => (BitVec.ofNat 32 (cvtResult x f n).1, (cvtResult x f n).2))) ∧
    (vxLegal .vcvt f = true → f.fmt ≠ 2 →
      ∃ w data mask, s.posts (.vcvt t f) t.toNat [w] ∧ x.owes .vx 6 w ∧ w.op = .vreg f.vd data mask ∧
        flagsOf live (fun n => (cvtResult x f n).2) w.flags ∧
        let k := narrowWidth f.fmt
        (∀ n, n < 64 →
          data.extractLsb' (k * (64 * q + n)) k = (if live n then BitVec.ofNat k (cvtResult x f n).1 else 0) ∧
          mask.extractLsb' (k * (64 * q + n)) k = (if live n || f.zeroing then BitVec.allOnes k else 0)) ∧
        ∀ i, i < k * (64 * q) ∨ k * (64 * q + 64) ≤ i → bit mask i = false)

/-- R160, R168, R169: VRDA and VWRA move an accumulator row or column with latency 4; VACC and VSCANA start 64 or more
cycles after the last of them, and are the NOP closer to it; any of the four that is not legal is the NOP. At the end of
the tile's cycle issue + m a stream owes destination row m at the end of cycle issue + m + 5: under VACC each element of
a row that the mask takes is its source element combined with e (and f), under VSCANA the running value of its column
after (inclusive) or before (exclusive) the source element; a masked row is zero where the policy zeroes, and nothing is
owed for it where the policy keeps it. A row sets the flags that any of its 64 elements sets. -/
def Obligations.VxAccumulators : Prop :=
  (∀ (s : State) (t : BitVec 10) (f : VxFields), s.tileRuns t.toNat = true →
    let x := s.tile t.toNat
    let k := (x.rs f.sb).toNat % 64
    let bank : BitVec 2 := f.aux.setWidth 2
    let live := bit (x.rm f.mask)
    let c := x.isle.count
    let spaced := ∀ l, x.lastStream = some l → l + 64 ≤ c
    (vxLegal .vrda f = true → s.runsLanes (.vrda t f) t.toNat f 4
      (fun n => (if f.aux.getLsbD 2 then lane (x.racc bank n) k else lane (x.racc bank k) n, 0))) ∧
    (vxLegal .vwra f = true → ∃ w data mask, s.posts (.vwra t f) t.toNat [w] ∧ x.owes .vx 4 w ∧ w.flags = 0 ∧
      w.op = .acc bank (BitVec.ofNat 6 k) data mask ∧ ∀ n, n < 64 →
        lane mask n = (if live n || f.zeroing then 0xFFFFFFFF else 0) ∧
        lane data n = (if live n then lane (x.rv f.va) n else 0)) ∧
    (vxLegal .vacc f = true → spaced → ∃ q, s.starts (.vacc t f) t.toNat Tile.streams q (fun y => y.lastStream = some c) ∧
      q.issue = c ∧ q.scan = false ∧ q.f = f ∧ q.a = x.rv f.va ∧ q.mask = x.rm f.mask ∧
      ∀ n, n < 64 → lane q.b n = if f.bs then x.rs f.sb else lane (x.rv f.vb) n) ∧
    (vxLegal .vscana f = true → spaced →
      ∃ q, s.starts (.vscana t f) t.toNat Tile.streams q (fun y => y.lastStream = some c) ∧
      q.issue = c ∧ q.scan = true ∧ q.f = f ∧ q.mask = x.rm f.mask ∧
      q.seg = if f.aux.getLsbD 7 then x.rm (f.vc.setWidth 3) else 0) ∧
    (¬spaced → s.idles (.vacc t f) t.toNat ∧ s.idles (.vscana t f) t.toNat) ∧
    (vxLegal .vrda f = false → exec (.vrda t f) s = .next s) ∧ (vxLegal .vwra f = false → exec (.vwra t f) s = .next s) ∧
    (vxLegal .vacc f = false → exec (.vacc t f) s = .next s) ∧
    (vxLegal .vscana f = false → exec (.vscana t f) s = .next s)) ∧
  (∀ (s : State) (t : BitVec 10), s.tileRuns t.toNat = true →
    let x := s.tile t.toNat
    let c := x.isle.count
    ∃ s', exec (.resultWriteback t) s = .next s' ∧
      (∀ q ∈ x.streams, q.issue ≤ c → c < q.issue + 64 →
        let m := c - q.issue
        let src := x.racc (BitVec.ofNat 2 q.f.aux.toNat) m
        let dst := BitVec.ofNat 2 (q.f.aux.toNat / 4)
        let rnd : Rnd := if q.f.rnd = 1 then .rtz else .rne
        let op := match q.f.aux.toNat / 16 % 4 with | 1 => 2 | 2 => 3 | _ => 0
        let r (n : Nat) : Word := if m = 0 || bit q.seg m then scanId op else lane q.running n
        let z (n : Nat) := scanOp op q.f.ftz q.f.sat (r n) (lane src n)
        let e (n : Nat) : Word := lane q.a (if q.f.aux.getLsbD 7 then m else n)
        let g (n : Nat) : Word := lane q.b (if q.f.aux.getLsbD 7 then m else n)
        let y (n : Nat) : Word × Flags :=
          if q.scan then z n
          else match q.f.aux.toNat / 16 % 8 with
            | 0 => fadd32 rnd q.f.ftz q.f.sat (lane src n) (e n)
            | 1 => fmul32 rnd q.f.ftz q.f.sat (lane src n) (e n)
            | 2 => (fext32 true q.f.ftz (lane src n) (e n), 0)
            | 3 => (fext32 false q.f.ftz (lane src n) (e n), 0)
            | _ => ffma32 rnd q.f.ftz q.f.sat (lane src n) (e n) (g n)
        (bit q.mask m = true → ∃ w ∈ (s'.tile t.toNat).pend, ∃ data,
          w.due = q.issue + m + 5 ∧ w.slot = .vx ∧ w.issue = q.issue ∧
          w.op = .acc dst (BitVec.ofNat 6 m) data allBits ∧ flagsOf (fun _ => true) (fun n => (y n).2) w.flags ∧
          ∀ n, n < 64 → lane data n = if q.scan && q.f.aux.getLsbD 6 then r n else (y n).1) ∧
        (bit q.mask m = false → q.f.zeroing = true → ∃ w ∈ (s'.tile t.toNat).pend,
          w.due = q.issue + m + 5 ∧ w.slot = .vx ∧ w.op = .acc dst (BitVec.ofNat 6 m) 0 allBits ∧ w.flags = 0) ∧
        (m < 63 → q.scan = true → ∃ q' ∈ (s'.tile t.toNat).streams, q'.issue = q.issue ∧ q'.f = q.f ∧ q'.scan = true ∧
          q'.mask = q.mask ∧ q'.seg = q.seg ∧
          ∀ n, n < 64 → lane q'.running n = if bit q.mask m then (z n).1 else r n)) ∧
      (∀ w ∈ (s'.tile t.toNat).pend, w ∈ x.pend ∨ w.slot ≠ .vx ∨ (∀ b i d k, w.op ≠ .acc b i d k) ∨
        ∃ q ∈ x.streams, q.issue ≤ c ∧ c < q.issue + 64 ∧ w.issue = q.issue ∧
          (bit q.mask (c - q.issue) = true ∨ q.f.zeroing = true)))

/-- R170: VGATH reads, for each live lane, the word at (s[sb] + a) mod 524,288 of its own tile store, with bits [1:0]
taken as zero, with latency 4; VSCAT stores one word per live lane at the end of cycle issue + 3. -/
def Obligations.VxGatherScatter : Prop :=
  ∀ (s : State) (t : BitVec 10) (f : VxFields), s.tileRuns t.toNat = true → s.mem.ue = [] →
    (∀ k, s.messageRegion k = none) →
    let x := s.tile t.toNat
    let live := bit (x.rm f.mask)
    let lanes : List Nat := (List.range 64).filter live
    let off (n : Nat) : Nat := ((x.rs f.sb).toNat + (lane (x.rv f.va) n).toNat) % 524288 / 4 * 4
    let base := t.toNat / 256 * 2 ^ 35 + 0x400000000 + t.toNat % 256 * 0x80000
    (vxLegal .vgath f = true → ∃ g : Nat → Word, s.runsLanes (.vgath t f) t.toNat f 4 (fun n => (g n, 0)) ∧
      ∀ n i, n < 64 → i < 4 → live n = true → byteOf (g n) i = s.mem.byte (base + off n + i)) ∧
    (vxLegal .vscat f = true → ∃ l : List PendWrite, s.posts (.vscat t f) t.toNat l ∧
      l.length = lanes.length ∧
      ∀ (j n : Nat), lanes[j]? = some n →
        ∃ (w : PendWrite) (v : Vec) (m : BitVec 256), l[j]? = some w ∧ x.owes .vx 4 w ∧
        w.op = .store (off n / 256) v m ∧ (∀ i, bit m i = decide (off n % 256 ≤ i ∧ i < off n % 256 + 4)) ∧
        v.extractLsb' (8 * (off n % 256)) 32 = lane (x.rv f.vb) n)

/-! ## Tiles: the matrix engine -/

/-- R122, R126, R128: a legal MXB or MXC 64 or more cycles after the last one that executed starts, with the row mask
and the scale registers read in its issue cycle; an illegal one, or one that comes sooner, is the MX NOP. -/
def Obligations.MatrixIssue : Prop :=
  ∀ (s : State) (t : BitVec 10) (f : MxFields), s.tileRuns t.toNat = true →
    let x := s.tile t.toNat
    let c := x.isle.count
    let spaced := ∀ l, x.lastMx = some l → l.cycle + 64 ≤ c
    let starts (i : Instr) (conv : Bool) : Prop :=
      if mxLegal conv f = true ∧ spaced then
        ∃ q, s.starts i t.toNat Tile.mx q (fun y => y.lastMx = some ⟨c, conv, f.held, f.shift⟩) ∧
          q.issue = c ∧ q.f = f ∧ q.mask = x.rm f.mask ∧ q.scaleA0 = x.rv f.scaleA ∧ q.scaleA1 = x.rv (f.scaleA + 1) ∧
          q.scaleB0 = x.rv f.scaleB ∧ q.scaleB1 = x.rv (f.scaleB + 1) ∧ q.held = [] ∧ q.str = [] ∧ q.snaps = []
      else s.idles i t.toNat
    starts (.mxb t f) false ∧ starts (.mxc t f) true

/-- R123 to R125, R127, R141 to R147, Table 6-5: at the end of cycle issue + m + 71 (m up to 31) or issue + m + 72, live
row m of the bank takes in each column the products added in ascending k to +0, that sum added to the element's snapshot
where accumulate is set; MX_ROW_WRITE hands the row to the writes of this cycle's end (DEDUCED, log 39), with every flag
that a product or a sum raised. A product is zero with the product's sign where an operand is zero, the canonical NaN for
a NaN, and with invalid for infinity times zero. -/
def Obligations.MatrixRowWrite : Prop :=
  (∀ (s : State) (t : BitVec 10) (q : MxRun) (m : Nat), s.tileRuns t.toNat = true →
    let x := s.tile t.toNat
    x.mx = [q] → (∀ p ∈ x.pend, p.slot ≠ .mx) → m < 64 → bit q.mask m = true →
    x.isle.count = q.issue + m + (if m < 32 then 71 else 72) →
    let p := min (packing q.f.fmtA) (packing q.f.fmtB)
    let sum (n : Nat) := (List.range (64 * p)).foldl (fun z k =>
      ((mxAdd q.f z.1 (mxTerm q p m n k).1).1,
        z.2 ||| (mxTerm q p m n k).2 ||| (mxAdd q.f z.1 (mxTerm q p m n k).1).2)) ((0 : Word), (0 : Flags))
    let old (n : Nat) := lane (tabGet 0 q.snaps m) n
    let elem (n : Nat) : Word × Flags :=
      if q.f.accumulate then ((mxAdd q.f (old n) (sum n).1).1, (sum n).2 ||| (mxAdd q.f (old n) (sum n).1).2)
      else sum n
    ∃ w data, s.posts (.mxRowWrite t) t.toNat [w] ∧ w.due = x.isle.count ∧ w.slot = .mx ∧
      w.op = .acc q.f.acc (BitVec.ofNat 6 m) data allBits ∧ (∀ n, n < 64 → lane data n = (elem n).1) ∧
      flagsOf (fun _ => true) (fun n => (elem n).2) w.flags) ∧
  (∀ (sat s t : Bool) (x y : Nat) (e f : Int),
    mxProduct sat .nan (.fin t y f) = (canonNan, 0) ∧ mxProduct sat (.fin s x e) .nan = (canonNan, 0) ∧
    mxProduct sat (.inf s) (.zero t) = (canonNan, flagInvalid) ∧
    mxProduct sat (.zero s) (.inf t) = (canonNan, flagInvalid) ∧
    mxProduct sat (.inf s) (.fin t y f) = (if (s != t) then 0xFF800000 else 0x7F800000, 0) ∧
    mxProduct sat (.zero s) (.fin t y f) = (if (s != t) then 0x80000000 else 0, 0) ∧
    mxProduct sat (.fin s 0 e) (.fin t y f) = (if (s != t) then 0x80000000 else 0, 0))

/-! ## Tiles: loads, stores, transfers and control -/

/-- R92, R187, R191, R195, Table 4-12: LDS, LDV, and LDO plain and strided, from the tile's own store with latency 2:
the bytes from the word, granule or half-granules that the address names, little-endian. From a layer of reach 1 or 2
the load leaves an entry that is due after 20 or 56 cycles, and asks the slice of its address 6 or 24 cycles after issue;
a strided LDO asks for two half-granules. A load whose address lies outside its reach delivers zeros with the latency of
its reach, and is counted in TC_DISCARDS. -/
def Obligations.Loads : Prop :=
  (∀ (s : State) (t : BitVec 10) (f : LdFields) (k : Nat), s.tileRuns t.toNat = true → f.reach = 0 → s.mem.ue = [] →
    (∀ k, s.messageRegion k = none) →
    let x := s.tile t.toNat
    let addr := x.ra f.base + f.offset.signExtend 40
    let stride := x.ra (f.aux.extractLsb' 4 4)
    let base := storeBase t.toNat
    let row (v : Vec) (w : PendWrite) := w.op = .buf (f.aux.extractLsb' 0 2) f.dst v allBits
    s.reachKey t.toNat 0 addr = some k →
    (∃ w v, s.posts (.lds t f) t.toNat [w] ∧ x.owes .ld 2 w ∧ w.op = .sreg f.dst v ∧
      ∀ i, i < 4 → byteOf v i = s.mem.byte (k / 4 * 4 + i)) ∧
    (∃ w v, s.posts (.ldv t f) t.toNat [w] ∧ x.owes .ld 2 w ∧ w.op = .vreg f.dst v allBits ∧
      ∀ i, i < 256 → byteOf v i = s.mem.byte (k / 256 * 256 + i)) ∧
    (f.aux.extractLsb' 2 2 = (0 : BitVec 2) → ∃ w v, s.posts (.ldo t f) t.toNat [w] ∧ x.owes .ld 2 w ∧ row v w ∧
      ∀ i, i < 256 → byteOf v i = s.mem.byte (k / 256 * 256 + i)) ∧
    (f.aux.extractLsb' 2 2 = (1 : BitVec 2) → ∀ k0 k1,
      s.reachKey t.toNat 0 (addr &&& ~~~(0x7F : BitVec 40)) = some k0 →
      s.reachKey t.toNat 0 ((addr &&& ~~~(0x7F : BitVec 40)) + (stride &&& ~~~(0x7F : BitVec 40))) = some k1 →
      ∃ w v, s.posts (.ldo t f) t.toNat [w] ∧ x.owes .ld 2 w ∧ row v w ∧
        ∀ i, i < 128 → byteOf v i = s.mem.byte (k0 + i) ∧ byteOf v (128 + i) = s.mem.byte (k1 + i)) ∧
    (addr.toNat < 0x80000 → k = base + addr.toNat)) ∧
  ((∀ (s : State) (t : BitVec 10) (f : LdFields) (k : Nat), s.tileRuns t.toNat = true → f.reach.toNat = 1 ∨ f.reach.toNat = 2 →
    let x := s.tile t.toNat
    let c := x.isle.count
    let late := if f.reach.toNat = 1 then 20 else 56
    let away := if f.reach.toNat = 1 then 6 else 24
    let asks (i : Instr) (n : Nat) (size : ReadSize) (dest : HingeDest) : Prop :=
      ∃ s' h, exec i s = .next s' ∧ s.keeps s' ∧ (s'.tile t.toNat).hinge = x.hinge ++ [h] ∧ h.due = c + late ∧
        h.issue = c ∧ h.slot = .ld ∧ h.dest = dest ∧ h.status = .awaiting 1 ∧ h.source = t ∧
        let d := dieOf (k / n * n)
        let m := sliceOf (offsetOf (k / n * n))
        (s'.slice d m).reads = (s.slice d m).reads ++
          [{ arrival := c + away, port := portOf t.toNat d, tile := some t, addr := k / n * n, size := size
             dest := .hinge t h.id 0 }]
    s.reachKey t.toNat f.reach.toNat (x.ra f.base + f.offset.signExtend 40) = some k →
    asks (.lds t f) 4 .word (.s f.dst) ∧ asks (.ldv t f) 256 .granule (.v f.dst) ∧
    (f.aux.extractLsb' 2 2 = (0 : BitVec 2) →
      asks (.ldo t f) 256 .granule (.buf (f.aux.extractLsb' 0 2) f.dst allBits)) ∧
    (f.aux.extractLsb' 2 2 = (1 : BitVec 2) →
      let a0 := (x.ra f.base + f.offset.signExtend 40) &&& ~~~(0x7F : BitVec 40)
      let a1 := a0 + (x.ra (f.aux.extractLsb' 4 4) &&& ~~~(0x7F : BitVec 40))
      s.reachKey t.toNat f.reach.toNat a0 ≠ none → s.reachKey t.toNat f.reach.toNat a1 ≠ none →
      ∃ s' h, exec (.ldo t f) s = .next s' ∧ s.keeps s' ∧ (s'.tile t.toNat).hinge = x.hinge ++ [h] ∧
        h.due = c + late ∧ h.dest = .buf (f.aux.extractLsb' 0 2) f.dst allBits ∧ h.status = .awaiting 2)) ∧
  (∀ (s : State) (t : BitVec 10) (f : LdFields), s.tileRuns t.toNat = true → f.reach ≠ 3 →
    let x := s.tile t.toNat
    let late := match f.reach.toNat with | 0 => 2 | 1 => 20 | _ => 56
    s.reachKey t.toNat f.reach.toNat (x.ra f.base + f.offset.signExtend 40) = none →
    let zeros (i : Instr) (op : WriteOp) : Prop :=
      ∃ s' w, exec i s = .next s' ∧ s.keeps s' ∧ (s'.tile t.toNat).pend = x.pend ++ [w] ∧ x.owes .ld late w ∧
        w.op = op ∧ s'.ts.discards = s.ts.discards + 1
    zeros (.lds t f) (.sreg f.dst 0) ∧ zeros (.ldv t f) (.vreg f.dst 0 allBits) ∧
    (f.aux.extractLsb' 2 2 = (0 : BitVec 2) → zeros (.ldo t f) (.buf (f.aux.extractLsb' 0 2) f.dst 0 allBits))))

/-- R33, R90, R107, R108: LDI asks for the next granule of the tile's refill region, to the inactive instruction half;
with no such region the lesson is UNDERRUN and CQ_UNDERRUNS counts; an LDI whose reach is not 1 is the NOP. LESSON_END
closes a tile's lesson once its last cycle is over; a granule of the next lesson's bundles that is not valid in the
inactive half marks the lesson UNDERRUN. In the last cycle it ends that cycle first; before it, it does nothing. -/
def Obligations.InstructionRefill : Prop :=
  (∀ (s : State) (t : BitVec 10) (f : LdFields), s.tileRuns t.toNat = true → s.dg.debugMode = false →
    let x := s.tile t.toNat
    let r := s.region (256 + t.toNat)
    (f.reach ≠ 1 → exec (.ldi t f) s = .next s) ∧
    (f.reach = 1 → r.kind = .localRegion → ∃ s' h, exec (.ldi t f) s = .next s' ∧ s.keeps s' ∧
      (s'.tile t.toNat).hinge = x.hinge ++ [h] ∧ h.dest = .ib (x.active + 1) (f.aux.extractLsb' 0 7) ∧
      h.due = x.isle.count + 20 ∧
      let key := localKey r.base + 256 * ((r.headSh.toNat + refillWaiting x) % r.capacity)
      let d := dieOf key
      let m := sliceOf (offsetOf key)
      (s'.slice d m).reads = (s.slice d m).reads ++
        [{ arrival := x.isle.count + 6, port := portOf t.toNat d, tile := some t, addr := key, size := .granule
           dest := .hinge t h.id 0 }]) ∧
    (f.reach = 1 → r.kind ≠ .localRegion → ∃ s', exec (.ldi t f) s = .next s' ∧ s.keeps s' ∧
      s'.cq.underruns = s.cq.underruns + 1 ∧ (s.bell.gathered = false → bit s'.bell.lessonCauses 1 = true))) ∧
  (∀ (s : State) (t : BitVec 10), s.lastCycle t.toNat = true → s.dg.debugMode = false →
    let x := s.tile t.toNat
    let short := ∃ j g, s.nextIndex = some j ∧ g < (s.declared (some j) t.toNat + 7) / 8 ∧
      tabGet false x.ibValid (128 * (1 - x.active.toNat) + g) = false
    s.bell.lessonLength ≤ x.isle.count →
    ∃ s', exec (.lessonEnd t) s = .next s' ∧ s.keeps s' ∧ (s'.tile t.toNat).ended = true ∧
      (s'.tile t.toNat).isle = x.isle ∧ s'.tileRuns t.toNat = false ∧
      (short → s.bell.gathered = false → bit s'.bell.lessonCauses 1 = true) ∧
      (¬short → s'.bell = s.bell)) ∧
  (∀ (s : State) (t : BitVec 10), s.dg.debugMode = false →
    let x := s.tile t.toNat
    (s.lastCycle t.toNat = false → exec (.lessonEnd t) s = .next s) ∧
    (s.lastCycle t.toNat = true → x.isle.count + 1 = s.bell.lessonLength → x.isle.stopAt = none →
      ∃ s1, exec (.resultWriteback t) s = .next s1 ∧ (s1.tile t.toNat).isle.count = s.bell.lessonLength ∧
        s1.lastCycle t.toNat = true ∧ exec (.lessonEnd t) s = exec (.lessonEnd t) s1))

/-- R93, R187: STS and STV to the tile's own store are written at the end of their issue cycle; to a layer they reach the
slice 6 or 24 cycles later; outside their reach they are counted in TC_DISCARDS. -/
def Obligations.Stores : Prop :=
  ∀ (s : State) (t : BitVec 10) (f : StFields), s.tileRuns t.toNat = true → f.reach ≠ 3 →
    let x := s.tile t.toNat
    let key := s.reachKey t.toNat f.reach.toNat (x.ra f.base + f.offset.signExtend 40)
    let stored (i : Instr) (ok : Nat → Vec → BitVec 256 → Prop) : Prop :=
      (∀ k, key = some k → f.reach = 0 → ∃ w v m, s.posts i t.toNat [w] ∧ x.owes .st 1 w ∧ ok k v m ∧
        w.op = .store ((k / 256 * 256 - storeBase t.toNat) / 256) v m) ∧
      (∀ k, key = some k → f.reach ≠ 0 → ∃ s' v m, exec i s = .next s' ∧ s.keeps s' ∧ ok k v m ∧
        let g := k / 256 * 256
        let d := dieOf g
        let n := sliceOf (offsetOf g)
        (s'.slice d n).writes = (s.slice d n).writes ++
          [{ arrival := x.isle.count + (if f.reach = 1 then 6 else 24), port := portOf t.toNat (dieOf k)
             source := .tile t, addr := g, data := v, bytes := m }]) ∧
      (key = none → ∃ s', exec i s = .next s' ∧ s.keeps s' ∧ (s'.tile t.toNat).pend = x.pend ∧
        s'.ts.discards = s.ts.discards + 1)
    stored (.stv t f) (fun _ v m => ∀ n, n < 64 →
      (m.extractLsb' (4 * n) 4 = if bit (x.rm f.mask) n then 0xF else 0) ∧
      (bit (x.rm f.mask) n = true → lane v n = lane (x.rv f.src) n)) ∧
    (f.mask = 0 → stored (.sts t f) (fun k v m =>
      (∀ i, bit m i = decide (k % 256 / 4 * 4 ≤ i ∧ i < k % 256 / 4 * 4 + 4)) ∧
      v.extractLsb' (8 * (k % 256 / 4 * 4)) 32 = x.rs f.src))

/-- R95, Table 4-12: a send due at least 30 cycles later on the same die, 66 on another, puts an entry on its way to the
receiving hinge of its destination; a send due sooner is discarded and marks the lesson LATE; one to a fenced tile is
discarded. -/
def Obligations.Sends : Prop :=
  ∀ (s : State) (t u : BitVec 10) (src due reg : BitVec 5), s.tileRuns t.toNat = true → s.dg.debugMode = false →
    let x := s.tile t.toNat
    let d := (x.rs due).toNat
    let far := if t.toNat / 256 = u.toNat / 256 then 30 else 66
    let sends (i : Instr) (data : Vec) (dest : HingeDest) : Prop :=
      (x.isle.count + far ≤ d → s.fenced u.toNat = false → ∃ s' h, exec i s = .next s' ∧ s.keeps s' ∧
        (s'.tile u.toNat).hinge = (s.tile u.toNat).hinge ++ [h] ∧ h.due = d ∧ h.dest = dest ∧ h.source = t ∧
        h.data = data ∧ h.status = .flight ∧ h.tagBell = s.tagBell ∧ h.tagAttempt = s.bell.attempt ∧
        s'.ts.discards = s.ts.discards) ∧
      (d < x.isle.count + far → ∃ s', exec i s = .next s' ∧ s.keeps s' ∧ s'.ts.discards = s.ts.discards + 1 ∧
        (s.bell.gathered = false → bit s'.bell.lessonCauses 0 = true)) ∧
      (x.isle.count + far ≤ d → s.fenced u.toNat = true → ∃ s', exec i s = .next s' ∧ s.keeps s' ∧
        s'.ts.discards = s.ts.discards + 1)
    sends (.sendv t src due u reg) (x.rv src) (.v reg) ∧
    sends (.sends t src due u reg) ((x.rs src).setWidth 2048) (.s reg)

/-- R200, R216, R266: RED sends a vector to its group when it is due 20 or more cycles later, and marks the lesson MISSING
otherwise; PUT hands a piece to a local region, or a PUT packet to the fabric for a forwarding one, and counts
CQ_DISCARDS for a region that is off and RT_OTHER_DROPS for a home outside the job's slice. -/
def Obligations.ReductionsAndPuts : Prop :=
  ∀ (s : State) (t : BitVec 10) (src due : BitVec 5) (g : BitVec 8), s.tileRuns t.toNat = true →
    s.dg.debugMode = false →
    let x := s.tile t.toNat
    let d := (x.rs due).toNat
    let k := 256 * (t.toNat / 256) + g.toNat
    let r := s.region g.toNat
    (x.isle.count + 20 ≤ d → ∃ s', exec (.red t src due g) s = .next s' ∧ s.keeps s' ∧
      tabGet [] s'.mem.redFlight k = tabGet [] s.mem.redFlight k ++
        [{ tile := t, due := d, tagBell := s.tagBell, tagAttempt := s.bell.attempt, data := x.rv src }]) ∧
    (d < x.isle.count + 20 → ∃ s', exec (.red t src due g) s = .next s' ∧ s.keeps s' ∧
      (s'.dieRegs (t.toNat / 256)).red = (s.dieRegs (t.toNat / 256)).red + 1 ∧
      (s.bell.gathered = false → bit s'.bell.lessonCauses 3 = true)) ∧
    (r.kind = .off → ∃ s', exec (.put t src g) s = .next s' ∧ s.keeps s' ∧ s'.cq.discards = s.cq.discards + 1) ∧
    (r.kind = .localRegion → ∃ s' p, exec (.put t src g) s = .next s' ∧ s.keeps s' ∧ s'.cq.pieces = s.cq.pieces ++ [p] ∧
      p.region = g.setWidth 11 ∧ p.data = x.rv src ∧ p.part = s.rc.address ∧ p.tile = t ∧ p.engine = false ∧
      p.arrival = some (x.isle.count + 6) ∧ p.port = portOf t.toNat (dieOf (localKey r.base))) ∧
    (r.kind = .forward → inBox s.job.low s.job.high r.homePart = true → s.rt.drain = false →
      ∀ a, firstAxis s.rc.address r.homePart = some a → ∃ s' p, exec (.put t src g) s = .next s' ∧ s.keeps s' ∧
      s'.rt.queue = s.rt.queue ++ [{ die := BitVec.ofNat 2 a, port := BitVec.ofNat 4 (11 + t.toNat / 256)
                                     arrival := s.rt.now, packet := p }] ∧ p.kind = 1 ∧ p.cls = 3 ∧
      p.dest = r.homePart ∧ p.source = s.rc.address ∧ p.length = 256 ∧ p.payload = x.rv src ∧
      p.rest.extractLsb' 0 8 = r.homeRegion) ∧
    (r.kind = .forward → inBox s.job.low s.job.high r.homePart = false → ∃ s', exec (.put t src g) s = .next s' ∧
      s.keeps s' ∧ (s'.router 0).otherDrops = (s.router 0).otherDrops + 1 ∧ s'.rt.queue = s.rt.queue)

/-- R96, R90, Tables 4-9 and 4-10: SETS, SETA, SALU, RDCTL and MSET write their register at the end of the issue cycle; a
reserved mode, function or selector, and an immediate with a bit that must be zero, is the NOP. -/
def Obligations.ControlScalars : Prop :=
  ∀ (s : State) (t : BitVec 10) (sd sa sb : BitVec 5) (imm : BitVec 20), s.tileRuns t.toNat = true →
    let x := s.tile t.toNat
    let a := x.rs sa
    let b := x.rs sb
    let put (i : Instr) (v : Word) := s.writesScalar i t.toNat sd v
    let k := b.toNat % 32
    let address (ad : BitVec 4) (mode : BitVec 3) (v : BitVec 40) : Prop :=
      ∃ w, s.posts (.seta t ad imm mode) t.toNat [w] ∧ x.owes .ct 1 w ∧ w.op = .areg ad v
    put (.sets t sd imm 0) (imm.signExtend 32) ∧
    (imm.toNat < 4096 → put (.sets t sd imm 1) (BitVec.ofNat 32 ((x.rs sd).toNat % 2 ^ 20 + imm.toNat * 2 ^ 20))) ∧
    (4096 ≤ imm.toNat → exec (.sets t sd imm 1) s = .next s) ∧
    put (.sets t sd imm 2) (x.rs sd + imm.signExtend 32) ∧ exec (.sets t sd imm 3) s = .next s ∧
    (∀ ad, address ad 0 (imm.signExtend 40)) ∧
    (∀ ad, address ad 1 (BitVec.ofNat 40 ((x.ra ad).toNat % 2 ^ 20 + imm.toNat * 2 ^ 20))) ∧
    (∀ ad, address ad 2 (x.ra ad + imm.signExtend 40)) ∧
    (∀ ad, imm.toNat < 32 → address ad 3 (x.ra ad + (x.rs (imm.setWidth 5)).signExtend 40)) ∧
    (∀ ad, 32 ≤ imm.toNat → exec (.seta t ad imm 3) s = .next s) ∧
    put (.salu t sd sa sb 0) (a + b) ∧ put (.salu t sd sa sb 1) (a - b) ∧ put (.salu t sd sa sb 2) (a &&& b) ∧
    put (.salu t sd sa sb 3) (a ||| b) ∧ put (.salu t sd sa sb 4) (a ^^^ b) ∧ put (.salu t sd sa sb 5) (a <<< k) ∧
    put (.salu t sd sa sb 6) (a >>> k) ∧ put (.salu t sd sa sb 7) (a.sshiftRight k) ∧ put (.salu t sd sa sb 8) (a * b) ∧
    put (.salu t sd sa sb 9) (if a.toInt ≤ b.toInt then a else b) ∧
    put (.salu t sd sa sb 10) (if b.toInt ≤ a.toInt then a else b) ∧ put (.salu t sd sa sb 11) a ∧
    (∀ fn : BitVec 4, 12 ≤ fn.toNat → exec (.salu t sd sa sb fn) s = .next s) ∧
    put (.rdctl t sd 0) (BitVec.ofNat 32 (min x.isle.count 0xFFFFFF)) ∧
    put (.rdctl t sd 3) (s.bell.attempt.setWidth 32) ∧ put (.rdctl t sd 4) (BitVec.ofNat 32 s.bell.index) ∧
    put (.rdctl t sd 5) (s.pw.step.setWidth 32) ∧ put (.rdctl t sd 10) (t.setWidth 32) ∧
    put (.rdctl t sd 11) (s.rc.address.setWidth 32) ∧ put (.rdctl t sd 12) (x.flags.setWidth 32) ∧
    (∀ sel : BitVec 5, 14 ≤ sel.toNat → exec (.rdctl t sd sel) s = .next s) ∧
    (∀ md : BitVec 3, ∃ w, s.posts (.mset t md sa sb) t.toNat [w] ∧ x.owes .ct 1 w ∧
      w.op = .mreg md (b ++ a) (BitVec.allOnes 64))

/-- R179 to R181, Table 7-10: RAND writes vd with latency 8: lane 4g + k takes word k of ten Philox rounds on the counter
of lane group g, as a raw word, or as a multiple of 2^-24 in [0, 1) or (0, 1]; form 3 is the NOP. DGSEL selects the
tensor. -/
def Obligations.RandomAndTensor : Prop :=
  ∀ (s : State) (t : BitVec 10) (vd sa : BitVec 5) (stream form : BitVec 2) (tensor : BitVec 16),
    s.tileRuns t.toNat = true →
    let x := s.tile t.toNat
    let word (g k : Nat) : Word :=
      (({ x0 := s.bell.number.setWidth 32
          x1 := BitVec.ofNat 32 (s.bell.number.toNat / 2 ^ 32 + 2 ^ 8 * t.toNat + 2 ^ 18 * (s.member % 4096) +
            2 ^ 30 * stream.toNat)
          x2 := x.rs sa, x3 := BitVec.ofNat 32 g
          k0 := s.job.seed.setWidth 32, k1 := (s.job.seed >>> 32).setWidth 32 } : Philox).rounds 10).out k
    (form ≠ 3 → ∃ w data, s.posts (.rand t vd sa stream form) t.toNat [w] ∧ x.owes .ct 8 w ∧
      w.op = .vreg vd data allBits ∧ ∀ g k, g < 16 → k < 4 →
        lane data (4 * g + k) =
          (if form = 0 then word g k
           else if form = 1 then enc32 false ((word g k).toNat / 256) (-24)
           else enc32 false ((word g k).toNat / 256 + 1) (-24))) ∧
    (form = 3 → exec (.rand t vd sa stream form) s = .next s) ∧
    (∃ s', exec (.dgsel t tensor) s = .next s' ∧ s.keeps s' ∧ (s'.tile t.toNat).tensor = tensor)

/-- R97 to R99: LOOP opens a level, BRC branches where the level's index matches, ENDL ends the bundles of the lesson; a
LOOP or BRC that breaks R99 does nothing. -/
def Obligations.ControlFlow : Prop :=
  ∀ (s : State) (t : BitVec 10) (trips : BitVec 16) (e target : BitVec 10) (level : BitVec 2) (value : BitVec 15),
    s.tileRuns t.toNat = true → s.dg.debugMode = false →
    let x := s.tile t.toNat
    let active : Option LoopLevel := x.loops[level.toNat]?
    let inner : Nat := match x.loops.getLast? with | some l => l.endIndex | none => 1023
    (x.pc < e.toNat → x.loops.length < 4 → (∀ l ∈ x.loops, e.toNat ≤ l.endIndex) →
      exec (.loop t trips e) s = .next (s.modTile t.toNat fun x => { x with loops := x.loops ++
        [{ start := x.pc + 1, endIndex := e.toNat, trips := trips.toNat + 1, index := 0 }] })) ∧
    (e.toNat ≤ x.pc ∨ 4 ≤ x.loops.length ∨ (∃ l ∈ x.loops, l.endIndex < e.toNat) →
      exec (.loop t trips e) s = .next (s.modTile t.toNat fun x => x)) ∧
    (∀ l, active = some l → l.index = value.toNat → x.pc < target.toNat → target.toNat ≤ inner →
      exec (.brc t level value target) s =
        .next (s.modTile t.toNat fun x => { x with branch := some target.toNat })) ∧
    (active = none ∨ (∃ l, active = some l ∧ l.index ≠ value.toNat) ∨ target.toNat ≤ x.pc ∨ inner < target.toNat →
      exec (.brc t level value target) s = .next (s.modTile t.toNat fun x => x)) ∧
    exec (.endl t) s = .next (s.modTile t.toNat fun x => { x with drained := true })

/-- R98: LOOP opens the next level with index 0 and body from the next bundle to its end index. After the bundle at
which active levels end, each of them whose trips are done closes, innermost first; the first with a trip left steps its
index and its body's first bundle issues next. Where none is left, and where no level ends, the next bundle is the one
after, unless a branch was taken (R97). -/
def Obligations.NextBundle : Prop :=
  ∀ (s : State) (t : BitVec 10) (trips : BitVec 16) (e : BitVec 10) (l : LoopLevel) (outer closed : List LoopLevel) (b : Nat),
    s.tileRuns t.toNat = true →
    let x := s.tile t.toNat
    let after (pc : Nat) (loops : List LoopLevel) : Prop := ∃ s', exec (.resultWriteback t) s = .next s' ∧
      (s'.tile t.toNat).pc = pc ∧ (s'.tile t.toNat).loops = loops ∧ (s'.tile t.toNat).branch = none
    let done := ∀ q ∈ closed, q.endIndex = x.pc ∧ q.trips ≤ q.index + 1
    let goes := x.drained = false ∧ x.pc < 1024
    (x.pc < e.toNat → x.loops.length < 4 → (∀ q ∈ x.loops, e.toNat ≤ q.endIndex) →
      ∃ s', exec (.loop t trips e) s = .next s' ∧ s.keeps s' ∧ (s'.tile t.toNat).loops = x.loops ++
        [{ start := x.pc + 1, endIndex := e.toNat, trips := trips.toNat + 1, index := 0 }]) ∧
    (goes → x.branch = none → x.loops = outer ++ l :: closed → done → l.endIndex = x.pc → l.index + 1 < l.trips →
      after l.start (outer ++ [{ l with index := l.index + 1 }])) ∧
    (goes → x.branch = none → x.loops = outer ++ l :: closed → done → l.endIndex ≠ x.pc → after (x.pc + 1) (outer ++ [l])) ∧
    (goes → x.branch = none → x.loops = closed → done → after (x.pc + 1) []) ∧
    (goes → x.branch = some b → after b x.loops) ∧
    (x.drained = true → after 1024 x.loops)

/-! ## Tiles: the sequencer, writes, hinges and stretching -/

/-- R97, R98, R90, R112, Table 4-2: BUNDLE_FETCH issues the bundle at the fetch index of the active half: a bundle with
one slot in use does what that slot's row does with the slot's fields. A tile past ENDL or without a bundle set issues
nothing in its cycle; a bundle with an uncorrectable word issues as no operation, and the lesson is UNCORRECTABLE; a
cycle whose bundle has issued ends first. Where the manual leaves it open, the reading of log 27 (the model's). -/
def Obligations.BundleFetch : Prop :=
  (∀ (s : State) (t : BitVec 10), s.tileRuns t.toNat = true → s.dg.debugMode = false → s.dg.cntOn = 0 →
    let x := s.tile t.toNat
    x.issued = false → s.fetches t.toNat = true → fetchUe x = [] →
    let b : Bundle := tabGet 0 x.ib (1024 * x.active.toNat + x.pc)
    let at1 := s.modTile t.toNat fun x => { x with issued := true, bundles := x.bundles + 1 }
    let does (c : Instr) : Prop := exec (.bundleFetch t) s = exec c at1
    let alone (lo n : Nat) : Prop := ∀ i, i < lo ∨ lo + n ≤ i → bit b i = false
    let mx : BitVec 48 := b.extractLsb' 0 48
    let vx : BitVec 64 := b.extractLsb' 48 64
    let ld : BitVec 40 := b.extractLsb' 112 40
    let st : BitVec 40 := b.extractLsb' 152 40
    let tx : BitVec 32 := b.extractLsb' 192 32
    let ct : BitVec 32 := b.extractLsb' 224 32
    (alone 0 48 → mx.extractLsb' 0 6 = (1 : BitVec 6) → does (.mxb t (mxFields mx))) ∧
    (alone 48 64 → vx.extractLsb' 0 8 = (0x23 : BitVec 8) → does (.ffma t (vxFields vx))) ∧
    (alone 48 64 → vx.extractLsb' 0 8 = (0x0F : BitVec 8) → does (.vsel t (vxFields vx))) ∧
    (alone 112 40 → ld.extractLsb' 0 5 = (3 : BitVec 5) → does (.ldo t (ldFields ld))) ∧
    (alone 152 40 → st.extractLsb' 0 5 = (2 : BitVec 5) → does (.stv t (stFields st))) ∧
    (alone 192 32 → tx.extractLsb' 0 5 = (3 : BitVec 5) →
      does (.red t (tx.extractLsb' 5 5) (tx.extractLsb' 10 5) (tx.extractLsb' 15 8))) ∧
    (alone 224 32 → ct.extractLsb' 0 5 = (4 : BitVec 5) →
      does (.sets t (ct.extractLsb' 5 5) (ct.extractLsb' 10 20) (ct.extractLsb' 30 2))) ∧
    (b = 0 → exec (.bundleFetch t) s = .next at1)) ∧
  (∀ (s : State) (t : BitVec 10), s.tileRuns t.toNat = true → s.dg.debugMode = false → s.dg.cntOn = 0 →
    let x := s.tile t.toNat
    (x.issued = false → s.fetches t.toNat = false →
      exec (.bundleFetch t) s = .next (s.modTile t.toNat fun x => { x with issued := true })) ∧
    (x.issued = false → s.fetches t.toNat = true → fetchUe x ≠ [] → ∃ s', exec (.bundleFetch t) s = .next s' ∧
      s.keeps s' ∧ (s'.tile t.toNat).pend = x.pend ∧ (s'.tile t.toNat).issued = true ∧
      (s.bell.gathered = false → bit s'.bell.lessonCauses 6 = true)) ∧
    (x.issued = true → ∃ s1, exec (.resultWriteback t) s = .next s1 ∧ exec (.bundleFetch t) s = exec (.bundleFetch t) s1))

/-- R100, R101: of the writes that fall due at the end of a cycle, the one of highest slot, and of the later issue in
one slot, decides a register; the flags of all of them are gathered; the tile steps to its next cycle, or, where a debug
stop reaches it in this cycle, stays at it and stops (R450). Outside the cycles in which it issues, the count alone moves,
and a fenced or stopped tile does not move. Where the manual leaves it open, the reading of log 23 (the model's). -/
def Obligations.WriteArbitration : Prop :=
  ∀ (s : State) (t : BitVec 10),
    let x := s.tile t.toNat
    let c := x.isle.count
    let isDue (p : PendWrite) := p ∈ x.pend ∧ p.due = c
    let wins (p : PendWrite) (l : WriteOp → Bool) := isDue p ∧ l p.op = true ∧
      ∀ q, isDue q → l q.op = true → q = p ∨ q.slot.number < p.slot.number ∨ (q.slot = p.slot ∧ q.rank < p.rank)
    (s.tileRuns t.toNat = true → (s.tileIsle t.toNat).stopped = false → s.dg.debugMode = false →
      x.mx = [] → x.streams = [] → x.hinge = [] →
      ∃ s', exec (.resultWriteback t) s = .next s' ∧
        let y := s'.tile t.toNat
        (∀ p r v, wins p (fun | .sreg q _ => q == r | _ => false) → p.op = .sreg r v → y.rs r = v) ∧
        (∀ p r v m, wins p (fun | .vreg q _ _ => q == r | _ => false) → p.op = .vreg r v m →
          y.rv r = blend m v (x.rv r)) ∧
        (∀ r, (∀ p v, isDue p → p.op ≠ .sreg r v) → y.rs r = x.rs r) ∧
        (∀ r, (∀ p v m, isDue p → p.op ≠ .vreg r v m) → y.rv r = x.rv r) ∧
        y.flags = ((x.pend.filter fun p => p.due == c).map PendWrite.flags).foldl (· ||| ·) x.flags ∧
        y.pend = x.pend.filter (fun p => p.due != c) ∧ y.issued = false ∧
        (x.isle.stopAt ≠ some c → y.isle.count = c + 1 ∧ y.isle.stopped = false) ∧
        (x.isle.stopAt = some c → y.isle.count = c ∧ y.isle.stopped = true)) ∧
    (s.tileRuns t.toNat = false → s.fenced t.toNat = false → (s.tileIsle t.toNat).stopped = false →
      exec (.resultWriteback t) s = .next (s.modTile t.toNat fun x => { x with isle := x.isle.tick })) ∧
    (s.fenced t.toNat = true ∨ (s.tileIsle t.toNat).stopped = true → exec (.resultWriteback t) s = .next s)

/-- R36, R48, R76 to R79, R95, R198: an entry that has come reaches the receiving hinge, which holds it; one that is late
is dropped and counted, one that finds 16 entries of its hinge held is lost and counted, and one of another lesson is
dropped and counted. What has not come does not arrive. At the end of the cycle before its due cycle every entry goes to
the writes, in its slot and order: a held entry with its data, any other with zeros, and the lesson is LATE; an entry
whose data is still coming stays until it arrives. Where the manual leaves it open, the reading of logs 26, 131 and 132
(the model's). -/
def Obligations.Hinges : Prop :=
  (∀ (s : State) (t : BitVec 10) (id : Nat),
    let x := s.tile t.toNat
    let c := x.isle.count
    (x.hinge.find? (fun g => g.id == id) = none → exec (.hingeEntryArrival t id) s = .next s) ∧
    ∀ h, x.hinge.find? (fun g => g.id == id) = some h →
      let held := (x.hinge.filter fun g => g.status == .held && g.slot == h.slot && g.source == h.source).length
      let now := h.tagBell = s.bell.number.setWidth 8 ∧ h.tagAttempt = s.bell.attempt
      let arrives (d : Vec) : Prop :=
        (¬now ∨ h.due ≤ c → ∃ s', exec (.hingeEntryArrival t id) s = .next s' ∧ s.keeps s' ∧
          (s'.tile t.toNat).hinge = x.hinge.filter (fun g => g.id != id) ∧
          (s'.tile t.toNat).discards = x.discards + 1) ∧
        (now → c < h.due → held < 16 → ∃ s', exec (.hingeEntryArrival t id) s = .next s' ∧ s.keeps s' ∧
          (s'.tile t.toNat).hinge = (x.hinge.map fun g =>
            if g.id == id then { g with data := d, status := .held } else g) ∧
          (s'.tile t.toNat).discards = x.discards) ∧
        (now → c < h.due → 16 ≤ held → ∃ s', exec (.hingeEntryArrival t id) s = .next s' ∧ s.keeps s' ∧
          (s'.tile t.toNat).hinge = (x.hinge.map fun g => if g.id == id then { g with status := .lost } else g) ∧
          (s'.tile t.toNat).discards = x.discards + 1)
      (h.status = .flight → arrives h.data) ∧
      (h.status = .held ∨ h.status = .lost → exec (.hingeEntryArrival t id) s = .next s) ∧
      (∀ n, h.status = .awaiting n →
        ((∀ b r k w e, h.dest ≠ .transposed b r k w e) → exec (.hingeEntryArrival t id) s = .next s) ∧
        (∀ b r k w e, h.dest = .transposed b r k w e →
          let f := tabGet emptyFill x.fills k
          (f.missing = false → f.granules.length = 16 → arrives (transposedRow f r.toNat w e.toNat)) ∧
          (f.missing = false → f.granules.length ≠ 16 → exec (.hingeEntryArrival t id) s = .next s) ∧
          (f.missing = true → ∃ s', exec (.hingeEntryArrival t id) s = .next s' ∧ s.keeps s' ∧
            (s'.tile t.toNat).hinge = x.hinge.map fun g =>
              if g.id == id then { g with status := .lost } else g)))) ∧
  (∀ (s : State) (t : BitVec 10),
    let x := s.tile t.toNat
    let c := x.isle.count
    let late := ∃ h ∈ x.hinge, h.due = c + 1 ∧ h.status ≠ .held
    (s.tileRuns t.toNat = false → exec (.hingeDueRelease t) s = .next s) ∧
    (s.tileRuns t.toNat = true → ∃ s' l, exec (.hingeDueRelease t) s = .next s' ∧ s.keeps s' ∧
      (∀ h, h ∈ (s'.tile t.toNat).hinge ↔
        h ∈ x.hinge ∧ (h.due ≠ c + 1 ∨ h.status = .flight ∨ ∃ n, h.status = .awaiting n)) ∧
      (s'.tile t.toNat).pend = x.pend ++ l ∧ l.length = (x.hinge.filter fun h => h.due == c + 1).length ∧
      (∀ h ∈ x.hinge, h.due = c + 1 → ∃ w ∈ l, w.due = c ∧ w.slot = h.slot ∧ w.issue = h.issue ∧ w.flags = 0 ∧
        let data := if h.status = .held then h.data else 0
        (∀ r, h.dest = .s r → w.op = .sreg r (data.setWidth 32)) ∧
        (∀ r, h.dest = .v r → w.op = .vreg r data allBits) ∧
        (∀ b r m, h.dest = .buf b r m → w.op = .buf b r data m) ∧
        (∀ b r k e, h.dest = .transposed b r k false e → w.op = .buf b r data allBits) ∧
        (∀ b r k e, h.dest = .transposed b r k true e → ∃ m, w.op = .buf b r data m ∧
          ∀ i, i < 256 → byteOf m i = if i / 64 % 2 = e.toNat then 0xFF else 0) ∧
        (∀ e g, h.dest = .ib e g → w.op = .ib e g data)) ∧
      (¬late → s'.bell = s.bell) ∧
      (late → s.bell.gathered = false → bit s'.bell.lessonCauses 0 = true)))

/-- R73 to R75: a droop stretches the island's cycle, which counts as one cycle, and leaves a debt of one cycle; the
stretched cycle past the lesson's budget marks OVERSTRETCH. After 32 cycles without a droop a recovery takes one cycle of
debt back; sooner, or without debt, it takes none. No register, no byte and no other island changes. An island that does
not exist or whose clock is stopped does nothing. -/
def Obligations.Stretching : Prop :=
  ∀ (s : State) (id : BitVec 16),
    let i := s.isle id.toNat
    let inLesson := s.bell.phase = .lesson ∧ i.count < s.bell.lessonLength
    let apart (s' : State) : Prop := ∀ k, k ≠ id.toNat → islandExists s.fused.variant k = true → s'.isle k = s.isle k
    let clocked := islandExists s.fused.variant id.toNat = true ∧ s.isleStopped id.toNat = false
    (clocked → ∃ s', exec (.droopDetect id) s = .next s' ∧ s.keeps s' ∧ apart s' ∧
      let j := s'.isle id.toNat
      j.stretched = i.stretched + 1 ∧ j.debt = i.debt + 1 ∧ j.count = i.count ∧ j.stretch.calm = i.count + 1 ∧
      (inLesson → j.lessonStretch = i.lessonStretch + 1) ∧
      (¬inLesson → j.lessonStretch = i.lessonStretch ∧ s'.bell = s.bell) ∧
      (inLesson → s.bell.gathered = false → i.lessonStretch = s.bell.stretchBudget →
        bit s'.bell.lessonCauses 5 = true)) ∧
    (clocked → ∃ s', exec (.stretchDebtRecovery id) s = .next s' ∧ s.keeps s' ∧ apart s' ∧ s'.bell = s.bell ∧
      let j := s'.isle id.toNat
      j.stretched = i.stretched ∧ j.lessonStretch = i.lessonStretch ∧
      (i.debt ≠ 0 → i.stretch.calm + 32 ≤ i.count → j.debt = i.debt - 1 ∧ j.stretch.calm = i.count) ∧
      (i.debt = 0 ∨ i.count < i.stretch.calm + 32 → j = i)) ∧
    (¬clocked → exec (.droopDetect id) s = .next s ∧ exec (.stretchDebtRecovery id) s = .next s)

/-! ## Slices, reductions and regions -/

/-- R190 to R194, Table 8-7: per cycle a slice serves, of the reads and of the writes that have arrived, the one that
arrived first, and of these the one of the lowest port. A write is accepted into the window, where it meets the writes of
other sources to its granule: the lowest source is kept, the others are discarded and XB_COLLIDE counts them; four cycles
later it is applied to the layer. A read gives the layer's bytes with the reader's own earlier writes over them. A request
that has waited two slice cycles is dropped: XB_LATE counts it and the lesson is LATE at that cycle; a read's entry is
lost. -/
def Obligations.SliceRequests : Prop :=
  (∀ (s : State) (die : BitVec 2) (n : BitVec 8) (now : Nat),
    let x := s.slice die.toNat n.toNat
    let fresh := ∀ e ∈ x.window, now < e.1 + 4
    let plain := ∀ p ∈ s.cq.pieces, p.untagged = true
    let leads (a p b q : Nat) : Prop := a < b ∨ (a = b ∧ p < q)
    let firstW (w : WriteReq) : Prop := w ∈ x.writes ∧ w.arrival ≤ now ∧
      ∀ v ∈ x.writes, v ≠ w → v.arrival ≤ now → leads w.arrival w.port v.arrival v.port
    let firstR (r : ReadReq) : Prop := r ∈ x.reads ∧ r.arrival ≤ now ∧
      ∀ v ∈ x.reads, v ≠ r → v.arrival ≤ now → leads r.arrival r.port v.arrival v.port
    let met (w : WriteReq) := x.window.filter fun e => e.2.addr == w.addr && e.2.source != w.source
    let rest (w : WriteReq) := x.window.filter fun e => !(e.2.addr == w.addr && e.2.source != w.source)
    let waited (w : Nat) (served : Option Nat) : Prop := w + 2 < now ∨ (w + 2 = now ∧ served = some now)
    let late (s' : State) : Prop := s.keeps s' ∧ (s'.dieRegs die.toNat).late = (s.dieRegs die.toNat).late + 1 ∧
      (s.causeOpen = true → bit s'.bell.lessonCauses 0 = true) ∧
      (s.causeOpen = true → s.dg.debugMode = false → s.bell.lessonFirst = none → s'.bell.lessonFirst = some
        { cycle := satCycle now, part := s.rc.address, die := die, unit := n, bit := 0, source := 1 })
    (∀ w, firstW w → fresh → plain → now ≤ w.arrival + 2 → x.writeAt ≠ some now → ∃ s',
      exec (.sliceRequestServe die n true now) s = .next s' ∧ s.keeps s' ∧
      let y (l : List (Nat × WriteReq)) : Slice := { x with writes := x.writes.erase w, writeAt := some now, window := l }
      let added (k : Nat) : Prop := (s'.dieRegs die.toNat).collide = (s.dieRegs die.toNat).collide + BitVec.ofNat 32 k
      (s.memOpen w.addr = false → s'.slice die.toNat n.toNat = y x.window ∧ added 0) ∧
      (s.memOpen w.addr = true → (∀ e ∈ met w, w.rank < e.2.rank) →
        s'.slice die.toNat n.toNat = y (rest w ++ [(now, w)]) ∧ added (met w).length) ∧
      (s.memOpen w.addr = true → ¬(∀ e ∈ met w, w.rank < e.2.rank) →
        s'.slice die.toNat n.toNat = y x.window ∧ added 1)) ∧
    (∀ r t id shift, firstR r → fresh → now ≤ r.arrival + 2 → x.readAt ≠ some now → s.memOpen r.addr = true →
      s.mem.hasUe r.addr r.size.bytes = false → r.addr % 256 + r.size.bytes ≤ 256 → s.messageRegion r.addr = none →
      r.tile = some t → r.dest = .hinge t id shift → s.isRefill r = false → ∃ s' v,
        exec (.sliceRequestServe die n false now) s = .next s' ∧ s.keeps s' ∧
        s'.slice die.toNat n.toNat = { x with reads := x.reads.erase r, readAt := some now } ∧
        (s'.tile t.toNat).hinge = ((s.tile t.toNat).hinge.map fun h => if h.id == id then h.fill v shift else h) ∧
        ∀ i, i < r.size.bytes →
          let j := r.addr % 256 + i
          let own := (x.window.map (·.2) ++ x.writes).filter fun w =>
            w.source == .tile t && w.addr == r.addr / 256 * 256 && w.arrival < r.arrival && bit w.bytes j
          byteOf v i = match own.getLast? with
            | some w => byteOf w.data j
            | none => s.mem.byte (r.addr + i)) ∧
    (fresh → plain → (∀ w ∈ x.writes, now < w.arrival) ∨ x.writeAt = some now →
      exec (.sliceRequestServe die n true now) s = .next s) ∧
    (fresh → (∀ r ∈ x.reads, now < r.arrival) ∨ x.readAt = some now →
      exec (.sliceRequestServe die n false now) s = .next s) ∧
    (∀ w, firstW w → plain → waited w.arrival x.writeAt → ∃ s', exec (.sliceRequestDrop die n true now) s = .next s' ∧
      late s' ∧ (s'.slice die.toNat n.toNat).writes = x.writes.erase w ∧
      (s'.slice die.toNat n.toNat).window = x.window) ∧
    (∀ r, firstR r → waited r.arrival x.readAt → ∃ s', exec (.sliceRequestDrop die n false now) s = .next s' ∧
      late s' ∧ (s'.slice die.toNat n.toNat).reads = x.reads.erase r ∧
      ∀ t id shift, r.dest = .hinge t id shift → (s'.tile t.toNat).hinge =
        (s.tile t.toNat).hinge.map fun h => if h.id == id then { h with status := .lost } else h) ∧
    (plain → (∀ w ∈ x.writes, now ≤ w.arrival + 1) → exec (.sliceRequestDrop die n true now) s = .next s) ∧
    ((∀ r ∈ x.reads, now ≤ r.arrival + 1) → exec (.sliceRequestDrop die n false now) s = .next s)) ∧
  (∀ (s : State) (die : BitVec 2) (n : BitVec 8) (now : Nat),
    let x := s.slice die.toNat n.toNat
    (∀ e ∈ x.window, ∀ num, e.2.source ≠ .landing num) → s.mem.ue = [] →
      ∃ s', exec (.collisionWindowExpiry die n now) s = .next s' ∧ (∀ u, s'.tile u = s.tile u) ∧
        s'.slice die.toNat n.toNat = { x with window := x.window.filter fun e => decide (now < e.1 + 4) } ∧
        ∀ a,
          let hits := x.window.filter fun e => decide (e.1 + 4 ≤ now ∧ e.2.addr ≤ a ∧ a < e.2.addr + 256) &&
            s.memApplies e.2.addr && bit e.2.bytes (a - e.2.addr)
          s'.mem.byte a = match hits.getLast? with
            | some e => byteOf e.2.data (a - e.2.addr)
            | none => s.mem.byte a)

/-- R36, R200 to R202: contributions of one due cycle gather in the group's instance, which in mode 1 asks for its
destination's value; one of a past due cycle, of a group that wants none, of another due cycle, or without a place is
discarded, XB_RED counts it and the lesson is MISSING; a second one of a tile is discarded and counted, and one of another
lesson is discarded. From its due cycle on a complete instance closes with the sum in ascending part tile number, from
zero or from the destination's value, on the way to the destination's slice; one that lacks a contribution closes without
writing and the lesson is MISSING; one whose destination could not be read closes without writing. Where the manual leaves
it open, the reading of logs 132 and 136 (the model's). -/
def Obligations.Reductions : Prop :=
  ∀ (s : State) (die : BitVec 2) (g : BitVec 8) (now : Nat),
    let k := 256 * die.toNat + g.toNat
    let d := s.groupDesc k
    let e := dieOf (groupDest d)
    let m := sliceOf (offsetOf (groupDest d))
    let red (s : State) := (s.dieRegs die.toNat).red
    (tabGet [] s.mem.redFlight k = [] → exec (.reductionContribution die g now) s = .next s) ∧
    (∀ c l, tabGet [] s.mem.redFlight k = c :: l → ∃ s', exec (.reductionContribution die g now) s = .next s' ∧
      s.keeps s' ∧ tabGet [] s'.mem.redFlight k = l ∧
      let i := tabGet none s.mem.instances k
      let fits := now ≤ c.due ∧ groupCount d ≠ 0 ∧ (∀ j, i = some j → j.due = c.due)
      let twice := ∃ j, i = some j ∧ ∃ a ∈ j.contributions, a.tile = c.tile
      let room := s.redHeld die.toNat < 4096
      let stays := tabGet none s'.mem.instances k = i
      (s.tagNow c.tagBell c.tagAttempt = false → stays ∧ red s' = red s ∧ s'.bell = s.bell ∧
        (s'.dieRegs die.toNat).redStale = (s.dieRegs die.toNat).redStale + 1) ∧
      (s.tagNow c.tagBell c.tagAttempt = true → ¬fits ∨ (¬twice ∧ ¬room) → stays ∧ red s' = red s + 1 ∧
        (s.causeOpen = true → bit s'.bell.lessonCauses 3 = true)) ∧
      (s.tagNow c.tagBell c.tagAttempt = true → fits → twice → stays ∧ red s' = red s + 1 ∧ s'.bell = s.bell) ∧
      (s.tagNow c.tagBell c.tagAttempt = true → fits → ¬twice → room → red s' = red s ∧ s'.bell = s.bell ∧
        (∀ j, i = some j →
          tabGet none s'.mem.instances k = some { j with contributions := j.contributions ++ [c] }) ∧
        (i = none →
          tabGet none s'.mem.instances k = some { due := c.due, contributions := [c], base := none, failed := false } ∧
          ∃ q : List ReadReq, (s'.slice e m).reads = (s.slice e m).reads ++ q ∧
            if groupMode d then q = [{ arrival := c.due, port := 263 + g.toNat, tile := none, addr := groupDest d
                                       size := .granule, dest := .reduction g }]
            else q = []))) ∧
    (∀ i, tabGet none s.mem.instances k = some i →
      let full := i.contributions.length = groupCount d
      (now < i.due → exec (.reductionClose die g now) s = .next s) ∧
      (i.due ≤ now → full → groupMode d = true → i.failed = false → i.base = none →
        exec (.reductionClose die g now) s = .next s) ∧
      (∀ base : Vec, i.due ≤ now → full → (groupMode d = false ∧ base = 0) ∨
          (groupMode d = true ∧ i.failed = false ∧ i.base = some base) →
        ∃ s' w, exec (.reductionClose die g now) s = .next s' ∧ s.keeps s' ∧ s'.bell = s.bell ∧
          tabGet none s'.mem.instances k = none ∧ w.arrival = i.due ∧ w.addr = groupDest d ∧ w.bytes = fullBytes ∧
          w.source = .group g ∧ (s'.slice e m).writes = (s.slice e m).writes ++ [w] ∧
          ∀ l : List Contribution, l.Perm i.contributions → l.Pairwise (fun a b => a.tile.toNat < b.tile.toNat) → ∀ n, n < 64 →
            lane w.data n = l.foldl (fun x c =>
              if groupInt d then x + lane c.data n else (mxSum false x (lane c.data n)).1) (lane base n)) ∧
      (i.due ≤ now → full → groupMode d = true → i.failed = true →
        ∃ s', exec (.reductionClose die g now) s = .next s' ∧ s.keeps s' ∧ s'.bell = s.bell ∧
          tabGet none s'.mem.instances k = none ∧ (s'.slice e m).writes = (s.slice e m).writes) ∧
      (i.due ≤ now → ¬full →
        ∃ s', exec (.reductionClose die g now) s = .next s' ∧ s.keeps s' ∧ tabGet none s'.mem.instances k = none ∧
          (s'.slice e m).writes = (s.slice e m).writes ∧
          (s.causeOpen = true → bit s'.bell.lessonCauses 3 = true))) ∧
    (tabGet none s.mem.instances k = none → exec (.reductionClose die g now) s = .next s)

/-- R192, R193, R213 to R217, R219, R220: a piece of the lesson in progress from the region's producer, where there is
room, is accepted by the slice of the region's shadow tail and lands four cycles later: it is written there and the shadow
tail moves on; without room the region overruns and the lesson is OVERRUN; a piece of no running lesson, of another
producer or for no local region is discarded and counted; of a piece dropped at its slice no later one of its region
lands. A piece for a tile store, and one that the engine moves outside a lesson, lands at once. Where the manual leaves it
open, the reading of logs 31 and 135 (the model's). -/
def Obligations.PieceLanding : Prop :=
  (∀ (s : State) (n : BitVec 11) (now : Nat) (p : Piece),
    let r := s.region n.toNat
    let key := r.pieceKey r.tailSh
    let fits := r.kind = .localRegion ∧ r.producedBy p = true ∧ r.dropped = false ∧
      (p.untagged = true ∨ (s.lessonOpen = true ∧ s.tagNow p.tagBell p.tagAttempt = true))
    let lands (s' : State) : Prop := (∀ u, s'.tile u = s.tile u) ∧ (s'.region n.toNat).tailSh = r.tailSh + 1 ∧
      (s'.region n.toNat).tail = (if s.lessonOpen then r.tail else r.tailSh + 1) ∧ (s'.region n.toNat).head = r.head
    let writes (k : Nat) (v : Vec) (s' : State) : Prop :=
      ∀ a, s'.mem.byte a = if k ≤ a ∧ a < k + 256 then byteOf v (a - k) else s.mem.byte a
    (s.landingWindow n.toNat = none → s.cq.pieces.find? (fun p => p.region == n) = some p →
      (¬fits → ∃ s', exec (.pieceLanding ⟨n, now⟩) s = .next s' ∧ s.keeps s' ∧ s'.cq.pieces = s.cq.pieces.erase p ∧
        s'.cq.discards = s.cq.discards + 1 ∧ s'.cq.table = s.cq.table) ∧
      (fits → r.overrun = true ∨ r.hasRoom 0 = false → ∃ s', exec (.pieceLanding ⟨n, now⟩) s = .next s' ∧ s.keeps s' ∧
        s'.cq.pieces = s.cq.pieces.erase p ∧ s'.cq.overruns = s.cq.overruns + 1 ∧
        (s'.region n.toNat).overrun = true ∧ (s'.region n.toNat).tailSh = r.tailSh ∧
        (r.overrun = false → s.causeOpen = true → bit s'.bell.lessonCauses 2 = true)) ∧
      (fits → r.overrun = false → r.hasRoom 0 = true → p.untagged = true ∨ inLayers (offsetOf key) = false →
        s.landing n.toNat = 0 → ∃ s', exec (.pieceLanding ⟨n, now⟩) s = .next s' ∧ s'.cq.pieces = s.cq.pieces.erase p ∧
        (s.memOpen key = true → lands s' ∧ (s.mem.ue = [] → writes key p.data s')) ∧
        (s.memOpen key = false → s.keeps s' ∧ s'.cq.table = s.cq.table)) ∧
      (fits → r.overrun = false → r.hasRoom 0 = true → p.untagged = false → s.landing n.toNat = 0 →
        inLayers (offsetOf key) = true → exec (.pieceLanding ⟨n, now⟩) s = .next s)) ∧
    (∀ w c, inLayers (offsetOf key) = true →
      (s.slice (dieOf key) (sliceOf (offsetOf key))).window = [(c, w)] → w.source = .landing n.toNat → w.addr = key →
      w.bytes = fullBytes → s.memApplies key = true → s.mem.ue = [] →
      (c + 4 ≤ now → ∃ s', exec (.pieceLanding ⟨n, now⟩) s = .next s' ∧ lands s' ∧ writes key w.data s' ∧
        (s'.slice (dieOf key) (sliceOf (offsetOf key))).window = []) ∧
      (now < c + 4 → exec (.pieceLanding ⟨n, now⟩) s = .next s)) ∧
    (s.landingWindow n.toNat = none → s.cq.pieces.find? (fun p => p.region == n) = none →
      exec (.pieceLanding ⟨n, now⟩) s = .next s)) ∧
  (∀ (s : State) (die : BitVec 2) (m : BitVec 8) (now a : Nat) (p : Piece), s.cq.pieces = [p] → p.untagged = false →
    let n := p.region.toNat
    let r := s.region n
    let x := s.slice die.toNat m.toNat
    let key := s.landingKey n
    let fits := r.producedBy p = true ∧ r.dropped = false ∧ s.lessonOpen = true ∧
      s.tagNow p.tagBell p.tagAttempt = true
    s.landingSlice n = some (die.toNat, m.toNat) → p.arrival = some a → x.writes = [] →
    tabWf .reset s.mem.slices = true →
    (a ≤ now → now ≤ a + 2 → x.writeAt ≠ some now → (∀ e ∈ x.window, now < e.1 + 4) →
      ∃ s', exec (.sliceRequestServe die m true now) s = .next s' ∧ s.keeps s' ∧ s'.cq.pieces = [] ∧
        let y := s'.slice die.toNat m.toNat
        (¬fits → s'.cq.discards = s.cq.discards + 1 ∧ y.window = x.window) ∧
        (fits → r.overrun = true ∨ r.hasRoom (s.landing n) = false → s'.cq.overruns = s.cq.overruns + 1 ∧
          y.window = x.window ∧ (s'.region n).overrun = true ∧
          (r.overrun = false → s.causeOpen = true → bit s'.bell.lessonCauses 2 = true)) ∧
        (fits → r.overrun = false → r.hasRoom (s.landing n) = true → s.memOpen key = true →
          (∀ e ∈ x.window, e.2.addr ≠ key) → y.window = x.window ++
            [(now, { arrival := a, port := p.port, source := .landing n, addr := key, data := p.data
                     bytes := fullBytes })])) ∧
    (a + 2 < now → fits → ∃ s', exec (.sliceRequestDrop die m true now) s = .next s' ∧ s.keeps s' ∧
      s'.cq.pieces = [] ∧ (s'.region n).dropped = true ∧ (s'.dieRegs die.toNat).late = (s.dieRegs die.toNat).late + 1 ∧
      (s.causeOpen = true → bit s'.bell.lessonCauses 0 = true)))

/-! ## The bell -/

/-- R38, R273, R275, R284, R515, Table 11-5: a member that has finished its lesson, or whose clocks are stopped, reports; a
ring that has received too few pieces marks its lesson MISSING first. A part with its own status and its children's sends
the combined status to its parent; the root forms the verdict from it and from the notices' causes, and a relay part has no
causes of its own. A part that lacks one sends nothing. A status of another lesson, one held already and one of no child
are ignored; a relay part out of the bell takes the bell that the status is of. R515: a notice adds its causes at the
root and goes on to the parent elsewhere, once each. Where the manual leaves it open, the reading of log 46 (the
model's). -/
def Obligations.GatherUpTheTree : Prop :=
  ∀ (s : State) (p : Packet) (parent : FabricAddr),
    let sends (s' : State) (g : GatherStatus) : Prop := ∃ q ∈ s'.bell.sent, q.kind = 6 ∧ q.cls = 0 ∧ q.dest = parent ∧
      q.source = s.rc.address ∧ q.length = 16 ∧ q.tagBell = s.tagBell ∧ q.tagAttempt = s.bell.attempt ∧
      payload16 q = statusBytes g
    let own : GatherStatus := if s.isMember then { causes := s.bell.lessonCauses, first := s.bell.lessonFirst }
      else { causes := 0, first := none }
    let full (l : List (FabricAddr × GatherStatus)) : Prop := ∀ c ∈ s.children, ∃ e ∈ l, e.1 = c
    let joint (l : List (FabricAddr × GatherStatus)) := l.foldl (fun a e => joinGather a e.2) own
    let goesOn (s' : State) (l : List (FabricAddr × GatherStatus)) : Prop :=
      (¬full l → s'.bell.verdict = s.bell.verdict ∧ s'.bell.sent = s.bell.sent ∧ s'.bell.childGather = l) ∧
      (full l → s.isRoot = true → ∃ g, s'.bell.verdict = some g ∧ g.causes = (joint l).causes ||| s.bell.noticeCauses ∧
        s'.bell.noticeCauses = 0) ∧
      (full l → s.isRoot = false → s.parentOf s.rc.address = some parent → sends s' (joint l) ∧
        s'.bell.phase = .gather ∧ s'.bell.childGather = [])
    let done := s.bell.phase = .lesson ∧ (s.lessonDone = true ∨ bit s.bell.lessonCauses 7 = true)
    (s.isMember = true → ¬done → exec .gatherStatusSend s = .next s) ∧
    (s.isMember = true → done → s.bell.verdict = none → ∃ s', exec .gatherStatusSend s = .next s' ∧ s.keeps s' ∧
      s'.bell.phase = .gather ∧ s'.bell.gathered = true ∧ (s.ringShort = none → goesOn s' s.bell.childGather) ∧
      (s.ringShort ≠ none → s.causeOpen = true → bit s'.bell.lessonCauses 3 = true)) ∧
    (s.isMember = false → s.bell.phase = .lesson → s.inSession = true → s.bell.verdict = none →
      ∃ s', exec .gatherStatusSend s = .next s' ∧ s.keeps s' ∧ goesOn s' s.bell.childGather) ∧
    (s.isMember = false → s.bell.phase ≠ .lesson ∨ s.inSession = false → exec .gatherStatusSend s = .next s) ∧
    (let taken := p.kind = 6 ∧ s.inSession = true ∧ s.bellFresh p = true ∧ p.source ∈ s.children ∧ s.bell.verdict = none
     let inBell := s.isMember = true ∨ s.bell.phase ≠ .idle
     let held := s.bell.childGather ++ [(p.source, statusFrom (payload16 p))]
     (taken → inBell → s.isMember = false ∨ s.bell.gathered = true →
       ∃ s', exec (.bellGather p) s = .next s' ∧ s.keeps s' ∧ goesOn s' held) ∧
     (taken → s.isMember = true → s.bell.gathered = false → ∃ s', exec (.bellGather p) s = .next s' ∧ s.keeps s' ∧
       s'.bell.childGather = held ∧ s'.bell.verdict = none ∧ s'.bell.sent = s.bell.sent) ∧
     (¬taken → p.kind ≠ 6 ∨ s.inSession = false ∨ inBell → exec (.bellGather p) s = .next s) ∧
     (p.kind = 6 → s.inSession = true → ¬inBell → ∃ s', exec (.bellGather p) s = .next s' ∧ s.keeps s' ∧
       s'.bell.number = p.tagBell.setWidth 40 ∧ s'.bell.attempt = p.tagAttempt)) ∧
    (p.kind = 0xD → s.inSession = true → s.isRoot = true → p.payload ∉ s.bell.noticed →
      ∃ s', exec (.bellNotice p) s = .next s' ∧ s.keeps s' ∧
        s'.bell.noticeCauses = s.bell.noticeCauses ||| fieldAt 16 (payload16 p) 2 ∧ s'.bell.noticeFirst ≠ none ∧
        p.payload ∈ s'.bell.noticed) ∧
    (p.kind = 0xD → s.inSession = true → s.isRoot = false → s.parentOf s.rc.address = some parent →
      (∀ q ∈ s.bell.notices, q.payload ≠ p.payload) → exec (.bellNotice p) s = .next
        (State.inject { s with bell := { s.bell with
          notices := s.bell.notices ++ [{ p with dest := parent, source := s.rc.address }] } }
          15 { p with dest := parent, source := s.rc.address })) ∧
    (p.kind = 0xD → s.inSession = true →
      (s.isRoot = true ∧ p.payload ∈ s.bell.noticed) ∨ (s.isRoot = false ∧ ∃ q ∈ s.bell.notices, q.payload = p.payload) →
      exec (.bellNotice p) s = .next s) ∧
    (p.kind ≠ 0xD ∨ s.inSession = false → exec (.bellNotice p) s = .next s)

/-- R40, R54, R59, Table 2-6: while a status is missing at the root after the gather's time limit, the job faults with
BELL_TIMEOUT on every part. The check that a part makes in a dirty recess: the replay limit faults the job with
REPLAY_LIMIT, which the root alone finds; then a link of the job's routes narrower than the image's least width with
LINK_WIDTH, then a tile fenced at this bell with FENCED, which a part other than the root reports to it; below the limit,
with none of these, the job goes on. -/
def Obligations.JobFaults : Prop :=
  (∀ (s : State),
    let waits := s.isRoot = true ∧ s.inSession = true ∧ s.bell.phase = .gather ∧ s.bell.verdict = none
    (waits → ∃ s', exec .gatherTimeout s = .next s' ∧ s'.bell.phase = .faulted ∧
      s'.bell.faulted = true ∧ s'.bell.faultCode = 2 ∧ (s.job.stop ≠ some true → s'.job.state = .ended) ∧
      ∀ a ∈ s.otherParts, .firmware a (.jobEnd 7 2) ∈ s'.out) ∧
    (¬waits → exec .gatherTimeout s = .next s)) ∧
  (∀ (s : State) (fenced : Bool), s.inSession = true →
    let t := s.dirtyCheck fenced
    let faults (code : Byte) : Prop :=
      (s.isRoot = true → t.bell.phase = .faulted ∧ t.bell.faulted = true ∧ t.bell.faultCode = code ∧
        (s.job.stop ≠ some true → t.job.state = .ended) ∧ ∀ a ∈ s.otherParts, .firmware a (.jobEnd 7 code) ∈ t.out) ∧
      (s.isRoot = false → t = s.emit (.firmware s.job.root (.jobEnd 7 code)))
    let narrow := ∃ im l, s.job.image = some im ∧ l ∈ s.routeLinks ∧ s.linkWidth l < im.minWidth
    let limit := s.bell.replayLimit.toNat ≤ s.bell.attempt.toNat
    (limit → s.isRoot = true → faults 1) ∧
    (limit → s.isRoot = false → t = s) ∧
    (¬limit → narrow → faults 4) ∧
    (¬limit → ¬narrow → fenced = true → faults 5) ∧
    (¬limit → ¬narrow → fenced = false → t = s))

/-- R39, R43, R51, R52, R59, R67, R220, R284: a verdict updates the bell's registers together and starts recess: after a
clean one the shadow pointers become the committed ones, after a dirty one the reverse. The root performs the verdict it
has formed; a member passes the verdict of its parent on to its children and performs it; a relay part passes it on and is
in recess, and after a dirty one tells the root the width of its links on the job's routes. A verdict that is none of the
bell in progress, or does not come from the parent, does nothing. Where the manual leaves it open, the reading of logs 48
and 142 (the model's). -/
def Obligations.VerdictStartsRecess : Prop :=
  ∀ (s : State) (p : Packet) (env : Surroundings) (g : GatherStatus) (n : Nat),
    let s1 := s.noteVerdict g
    let inBell := s.isMember = true ∨ s.bell.phase ≠ .idle
    let arrives := p.kind = 7 ∧ s.inSession = true ∧ s.bellFresh p = true ∧ s.parentOf s.rc.address = some p.source
    let told := statusFrom (payload16 p)
    (s1.bell.phase = .recess ∧ s1.bell.seq = s.bell.seq + 1 ∧ s1.bell.causes = g.causes ∧
      s1.bell.lastDirty = (g.causes != 0) ∧ s1.bell.number = s.bell.number ∧ s1.bell.attempt = s.bell.attempt ∧
      (∀ c, g.first = some c → s1.bell.firstWhere = causeWhere c ∧ s1.bell.firstCycle = c.cycle) ∧
      (g.first = none → s1.bell.firstWhere = 0 ∧ s1.bell.firstCycle = 0) ∧ s.keeps s1) ∧
    ((s.settleRegions true).region n = { s.region n with
      head := (s.region n).headSh, tail := (s.region n).tailSh, tailWas := none, headWas := none }) ∧
    ((s.settleRegions false).region n = { s.region n with
      headSh := (s.region n).head, tailSh := (s.region n).tail, tailWas := none, headWas := none }) ∧
    (s.isRoot = true → s.bell.phase = .gather → s.bell.verdict = some g →
      exec (.bellVerdict p env) s = .next (if g.causes = 0 then s1.recessClean env else s1.recessDirty env)) ∧
    (s.isRoot = true → s.bell.verdict = none ∨ s.bell.phase ≠ .gather → exec (.bellVerdict p env) s = .next s) ∧
    (s.isRoot = false → s.isMember = true → arrives →
      let passed := (s.noteBell p).sendChildren 7 (statusBytes told)
      let t := passed.noteVerdict told
      exec (.bellVerdict p env) s = .next (if s.bell.phase ≠ .gather then passed
        else if told.causes = 0 then t.recessClean env else t.recessDirty env)) ∧
    (s.isRoot = false → s.isMember = false → s.bell.phase ≠ .idle → arrives →
      ∃ s', exec (.bellVerdict p env) s = .next s' ∧ s.keeps s' ∧ s'.bell.phase = .recess ∧
        s'.bell.lastDirty = (told.causes != 0) ∧ s'.bell.number = s.bell.number ∧
        (∀ c ∈ s.children, c ≠ p.source →
          ∃ q ∈ s'.bell.sent, q.kind = 7 ∧ q.dest = c ∧ payload16 q = statusBytes told) ∧
        (told.causes ≠ 0 → s.held = false → .firmware s.job.root (.width s.rc.address s.routeWidth) ∈ s'.out)) ∧
    (s.isRoot = false → inBell → ¬arrives → exec (.bellVerdict p env) s = .next s)

/-- R32, R42, R45, R275, R278, R279: with its recess work complete a member is READY; a part that holds its own READY and
its children's sends the combined one to its parent, and a relay part has nothing of its own to wait for; a later READY of
a child replaces the earlier. With work still open a member sends nothing. A part that has become quiet while it drains
tells the parts that wait for it, and a member sends its READY again, with quiet set. A JOB_STOP that has met a dirty bell
ends the job at the root once the readies of all are in. -/
def Obligations.ReadyUpTheTree : Prop :=
  ∀ (s : State) (p : Packet) (env : Surroundings) (parent : FabricAddr),
    let sends (u s' : State) (r : ReadyStatus) : Prop := ∃ q ∈ s'.bell.sent, q.kind = 8 ∧ q.cls = 0 ∧ q.dest = parent ∧
      q.source = u.rc.address ∧ q.length = 16 ∧ payload16 q = readyBytes r
    let full (u : State) (l : List (FabricAddr × ReadyStatus)) : Prop := ∀ c ∈ u.children, ∃ e ∈ l, e.1 = c
    let joint (r : ReadyStatus) (l : List (FabricAddr × ReadyStatus)) := l.foldl (fun a e => joinReady a e.2) r
    let goesOn (u s' : State) (r : ReadyStatus) (l : List (FabricAddr × ReadyStatus)) : Prop :=
      (full u l → u.isRoot = false → u.parentOf u.rc.address = some parent → sends u s' (joint r l)) ∧
      (¬full u l → s'.bell.sent = u.bell.sent)
    let inBell := s.isMember = true ∨ s.bell.phase ≠ .idle
    let relayReady : ReadyStatus := { complete := true, quiet := s.quiet, step := 7 }
    (let s0 := if s.bell.recessDue then s.recessRest env else s
     let s1 := s0.attachedFns.foldl (fun s f => s.takeRecords f env) s0
     let s2 := if s1.rt.drain && s1.quiet then s1.reportQuiet else s1
     s.inSession = true → s.bell.phase = .recess → s.isMember = true → s.workDone = true →
      ∃ s' r, exec (.readySend env) s = .next s' ∧ r.complete = true ∧ r.quiet = s2.quiet ∧
        r.step = s2.stepWanted (some s2.bell.index) ∧ goesOn s2 s' r s2.bell.childReady ∧
        (s2.isRoot = false ∨ s2.job.stop = none → s2.keeps s' ∧ s'.bell.phase = .ready ∧ s'.bell.ownReady = some r)) ∧
    (s.inSession = true → s.bell.phase = .recess → s.isMember = false → s.placementDue = false → s.rt.drain = false →
      s.bell.ownReady = none → s.isRoot = false → ∃ s', exec (.readySend env) s = .next s' ∧ s.keeps s' ∧
        goesOn s s' relayReady s.bell.childReady) ∧
    (s.bell.phase ≠ .recess ∨ (s.placementDue = false ∧ (s.inSession = false ∨ (s.isMember = true ∧ s.workDone = false))) →
      exec (.readySend env) s = .next s) ∧
    (let taken := p.kind = 8 ∧ s.inSession = true ∧ p.source ∈ s.children ∧ p.tagBell = s.tagBell ∧
       p.tagAttempt = s.bell.attempt
     let held := (s.bell.childReady.filter fun e => e.1 != p.source) ++ [(p.source, readyFrom (payload16 p))]
     (taken → inBell → s.isRoot = false ∨ s.job.stop = none → ∃ s', exec (.bellReady p) s = .next s' ∧ s.keeps s' ∧
        s'.bell.childReady = held ∧ (∀ r, s.bell.ownReady = some r → goesOn s s' r held) ∧
        (s.bell.ownReady = none → s.isMember = true → s'.bell.sent = s.bell.sent) ∧
        (s.bell.ownReady = none → s.isMember = false → goesOn s s' relayReady held)) ∧
     (taken → inBell → s.isRoot = true → s.bell.lastDirty = true → s.job.stop ≠ none → s.held = false →
        s.bell.widthsDue = [] → full s held → (∀ r, s.bell.ownReady = some r → (joint r held).complete = true →
        ∃ s', exec (.bellReady p) s = .next s' ∧ s'.bell.phase = .stopped)) ∧
     (¬taken → inBell ∨ p.kind ≠ 8 → exec (.bellReady p) s = .next s)) ∧
    (s.rt.drain = false ∨ s.quiet = false → exec .drainQuiet s = .next s) ∧
    (s.rt.drain = true → s.quiet = true →
      let told (s' : State) : Prop := s.keeps s' ∧ s'.rt.drainAskers = [] ∧
        ∀ a ∈ s.rt.drainAskers, a ≠ s.rc.address → .firmware a (.done s.rc.address 0x40 0 []) ∈ s'.out
      (s.inSession = false → ∃ s', exec .drainQuiet s = .next s' ∧ told s') ∧
      (s.inSession = true → s.isMember = true → s.bell.ownReady = none → exec .drainQuiet s = .next s) ∧
      (∀ r, s.inSession = true → s.isMember = true → s.bell.ownReady = some r → s.isRoot = false ∨ s.job.stop = none →
        ∃ s', exec .drainQuiet s = .next s' ∧ told s' ∧ s'.bell.ownReady = some { r with quiet := true } ∧
          (r.quiet = false → goesOn s s' { r with quiet := true } s.bell.childReady)) ∧
      (s.inSession = true → s.isMember = false → s.bell.ownReady = none → s.isRoot = false →
        ∃ s', exec .drainQuiet s = .next s' ∧ told s' ∧ goesOn s s' relayReady s.bell.childReady))

/-- R30, R41, R42, R45, R46, R252, R275, R279, R285, Table 11-5: the root releases once every part is ready, recess has
lasted its minimum and nothing holds it: the next bell after a clean verdict, the next attempt of the same bell after a
dirty one, 4,000 ns later where the step changes. A part that issues or takes a release sends it to its children: a
member holds it for its release moment, a relay part takes its bell number, attempt and index; one that does not come from
the parent, or is held already, is dropped. Where the manual leaves it open, the reading of log 48 (the model's). -/
def Obligations.ReleaseTravels : Prop :=
  (∀ (s : State) (elapsed : Nat) (r : ReadyStatus),
    s.isRoot = true → s.inSession = true → s.bell.phase = .ready → s.bell.release = none →
    let goes := s.readyAll = some r ∧ r.complete = true ∧ s.bell.recessMin.toNat ≤ elapsed ∧ s.bell.reverify = [] ∧
      s.held = false ∧ s.bell.widthsDue = [] ∧ s.lockstepAgrees = true ∧ (s.rt.drain = false ∨ r.quiet = true)
    (goes → ∃ s' q, exec (.releaseIssue elapsed) s = .next s' ∧ s.keeps s' ∧
        s'.bell.release = some q ∧ q.step = r.step ∧ q.index = BitVec.ofNat 32 s.bell.index ∧
        q.targetNs = s.bell.targetNs + (if r.step = s.pw.step then 0 else 4000) ∧
        (s.bell.lastDirty = false → q.bell = s.bell.number + 1 ∧ q.attempt = 0) ∧
        (s.bell.lastDirty = true → q.bell = s.bell.number ∧ q.attempt = s.bell.attempt + 1) ∧
        s'.bell.relNumber = q.bell ∧ s'.bell.relAttempt = q.attempt ∧
        ∀ c ∈ s'.children, ∃ k ∈ s'.bell.sent, k.kind = 9 ∧ k.dest = c ∧ payload16 k = releaseBytes q) ∧
    (s.readyAll = none ∨ (s.readyAll = some r ∧ ¬goes) → exec (.releaseIssue elapsed) s = .next s)) ∧
  (∀ (s : State) (elapsed : Nat), s.isRoot = false → exec (.releaseIssue elapsed) s = .next s) ∧
  (∀ (s : State) (p : Packet),
    let r := releaseFrom (payload16 p)
    let arrives := p.kind = 9 ∧ s.inSession = true ∧ s.parentOf s.rc.address = some p.source ∧ s.bell.release = none ∧
      (s.bell.phase = .ready ∨ s.bell.phase = .recess ∨ s.bell.phase = .idle) ∧ s.holdsRelease r = false
    (arrives → ∃ s', exec (.bellRelease p) s = .next s' ∧ s.keeps s' ∧
        (∀ c ∈ s'.children, ∃ k ∈ s'.bell.sent, k.kind = 9 ∧ k.dest = c ∧ payload16 k = releaseBytes r) ∧
        s'.bell.relNumber = r.bell ∧ s'.bell.relAttempt = r.attempt ∧
        (s.isMember = true → s'.bell.release = some r ∧ s'.bell.number = s.bell.number) ∧
        (s.isMember = false → s'.bell.release = none ∧ s'.bell.number = r.bell ∧ s'.bell.attempt = r.attempt ∧
          s'.bell.index = r.index.toNat ∧ s'.bell.phase = .lesson ∧ s'.rt.drain = false)) ∧
    (¬arrives → exec (.bellRelease p) s = .next s))

/-- R30, R35, R41, R79, R102, R114, R130, R220, R449, R514: at the release moment every tile that is not fenced starts at
cycle 0 and bundle 0 with its registers zero and its instruction buffer kept, and counts what its hinges still held;
slices and groups drop what is open; shadow pointers are the committed ones; the lesson has its length and no cause yet,
but for CLOCKSTOP where a breakpoint in debug mode names its bell. Without a release, or on a part that is no member of a
job in session, nothing happens. Where the manual leaves it open, the reading of log 48 (the model's). -/
def Obligations.ReleaseStartsLesson : Prop :=
  ∀ (s : State),
    (∀ r, s.bell.release = some r → s.inSession = true → s.isMember = true →
      let breaks := s.dg.debugMode = true ∧ ∃ b ∈ s.dg.breakpoints, b.kind = 0 ∧ b.value = r.bell.setWidth 64
      ∃ s', exec .tileRelease s = .next s' ∧ s.sameMemory s' ∧ s'.pw.step = r.step ∧ s'.pw.tripped = false ∧
        s'.bell.number = r.bell ∧ s'.bell.attempt = r.attempt ∧ s'.bell.phase = .lesson ∧ s'.bell.index = r.index.toNat ∧
        (∀ im, s.job.image = some im → s'.bell.lessonLength = lessonLength im r.index.toNat ∧
          s'.bell.stretchBudget = lessonStretch im r.index.toNat) ∧
        (¬breaks → s'.bell.lessonCauses = 0) ∧ (breaks → s'.bell.lessonCauses = 128 ∧ s'.dg.stopped = true) ∧
        s'.bell.gathered = false ∧ s'.bell.release = none ∧
        (∀ t, t < 1024 → s.fenced t = false →
          let x := s.tile t
          let y := s'.tile t
          y.s = [] ∧ y.a = [] ∧ y.v = [] ∧ y.m = [] ∧ y.acc = [] ∧ y.flags = 0 ∧ y.buf = [] ∧ y.cells = [] ∧
            y.pend = [] ∧ y.hinge = [] ∧ y.mx = [] ∧ y.streams = [] ∧ y.loops = [] ∧ y.pc = 0 ∧ y.isle.count = 0 ∧
            y.isle.bell = r.bell ∧ y.ended = false ∧ y.ib = x.ib ∧ y.ibValid = x.ibValid ∧ y.active = x.active ∧
            y.discards = x.discards + (x.hinge.filter fun h => h.status == .held || h.status == .flight).length) ∧
        (∀ t, s.fenced t = true → (s'.tile t).regs = (s.tile t).regs) ∧
        s'.mem.slices = [] ∧ s'.mem.instances = [] ∧
        ∀ n, (s'.region n).head = (s.region n).head ∧ (s'.region n).headSh = (s.region n).head ∧
          (s'.region n).tail = (s.region n).tail ∧ (s'.region n).tailSh = (s.region n).tail ∧
          (s'.region n).overrun = false ∧ (s'.region n).dropped = false) ∧
    (s.bell.release = none ∨ s.inSession = false ∨ s.isMember = false → exec .tileRelease s = .next s)

/-! ## Temperature, power, resets and start-up -/

/-- R80, R477, R480, R483, R485 to R487, R493, Table 20-4: readings of 95 °C and more on a compute die ask for a lower
thermal step; 105 °C trips: the clocks stop, THERM_TRIP_N falls and the thermal step falls by two; 115 °C shuts down to
P2, and an I/O die at 110 °C or a stack at 95 °C cuts the part to P3. A stack at 85 °C suspends programming until every one
is at 80 °C or less. The thermal step rises when the dies are cool, in a member's session at its next recess; a trip's
ready is given back; a mean of 97 % of the limit over 20 samples trips once; an idle part enters P1. Without firmware
nothing happens. Where the manual leaves it open, the reading of log 119 (the model's). -/
def Obligations.Temperature : Prop :=
  (∀ (s : State) (readings : List (BitVec 16)),
    let hot (lo n : Nat) (bound : Int) : Prop := ∃ i, lo ≤ i ∧ i < lo + n ∧ sensorThere s.fused.variant i = true ∧
      readings.getD i 0x8000 ≠ 0x8000 ∧ bound ≤ (readings.getD i 0x8000).toInt
    let cut := s.cutting = false ∧ (hot 64 8 880 ∨ hot 72 8 760)
    let shut := s.cutting = false ∧ ¬cut ∧ s.pw.domainA = true ∧ hot 0 64 920
    let trips := s.cutting = false ∧ ¬cut ∧ s.pw.domainA = true ∧ hot 0 64 840 ∧ ¬hot 0 64 920
    (s.pw.firmware = false → exec (.temperatureSample readings) s = .next s) ∧
    (s.pw.firmware = true → ¬cut → ¬shut → (trips → s.pw.thermalTrip = true) →
      ∃ s', exec (.temperatureSample readings) s = .next s' ∧
      s.keeps s' ∧ s'.pins = s.pins ∧ s'.bell = s.bell ∧ s'.pw.thermalStep = s.pw.thermalStep ∧
      (s'.pw.throttleDue = true ↔ hot 0 64 760) ∧
      (s'.pw.stacksHot = true ↔ hot 72 8 680 ∨ (s.pw.stacksHot = true ∧ hot 72 8 641))) ∧
    (s.pw.firmware = true → trips → s.pw.thermalTrip = false →
      ∃ s', exec (.temperatureSample readings) s = .next s' ∧ s.keeps s' ∧ s'.pins.thermTrip = true ∧
        s'.pw.thermalTrip = true ∧ s'.pw.tripped = true ∧ s'.pw.thermalTrips = s.pw.thermalTrips + 1 ∧
        s'.pw.thermalStep = (if s.pw.step.toNat < 2 then 0 else s.pw.step - 2) ∧
        (∀ id, id < 24576 → islandExists s.fused.variant id = true → s'.isleStopped id = true) ∧
        (s.inSession = true → s.isMember = true → s.causeOpen = true → bit s'.bell.lessonCauses 7 = true)) ∧
    (s.pw.firmware = true → shut →
      ∃ s', exec (.temperatureSample readings) s = .next s' ∧ s'.pw.state = .p2 ∧ s'.pw.domainA = false ∧
        s'.pw.lastReset = 6 ∧ s'.pins.thermTrip = true) ∧
    (s.pw.firmware = true → cut → ∃ s', exec (.temperatureSample readings) s = .next s' ∧ s'.pw.state = .p3 ∧
      s'.pw.domainA = false ∧ s'.pw.firmware = false ∧ s'.pw.lastReset = 8 ∧ s'.pins.hotTrip = true ∧
      s'.pins.inputGood = s.pins.inputGood)) ∧
  (∀ (s : State) (watts : Nat) (v : BitVec 16),
    let up : BitVec 3 := if s.pw.thermalStep = 7 then 7 else s.pw.thermalStep + 1
    (s.pw.firmware = true → s.cool = true → s.inSession = false ∨ s.isMember = false →
      ∃ s', exec .thermalStepRise s = .next s' ∧ s.keeps s' ∧
      s'.pw.thermalStep = up ∧ s'.pw.step = s'.stepWanted none) ∧
    (s.pw.firmware = true → s.cool = true → s.inSession = true → s.isMember = true →
      exec .thermalStepRise s = .next { s with pw := { s.pw with riseDue := true } }) ∧
    (s.pw.firmware = true → s.cool = true → s.pins.thermTrip = true →
      exec .cooldownReady s =
        .next { s with pins := { s.pins with thermTrip := false }, pw := { s.pw with thermalTrip := false } }) ∧
    (s.pins.thermTrip = false → exec .cooldownReady s = .next s) ∧
    (s.cool = false ∨ s.pw.firmware = false → exec .cooldownReady s = .next s ∧ exec .thermalStepRise s = .next s) ∧
    (let l := (s.pw.samples ++ [watts]).drop ((s.pw.samples ++ [watts]).length - 100)
     let last := l.drop (l.length - 20)
     let trips := last.length = 20 ∧ 97 * limitWatts s.pw.limit * 20 ≤ 100 * last.sum ∧ s.pw.domainA = true ∧
       s.pw.powerTrip = false
     (s.pw.firmware = false → exec (.powerSample watts v) s = .next s) ∧
     (s.pw.firmware = true → ¬trips → exec (.powerSample watts v) s =
       .next { s with pw := { s.pw with samples := l, voltage := v, energy := s.pw.energy + watts } }) ∧
     (s.pw.firmware = true → trips → ∃ s', exec (.powerSample watts v) s = .next s' ∧ s.keeps s' ∧
       s'.pw.tripped = true ∧ s'.pw.powerTrip = true ∧ s'.pw.powerTrips = s.pw.powerTrips + 1 ∧
       s'.pw.samples = l ∧ s'.pw.voltage = v ∧ s'.pw.energy = s.pw.energy + watts ∧
       (s.inSession = true → tabGet (0, 0) s'.pw.measured s.bell.index = (0, 0)) ∧
       (s.pw.tripped = false → s.inSession = true → s.isMember = true → s.causeOpen = true →
         bit s'.bell.lessonCauses 7 = true))) ∧
    (let idle := s.pw.state = .p0 ∧ s.pw.startup = 7 ∧ s.pw.domainA = true ∧ s.inSession = false ∧ s.working = false
     (idle → exec .p1IdleEntry s =
       .next { s with pw := { s.pw with state := .p1 }, ts := { s.ts with now := s.ts.now.gate } }) ∧
     (¬idle → exec .p1IdleEntry s = .next s)))

/-- R25, R488, R489, R493, Tables 20-2, 20-5 and 20-8: PW_CTRL and PW_RESET: entering P2 clears domain A, leaving it brings a
zeroed domain A up; P3 powers the domains off once every record commit is complete; refused ops set the flag alone. A write
of PW_RESET with the key resets domain A, or the part 1 ms later; one without the key does nothing, and without firmware
nothing happens. -/
def Obligations.PowerControl : Prop :=
  ∀ (s : State) (v : Word),
    let refuses := s.job.state ≠ .none ∨ s.distributing = true ∨ s.sec.update ≠ none
    let refused := { s with pw := { s.pw with refused := true } }
    let cleared (s' : State) : Prop := (∀ a, s'.mem.byte a = 0) ∧ s'.mem.ue = [] ∧ s'.mem.slices = [] ∧
      (∀ t, (s'.tile t).regs = Tile.reset.regs) ∧ s'.nv.blocks = s.nv.blocks ∧ s'.nv.restoreMap = s.nv.restoreMap
    (s.pw.firmware = false → exec .pwCtrlEnterP2 s = .next s ∧ exec .pwCtrlEnterP3 s = .next s ∧
      exec .pwCtrlLeaveP2 s = .next s ∧ exec (.pwResetCompute v) s = .next s ∧ exec (.pwResetPart v) s = .next s) ∧
    (s.pw.firmware = true →
      (refuses ∨ ¬(s.pw.state = .p0 ∨ s.pw.state = .p1) → exec .pwCtrlEnterP2 s = .next refused) ∧
      (refuses ∨ s.pw.state = .p3 → exec .pwCtrlEnterP3 s = .next refused) ∧
      (¬refuses → s.pw.state = .p0 ∨ s.pw.state = .p1 → ∃ s', exec .pwCtrlEnterP2 s = .next s' ∧ cleared s' ∧
        s'.pw.state = .p2 ∧ s'.pw.domainA = false ∧ s'.pw.refused = false ∧ s'.pw.firmware = true ∧
        s'.pw.lastReset = s.pw.lastReset) ∧
      (s.pw.state = .p2 → s.pw.domainA = false → ∃ s', exec .pwCtrlLeaveP2 s = .next s' ∧ s'.pw.domainA = true ∧
        s'.pw.startup = 5 ∧ s'.pw.refused = false ∧ (∀ a, s'.mem.byte a = 0) ∧ s'.mem.ue = []) ∧
      (s.pw.state ≠ .p2 ∨ s.pw.domainA = true → exec .pwCtrlLeaveP2 s = .next refused) ∧
      (¬refuses → s.pw.state ≠ .p3 → s.nv.commits = [] → ∃ s', exec .pwCtrlEnterP3 s = .next s' ∧ cleared s' ∧
        s'.pw.state = .p3 ∧ s'.pw.firmware = false ∧ s'.pw.domainA = false ∧ s'.pw.domainB = false ∧
        s'.pw.domainC = false ∧ s'.pw.lastReset = s.pw.lastReset) ∧
      (¬refuses → s.pw.state ≠ .p3 → s.nv.commits ≠ [] → exec .pwCtrlEnterP3 s =
        .next { s with pw := { s.pw with state := .p3, refused := false } }) ∧
      (v.extractLsb' 16 16 ≠ (0x9400 : BitVec 16) →
        exec (.pwResetCompute v) s = .next s ∧ exec (.pwResetPart v) s = .next s) ∧
      (v.extractLsb' 0 2 ≠ (1 : BitVec 2) ∨ s.pw.startup ≠ 7 → exec (.pwResetCompute v) s = .next s) ∧
      (v.extractLsb' 0 2 ≠ (2 : BitVec 2) → exec (.pwResetPart v) s = .next s) ∧
      (v.extractLsb' 16 16 = (0x9400 : BitVec 16) → v.extractLsb' 0 2 = (1 : BitVec 2) → s.pw.startup = 7 →
        ∃ s', exec (.pwResetCompute v) s = .next s' ∧ s'.pw.lastReset = 5 ∧ s'.pw.domainA = s.pw.domainA ∧
          (s.pw.domainA = true → s'.pw.startup = 5) ∧ (∀ a, s'.mem.byte a = 0) ∧
          ∀ t, (s'.tile t).regs = Tile.reset.regs) ∧
      (v.extractLsb' 16 16 = (0x9400 : BitVec 16) → v.extractLsb' 0 2 = (2 : BitVec 2) →
        exec (.pwResetPart v) s = .next { s with pw := { s.pw with resetPending := true } }))

/-- R469, R475, R490 to R492, R505, Table 20-6: the supplies' commands, and the steps of start-up in their order: with
standby, input and reference good and no reset held the boot ROM runs the good image, or the one whose trial is to begin,
and with none it goes to recovery; the store is mounted, or the part is ready in STORE_FAULT; domain A powers up with
zeroed memory; failed tiles are fenced; with the weights restored the part is ready. A charged hold-up store starts the
commits that wait for it. Where the manual leaves it open, the readings of logs 76, 78 and 79 (the model's). -/
def Obligations.StartUpSteps : Prop :=
  ∀ (s : State) (straps : BitVec 3) (failing : List (BitVec 2 × Byte × BitVec 64)),
    let sound (x : FirmwareSlot) : Prop := x.state = .good ∧ s.sec.antiRollback.toNat ≤ x.security.toNat
    let boots (c : Instr) : Prop :=
      (sound s.sec.slotA → s.sec.slotB.state = .empty → ∃ s', exec c s = .next s' ∧ s'.pw.firmware = true ∧
        s'.pw.startup = 1 ∧ s'.sec.running = 0 ∧ s'.sec.trial = false ∧ s'.sec.secretLocked = true ∧
        s'.pw.domainA = s.pw.domainA) ∧
      (sound s.sec.slotA → s.sec.slotB.state = .trial → s.sec.slotB.activate = true → ∃ s', exec c s = .next s' ∧
        s'.pw.firmware = true ∧ s'.pw.startup = 1 ∧ s'.sec.running = 1 ∧ s'.sec.trial = true ∧
        s'.sec.slotB.failedTrials = s.sec.slotB.failedTrials + 1 ∧ s'.sec.slotB.activate = false) ∧
      (s.sec.slotA.state = .empty → s.sec.slotB.state = .empty → ∃ s', exec c s = .next s' ∧ s'.sec.recovery = true ∧
        s'.pw.firmware = s.pw.firmware ∧ s'.pw.startup = 1)
    (s.pins.vsb = false → exec (.vsbGood ⟨straps, failing⟩) s =
      .next (State.markFailing
        { s with pins := { s.pins with vsb := true }, rc := { s.rc with straps := straps } } failing)) ∧
    (s.pins.vsb = false → exec (.vsbGood ⟨straps, []⟩) s =
      .next { s with pins := { s.pins with vsb := true }, rc := { s.rc with straps := straps } }) ∧
    (s.pins.vsb = true → exec (.vsbGood ⟨straps, failing⟩) s = .next s) ∧
    (s.pins.vsb = true → s.pw.startup = 0 →
      (s.pins.inputGood = false → s.cutting = false → s.pins.partRst = false →
        (s.pins.refclk = true → boots .inputGood) ∧
        (s.pins.refclk = false → ∃ s', exec .inputGood s = .next s' ∧ s'.pins.inputGood = true ∧ s'.pw.startup = 0 ∧
          s'.pw.domainB = true ∧ s'.pw.domainC = true)) ∧
      (s.pins.inputGood = true → s.pins.partRst = true → s.pins.refclk = true → boots .partRstNRelease) ∧
      (s.pins.inputGood = true → s.pins.partRst = false → s.pw.rom = true → boots .refclkPresent)) ∧
    (s.pins.vsb = false ∨ s.pins.inputGood = true ∨ s.cutting = true → exec .inputGood s = .next s) ∧
    (s.pins.partRst = false → exec .partRstNRelease s = .next s) ∧
    (s.pw.rom = false → exec .refclkPresent s = .next { s with pins := { s.pins with refclk := true } }) ∧
    (s.pw.firmware = true → s.pw.startup = 1 →
      (s.mountFails = false → ∃ s', exec .storeMount s = .next s' ∧ s.keeps s' ∧ s'.pw.startup = 4 ∧
        s'.nv.storeFault = s.nv.storeFault ∧ s'.rc.address = s'.planAddress) ∧
      (s.mountFails = true → ∃ s', exec .storeMount s = .next s' ∧ s.keeps s' ∧
        s'.nv.storeFault = true ∧ s'.hi.ready = true ∧ s'.pw.startup = 7)) ∧
    (s.pw.firmware = false ∨ s.pw.startup ≠ 1 → exec .storeMount s = .next s) ∧
    (s.pw.firmware = true → s.pw.startup = 4 → s.nv.charged = true → s.rc.window = false →
      ∃ s', exec .domainAPowerUp s = .next s' ∧ s'.pw.domainA = true ∧ s'.pw.startup = 5 ∧ (∀ a, s'.mem.byte a = 0) ∧
        s'.mem.ue = []) ∧
    (s.pw.firmware = false ∨ s.pw.startup ≠ 4 ∨ s.nv.charged = false ∨ s.rc.window = true →
      exec .domainAPowerUp s = .next s) ∧
    (∀ failures, s.pw.domainA = true → s.pw.startup = 5 → ∃ s', exec (.selfTestComplete failures) s = .next s' ∧
      s.keeps s' ∧ s'.pw.startup = 6 ∧ s'.nv.restores = s.nv.restoreMap ∧
      ∀ t, s'.fenceOf t = if s.fenced t then s.fenceOf t
        else ((failures.find? fun e => e.1.toNat == t && (e.2 == 1 || e.2 == 2)).map (·.2)).getD 0) ∧
    (∀ failures, s.pw.domainA = false ∨ s.pw.startup ≠ 5 → exec (.selfTestComplete failures) s = .next s) ∧
    (s.pw.startup = 6 → s.nv.restores = [] → exec .startupRestoreComplete s =
      .next { s with hi := { s.hi with ready := true }, pw := { s.pw with startup := 7, state := .p0 } }) ∧
    (s.nv.restores ≠ [] ∨ s.pw.startup ≠ 6 → exec .startupRestoreComplete s = .next s) ∧
    (s.pins.inputGood = true → exec .holdupStoreCharged s =
      .next { s with nv := { s.nv with
        charged := true, chargePct := 100, commits := s.nv.commits.map fun c => { c with started := true } } }) ∧
    (s.pins.inputGood = false → exec .holdupStoreCharged s = .next s)

/-- R25, R375, R397, R407, R473, R474, R488, R490, R494, R495, Table 20-5: what a part reset, a watchdog's reset, a
loss of the reference, an input failure and a loss of standby power clear, and the cause each leaves in PW_LAST_RESET; a
cause that the power-cut procedure has left stays over the reset that ends its P3.
A Function Level Reset resets one function's rings and mailbox, one of the PF every function's, and PERST_N takes the
link down with it; TRIAL_CONFIRM commits the running image, once. Where the manual leaves it open, the readings of logs
75, 85 and 86 (the model's). -/
def Obligations.Resets : Prop :=
  (∀ (s : State),
    let cleared (s' : State) : Prop := (∀ a, s'.mem.byte a = 0) ∧ (∀ t, (s'.tile t).regs = Tile.reset.regs) ∧
      s'.cq = .reset ∧ s'.rc.eid = 0 ∧ s'.nv.restoreMap = s.nv.restoreMap ∧ s'.nv.generations = s.nv.generations ∧
      s'.ts.fences = s.ts.fences ∧ s'.rt.slice = s.rt.slice ∧ s'.bell = .reset ∧ (s.rt.role ≠ 2 → s'.job = .reset)
    let settled := s.nv.commits = [] ∧ s.fencesDue = []
    let cause (c : BitVec 4) := if s.pw.state = .p3 ∧ s.pw.causeStays = true then s.pw.lastReset else c
    (s.pins.vsb = true → settled → ∃ s', exec (.partReset 1) s = .next s' ∧ cleared s' ∧ s'.pins.partRst = true ∧
      s'.pw.lastReset = cause 1 ∧ s'.pw.firmware = false) ∧
    (s.pw.resetPending = true → s.pins.partRst = false → settled → ∃ s', exec (.partReset 2) s = .next s' ∧ cleared s' ∧
      s'.pw.lastReset = cause 2 ∧ s'.pw.resetPending = false) ∧
    (∀ c : BitVec 4, (c = 1 → s.pins.vsb = false) → (c = 2 → s.pw.resetPending = false ∨ s.pins.partRst = true) →
      exec (.partReset c) s = .next s) ∧
    (s.sec.trial = true → s.pins.partRst = false → settled → ∃ s', exec .trialWatchdogExpiry s = .next s' ∧ cleared s' ∧
      s'.pw.lastReset = cause 3) ∧
    (s.sec.trial = false ∨ s.pins.partRst = true → exec .trialWatchdogExpiry s = .next s) ∧
    (s.pw.firmware = true → settled → ∃ s', exec .refclkLoss s = .next s' ∧ cleared s' ∧
      s'.pins.refclk = false ∧ s'.pw.firmware = false) ∧
    (s.pw.firmware = false → exec .refclkLoss s = .next { s with pins := { s.pins with refclk := false } }) ∧
    (s.pins.partRst = true ∨ s.pins.inputGood = false → exec .inputFailure s = .next s) ∧
    (s.pins.partRst = false → s.pins.inputGood = true →
      (s.pw.firmware = true → s.inSession = false → s.nv.dist = none → s.nv.commits = [] →
        ∃ s', exec .inputFailure s = .next s' ∧ cleared s' ∧ s'.pw.state = .p3 ∧ s'.pw.lastReset = 7 ∧
          s'.pw.causeStays = true ∧ s'.pins.inputGood = false) ∧
      (s.pw.firmware = true → s.inSession = true → s.isMember = true → s.isRoot = false →
        ∃ s', exec .inputFailure s = .next s' ∧ s'.pins.inputGood = false ∧
          .firmware s.job.root (.inputFailure s.rc.address) ∈ s'.out) ∧
      (s.pw.firmware = false → s.pw.state ≠ .p3 → ∃ s', exec .inputFailure s = .next s' ∧ cleared s' ∧
        s'.pw.state = .p3 ∧ s'.pw.lastReset = 7 ∧ s'.pins.inputGood = false) ∧
      (s.pw.firmware = false → s.pw.state = .p3 → exec .inputFailure s =
        .next { s with pins := { s.pins with inputGood := false } })) ∧
    (∃ s', exec .vsbLoss s = .next s' ∧ s'.pins.vsb = false ∧ s'.pins.inputGood = false ∧ s'.pw.lastReset = 0 ∧
      s'.pw.firmware = false ∧ s'.rc.dynamic = none ∧ (∀ a, s'.mem.byte a = 0) ∧
      ∀ t, (s'.tile t).regs = Tile.reset.regs)) ∧
  (∀ (s : State) (f : BitVec 6) (g : Nat),
    let gone (s' : State) (k : Nat) : Prop := (s'.fn k).records = [] ∧ (s'.fn k).egEnable = false ∧
      (s'.mbox k).queue = [] ∧ (s'.mbox k).running = 0 ∧ (s'.mbox k).life = (s.mbox k).life + 1
    (s.hi.ready = true → f ≠ 0 → ∃ s', exec (.flr f) s = .next s' ∧ s.keeps s' ∧ gone s' f.toNat ∧
      (g ≠ f.toNat → s'.fn g = s.fn g ∧ s'.mbox g = s.mbox g)) ∧
    (s.hi.ready = true → ∃ s', exec (.flr 0) s = .next s' ∧ s.keeps s' ∧ (g < 64 → gone s' g) ∧
      s'.mbox 64 = s.mbox 64) ∧
    (s.hi.ready = false → exec (.flr f) s = .next s) ∧
    (∃ s', exec .perstN s = .next s' ∧ s.keeps s' ∧ (g < 64 → gone s' g) ∧ s'.hi.linkSpeed = 0 ∧ s'.hi.linkWidth = 0) ∧
    (let asked := ∃ c ∈ s.nv.commits, c.effect = .confirm
     (s.mayConfirm = true → ¬asked → s.nv.storeFault = false → s.cutting = false →
       ∃ s' c, exec .trialConfirm s = .next s' ∧ s.keeps s' ∧ s'.nv.commits = s.nv.commits ++ [c] ∧ c.type = 8 ∧
         c.effect = .confirm ∧ c.sequence = s.nv.nextSequence ∧
         s'.nv.nextSequence = s.nv.nextSequence + BitVec.ofNat 64 c.types.length) ∧
     (s.mayConfirm = false ∨ asked → exec .trialConfirm s = .next s)))

/-! ## Registers, management bus and board -/

/-- R7, R82, R84, R85, R379, R386, R396: register writes: before the part is ready none takes effect; a forbidden access is
recorded; a select register takes its field, PW_CTRL, TS_CONTROL and EG_CTRL do what their own commands do, and EG_CTRL
starts a ring of a legal size at index 0. The time-stamp sample takes the island selected when it was asked for: its bell
and saturated cycle offset, its stretching and whether its clock stands; in the cycle of a release the values of the cycle
before; zeros for an island that is absent or has no power, and bell 0 and offset 0 before the job's start. Where the
manual leaves it open, the readings of logs 21, 124, 137 and 138 (the model's). -/
def Obligations.RegisterAccess : Prop :=
  (∀ (s : State) (f : BitVec 6) (bar2 : Bool) (off v : Word) (kind : BitVec 3),
    (1 ≤ kind.toNat → kind.toNat ≤ 4 → ∃ s', exec (.accessViolation f bar2 off kind) s = .next s' ∧ s.keeps s' ∧
      bit s'.hi.viol f.toNat = true ∧ s'.hi.violFn = f ∧ s'.hi.violKind = kind ∧ s'.hi.violBar2 = bar2 ∧
      s'.hi.violAddr = off ∧ s'.bell = s.bell) ∧
    (kind = 0 ∨ 4 < kind.toNat → exec (.accessViolation f bar2 off kind) s = .next s) ∧
    (s.hi.ready = false → exec (.registerWrite f bar2 off v) s = .next s ∧ exec (.egCtrlEnable f) s = .next s ∧
      exec .tsSampleTake s = .next s) ∧
    (s.hi.ready = true →
      let writes (at_ : Word) (s' : State) : Prop := exec (.registerWrite 0 false at_ v) s = .next s'
      writes 0x202000 { s with ts := { s.ts with select := v.setWidth 16 } } ∧
      writes 0x203000 { s with ts := { s.ts with tcSelect := v.setWidth 10 } } ∧
      writes 0x204000 { s with mem := { s.mem with select := v.setWidth 2 } } ∧
      writes 0x205000 { s with cq := { s.cq with select := v.setWidth 11 } } ∧
      writes 0x206000 { s with lkSelect := v.setWidth 5, lkLane := v.extractLsb' 5 3 } ∧
      writes 0x207000 { s with rt := { s.rt with select := v.setWidth 2 } } ∧
      writes 0x208000 { s with nv := { s.nv with select := v.setWidth 3 } } ∧
      writes 0x209018 { s with pw := { s.pw with sensorSel := v.setWidth 7 } } ∧
      (v.extractLsb' 0 2 = (1 : BitVec 2) → exec (.registerWrite 0 false 0x209004 v) s = exec .pwCtrlEnterP2 s) ∧
      (v.extractLsb' 0 2 = (2 : BitVec 2) → exec (.registerWrite 0 false 0x209004 v) s = exec .pwCtrlLeaveP2 s) ∧
      (v.extractLsb' 0 2 = (3 : BitVec 2) → exec (.registerWrite 0 false 0x209004 v) s = exec .pwCtrlEnterP3 s) ∧
      (bit v 0 = true → exec (.registerWrite 0 false 0x202004 v) s = exec .tsSampleTake s) ∧
      (bit v 0 = true → exec (.registerWrite f true 0x200020 v) s = exec (.egCtrlEnable f) s) ∧
      (∃ s', exec .tsSampleTake s = .next s' ∧ s'.ts.sampling = some s.ts.select ∧ s'.ts.done = false ∧ s.keeps s') ∧
      (s.readReg f.toNat true off.toNat = none → ∃ s', exec (.registerWrite f true off v) s = .next s' ∧
        s.keeps s' ∧ bit s'.hi.viol f.toNat = true ∧ s'.hi.violFn = f ∧ s'.hi.violAddr = off) ∧
      (f ≠ 0 → exec (.registerWrite f false off v) s = .next s) ∧
      (let x := s.fn f.toNat
       (7 ≤ x.egSize.toNat → x.egSize.toNat ≤ 20 → exec (.egCtrlEnable f) s = .next (s.modFn f.toNat fun x =>
          { x with egEnable := true, produced := 0, badConsumed := false, dmaError := false, consumedWord := 0 })) ∧
       (x.egSize.toNat < 7 ∨ 20 < x.egSize.toNat → ∃ s', exec (.egCtrlEnable f) s = .next s' ∧ s.keeps s' ∧
          ∀ k, s'.fn k = s.fn k)))) ∧
  (∀ (s : State),
    (s.ts.sampling = none → exec .tsSampleDone s = .next s) ∧
    (∀ id : BitVec 16, s.ts.sampling = some id → ∃ s', exec .tsSampleDone s = .next s' ∧ s.keeps s' ∧
      s'.ts.done = true ∧ s'.ts.sampling = none ∧
      let there := islandExists s.fused.variant id.toNat
      let i := s.isle id.toNat
      let shows (j : Island) (number : Nat) (offset : Nat) : Prop :=
        s'.ts.stamp.toNat = number * 2 ^ 24 + min offset 0xFFFFFF ∧ s'.ts.stretch = j.stretched ∧
        s'.ts.lessonStretch.toNat = min j.lessonStretch 0x1FFF ∧ s'.ts.debt.toNat = min j.debt 0xFF ∧
        s'.ts.stopped = s.clockHeld id.toNat
      (there = false ∨ s.unpowered id.toNat = true → s'.ts.stamp = 0 ∧ s'.ts.stretch = 0 ∧ s'.ts.lessonStretch = 0 ∧
        s'.ts.debt = 0 ∧ s'.ts.stopped = there) ∧
      (there = true → s.unpowered id.toNat = false → i.count ≠ 0 →
        if s.beforeStart then shows i 0 0 else shows i i.bell.toNat i.count) ∧
      (there = true → s.unpowered id.toNat = false → i.count = 0 →
        let j := if id.toNat < 8192 then (s.tile (islandTile id.toNat)).before else s.ts.before.isle id.toNat
        shows j j.bell.toNat j.count)))

/-- R231, R250, R301 to R303, R375, R408, R454, R479: the management bus's address commands, the endpoint's link, the
optical readings, of which a feed's is that of the four links it serves and fails their lane below +14.5 dBm, and the test
access port, which stands in the standby domain: bypass delays by one bit, IDCODE shifts its word out lowest bit first.
Where the manual leaves it open, the readings of logs 4, 125 and 127 (the model's). -/
def Obligations.BoardCommands : Prop :=
  ∀ (s : State) (a : BitVec 7) (pid : BitVec 48) (eid : Byte) (speed : BitVec 3) (width : BitVec 5) (flit : Bool)
    (link : BitVec 5) (lane : BitVec 3) (tx rx feed ber : BitVec 16) (tdi : List Bool),
    (let takes := s.pins.vsb = true ∧ (4 ≤ s.pw.startup ∨ s.pw.domainC = false) ∧
       (pid = s.provisionedId ∨ a = 0x38 + s.rc.straps.setWidth 7)
     (takes → exec (.i3cDynamicAddress a pid) s = .next { s with rc := { s.rc with dynamic := some a } }) ∧
     (¬takes → exec (.i3cDynamicAddress a pid) s = .next s)) ∧
    (∃ s', exec .i3cResetDynamicAddress s = .next s' ∧ s.keeps s' ∧ s'.rc.dynamic = none ∧ (s'.mbox 64).session = false ∧
      (s'.mbox 64).life = (s.mbox 64).life + 1) ∧
    (let takes := s.pw.firmware = true ∧ s.rc.dynamic ≠ none ∧ eid ≠ 0 ∧ eid ≠ 0xFF
     (takes → exec (.setEndpointId eid) s = .next { s with rc := { s.rc with eid := eid } }) ∧
     (¬takes → exec (.setEndpointId eid) s = .next s)) ∧
    (let legal := 4 ≤ speed.toNat ∧ speed.toNat ≤ 6 ∧ (width = 4 ∨ width = 8 ∨ width = 16) ∧ flit = (speed == 6)
     let up := s.pw.firmware = true ∨ s.sec.recovery = true
     (legal → up → exec (.pciExpressLinkChange speed width flit) s =
        .next { s with hi := { s.hi with linkSpeed := speed, linkWidth := width, linkFlit := flit } }) ∧
     (speed ≠ 0 → ¬legal ∨ ¬up → exec (.pciExpressLinkChange speed width flit) s = .next s)) ∧
    (exec (.pciExpressLinkChange 0 width flit) s =
      .next { s with hi := { s.hi with linkSpeed := 0, linkWidth := 0, linkFlit := false } }) ∧
    (s.hasLink link.toNat = true → ∃ s', exec (.opticalReadingsRefresh link lane tx rx feed ber) s = .next s' ∧ s.keeps s' ∧
      tabGet .reset (s'.link link.toNat).optics lane.toNat = { tx := tx, rx := rx, feed := feed, ber := ber } ∧
      ∀ k, k / 4 = link.toNat / 4 → (tabGet .reset (s'.link k).optics lane.toNat).feed = feed ∧
        (feed ≠ 0x8000 → feed.toInt < 1450 → (s.link k).phase ≠ .down → (s.link k).phase ≠ .disabled →
          bit (s'.link k).feedOk lane.toNat = false)) ∧
    (s.hasLink link.toNat = false → exec (.opticalReadingsRefresh link lane tx rx feed ber) s = .next s) ∧
    (s.pins.vsb = false → ∀ op, exec (.testAccessPort op) s = .next s) ∧
    (s.pins.vsb = true →
      let load (i : TapInstr) := { s with dg := { s.dg with tapIr := i, tapData := [] } }
      (exec (.testAccessPort .reset) s = .next (load .idcode)) ∧ (exec (.testAccessPort .bypass) s = .next (load .bypass)) ∧
      (exec (.testAccessPort .idcode) s = .next (load .idcode)) ∧
      (exec (.testAccessPort .samplePreload) s = .next (load .samplePreload)) ∧
      (exec (.testAccessPort .extest) s = .next (load .extest)) ∧
      (exec (.testAccessPort .internalScan) s = .next (load .internalScan)) ∧
      (s.dg.tapIr = .bypass ∨ (s.dg.tapIr = .internalScan ∧ s.dg.debugMode = false) →
        exec (.testAccessPort (.shift tdi)) s =
          .next { s with dg := { s.dg with tapData := tdi }, out := s.out ++ [.tdo ((false :: tdi).take tdi.length)] }) ∧
      (s.dg.tapIr = .idcode → exec (.testAccessPort (.shift tdi)) s = .next { s with
        dg := { s.dg with tapData := tdi }
        out := s.out ++ [.tdo (((List.range 32).map (bit s.idcode) ++ tdi).take tdi.length)] }))

/-! ## Half-layers, scrub, the persistent store and the stacks -/

/-- R205, R206, R207, R208, Table 8-6: a CLOSING half-layer with no write open turns OFF and loses its contents; an OPENING
one turns ON with every word zero, at once with no job in session and else at the end of the next recess step 2; the
scrub corrects the words of its quantum, moves to the next, and asks for the restore of a mapped block whose word is
uncorrectable; with a job in session, or with the firmware or domain A not up, it reads nothing between recesses. -/
def Obligations.HalfLayersAndScrub : Prop :=
  ∀ (s : State) (die : BitVec 2) (half : BitVec 3) (d : Nat),
    let h := halfBase die.toNat half.toNat
    let k := 8 * die.toNat + half.toNat
    let inside (a : Nat) : Prop := h ≤ a ∧ a < h + 2 ^ 30
    let emptied (s' : State) : Prop := (∀ a, s'.mem.byte a = if inside a then 0 else s.mem.byte a) ∧
      (∀ w ∈ s'.mem.ue, ¬inside (8 * w)) ∧ ∀ u, s'.tile u = s.tile u
    (s.gateOf die.toNat half.toNat = 1 → s.writesOpen die.toNat half.toNat = false →
      ∃ s', exec (.halfLayerClosed die half) s = .next s' ∧ emptied s' ∧ s'.gateOf die.toNat half.toNat = 2) ∧
    (s.gateOf die.toNat half.toNat ≠ 1 ∨ s.writesOpen die.toNat half.toNat = true →
      exec (.halfLayerClosed die half) s = .next s) ∧
    (s.gateOf die.toNat half.toNat = 3 → s.inSession = false →
      ∃ s', exec (.halfLayerOpened die half) s = .next s' ∧ emptied s' ∧ s'.gateOf die.toNat half.toNat = 0) ∧
    (s.gateOf die.toNat half.toNat = 3 → s.inSession = true →
      ∃ s', exec (.halfLayerOpened die half) s = .next s' ∧ s.keeps s' ∧ s'.mem.gate = s.mem.gate ∧
        k ∈ s'.mem.gateOpened ∧ s'.mem.gateRequests = s.mem.gateRequests) ∧
    (s.gateOf die.toNat half.toNat = 3 → tabWf 0 s.mem.gate = true → k ∈ s.mem.gateOpened →
      s.gateRecess.gateOf die.toNat half.toNat = 0 ∧ (∀ a, inside a → s.gateRecess.mem.byte a = 0) ∧
      (∀ w ∈ s.gateRecess.mem.ue, ¬inside (8 * w)) ∧ ∀ u, s.gateRecess.tile u = s.tile u) ∧
    (s.gateOf die.toNat half.toNat ≠ 3 → exec (.halfLayerOpened die half) s = .next s) ∧
    (s.inSession = false → s.pw.firmware = true → s.pw.domainA = true → ∃ s', exec .scrubIdleTick s = .next s' ∧
      s.keeps s' ∧ s'.mem.ue = s.mem.ue ∧
      (d < 4 → (s'.dieRegs d).scrubQuantum = (s.dieRegs d).scrubQuantum + 1 ∧
        (∀ w ∈ s'.mem.ce, s.inQuantum d (s.dieRegs d).scrubQuantum.toNat w = false) ∧
        ∀ e ∈ s.nv.restoreMap, (∀ x ∈ s.nv.restoreMap, x.block = e.block → x = e) →
          (∃ w ∈ s.mem.ue, s.inQuantum d (s.dieRegs d).scrubQuantum.toNat w = true ∧ 8 * w / 65536 = e.block) →
          e ∈ s'.nv.restores)) ∧
    (s.inSession = true ∨ s.pw.firmware = false ∨ s.pw.domainA = false → exec .scrubIdleTick s = .next s)

/-- R311, R328, R329, R330, R334, R341, Table 13-11: the oldest commit completes in order: each of its records has a copy
with its sequence number on every stack that takes copies, and its effect is in force; with no such stack left the store
faults and nothing waits any more. A commit that waits for the hold-up store does not complete. Where the manual leaves it
open, the reading of log 54 (the model's). -/
def Obligations.CommitsComplete : Prop :=
  ∀ (s : State) (failed : List (Nat × Nat)),
    (s.nv.commits = [] → exec (.recordCommitDone failed) s = .next s) ∧
    ∀ (c : Commit) (rest : List Commit), s.nv.commits = c :: rest →
      (c.started = false → exec (.recordCommitDone failed) s = .next s) ∧
      (c.started = true → s.cutting = false → s.shuttingDown = false →
        let t := State.complete { s with nv := { s.nv with commits := rest } } c failed
        (t.copyStacks ≠ [] → (c.after = .nothing ∨ ∃ w b, c.after = .respond w b) →
          ∃ s' l, exec (.recordCommitDone failed) s = .next s' ∧ s.keeps s' ∧ s'.nv.commits = rest ++ l ∧
          s'.nv.storeFault = s.nv.storeFault ∧ s'.copyStacks = t.copyStacks ∧ (∀ k ∈ s'.copyStacks, k ∈ s.copyStacks) ∧
          (∀ k ∈ s'.copyStacks, ∀ e ∈ c.types.zipIdx, ∃ x ∈ s'.copies k,
            x.type = e.1 ∧ x.sequence = c.sequence + BitVec.ofNat 64 e.2 ∧ x.verifies = true) ∧
          (s'.copyStacks.length < 3 → s'.nv.degraded = true) ∧
          (∀ w b, c.after = .respond w b → (s.mbox w.transport.toNat).life = w.life →
            ∃ r ∈ (s'.mbox w.transport.toNat).responses,
              r.cookie = w.cookie ∧ r.sequence = w.sequence ∧ r.status = 0 ∧ r.body = b) ∧
          (∀ p, c.effect = .progress p → p ∈ s'.nv.progress) ∧
          (∀ l, c.effect = .generations l → ∀ g ∈ l, g.state ≠ .superseded → g ∈ s'.nv.generations) ∧
          (∀ l, c.effect = .decisions l → ∀ d ∈ l, d ∈ s'.nv.decisions) ∧
          (∀ r, c.effect = .fabric r → s'.nv.fabric = r) ∧
          (∀ p, c.effect = .plan p → s'.rc.plan = some p) ∧
          (∀ l n, c.effect = .keyRing l n → s'.sec.keyRing = l ∧ s'.sec.ownerCounter = n) ∧
          (∀ x y n, c.effect = .slots x y n → s'.sec.slotA = x ∧ s'.sec.slotB = y ∧
            s'.sec.ownerCounter.toNat = max s.sec.ownerCounter.toNat n.toNat) ∧
          (∀ st o m n e r, c.effect = .padlock st o m n e r → s'.sec.padlock = st ∧ s'.sec.owner = o ∧
            s'.sec.lockMask = m ∧ s'.sec.ownerCounter = n ∧ (r = true → s'.sec.keyRing = []) ∧
            (e = true → s'.rc.plan = none ∧ s'.nv.blocks = [])) ∧
          (∀ n, c.effect = .debug n → s'.dg.debugMode = true ∧ s'.dg.debugMark = true ∧ s'.sec.keyRing = [] ∧
            s'.sec.ownerCounter = n) ∧
          (c.effect = .confirm → s'.sec.trial = false ∧ s.sec.antiRollback.toNat ≤ s'.sec.antiRollback.toNat)) ∧
        (t.copyStacks = [] → ∃ s', exec (.recordCommitDone failed) s = .next s' ∧ s.keeps s' ∧ s'.nv.commits = [] ∧
          s'.nv.storeFault = true))

/-- R311, R323, R324, R325, R337, R338, R516: a restore writes the block's decrypted bytes where the map says, and one for
an adapter slot into the slot; a block whose codewords fail, whose tag fails, or that the part does not hold, is not
written, and one that it holds and cannot read is lost. Without a restore that waits, in a lesson, or with domain A off,
nothing is read. Relocation keeps every stored block, and counts an erase of an erase block that it could empty. Where the
manual leaves it open, the readings of logs 68 and 70 (the model's). -/
def Obligations.StoreReads : Prop :=
  ∀ (s : State) (stack : BitVec 3) (block : Nat) (failed : Bool) (ldpc corrected : Nat) (p : List Byte),
    let k := stack.toNat
    let moved (s' : State) : Prop := s.keeps s' ∧
      (∀ b : StoreBlock, (∃ x ∈ s'.nv.blocks, { x with eraseBlock := 0 } = { b with eraseBlock := 0 }) ↔
        (∃ x ∈ s.nv.blocks, { x with eraseBlock := 0 } = { b with eraseBlock := 0 })) ∧
      ((s.copyBlocks (s.held13 k block) fun s => s.elsewhere k block).held13 k block = [] →
        (s.eraseBlock k block).erases + 1 ≤ (s'.stack k).maxErase)
    let filled (s' : State) (n : Nat) : Prop := (∀ u, s'.tile u = s.tile u) ∧
      ∀ a, s'.mem.byte a = if 65536 * n ≤ a ∧ a < 65536 * n + 65536 then p.getD (a - 65536 * n) 0 else s.mem.byte a
    -- the entry's block, held with its generation and whole after decryption
    let whole (e : MapEntry) : Prop := ldpc = 0 ∧ s.unheld e = false ∧ p.length = 65536 ∧
      s.memOpen (65536 * e.block) = true ∧
      ∃ b g, s.storeBlock (kindOf e.adapter) e.object e.generation (e.index.setWidth 24) = some b ∧
        s.genOf e.adapter e.object e.generation = some g ∧ s.openBlock13 b g.tenant = some p
    -- it is held, and its read fails
    let bad (e : MapEntry) : Prop := s.unheld e = false ∧
      ∀ b, s.storeBlock (kindOf e.adapter) e.object e.generation (e.index.setWidth 24) = some b →
        ldpc ≠ 0 ∨ ∀ g, s.genOf e.adapter e.object e.generation = some g → s.openBlock13 b g.tenant = none
    let reads := s.mayTransfer = true ∧ s.pw.domainA = true
    (∀ (e : MapEntry) (rest : List MapEntry), s.nv.restores = e :: rest → reads →
      (whole e → ∃ s', exec (.restoreBlockRead ldpc corrected) s = .next s' ∧ filled s' e.block ∧
        s'.nv.restores = rest ∧ s'.nv.restoredCount = s.nv.restoredCount + 1 ∧ s'.nv.lost = s.nv.lost) ∧
      (bad e → ∃ s', exec (.restoreBlockRead ldpc corrected) s = .next s' ∧ s.keeps s' ∧ s'.nv.restores = rest ∧
        (kindOf e.adapter, e.object, e.generation, e.index.setWidth 24) ∈ s'.nv.lost ∧
        s'.nv.restoredCount = s.nv.restoredCount ∧ s'.nv.lostMet = s.nv.lostMet + 1) ∧
      (s.unheld e = true → ∃ s', exec (.restoreBlockRead ldpc corrected) s = .next s' ∧ s.keeps s' ∧
        s'.nv.restores = rest ∧ s'.nv.lost = s.nv.lost ∧ s'.nv.lostMet = s.nv.lostMet + 1) ∧
      (rest = [] → s.nv.restoring = true → (∀ c ∈ s.nv.commits, c.type ≠ 7) →
        ∃ s', exec (.restoreBlockRead ldpc corrected) s = .next s' ∧ s'.nv.restoring = false ∧ s'.job.restored = true)) ∧
    (∀ (r : SlotRead) (rest : List SlotRead), s.nv.restores = [] → s.nv.slotReads = r :: rest → reads →
      (whole r.entry → ∃ s', exec (.restoreBlockRead ldpc corrected) s = .next s' ∧ filled s' r.entry.block ∧
        s'.nv.slotReads = rest ∧
        (tabGet .reset s'.sv.slots r.slot).restored = (tabGet .reset s.sv.slots r.slot).restored + 1) ∧
      (bad r.entry ∨ s.unheld r.entry = true →
        ∃ s', exec (.restoreBlockRead ldpc corrected) s = .next s' ∧ s.keeps s' ∧
        (tabGet .reset s'.sv.slots r.slot).lost = true ∧ (∀ q ∈ s'.nv.slotReads, q.slot ≠ r.slot))) ∧
    (s.nv.restores = [] ∧ s.nv.slotReads = [] ∨ ¬reads → exec (.restoreBlockRead ldpc corrected) s = .next s) ∧
    (s.stackWorks k = true → 500000 ≤ (s.eraseBlock k block).reads →
      ∃ s', exec (.readDisturbRelocate stack ⟨block, failed⟩) s = .next s' ∧ moved s' ∧
        (s'.stack k).disturb = (s.stack k).disturb + 1) ∧
    (s.stackWorks k = false ∨ (s.eraseBlock k block).reads < 500000 →
      exec (.readDisturbRelocate stack ⟨block, failed⟩) s = .next s) ∧
    (s.stackWorks k = true → ∃ s', exec (.retentionRefresh stack ⟨block, failed⟩) s = .next s' ∧ moved s' ∧
      (s'.stack k).refresh = (s.stack k).refresh + 1) ∧
    (s.stackWorks k = false → exec (.retentionRefresh stack ⟨block, failed⟩) s = .next s)

/-! ## Links -/

/-- R233 to R235, R237 to R241, R243 to R245, R247, R250: flits on an ACTIVE link: one whose CRC carries the expected
number is accepted, another asks for a resend; STATUS frees what it acknowledges, gives the credits and starts the replay
it asks for unless one from that number began within 200 ns, as does a timeout; a slot sends STATUS as the 128th, then
what is resent, then new flits, and TRAIN on every lane in NEGOTIATE and on the group in DEGRADE; a codeword is decoded
and counted, and eight uncorrectable ones within 1 ms fail its lane. -/
def Obligations.FlitTraffic : Prop :=
  ∀ (s : State) (l : BitVec 5) (first : Bool) (body : BitVec 480) (crc : Word) (f : StatusFlit) (ns : Nat),
    let x := s.link l.toNat
    let y (s' : State) := s'.link l.toNat
    let good := crc = crc32c (toBytes 2 (x.expected.setWidth 16 : BitVec 16) ++ toBytes 60 body)
    (x.phase = .active → good → ∃ s', exec (.dataFlit l first body crc) s = .next s' ∧ s.keeps s' ∧
      (y s').expected = x.expected + 1 ∧ (y s').nakSet = false ∧ (y s').accepted = true ∧
      (y s').crcErrors = x.crcErrors) ∧
    (x.phase = .active → ¬good → ∃ s', exec (.dataFlit l first body crc) s = .next s' ∧ s.keeps s' ∧
      y s' = { x with crcErrors := x.crcErrors + 1, nakSet := true }) ∧
    (x.phase ≠ .active → exec (.dataFlit l first body crc) s = .next s) ∧
    -- STATUS and the timeout
    (x.phase = .active → ∃ s', exec (.statusFlit l f ns) s = .next s' ∧ s.keeps s' ∧
      (y s').phase = (if ({ x with peerRxOk := f.rxOk } : Link).groupFailed then .degrade else .active) ∧
      (∀ c, c < 8 → tabGet 0 (y s').returned c = f.credits.getD c 0) ∧
      (f.nak = false → (y s').replays = x.replays ∧
        ∀ pre g post, x.replayBuffer = pre ++ g :: post → (∀ e ∈ pre, e.seq ≠ g.seq) → f.ackValid = true →
          f.ackSeq = g.seq → (y s').replayBuffer = post) ∧
      (∀ pre g post, x.replayBuffer = pre ++ g :: post → (∀ e ∈ pre, e.seq ≠ g.seq) → f.ackValid = false →
        f.nak = true → f.nakSeq = g.seq →
        ((∃ t, x.lastResend = some (g.seq, t) ∧ ns < t + 200) → (y s').replays = x.replays) ∧
        ((∀ t, x.lastResend = some (g.seq, t) → t + 200 ≤ ns) → (y s').replays = x.replays + 1 ∧
          (y s').lastResend = some (g.seq, ns) ∧ (y s').resend.map (·.seq) = (g :: post).map (·.seq)))) ∧
    (x.phase ≠ .active → exec (.statusFlit l f ns) s = .next s) ∧
    (x.phase = .active → x.replayBuffer ≠ [] → ∃ s', exec (.replayTimeout ⟨l, ns⟩) s = .next s' ∧ s.keeps s' ∧
      (y s').resend.map (·.seq) = x.replayBuffer.map (·.seq) ∧ (y s').replays = x.replays + 1 ∧
      (x.storedTag = none → (y s').resend = x.replayBuffer) ∧
      ∀ g, (x.replayBuffer.filter fun e => e.cls != 0).getLast? = some g →
        (y s').storedTag = some (g.tagBell, g.tagAttempt) ∧
        (y s').replayCount = if x.storedTag = some (g.tagBell, g.tagAttempt) then x.replayCount + 1 else 1) ∧
    (x.phase ≠ .active ∨ x.replayBuffer = [] → exec (.replayTimeout ⟨l, ns⟩) s = .next s) ∧
    -- slots: the next one carries o, and a full round of codewords follows it
    (let sends (o : Output) (P : State → Prop) : Prop := ∃ s' t, exec (.flitSlotTransmit l) s = .next s' ∧ s.keeps s' ∧
      s'.out = s.out ++ o :: t ∧ t.length = (if x.txSlot + 1 = 10 * x.width then x.width else 0) ∧ P s'
    let status := sends (.statusFlit l x.statusNow) fun s' => (y s').sinceControl = 0
    (x.phase = .active → 127 ≤ x.sinceControl → status) ∧
    (x.phase = .active → x.sinceControl < 127 →
      (∀ g rest, x.resend = g :: rest → sends (.dataFlit l g.seq g.first g.body) fun s' =>
        (y s').resend = rest ∧ (y s').sinceControl = x.sinceControl + 1) ∧
      (x.resend = [] → 64 * x.width ≤ x.replayBuffer.length → status) ∧
      (x.resend = [] → x.replayBuffer.length < 64 * x.width →
        (∀ g rest, x.txFlits = g :: rest → sends (.dataFlit l x.nextSeq g.first g.body) fun s' =>
          (y s').nextSeq = x.nextSeq + 1 ∧ (y s').txFlits = rest ∧
          (y s').replayBuffer = x.replayBuffer ++ [{ g with seq := x.nextSeq }]) ∧
        (x.txFlits = [] → s.nextPacket l.toNat x = none → status) ∧
        (∀ p, x.txFlits = [] → s.nextPacket l.toNat x = some p →
          let q := if x.marksTag p.tagBell p.tagAttempt then { p with mark := true } else p
          sends (.dataFlit l x.nextSeq true ((packetBits q).extractLsb' 0 480)) fun s' =>
            (y s').nextSeq = x.nextSeq + 1 ∧ (y s').txQueue = x.txQueue.erase p))) ∧
    (∀ lanes, x.phase = .negotiate ∧ lanes = List.range 8 ∨ x.phase = .degrade ∧ lanes = x.txLanes →
      ∃ s' t, exec (.flitSlotTransmit l) s = .next s' ∧ s.keeps s' ∧
        s'.out = s.out ++ .trainFlit l lanes (s.trainNow x) :: t) ∧
    (x.phase ≠ .active → x.phase ≠ .negotiate → x.phase ≠ .degrade → exec (.flitSlotTransmit l) s = .next s)) ∧
    -- codewords
    (∀ (lane : BitVec 3) (message : BitVec 5140) (parity : BitVec 300),
      let trains := s.hasLink l.toNat = true ∧ x.phase ≠ .down ∧ x.phase ≠ .disabled ∧ x.phase ≠ .failed
      let c : Instr := .codewordReceive l lane message parity ns
      (¬trains → exec c s = .next s) ∧
      (trains → ∀ m n, rsDecode (parity ++ message) = some (m, n) → ∃ s', exec c s = .next s' ∧
        (y s').fecCorrected = x.fecCorrected + BitVec.ofNat 32 n ∧ (y s').fecUncorrectable = x.fecUncorrectable ∧
        (x.phase = .active → lane.toNat ∈ x.rxLanes → (∃ j ∈ x.rxLanes, j ≠ lane.toNat ∧ tabGet [] x.lanes j = []) →
          tabGet [] (y s').lanes lane.toNat = tabGet [] x.lanes lane.toNat ++ [some m])) ∧
      (trains → rsDecode (parity ++ message) = none → ∃ s', exec c s = .next s' ∧
        (y s').fecUncorrectable = x.fecUncorrectable + 1 ∧ (y s').fecCorrected = x.fecCorrected ∧
        (7 ≤ (x.badCodewords.filter fun e => e.1 == lane.toNat && ns < e.2 + 1000000).length → bit x.rxOk lane.toNat = true →
          bit (y s').rxOk lane.toNat = false)))

/-- R231, R246 to R252, R254, R294, Table 10-7: the states of a link's training, each with the event that leaves it: light,
lock, the agreed width, the check, a lane's failure and the return from DEGRADE; no other event changes the state. Where
the manual leaves it open, the readings of logs 64, 66, 143 and 144 (the model's). -/
def Obligations.LinkTraining : Prop :=
  ∀ (s : State) (l : BitVec 5) (m : BitVec 8) (f : TrainFlit) (lane : BitVec 3) (r : BitVec 4) (ns : Nat),
    let x := s.link l.toNat
    let h := x.heardTrain f
    let dark := if s.leftOut l.toNat then LinkPhase.disabled else LinkPhase.down
    let becomes (c : Instr) (y : Link) : Prop := exec c s = .next (s.setLink l.toNat y)
    -- it ends in a link state, whatever else follows from it
    let ends (c : Instr) (P : Link → Prop) : Prop := ∃ s', exec c s = .next s' ∧ P (s'.link l.toNat)
    let falls (c : Instr) (reason : BitVec 4) : Prop := ends c fun y => y.phase = dark ∧
      y.reason = (if s.leftOut l.toNat then 7 else reason) ∧ y.replayBuffer = [] ∧ y.rxOk = 0xFF ∧ y.feedOk = 0xFF
    let stays (c : Instr) : Prop := exec c s = .next s
    let fails (reason : BitVec 4) : Prop := ∃ s', exec (.train ⟨l, ns⟩ f) s = .next s' ∧ s.keeps s' ∧
      (s'.link l.toNat).phase = .failed ∧ (s'.link l.toNat).reason = reason ∧ s'.out = s.out ++ [.msix 0 3]
    -- the width that both ends compute (R251)
    let agree (u : Nat × Nat × Nat) : Prop := u.1 ∈ [8, 4, 2, 1] ∧ u.2.1 % u.1 = 0 ∧ u.2.2 % u.1 = 0 ∧
      (∀ i, i < u.1 → bit (h.feedOk &&& h.peerRxOk) (u.2.1 + i) = true ∧ bit (h.rxOk &&& h.peerTxOk) (u.2.2 + i) = true) ∧
      ∀ w ∈ [8, 4, 2, 1], u.1 < w → ¬∃ a b, a % w = 0 ∧ b % w = 0 ∧ a < 8 ∧ b < 8 ∧ ∀ i, i < w →
        bit (h.feedOk &&& h.peerRxOk) (a + i) = true ∧ bit (h.rxOk &&& h.peerTxOk) (b + i) = true
    let wide (y : Link) (u : Nat × Nat × Nat) : Prop :=
      y.width = u.1 ∧ y.txFirst.toNat = u.2.1 ∧ y.rxFirst.toNat = u.2.2
    (∀ u, h.usable = some u → agree u) ∧
    -- DOWN to NEGOTIATE
    (s.hasLink l.toNat = true → s.pw.domainB = true → x.phase = .down ∨ x.phase = .disabled →
      becomes (.linkLightDetect l) { x with phase := .detect }) ∧
    (s.hasLink l.toNat = false ∨ s.pw.domainB = false ∨ (x.phase ≠ .down ∧ x.phase ≠ .disabled) →
      stays (.linkLightDetect l)) ∧
    (x.phase = .detect → becomes (.linkCodewordLock l) { x with phase := .lock } ∧ falls (.linkDetectTimeout l) 2) ∧
    (x.phase ≠ .detect → stays (.linkCodewordLock l) ∧ stays (.linkDetectTimeout l)) ∧
    (x.phase = .lock → ends (.linkLockDone l m) fun y => y.phase = .negotiate ∧ y.rxOk = x.rxOk &&& m) ∧
    (x.phase ≠ .lock → stays (.linkLockDone l m)) ∧
    -- NEGOTIATE
    (x.phase = .negotiate → (∀ v ∈ f.versions, v.1 ≠ 1) → fails 3) ∧
    (x.phase = .negotiate → (∃ v ∈ f.versions, v.1 = 1) → h.usable = none → fails (if x.feedOk = 0 then 6 else 4)) ∧
    (∀ u, x.phase = .negotiate → (∃ v ∈ f.versions, v.1 = 1) → h.usable = some u → ends (.train ⟨l, ns⟩ f) fun y =>
      y.major = 1 ∧ (f.width.toNat = u.1 → y.phase = .check ∧ wide y u) ∧
      (f.width.toNat ≠ u.1 → y.phase = .negotiate)) ∧
    -- CHECK
    (x.phase = .check → m ≠ 0 ∨ x.groupFailed = true →
      ends (.linkCheckDone l m) fun y => y.phase = .negotiate ∧ y.rxOk = x.rxOk &&& ~~~m) ∧
    (x.phase = .check → x.groupFailed = false → ends (.linkCheckDone l 0) fun y => y.phase = .active ∧
      y.width = x.width ∧ y.nextSeq = 0 ∧ y.expected = 0 ∧ y.replayBuffer = [] ∧ y.wasActive = true ∧
      y.retrains = if x.wasActive then x.retrains + 1 else x.retrains) ∧
    (x.phase ≠ .check → stays (.linkCheckDone l m)) ∧
    (x.phase = .check → f.state ≠ 3 ∨ h.groupFailed = false → stays (.train ⟨l, ns⟩ f)) ∧
    (x.phase = .check → f.state = 3 → h.groupFailed = true → (∃ v ∈ f.versions, v.1 = 1) →
      (h.usable = none → fails (if x.feedOk = 0 then 6 else 4)) ∧
      ∀ u, h.usable = some u → ends (.train ⟨l, ns⟩ f) fun y => y.major = 1 ∧
        (f.width.toNat = u.1 → y.phase = .check ∧ wide y u) ∧ (f.width.toNat ≠ u.1 → y.phase = .negotiate)) ∧
    -- DEGRADE
    (x.phase = .degrade → h.usable = none → falls (.train ⟨l, ns⟩ f) (if x.feedOk = 0 then 6 else 4)) ∧
    (∀ u, x.phase = .degrade → h.usable = some u → ends (.train ⟨l, ns⟩ f) fun y =>
      (f.width.toNat ≠ u.1 → y.phase = .degrade) ∧
      (f.width.toNat = u.1 → y.phase = .active ∧ wide y u ∧ y.retrains = x.retrains + 1 ∧
        y.resend.map (·.seq) = x.replayBuffer.map (·.seq) ∧
        (u.1 ≠ x.oldWidth → y.storedTag = some (s.bell.relNumber.setWidth 8, s.bell.relAttempt) ∧ 2 ≤ y.replayCount))) ∧
    (x.phase = .degrade → falls (.degradeTimeout l) 8) ∧
    (x.phase ≠ .degrade → stays (.degradeTimeout l)) ∧
    -- ACTIVE
    (x.phase = .active → f.state ≠ 6 ∨ h.groupFailed = false → stays (.train ⟨l, ns⟩ f)) ∧
    (∀ u, x.phase = .active → f.state = 6 → h.groupFailed = true → h.usable = some u → f.width.toNat = u.1 →
      ends (.train ⟨l, ns⟩ f) fun y => y.phase = .active ∧ wide y u) ∧
    (x.phase = .active → r = 1 ∨ r = 2 ∨ r = 5 → falls (.linkDown l r) r) ∧
    (x.phase ≠ .active ∨ (r ≠ 1 ∧ r ≠ 2 ∧ r ≠ 5) → stays (.linkDown l r)) ∧
    (x.phase = .down ∨ x.phase = .detect ∨ x.phase = .lock ∨ x.phase = .failed ∨ x.phase = .disabled →
      stays (.train ⟨l, ns⟩ f)) ∧
    -- lanes
    (s.hasLink l.toNat = true → x.phase ≠ .down → ∃ s', exec (.laneFail l lane false) s = .next s' ∧ s.keeps s' ∧
      (s'.link l.toNat).rxOk = x.rxOk &&& ~~~(1#8 <<< lane.toNat) ∧
      (s'.link l.toNat).phase =
        (if x.phase = .active ∧ ({ x with rxOk := x.rxOk &&& ~~~(1#8 <<< lane.toNat) } : Link).groupFailed = true
          then .degrade else x.phase)) ∧
    (s.hasLink l.toNat = true → ∃ s', exec (.laneFail l lane true) s = .next s' ∧ s.keeps s' ∧
      ∀ i, i < 4 → let k := 4 * (l.toNat / 4) + i
        let z := s.link k
        ((z.phase = .down ∨ z.phase = .disabled) → s'.link k = z) ∧
        (z.phase ≠ .down → z.phase ≠ .disabled → (s'.link k).feedOk = z.feedOk &&& ~~~(1#8 <<< lane.toNat) ∧
          (s'.link k).phase =
            (if z.phase = .active ∧ ({ z with feedOk := z.feedOk &&& ~~~(1#8 <<< lane.toNat) } : Link).groupFailed = true
              then .degrade else z.phase))) ∧
    (s.hasLink l.toNat = false ∨ x.phase = .down → stays (.laneFail l lane false)) ∧
    (s.hasLink l.toNat = false → stays (.laneFail l lane true))

/-! ## Fabric -/

/-- R245, R256, R259 to R263, R265, R276: a packet that is first in its queue and first at its output is checked and sent on:
along its axis on a link, with virtual channel 1 over a date line, to the I/O die of a later axis on virtual channel 0, or
to the part; a packet of a reserved kind, another epoch, another slice or a discarded destination is dropped and counted;
its flits' credits go back. At an output a bell packet goes first, then the oldest, then the lower input port. Where the
manual leaves it open, the reading of log 151 (the model's). -/
def Obligations.PacketRouting : Prop :=
  ∀ (s : State) (die : BitVec 2) (port : BitVec 4) (p : Packet) (now : Nat),
    let d := die.toNat
    let c : Instr := .packetRoute die port ⟨p, now⟩
    let t := s.arrive die port p now
    let r := s.router d
    let dir := t.directionOf d p
    let way := p.kind ≠ 0 ∧ p.kind ≠ 0xE ∧ p.kind ≠ 0xF
    let fine := way ∧ p.kind ≠ 0xC ∧ (p.cls = 0 ∨ p.epoch = s.rt.epoch) ∧ p.slice = s.rt.slice ∧ (p.kind = 4 ∨ dir ≠ 3)
    -- it is the first of its input port and channel, and none goes before it at its output
    let leaves (e : Queued) : Prop := d < s.axes ∧ t.waitingAt die port p = some e ∧ t.mayLeave e = true
    let drops (n : Router → Word) : Prop := ∀ e, leaves e → ∃ s', exec c s = .next s' ∧ s.keeps s' ∧
      s'.rt.inbox = s.rt.inbox ∧ s'.rt.queue = t.rt.queue.erase e ∧ n (s'.router d) = n r + 1 ∧ s'.bell = s.bell
    -- handed to the part
    let comes : Prop := ∀ e, leaves e → ∃ s', exec c s = .next s' ∧ s.keeps s' ∧ s'.rt.inbox = s.rt.inbox ++ [p] ∧
      s'.rt.queue = t.rt.queue.erase e ∧ (p.mark = false ∨ 8 ≤ port.toNat ∨ s.isMember = false → s'.bell = s.bell) ∧
      (p.mark = true → port.toNat < 8 → s.isMember = true → s.causeOpen = true → bit s'.bell.lessonCauses 4 = true) ∧
      (p.kind ≠ 0xC → (s'.router d).packets = r.packets + 1)
    (s.keeps t ∧ t.rt.now = max s.rt.now now ∧ t.rt.inbox = s.rt.inbox ∧ t.rt.queue = if (s.rt.queue.find? fun e =>
        e.die == die && e.port == port && e.packet == p).isSome then s.rt.queue
      else s.rt.queue ++ [{ die := die, port := port, arrival := max s.rt.now now, packet := p }]) ∧
    (s.axes ≤ d → exec c s = .next s) ∧
    (∀ e, d < s.axes → t.waitingAt die port p = some e → t.mayLeave e = false → exec c s = .next t) ∧
    -- when it leaves
    (∀ e, t.waitingAt die port p = some e → (∀ x ∈ t.rt.queue, x.die = die → x = e) → t.mayLeave e = true) ∧
    (∀ e x o, t.waitingAt die port p = some e → x ∈ t.rt.queue → x.die = die → t.atFront x = true →
      t.outputOf d p = some o → t.outputOf d x.packet = some o →
      (x.packet.cls = 0 ∧ p.cls ≠ 0 ∨ (x.packet.cls = 0 ↔ p.cls = 0) ∧
        (x.arrival < e.arrival ∨ x.arrival = e.arrival ∧ x.port.toNat < port.toNat)) → t.mayLeave e = false) ∧
    -- what becomes of it
    (¬way → drops (·.otherDrops)) ∧
    (way → p.kind ≠ 0xC → p.cls ≠ 0 → p.epoch ≠ s.rt.epoch → drops (·.epochDrops)) ∧
    (way → p.kind ≠ 0xC → p.cls = 0 ∨ p.epoch = s.rt.epoch → p.slice ≠ s.rt.slice → drops (·.sliceDrops)) ∧
    (way → p.kind ≠ 0xC → p.kind ≠ 4 → p.cls = 0 ∨ p.epoch = s.rt.epoch → p.slice = s.rt.slice → dir = 3 →
      drops (·.otherDrops)) ∧
    (p.kind = 0xC ∨ fine ∧ p.kind = 4 → comes) ∧
    (fine → p.kind ≠ 4 → dir = 0 → laterAxis d s.rc.address p.dest = none → comes) ∧
    (∀ k e, fine → p.kind ≠ 4 → dir = 0 → laterAxis d s.rc.address p.dest = some k → leaves e →
      ∃ s', exec c s = .next s' ∧ s.keeps s' ∧ s'.rt.inbox = s.rt.inbox ∧ s'.rt.queue = t.rt.queue.erase e ++
        [{ die := BitVec.ofNat 2 k, port := BitVec.ofNat 4 (8 + d), arrival := t.rt.now, packet := { p with vc := 0 } }]) ∧
    (∀ e, fine → p.kind ≠ 4 → dir = 1 ∨ dir = 2 → leaves e →
      let n := dir = 2
      let l := mappedLink (if p.cls = 0 then r.bellmap else r.linkmap) d n (bundleIndex p.source p.dest)
      let date := 1 < r.extent.toNat ∧ (if n then r.coord = 0 else r.coord.toNat + 1 = r.extent.toNat)
      let dead := (s.link l).phase = .down ∨ (s.link l).phase = .failed ∨ (s.link l).phase = .disabled
      ∃ s', exec c s = .next s' ∧ s.keeps s' ∧ s'.rt.inbox = s.rt.inbox ∧ s'.rt.queue = t.rt.queue.erase e ∧
        (s'.link l).txQueue = (if p.cls ≠ 0 ∧ dead then (s.link l).txQueue
          else (s.link l).txQueue ++ [{ p with vc := if date then 1 else if port.toNat < 8 then p.vc else 0 }])) ∧
    -- credits
    (∀ e, leaves e → port.toNat < 8 → ∃ s', exec c s = .next s' ∧
      let l := 8 * d + port.toNat
      let n := min (flitsOf p) (tabGet 0 (s.link l).rxHeld (channelOf p))
      tabGet 0 (s'.link l).rxHeld (channelOf p) = tabGet 0 (s.link l).rxHeld (channelOf p) - n ∧
      tabGet 0 (s'.link l).freed (channelOf p) = tabGet 0 (s.link l).freed (channelOf p) + BitVec.ofNat 16 n)

/-- R36, R203, R213, R218, R266 to R273, R277: packets that have reached their part: a PUT's piece goes to its region, the
oldest GET_REQ to the slice of its granule or to the tile store, a GET_RESP lands for an outstanding get alone; the get
list and the rings send in their order once the step count has come; a multicast's root keeps no piece; RF adds the local
operand and goes on, or lands at the last part, and one that its ring does not take makes the lesson dirty. Where the
manual leaves it open, the readings of logs 16, 56, 58 and 59 (the model's). -/
def Obligations.FabricPackets : Prop :=
  ∀ (s : State) (p : Packet) (now : Nat) (ring : BitVec 6) (l : BitVec 5),
    let gone := s.rt.inbox.erase p
    let count := s.ts.now.ticks
    let stays (c : Instr) : Prop := exec c s = .next s
    -- a piece of this packet waits for a region, from a producer
    let adds (s' : State) (region : BitVec 11) (part : FabricAddr) (tile : BitVec 10) (engine : Bool) (v : Vec) : Prop :=
      ∃ q, s'.cq.pieces = s.cq.pieces ++ [q] ∧ q.region = region ∧ q.data = v ∧ q.part = part ∧ q.tile = tile ∧
        q.engine = engine ∧ q.firmware = false ∧ q.tagBell = p.tagBell ∧ q.tagAttempt = p.tagAttempt
    -- this part hands a packet to the fabric
    let sends (s' : State) (P : Packet → Prop) : Prop := ∃ q, P q ∧ q.source = s.rc.address ∧ q.slice = s.rt.slice ∧
      (q ∈ s'.rt.inbox ∨ ∃ e, (e ∈ s'.rt.queue ∨ e ∈ s'.rt.kept) ∧ e.packet = q)
    -- puts
    (p.kind = 1 → ∃ s', exec (.putPacket p) s = .next s' ∧ s.keeps s' ∧ s'.rt.inbox = gone ∧
      adds s' ((p.rest.extractLsb' 0 8).setWidth 11) p.source (p.rest.extractLsb' 8 10) (bit p.rest 18) p.payload) ∧
    (p.kind ≠ 1 → stays (.putPacket p)) ∧
    -- gets
    (let k := (p.rest.extractLsb' 0 2).toNat * 2 ^ 35 + 256 * (p.rest.extractLsb' 2 27).toNat
     let oldest := p.kind = 2 ∧ ∀ q, s.rt.inbox.find? (fun q => q.kind == 2) = some q → q = p
     (¬oldest → stays (.getReq p now)) ∧
     (oldest → inLayers (offsetOf k) = true → ∃ s', exec (.getReq p now) s = .next s' ∧ s.keeps s' ∧
        s'.rt.inbox = gone ∧
        let m := sliceOf (offsetOf k)
        (s'.slice (dieOf k) m).reads = (s.slice (dieOf k) m).reads ++
          [{ arrival := now, port := 259 + (lastAxis p.source s.rc.address).getD 0, tile := none, addr := k
             size := .granule, dest := .get p }]) ∧
     (oldest → inLayers (offsetOf k) = false → ∃ s', exec (.getReq p now) s = .next s' ∧ s.keeps s' ∧
        sends s' fun q => q.kind = 3 ∧ q.cls = 2 ∧ q.dest = p.source ∧ q.tagBell = p.tagBell ∧
          q.tagAttempt = p.tagAttempt ∧ q.rest.extractLsb' 0 8 = p.rest.extractLsb' 29 8 ∧
          q.rest.extractLsb' 8 17 = p.rest.extractLsb' 37 17 ∧
          bit q.rest 25 = (s.memOpen k && s.mem.hasUe k 256) ∧
          ∀ n, n < 256 → byteOf q.payload n =
            if s.memOpen k = true ∧ s.mem.hasUe k 256 = false then s.mem.byte (k + n) else 0)) ∧
    (p.kind = 3 →
      let key := ((p.rest.extractLsb' 8 17).toNat, p.rest.extractLsb' 0 8)
      (key ∈ s.rt.outstanding → ∃ s', exec (.getResp p) s = .next s' ∧ s.keeps s' ∧ s'.rt.inbox = gone ∧
        adds s' ((p.rest.extractLsb' 0 8).setWidth 11) p.source 0 true p.payload ∧
        (s.tagNow p.tagBell p.tagAttempt = true → s'.rt.outstanding = s.rt.outstanding.erase key ∧
          (bit p.rest 25 = true → s.causeOpen = true → bit s'.bell.lessonCauses 6 = true)) ∧
        (s.tagNow p.tagBell p.tagAttempt = false → s'.rt.outstanding = s.rt.outstanding)) ∧
      (key ∉ s.rt.outstanding → ∃ s', exec (.getResp p) s = .next s' ∧ s.keeps s' ∧ s'.rt.inbox = gone ∧
        s'.cq.pieces = s.cq.pieces ∧
        let d := (lastAxis p.source s.rc.address).getD 0
        (s'.router d).otherDrops = (s.router d).otherDrops + 1)) ∧
    (p.kind ≠ 3 → stays (.getResp p)) ∧
    (∀ im, s.job.image = some im →
      let b := sectionBytes im 0x07 s.member s.bell.index
      let next := getEntry b s.rt.getIssued (b.length / 16) 0
      (∀ i n q, s.bell.phase = .lesson → s.isMember = true → next = some (i, n) → natAt b (16 * i) 3 ≤ count →
        s.partAt ((natAt b (16 * i + 3) 5 + 256 * n) / 2 ^ 37 % 8) = some q →
        ∃ s', exec (.getReqIssue now) s = .next s' ∧ s.keeps s' ∧ s'.rt.getIssued = s.rt.getIssued + 1 ∧
          s'.rt.nextTag = (s.rt.nextTag + 1) % 131072 ∧
          s'.rt.outstanding = s.rt.outstanding ++ [(s.rt.nextTag, BitVec.ofNat 8 (natAt b (16 * i + 10) 1))] ∧
          sends s' fun x => x.kind = 2 ∧ x.cls = 1 ∧ x.dest = q ∧ x.tagBell = s.bell.number.setWidth 8 ∧
            x.tagAttempt = s.bell.attempt) ∧
      (s.bell.phase ≠ .lesson ∨ s.isMember = false ∨ next = none ∨
        (∃ i n, next = some (i, n) ∧ count < natAt b (16 * i) 3) → stays (.getReqIssue now))) ∧
    (s.job.image = none → stays (.getReqIssue now)) ∧
    -- multicasts
    (p.kind = 4 → p.untagged = true → p.source = s.rc.address → s.rt.drain = true →
      ∃ s', exec (.mcast p) s = .next s' ∧ s.keeps s' ∧ s'.rt.inbox = gone ∧ s'.links = s.links ∧
        s'.rt.kept = s.rt.kept ++ [{ die := 0, port := 15, arrival := s.rt.now, packet := p }]) ∧
    (p.kind = 4 → p.untagged = true → s.mayTransfer = true → (p.source = s.rc.address → s.rt.drain = false) →
      ∃ s', exec (.mcast p) s = .next s' ∧ s.keeps s' ∧ s'.rt.inbox = gone ∧
        (p.source = s.rc.address → s'.cq.pieces = s.cq.pieces) ∧
        (p.source ≠ s.rc.address → adds s' ((p.rest.extractLsb' 0 8).setWidth 11) p.source 0 true p.payload) ∧
        ∀ h ∈ s.treeHops p.source (mcastLow p) (mcastHigh p),
          let k := (s.router h.1).exit h.1 h.2 p
          (s.link k).phase = .active → ∃ q ∈ (s'.link k).txQueue, { q with vc := p.vc } = p) ∧
    (p.kind ≠ 4 ∨ p.untagged = false ∨
      (s.mayTransfer = false ∧ (p.source ≠ s.rc.address ∨ s.rt.drain = false)) → stays (.mcast p)) ∧
    -- rings
    (let d := s.ring ring.toNat
     let run := tabGet .reset s.rt.ringRuns ring.toNat
     let begun := s.bell.phase = .lesson ∧ s.isMember = true ∧ d.role = 1 ∧ d.start ≤ count
     (begun → ∃ s', exec (.ringStart ring now) s = .next s' ∧ s.keeps s' ∧
        (tabGet .reset s'.rt.ringRuns ring.toNat).sentPieces = max run.sentPieces d.count ∧
        (tabGet .reset s'.rt.ringRuns ring.toNat).received = run.received ∧
        ∀ k, run.sentPieces ≤ k → k < d.count → k < 65536 → sends s' fun q => q.kind = 5 ∧ q.cls = 3 ∧
          q.dest = s.neighbour s.rc.address d.axis d.negative ∧ (q.rest.extractLsb' 0 6).toNat = ring.toNat ∧
          (q.rest.extractLsb' 6 16).toNat = k ∧ (s.mem.ue = [] → s.memOpen (d.base + 256 * k) = true →
            ∀ n, n < 256 → byteOf q.payload n = s.mem.byte (d.base + 256 * k + n))) ∧
     (¬begun → stays (.ringStart ring now))) ∧
    (let r := (p.rest.extractLsb' 0 6).toNat
     let k := (p.rest.extractLsb' 6 16).toNat
     let d := s.ring r
     let run (x : State) := tabGet .reset x.rt.ringRuns r
     let live := p.kind = 5 ∧ s.tagNow p.tagBell p.tagAttempt = true ∧ s.bell.phase = .lesson
     let taken := k < d.count ∧ d.op ≠ 3 ∧ (d.op = 2 → (s.link l.toNat).minor ≠ 0)
     let a := d.base + 256 * k
     let local_ (n : Nat) : Word := if s.memOpen a = true then s.mem.vec (a + 4 * n) 4 else 0
     let sum (v : Vec) : Prop := ∀ n, n < 64 →
       lane v n = if s.memOpen a = true ∧ s.mem.hasUe a 256 = true then 0 else ringAdd d.op (lane p.payload n) (local_ n)
     (p.kind ≠ 5 → stays (.rf l p)) ∧
     (p.kind = 5 → ¬live → ∃ s', exec (.rf l p) s = .next s' ∧ s.keeps s' ∧ s'.rt.inbox = gone ∧
        s'.cq.discards = s.cq.discards + 1 ∧ s'.cq.pieces = s.cq.pieces ∧ run s' = run s) ∧
     (live → taken → d.role = 3 → ∃ s' v, exec (.rf l p) s = .next s' ∧ s.keeps s' ∧
        (run s').received = (run s).received + 1 ∧ adds s' (d.region.setWidth 11) s.rc.address 0 true v ∧ sum v) ∧
     (live → taken → d.role = 2 → ∃ s', exec (.rf l p) s = .next s' ∧ s.keeps s' ∧
        (run s').received = (run s).received + 1 ∧ (run s').sentPieces = (run s).sentPieces + 1 ∧
        s'.cq.pieces = s.cq.pieces ∧ sends s' fun q => q.kind = 5 ∧ q.cls = 3 ∧
          q.dest = s.neighbour s.rc.address d.axis d.negative ∧ (q.rest.extractLsb' 6 16).toNat = k ∧ sum q.payload) ∧
     (live → d.role = 0 ∨ ¬taken → ∃ s', exec (.rf l p) s = .next s' ∧ s.keeps s' ∧ s'.cq.pieces = s.cq.pieces ∧
        run s' = run s ∧ (s.causeOpen = true → bit s'.bell.lessonCauses 3 = true)) ∧
     (live → taken → d.role = 1 → exec (.rf l p) s = .next { s with rt := { s.rt with inbox := gone } }) ∧
     (∀ x y, ringAdd 1 x y = x + y))

/-! ## Roll call -/

/-- R275, R277, R284, R291 to R294, R296, R298: what NEIGHBOUR packets leave: the announced neighbour on an ACTIVE link, an
answered echo, and after the eighth echo the hop delay, the least round trip at 0.8 ns a cycle in whole cycles, recorded
unless the link is re-verified; a part that drains keeps what it would send; the windows close; a re-verification that
stays open at the root faults the job with LINK_WIDTH. Where the manual leaves it open, the readings of logs 17 and 62
(the model's). -/
def Obligations.RollCall : Prop :=
  ∀ (s : State) (l : BitVec 5) (n : Neighbour) (arrival departure trip : Nat),
    let k := l.toNat
    let active := (s.link k).phase = .active
    let x := s.rollOf k
    -- with no link under re-verification nothing else follows
    let calm (s' : State) : Prop := (∀ e ∈ s.rc.links, e.2.reverify = false) → s.keeps s' ∧ s'.bell = s.bell
    -- a packet of 64 bytes goes out on the link, or is kept while the part drains
    let sends (c : Instr) (b : List Byte) : Prop := ∃ s' p, exec c s = .next s' ∧ s.keeps s' ∧
      p.kind = 0xC ∧ p.cls = 1 ∧ p.length = 64 ∧ p.source = s.rc.address ∧ toBytes 64 p.payload = b ∧
      (s.rt.drain = false → (s'.link k).txQueue = (s.link k).txQueue ++ [p]) ∧
      (s.rt.drain = true → s'.rt.keptLinks = s.rt.keptLinks ++ [(k, p)] ∧ s'.links = s.links)
    (active → ∃ s', exec (.announce l n) s = .next s' ∧ calm s' ∧ (s'.rollOf k).heard = some n ∧
      (s'.rollOf k).window = false ∧ (s'.rollOf k).recorded = x.recorded) ∧
    (¬active → ∃ s', exec (.announce l n) s = .next s' ∧ s.keeps s' ∧ s'.rc = s.rc) ∧
    (active → sends (.announceRepeat l) (neighbourBytes 1 (s.self k 0 0))) ∧
    (¬active → exec (.announceRepeat l) s = .next s) ∧
    (active → sends (.echoReq l n arrival departure)
      (neighbourBytes 3 (s.self k n.cookie (BitVec.ofNat 32 (departure - arrival))))) ∧
    (¬active → ∃ s', exec (.echoReq l n arrival departure) s = .next s' ∧ s.keeps s' ∧ s'.links = s.links) ∧
    (active → s.rc.plan ≠ none → x.echoes.length < 7 → ∃ s', exec (.echoResp l n trip) s = .next s' ∧ s.keeps s' ∧
      (s'.rollOf k).echoes = x.echoes ++ [trip - n.turnaround.toNat] ∧ (s'.rollOf k).hop = x.hop) ∧
    (active → s.rc.plan ≠ none → x.echoes.length = 7 → ∃ s', exec (.echoResp l n trip) s = .next s' ∧ calm s' ∧
      (s'.rollOf k).hop = (4 * (x.echoes ++ [trip - n.turnaround.toNat]).foldl min (x.echoes.headD 0) + 5) / 10 ∧
      (s'.rollOf k).recorded = if x.reverify then x.recorded else (s'.rollOf k).hop) ∧
    (¬active ∨ s.rc.plan = none ∨ 8 ≤ x.echoes.length → ∃ s', exec (.echoResp l n trip) s = .next s' ∧ s.keeps s' ∧
      s'.rc = s.rc) ∧
    (∃ s', exec .rollCallWindowClose s = .next s' ∧ calm s' ∧ s'.rc.window = false ∧
      ∀ j, (s'.rollOf j).heard = (s.rollOf j).heard) ∧
    (∃ s', exec (.linkWindowClose l) s = .next s' ∧ calm s' ∧ (s'.rollOf k).window = false ∧
      (s'.rollOf k).heard = x.heard) ∧
    (let waits := s.isRoot = true ∧ s.inSession = true ∧ (s.bell.reverify ≠ [] ∨ ∃ e ∈ s.rc.links, e.2.reverify = true)
     (waits → ∃ s', exec .relayReverifyTimeout s = .next s' ∧ s'.bell.phase = .faulted ∧ s'.bell.faultCode = 4 ∧
        (s.job.stop ≠ some true → s'.job.state = .ended) ∧ ∀ a ∈ s.otherParts, .firmware a (.jobEnd 7 4) ∈ s'.out) ∧
     (¬waits → exec .relayReverifyTimeout s = .next s))

/-! ## Distribution -/

/-- R217, R311, R312 to R317, R319 to R322, R334 to R336, Table 13-9: a part takes the frames of the reader that has named
itself: each lands in the store region, or its pieces are ignored without room; the manifest with its refusals in their
order, the blocks of its shard, encrypted again and programmed, and END_OF_PASS, which it answers with the blocks not yet
durable, in messages of at most 30 ranges, a part that refuses with its whole shard; frames that no region takes are
discarded, 257 pieces each. Where the manual leaves it open, the readings of logs 18, 44 and 149 (the model's). -/
def Obligations.DistributionFrames : Prop :=
  ∀ (s : State) (d : Dist) (f : Frame) (reader low high : FabricAddr) (repairing : Bool) (index : BitVec 24)
    (failures : Nat),
    let put (x : State) (d : Dist) : State := { x with nv := { x.nv with dist := some d } }
    let own := s.rc.address
    -- READER_NOTICE
    (let notice : Instr := .readerNotice ⟨reader, low, high⟩ repairing
     let up := s.pw.firmware = true ∧ s.nv.storeFault = false
     let taken := (∃ q, s.nv.dist = some q ∧ s.distributing = true ∧ q.readerPart ≠ reader) ∨ s.storeRegionNow = none
     (up → taken → exec notice s = .next { s with out := s.out ++ [.firmware reader (.refusal own 9)] }) ∧
     (up → ¬taken → ∃ s', exec notice s = .next s' ∧ s.keeps s' ∧
        s'.nv.dist = some (emptyDist reader repairing low high) ∧
        (s.inSession = false → (s'.region 255).kind = .localRegion ∧ (s'.region 255).producerEngine = true ∧
          (s'.region 255).producerPart = reader ∧ (s'.region 255).consumerFirmware = true ∧ 257 ≤ (s'.region 255).capacity)) ∧
     (¬up → exec notice s = .next s)) ∧
    -- a frame's pieces
    (∀ type : Byte, s.inSession = false →
      let r := s.region 255
      let fits := r.kind = .localRegion ∧ r.producerEngine = true ∧ r.producerPart = d.readerPart
      (¬fits → s.landFrame d f type = none) ∧
      (fits → r.overrun = false → 257 ≤ r.roomCommitted → ∃ t, s.landFrame d f type = some (t, true) ∧ t.nv = s.nv ∧
        (∀ u, t.tile u = s.tile u) ∧ (t.region 255).tail = r.tail + 257 ∧ (t.region 255).tailSh = r.tail + 257 ∧
        (t.region 255).overrun = false ∧
        (t.region 255).head = r.head + BitVec.ofNat 32 ((r.tail + 257 - r.head).toNat / r.slotPieces * r.slotPieces) ∧
        ((∀ i, i < 257 → s.memOpen (r.pieceKey (r.tail + BitVec.ofNat 32 i)) = true) → ∀ i v, i < 257 →
          (framePieces13 f type)[i]? = some v → ∀ b, b < 256 →
            t.mem.byte (r.pieceKey (r.tail + BitVec.ofNat 32 i) + b) = byteOf v b)) ∧
      (fits → r.overrun = true → ∃ t, s.landFrame d f type = some (t, false) ∧ t.nv = s.nv ∧ s.sameMemory t ∧
        t.cq.overruns = s.cq.overruns + 257 ∧ (t.region 255).tail = r.tail) ∧
      (fits → r.overrun = false → r.roomCommitted < 257 → r.capacity < 2 ^ 32 → ∃ t, s.landFrame d f type = some (t, false) ∧ t.nv = s.nv ∧
        t.cq.overruns = s.cq.overruns + BitVec.ofNat 32 (257 - r.roomCommitted) ∧
        (t.region 255).tail = r.tail + BitVec.ofNat 32 r.roomCommitted)) ∧
    (let discards (c : Instr) : Prop := exec c s = .next { s with cq := { s.cq with discards := s.cq.discards + 257 } }
     (s.nv.dist = none ∨ s.nv.dist = some d ∧ s.landFrame d f 1 = none → discards (.manifestFrame f)) ∧
     (s.nv.dist = none ∨ s.nv.dist = some d ∧ s.landFrame d f 2 = none → discards (.blockFrame f)) ∧
     (s.nv.dist = none ∨ s.nv.dist = some d ∧ s.landFrame d f 3 = none → discards (.endOfPass f))) ∧
    -- MANIFEST
    (∀ t w, s.nv.dist = some d → s.landFrame d f 1 = some (t, w) →
      let wanted := w = true ∧ d.key = [] ∧ d.refusal = 0 ∧ f.digest = 0
      let d1 := { d with manifest := tabSet [] d.manifest f.index.toNat f.data }
      let s1 := put t d1
      (¬wanted → exec (.manifestFrame f) s = .next t) ∧
      (wanted → d1.assembled = none → exec (.manifestFrame f) s = .next s1) ∧
      (∀ b, wanted → d1.assembled = some b →
        let status := (s1.manifestRefusal d1 b).1
        ∃ s' d2, exec (.manifestFrame f) s = .next s' ∧ t.keeps s' ∧ s'.nv.dist = some d2 ∧
          d2.digest = Config.sha3 (b.take (mfSigned b)) ∧ d2.blocks = natAt b 12 4 ∧ d2.object = fieldAt 32 b 4 ∧
          d2.generation = fieldAt 16 b 8 ∧ d2.adapter = (natAt b 2 1 == 2) ∧ d2.refusal = status ∧
          d2.key = (s1.manifestRefusal d1 b).2.2 ∧ d2.state = (if d.reader then d.state else .pass) ∧
          (status = 0 → s'.out = t.out ∧ (d2.generation.toNat ≤ s1.highest d2.adapter d2.object →
            s'.nv.commits = t.nv.commits) ∧
            (s1.highest d2.adapter d2.object < d2.generation.toNat → t.nv.storeFault = false → t.cutting = false →
              ∃ c, s'.nv.commits = t.nv.commits ++ [c] ∧ c.type = (if d2.adapter then 5 else 6) ∧ c.effect =
                .generations [highWaterOf d2.adapter d2.object d2.generation d2.tenant])) ∧
          (status ≠ 0 → s'.nv.commits = t.nv.commits ∧
            (d.readerPart ≠ own → s'.out = t.out ++ [.firmware d.readerPart (.refusal own status)]) ∧
            (d.readerPart = own → s'.out = t.out ∧
              d2.refusing = if d.refusing.isSome then d.refusing else some (own, status))))) ∧
    (∀ b,
      let entry := mfFind b s.fused.serial
      let e := entry.getD []
      let key := Config.gcmOpen (s.wrapKey (bytesAt e 16 1568) (b.take 64)) zeroNonce [] (bytesAt e 1584 32)
        (bytesAt e 1616 16)
      let adapter := natAt b 2 1 == 2
      let object : Word := fieldAt 32 b 4
      let gen : BitVec 16 := fieldAt 16 b 8
      let g := s.generationRefusal adapter object gen (mfDigest b) d.repair
      let need := (rangeBlocks (mfShard e)).filter fun k =>
        !(s.alreadyDurable adapter object gen (mfDigest b) d.repair (mfShard e)).contains k
      let rows : List (Bool × BitVec 16) :=
        [(!s.owned, 7), (s.storeRegionNow.isNone, 9), (!s.boxInSlice d.boxLow d.boxHigh, 0x24), (!s.mfVerifies b, 0x25),
         (!mfFormed 1 b && !mfFormed 2 b, 0x26), (entry.isNone, 0x27), (key.isNone, 0x28),
         (adapter && (s.keyEntry (BitVec.ofNat 12 (natAt b 10 2))).isNone, 0x29), (g != 0, g), (!s.fits need, 0x23)]
      (s.manifestRefusal d b).1 = ((rows.find? (·.1)).map (·.2)).getD 0 ∧
      (rows.all (fun r => !r.1) = true → key = some (s.manifestRefusal d b).2.2)) ∧
    -- BLOCK
    (∀ t w, s.nv.dist = some d → s.landFrame d f 2 = some (t, w) →
      let mine := w = true ∧ f.digest = short d.digest ∧ d.key ≠ [] ∧ d.refusal = 0 ∧ t.mayProgram = true ∧
        d.state ≠ .incomplete
      let wanted := inRanges d.shard f.index.toNat = true ∧ f.index.toNat ∉ d.durable ∧
        ∀ b ∈ d.programming, b.kind = 3 ∨ b.index ≠ f.index
      let copies := d.reader = true ∧ d.keepCopy = true ∧ t.storeBlock 3 d.object d.generation f.index = none ∧
        t.copyFits d (t.stackOf f.index.toNat) = true
      let sealed (b : StoreBlock) (kind : Byte) (key p : List Byte) : Prop :=
        b.kind = kind ∧ b.object = d.object ∧ b.generation = d.generation ∧ b.index = f.index ∧
          b.stack = t.stackOf f.index.toNat ∧
          b.ciphertext = (Config.gcmSeal key (blockNonce b.kind b.object b.generation b.index)
            (blockHeader13 b.kind b.object b.generation b.index) p).1
      (¬mine → exec (.blockFrame f) s = .next t) ∧
      (mine → ∃ u v, exec (.blockFrame f) s = .next (put t { d with
          pass := (if d.reader then d.pass else BitVec.ofNat 4 f.pass.toNat), programming := d.programming ++ u ++ v }) ∧
        (∀ p key, wanted → d.checkBlock f = some p → t.restKey (kindOf d.adapter) d.tenant = some key →
          ∃ b, u = [b] ∧ sealed b (kindOf d.adapter) key p) ∧
        (¬wanted ∨ d.checkBlock f = none ∨ t.restKey (kindOf d.adapter) d.tenant = none → u = []) ∧
        (¬copies → v = []) ∧
        (d.reader = false → v = []) ∧
        (copies → ∃ b, v = [b] ∧ sealed b 3 t.storageKey f.data))) ∧
    -- BLOCK_PROGRAM_DONE
    (let c : Instr := .blockProgramDone d.object d.generation ⟨index, failures⟩
     let own_ (b : StoreBlock) : Bool := b.object == d.object && b.generation == d.generation && b.index == index
     (s.nv.dist = none ∨ s.nv.dist = some d ∧ (d.programming.filter own_ = [] ∨ s.highPending d = true) →
        exec c s = .next s) ∧
     (s.nv.dist = some d → d.programming.filter own_ ≠ [] → s.highPending d = false → s.cutting = false →
        ∃ s' d2, exec c s = .next s' ∧ s.keeps s' ∧ s'.nv.dist = some d2 ∧
          d2.programming = d.programming.filter (fun b => !own_ b) ∧ (∀ k ∈ d.durable, k ∈ d2.durable) ∧
          ((∃ b ∈ d.programming, own_ b = true ∧ b.kind ≠ 3) →
            (s'.storeBlock (kindOf d.adapter) d.object d.generation index).isSome = true →
            index.toNat ∈ d2.durable ∧ (kindOf d.adapter, d.object, d.generation, index) ∉ s'.nv.lost) ∧
          (∀ b e, failures = 0 → d.programming.filter own_ = [b] → b.kind = kindOf d.adapter →
            s.openBlock b.stack = some e → (s.stack b.stack).free ≠ 0 →
            s.storeBlock b.kind d.object d.generation index = none →
            { b with eraseBlock := e, number := s.freeNumber b.stack } ∈ s'.nv.blocks ∧ index.toNat ∈ d2.durable))) ∧
    -- END_OF_PASS
    (∀ t w, s.nv.dist = some d → s.landFrame d f 3 = some (t, w) →
      let mine := w = true ∧ f.digest = short d.digest ∧ d.state ≠ .incomplete ∧ (d.key ≠ [] ∨ d.refusal ≠ 0)
      -- the answer: messages of at most 30 ranges, all but the last with more to come
      let answers (x : State) (l : List (Nat × Nat)) : Prop := ∃ m : List (List (Nat × Nat)), m.flatten = l ∧
        (∀ g ∈ m, g.length ≤ 30) ∧ m ≠ [] ∧ exec (.endOfPass f) s = .next (x.emitAll (m.zipIdx.map fun g =>
          .storeNak d.readerPart f.pass (decide (g.2 + 1 < m.length)) (short d.digest) g.1))
      let stands := ∃ g ∈ t.nv.generations, g.state = .prepared ∧ g.digest = d.digest
      (¬mine → exec (.endOfPass f) s = .next t) ∧
      (mine → d.readerPart ≠ own → d.refusal ≠ 0 → answers t (d.shard.filter fun r => r.2 != 0)) ∧
      (mine → d.readerPart ≠ own → d.refusal = 0 → d.missing ≠ [] → answers t (runs d.missing)) ∧
      (mine → d.readerPart ≠ own → d.refusal = 0 → d.missing = [] →
        (d.repair = false → t.preparing d = false → answers (t.startCommit (if d.adapter then 5 else 6)
          (.generations [{ adapter := d.adapter, object := d.object, generation := d.generation, state := .prepared
                           tenant := d.tenant, digest := d.digest, share := d.shard }])
          (.sendPrepared d.readerPart (short d.digest))) []) ∧
        (t.preparing d = true → ¬stands → answers t []) ∧
        (stands ∨ d.repair = true ∧ t.preparing d = false →
          answers ((if d.reader then t else put t { d with state := .prepared }).emit
            (.distribution d.readerPart 0x11 (short d.digest))) [])) ∧
      (mine → d.readerPart = own → d.refusal = 0 → d.missing ≠ [] → (runs d.missing).length ≤ 30 →
        exec (.endOfPass f) s = exec (.storeNak own f.pass false (short d.digest) (runs d.missing)) t)) ∧
    (∀ (l : List Nat) k, inRanges (runs l) k = true ↔ k ∈ l)

/-- R314, R316 to R318, R341: the reader's passes: each STORE_NAK is collected; once all have answered, what was asked for
is sent again in ascending order, at most eight passes; END_OF_PASS is repeated three times to the parts that are silent;
a distribution that does not end is told to every part as INCOMPLETE and answered so. Commit is in two phases: the
decision once every part has prepared, COMMIT to every part, each part's record, COMMITTED, and the decision's completion.
Where the manual leaves it open, the readings of logs 73 and 74 (the model's). -/
def Obligations.DistributionCommit : Prop :=
  ∀ (s : State) (d : Dist) (source : FabricAddr) (pass : Byte) (more : Bool) (ranges : List (Nat × Nat)) (g64 : BitVec 64),
    let own := s.rc.address
    let put (d : Dist) : State := { s with nv := { s.nv with dist := some d } }
    let reads := s.nv.dist = some d ∧ d.reader = true
    let writes := s.nv.storeFault = false ∧ s.cutting = false
    -- the distribution x ends without commit
    let ends (c : Instr) (status : BitVec 16) (x : Dist) : Prop := ∃ s', exec c s = .next s' ∧ s.keeps s' ∧
      s'.nv.dist = some { x with state := .incomplete, waits := [], programming := [] } ∧
      (∀ a ∈ x.parts, a ≠ own → .firmware a (.distEnd (short x.digest)) ∈ s'.out) ∧
      (∀ w ∈ x.waits, (s.mbox w.transport.toNat).life = w.life → ∃ r ∈ (s'.mbox w.transport.toNat).responses,
        r.cookie = w.cookie ∧ r.status = status ∧ r.body = x.body) ∧
      (writes → x.key ≠ [] → x.refusal = 0 → x.repair = false → ∃ c, s'.nv.commits = s.nv.commits ++ [c] ∧ c.type = 0x0C ∧
        c.effect = .progress { adapter := x.adapter, object := x.object, generation := x.generation, digest := x.digest
                               durable := x.durable })
    let commits (s' : State) (type : Byte) (effect : Effect) (after : After) : Prop :=
      ∃ k, s'.nv.commits = s.nv.commits ++ [k] ∧ k.type = type ∧ k.effect = effect ∧ k.after = after
    -- the decision is recorded
    let decides (c : Instr) (x : Dist) : Prop := writes → ∃ s', exec c s = .next s' ∧ s.keeps s' ∧
      s'.nv.dist = some { x with state := .committing } ∧ commits s' 6
        (.decisions [{ adapter := x.adapter, complete := false, object := x.object, generation := x.generation
                       parts := x.parts.length, boxLow := x.boxLow, boxHigh := x.boxHigh, digest := x.digest
                       unanswered := x.parts }]) .sendCommits
    -- STORE_NAK
    (let nak : Instr := .storeNak source pass more g64 ranges
     let taken := reads ∧ d.state = .waitNak ∧ g64 = short d.digest ∧ pass.toNat = d.pass.toNat ∧ source ∈ d.parts ∧
       source ∉ d.answered
     let d1 := { d with asked := d.asked ++ ranges, answered := if more then d.answered else d.answered ++ [source] }
     let blocks := (List.range d.blocks).filter (inRanges d1.asked)
     let all := ∀ a ∈ d.parts, a ∈ d1.answered
     let prepared := ∀ a ∈ d.parts, a ∈ d.preparedParts
     (taken → ¬all → exec nak s = .next (put d1)) ∧
     (taken → all → blocks = [] → (¬prepared → exec nak s = .next (put { d1 with state := .prepared })) ∧
        (prepared → decides nak d1)) ∧
     (taken → all → blocks ≠ [] → 8 ≤ d.pass.toNat → ends nak 0x20 d1) ∧
     (taken → all → blocks ≠ [] → d.pass.toNat < 8 → (∀ k ∈ blocks, (s.sourceBlock d k).2 ≠ none) →
        ∃ s' d2 fs g, exec nak s = .next s' ∧ s.keeps s' ∧ s'.nv.dist = some d2 ∧ d2.state = .waitNak ∧
          d2.pass = d.pass + 1 ∧ d2.answered = [] ∧ d2.asked = [] ∧ s'.out = s.out ++ fs ++ [.frame g] ∧ g.objKind = 0 ∧
          g.pass = d2.pass.setWidth 8 ∧ g.sequence = BitVec.ofNat 32 blocks.length ∧ fs.length = blocks.length ∧
          ∀ (j : Nat) k, blocks[j]? = some k → ∃ x : Frame, fs[j]? = some (.frame x) ∧ x.index = BitVec.ofNat 24 k ∧
            x.pass = g.pass ∧ x.sequence = BitVec.ofNat 32 j ∧ (s.sourceBlock d k).2 = some x.data) ∧
     (taken → all → d.pass.toNat < 8 → d.fromCopy = false → (∃ k ∈ blocks, (s.sourceBlock d k).2 = none) →
        ∃ s' d2, exec nak s = .next s' ∧ s'.nv.dist = some d2 ∧ d2.state = .incomplete ∧ d2.waits = []) ∧
     (s.nv.dist = none ∨ s.nv.dist = some d ∧ ¬taken → exec nak s = .next s)) ∧
    -- END_OF_PASS again
    (reads → d.state = .waitNak → d.resends < 3 → exec .endOfPassResend s =
      .next { put { d with resends := d.resends + 1 } with
        out := s.out ++ (d.parts.filter fun a => !d.answered.contains a).map fun a => .frameTo a d.endFrame }) ∧
    (reads → d.state = .waitNak → 3 ≤ d.resends → ends .endOfPassResend 0x20 d) ∧
    (s.nv.dist = none ∨ s.nv.dist = some d ∧ (d.reader = false ∨ d.state ≠ .waitNak) →
      exec .endOfPassResend s = .next s) ∧
    -- PREPARED
    (let c : Instr := .prepared source g64
     let taken := reads ∧ (d.state = .waitNak ∨ d.state = .prepared) ∧ g64 = short d.digest ∧ source ∈ d.parts ∧
       source ∉ d.preparedParts
     let d1 := { d with preparedParts := d.preparedParts ++ [source] }
     let all := ∀ a ∈ d.parts, a ∈ d1.preparedParts
     (taken → ¬all ∨ d.state = .waitNak → exec c s = .next (put d1)) ∧
     (taken → all → d.state = .prepared → decides c d1) ∧
     (s.nv.dist = none ∨ s.nv.dist = some d ∧ ¬taken → exec c s = .next s)) ∧
    -- COMMIT
    (∀ g, s.genByDigest g64 = some g →
      (g.state = .prepared → writes → ∃ s', exec (.commit source g64) s = .next s' ∧ s.keeps s' ∧
        s'.nv.dist = s.nv.dist ∧ commits s' (if g.adapter then 5 else 6)
          (.generations (((s.committedGen g.adapter g.object).map fun o => { o with state := .superseded }).toList ++
            [{ g with state := .committed }])) (.sendCommitted source g64)) ∧
      (g.state ≠ .prepared → source ≠ own → ∃ s', exec (.commit source g64) s = .next s' ∧ s.keeps s' ∧
        s'.out = s.out ++ [.distribution source 0x13 g64] ∧ s'.nv.commits = s.nv.commits ∧
        (s.nv.dist = some d → s'.nv.dist = if d.reader = false ∧ short d.digest = g64 then none else some d))) ∧
    (s.genByDigest g64 = none → exec (.commit source g64) s = .next s) ∧
    ((∀ e ∈ s.nv.decisions, e.complete = false → own ∉ e.unanswered) → exec .commitResend s =
      .next { s with out := s.out ++ (s.nv.decisions.filter fun e => !e.complete).flatMap fun e =>
        e.unanswered.map fun a => .distribution a 0x12 (short e.digest) }) ∧
    (∀ e g, s.nv.decisions = [e] → e.complete = false → own ∈ e.unanswered → s.genByDigest (short e.digest) = some g →
      g.state = .prepared → writes → ∃ s', exec .commitResend s = .next s' ∧ s.keeps s' ∧
        s'.out = s.out ++ (e.unanswered.filter (· != own)).map (fun a => .distribution a 0x12 (short e.digest)) ∧
        ∃ k, s'.nv.commits = s.nv.commits ++ [k] ∧ k.after = .sendCommitted own (short e.digest)) ∧
    -- COMMITTED
    (let found := s.nv.decisions.find? fun e => !e.complete && short e.digest == g64 && e.unanswered.contains source
     let c : Instr := .committed source g64
     (found = none → exec c s = .next s) ∧
     (∀ e, found = some e →
        let rest := e.unanswered.filter fun a => a != source
        let new := { e with unanswered := rest, complete := rest.isEmpty }
        let l := s.nv.decisions.map fun q => if q == e then new else q
        (rest ≠ [] → exec c s = .next { s with nv := { s.nv with decisions := l } }) ∧
        (rest = [] → writes → ∃ s', exec c s = .next s' ∧ s.keeps s' ∧ s'.nv.decisions = l ∧
          commits s' 6 (.decisions [new]) .nothing ∧
          (reads → short d.digest = g64 → s'.nv.dist = none ∧
            ∀ w ∈ d.waits, (s.mbox w.transport.toNat).life = w.life → ∃ r ∈ (s'.mbox w.transport.toNat).responses,
              r.cookie = w.cookie ∧ r.status = 0 ∧ r.body = d.body) ∧
          (s.nv.dist = some d → d.reader = false ∨ short d.digest ≠ g64 → s'.nv.dist = some d))))

/-! ## Host records and transfers -/

/-- R346, R372, R382 to R385, R387, R393, R443, Tables 14-5, 15-10, 15-14: a write of the ingress window lands its bytes and
makes whole records visible in order, none of them left behind; a window that is off, or a slot that is visible already,
takes none. Requests are refused or admitted, appended to and cancelled in the recesses of a term. A service tick copies
the counters with no job in session and writes the mirrors. Where the manual leaves it open, the readings of logs 12 and
52 (the model's). -/
def Obligations.HostRequests : Prop :=
  ∀ (s : State) (fn : BitVec 6) (o : BitVec 20) (bytes : List Byte) (env : Surroundings) (r : Rec) (im : Image),
    let f := fn.toNat
    let x := s.fn f
    let served := s.served f = true
    let ended (s' : State) (id : Word) (reason detail : Byte) : Prop := ∃ e, s'.sv.committed = s.sv.committed ++ [e] ∧
      e.kind = 2 ∧ e.function = fn ∧ e.id = id ∧ e.reason = reason ∧ e.detail = detail
    let discarded (c : Instr) : Prop := ∃ s', exec c s = .next s' ∧ s.keeps s' ∧ (s'.fn f).iqErrors = x.iqErrors + 1 ∧
      s'.sv = s.sv
    (let hits := ∃ i, i < bytes.length ∧ x.slotVisible ((o.toNat + i) / 64 % windowSlots) = true
     s.fnEnabled f = false ∨ hits → ∃ s', exec (.ingressWrite fn o bytes) s = .next s' ∧ s.keeps s' ∧ s'.hi.fns = s.hi.fns ∧
      bit s'.hi.viol f = true ∧ s'.hi.violKind = 4 ∧ s'.hi.violBar2 = true ∧
      s'.hi.violAddr = BitVec.ofNat 32 (0x100000 + o.toNat)) ∧
    (s.fnEnabled f = true → (∀ i, i < bytes.length → x.slotVisible ((o.toNat + i) / 64 % windowSlots) = false) →
      ∃ s' n, exec (.ingressWrite fn o bytes) s = .next s' ∧ s.keeps s' ∧ s'.hi.nextOrder = s.hi.nextOrder + n ∧
        let y := s'.fn f
        (∃ l, y.order = x.order ++ l ∧ l.map (·.2) = (List.range n).map (s.hi.nextOrder + ·)) ∧
        (n = 0 → y.visible = x.visible) ∧ y.consumed = x.consumed ∧
        (∀ k, y.completeAt ((y.head + y.visible) % windowSlots) = some k → windowSlots < y.visible + k) ∧
        (bytes.length ≤ 1048576 → ∀ j b, bytes[j]? = some b →
          y.landed ((o.toNat + j) / 64 % windowSlots) ((o.toNat + j) % 64) = true ∧
          byteOf (tabGet 0 y.slotBytes ((o.toNat + j) / 64 % windowSlots)) ((o.toNat + j) % 64) = b)) ∧
    (s.fnEnabled f = true → x.visible = 0 → x.slotBytes = [] → x.slotMask = [] → x.doneRecords = [] →
      o.toNat = 64 * x.head → ∃ s', exec (.ingressWrite fn o bytes) s = .next s' ∧ s.keeps s' ∧
        (bytes.length = 8 → natAt bytes 0 1 = 3 ∨ natAt bytes 0 1 = 6 → natAt bytes 1 1 = 1 → natAt bytes 2 2 = 8 →
          (s'.fn f).records = [⟨x.head, bytes⟩] ∧ (s'.fn f).order = x.order ++ [(x.head, s.hi.nextOrder)] ∧
          s'.hi.nextOrder = s.hi.nextOrder + 1) ∧
        (bytes.length = 4 → natAt bytes 0 1 = 6 → natAt bytes 1 1 = 1 → natAt bytes 2 2 = 8 →
          (s'.fn f).records = [] ∧ s'.hi.nextOrder = s.hi.nextOrder)) ∧
    (x.firstOf 1 = none ∨ (¬served ∧ s.takes f = false) ∨ (served ∧ s.termRecess = false) ∨
        (served ∧ ∃ k g, g ≠ f ∧ s.firstPending = some (k, g, r)) → exec (.reqOpen fn) s = .next s) ∧
    (x.firstOf 1 = some r → ¬served → s.takes f = true → ∃ s', exec (.reqOpen fn) s = .next s' ∧ s.keeps s' ∧
      ended s' r.id 6 0x80) ∧
    (∀ k r0, x.firstOf 1 = some r0 → served → s.termRecess = true → s.job.image = some im →
      s.firstPending = some (k, f, r) →
      let d := s.refusal im f r.id r.bytes
      (d ≠ 0 → ∃ s', exec (.reqOpen fn) s = .next s' ∧ s.keeps s' ∧ ended s' r.id 6 d) ∧
      (d = 0 → ∀ s1, s.admitOne im f r.id r.bytes = some s1 → exec (.reqOpen fn) s = .next (s1.consume f r) ∧
        s.keeps s1 ∧ s1.sv.admittedCount = s.sv.admittedCount + 1 ∧ ∃ n, (s.ctx n).state = .free ∧
          (s1.ctx n).state = .prefill ∧ (s1.ctx n).requestId = r.id ∧ (s1.ctx n).function = fn ∧
          (s1.ctx n).prompt = openTokens r.bytes ∧ (s1.ctx n).admitted = s.sv.admittedOrder) ∧
      (d = 0 → s.admitOne im f r.id r.bytes = none → exec (.reqOpen fn) s = .next s)) ∧
    (let b := r.bytes
     (paramBad im b = true → s.refusal im f r.id b = 1) ∧
     (paramBad im b = false → s.findCtx f r.id ≠ none → s.refusal im f r.id b = 2) ∧
     (paramBad im b = false → s.findCtx f r.id = none → s.tenantOf ((fieldAt 16 b 12).setWidth 12) f = false →
       s.refusal im f r.id b = 3)) ∧
    (s.takes f = false → exec (.reqAppend fn) s = .next s) ∧
    (s.takes f = true → ¬served → x.firstOf 2 = some r → discarded (.reqAppend fn)) ∧
    (s.takes f = true → served → s.job.image = some im →
      x.records.find? (fun r => r.valid && r.type == 2 && !s.pendingOpen f r.id) = some r →
      let n := (recordLength r.bytes - 12) / 4
      let toks := (List.range n).map fun i => (fieldAt 32 r.bytes (12 + 4 * i) : Word)
      (∀ k c, s.findCtx f r.id = some (k, c) → natAt r.bytes 8 4 = c.prompt.length →
        c.prompt.length + n ≤ c.promptLen → (∀ t ∈ toks, t.toNat < servingVocab im) →
        ∃ s', exec (.reqAppend fn) s = .next s' ∧ s.keeps s' ∧ (s'.ctx k) = { c with prompt := c.prompt ++ toks } ∧
          (s'.fn f).iqErrors = x.iqErrors) ∧
      (s.findCtx f r.id = none → discarded (.reqAppend fn)) ∧
      (∀ k c, s.findCtx f r.id = some (k, c) → natAt r.bytes 8 4 ≠ c.prompt.length ∨ c.promptLen < c.prompt.length + n ∨
        (∃ t ∈ toks, servingVocab im ≤ t.toNat) → discarded (.reqAppend fn))) ∧
    (s.takes f = true → (¬served ∧ x.firstOf 2 = none) ∨ (served ∧
      x.records.find? (fun r => r.valid && r.type == 2 && !s.pendingOpen f r.id) = none) →
      exec (.reqAppend fn) s = .next s) ∧
    (x.firstOf 3 = none ∨ (¬served ∧ s.takes f = false) ∨ (served ∧ s.termRecess = false) →
      exec (.reqCancel fn) s = .next s) ∧
    (x.firstOf 3 = some r → ¬served → s.takes f = true → discarded (.reqCancel fn)) ∧
    (x.firstOf 3 = some r → served → s.termRecess = true →
      (∀ n c, s.findCtx f r.id = some (n, c) → s.ctx n = c → ∃ s', exec (.reqCancel fn) s = .next s' ∧
        s.keeps s' ∧ (s'.ctx n).state = .ended ∧ (s'.ctx n).endReason = 5 ∧ ended s' r.id 5 0) ∧
      (s.findCtx f r.id = none →
        let q := ((s.consume f r).fn f).records.find? fun q => q.valid && q.type == 1 && q.id == r.id
        ∃ s', exec (.reqCancel fn) s = .next s' ∧ s.keeps s' ∧ (q ≠ none → ended s' r.id 5 0) ∧
          (q = none → s'.sv.ignoredCancels = s.sv.ignoredCancels + 1))) ∧
    (s.pw.firmware = false → exec (.serviceTick env) s = .next s) ∧
    (s.pw.firmware = true → s.inSession = false → ∃ s', exec (.serviceTick env) s = .next s' ∧
      s'.dg.cntCopy = s'.dg.cnt ∧ s'.dg.cntStamp = s'.stampIo) ∧
    (s.pw.firmware = true → s.inSession = true → ∃ s', exec (.serviceTick env) s = .next s' ∧
      s'.dg.cntCopy = s.dg.cntCopy ∧ s'.dg.cntStamp = s.dg.cntStamp) ∧
    (x.visible = 0 → x.transfers = [] → x.hold = [] → s.committedOf f = [] → x.egEnable = true →
      x.egThresh = 0 → x.egFence = false → x.iqThreshold = 0 → (s.tickFn env f).out = s.out ++ [.hostWrite fn x.mirrorBase
        (toBytes 4 x.consumed ++ natToBytes 2 (s.credit f) ++ [0, 0] ++ toBytes 4 x.produced ++ [0, 0, 0, 0] ++
          natToBytes 5 (if s.attached f then s.job.committed - 1 else 0) ++ List.replicate 11 0)])

/-- R389 to R392, R426, R427, Tables 15-12 to 15-15: a transfer is refused by the order of its table or lands in memory
or in a region, and its COMPLETE entry follows; a FENCE writes its entry once it stands first; a bundle frame is
written into its set, or discarded and counted. Where the manual leaves it open, the readings of logs 38, 44 and 45
(the model's). -/
def Obligations.HostTransfers : Prop :=
  ∀ (s : State) (fn : BitVec 6) (granules : Nat) (env : Surroundings) (r : Rec) (t : Transfer) (fr : BundleFrame)
    (im : Image),
    let f := fn.toNat
    let x := s.fn f
    let u := transferOf r
    let alone := x.records = [r] ∧ r.valid = true ∧ x.transfers = [] ∧ x.hold = []
    let goes := s.takes f = true ∧ s.mayTransfer = true
    let entry (s' : State) (id value extra : Word) (kind : Byte) (slot : Nat) : Prop := ∃ e, (s'.fn f).hold = [e] ∧
      e.id = id ∧ e.value = value ∧ e.extra = extra ∧ e.kind = kind ∧ e.slot = some slot
    -- DATA_PUT: a new record takes its status; then the oldest running transfer goes on
    (goes → alone → r.type = 4 → ∀ st, s.transferRefusal f u = some st → ∃ s', exec (.dataPut fn ⟨granules, env⟩) s = .next s' ∧
      s.keeps s' ∧ (s'.fn f).transfers = [{ u with status := some st }]) ∧
    (let started := ∀ r ∈ x.records, r.valid = true → r.type = 4 →
       (∃ t ∈ x.transfers, t.slot = r.slot) ∨ ∃ e ∈ x.hold, e.slot = some r.slot
     let running := x.transfers.find? fun t => !t.ttBlock && t.status.isNone
     let left := (t.bytes - t.done) / 256
     let m := min (granules + 1) left
     -- the transfer goes on by j granules, and ends where its bytes are there
     let ends (s' : State) (j : Nat) (st : Option Byte) : Prop := (s'.fn f).transfers = x.transfers.map fun q =>
       if q.slot = t.slot then { q with done := t.done + 256 * j, status := st } else q
     let runs := goes ∧ started ∧ running = some t ∧ (∀ q ∈ x.transfers, q.slot = t.slot → q = t) ∧ t.bytes % 256 = 0 ∧
       t.done % 256 = 0 ∧ t.done ≤ t.bytes
     let data (j : Nat) := hostRead env.host (t.source.toNat + t.done + 256 * j) 256
     let key (j : Nat) := localKey t.dest + t.done + 256 * j
     let c : Instr := .dataPut fn ⟨granules, env⟩
     let gate := s.gateOf (dieOf (key 0)) (halfOf (offsetOf (key 0)))
     (goes → started → running = none → exec c s = .next s) ∧
     (runs → t.mode = 1 → (∀ j, j < m → s.memOpen (key j) = true ∧ data j ≠ none) →
        ∃ s', exec c s = .next s' ∧ (∀ n, s'.tile n = s.tile n) ∧ ends s' m (if left ≤ granules then some 0 else none) ∧
          (∀ a, (a < key 0 ∨ key m ≤ a) → s'.mem.byte a = s.mem.byte a) ∧
          ∀ j b, j < m → data j = some b → ∀ i, i < 256 → s'.mem.byte (key j + i) = b.getD i 0) ∧
     (runs → 0 < left → t.mode = 1 → inLayers (offsetOf (key 0)) = true → gate = 1 →
        ∃ s', exec c s = .next s' ∧ s.keeps s' ∧ ends s' 0 (some 1)) ∧
     (runs → 0 < left → t.mode = 1 → inLayers (offsetOf (key 0)) = false ∨ gate ≠ 1 → data 0 = none →
        ∃ s', exec c s = .next s' ∧ s.keeps s' ∧ ends s' 0 (some 4)) ∧
     (let g := s.region t.region.toNat
      runs → t.mode = 0 → g.capacity < 2 ^ 32 →
        (g.roomCommitted = 0 → 0 < left → ∃ s', exec c s = .next s' ∧ s.keeps s' ∧ ends s' 0 none) ∧
        (m ≤ g.roomCommitted → (∀ j, j < m → data j ≠ none) → ∃ s', exec c s = .next s' ∧ (∀ n, s'.tile n = s.tile n) ∧
          ends s' m (if left ≤ granules then some 0 else none) ∧
          (s'.region t.region.toNat).tail = g.tail + BitVec.ofNat 32 m))) ∧
    (¬goes → exec (.dataPut fn ⟨granules, env⟩) s = .next s) ∧
    -- the refusals of Table 15-13, in their order
    (∀ v : Transfer,
      let rows : List (Bool × Byte) :=
        [(f != 0 && (v.ttBlock || v.mode == 1), 2), (v.malformed || (v.ttBlock && v.mode != 0), 3),
         (v.ttBlock && !s.blockTakes v, 3), (!v.ttBlock && v.mode == 0 && !s.attached f, 5),
         (!v.ttBlock && v.mode == 0 && !s.regionTakes f v, 3), (!v.ttBlock && v.mode != 0 && !s.inSram v, 3)]
      s.transferRefusal f v = (rows.find? (·.1)).map (·.2)) ∧
    (fn = 0 → goes → alone → r.type = 5 →
      (s.blockTakes u = false → ∃ s', exec (.ttBlock env) s = .next s' ∧ s.keeps s' ∧
        (s'.fn 0).transfers = [{ u with status := some 3 }]) ∧
      (s.transferRefusal 0 u = none → s.job.image = some im → hostRead env.host u.source.toNat 256 = none →
        ∃ s', exec (.ttBlock env) s = .next s' ∧ s.keeps s' ∧ (s'.fn 0).transfers = [{ u with status := some 4 }]) ∧
      (∀ h b, s.transferRefusal 0 u = none → s.job.image = some im → hostRead env.host u.source.toNat 256 = some h →
        1 ≤ natAt h 10 1 → natAt h 10 1 ≤ 32 → u.bytes = 256 * (natAt h 10 1 + 1) →
        hostRead env.host (u.source.toNat + 256) (256 * natAt h 10 1) = some b →
        let g := frameOf h (granulesOfBytes b (natAt h 10 1))
        s.frameFits im g = true → ∃ s', exec (.ttBlock env) s = .next s' ∧
          (s.frameMembers g = [] → (s'.fn 0).transfers = [{ u with done := u.bytes, status := some 0 }]) ∧
          (s.frameMembers g ≠ [] → .bundleFrame g ∈ s'.out ∧
            (s'.fn 0).transfers = [{ u with done := u.bytes, awaiting := s.frameMembers g }])) ∧
      (∀ h, s.transferRefusal 0 u = none → s.job.image = some im → hostRead env.host u.source.toNat 256 = some h →
        1 ≤ natAt h 10 1 → natAt h 10 1 ≤ 32 → u.bytes < 256 * (natAt h 10 1 + 1) →
        ∃ s', exec (.ttBlock env) s = .next s' ∧ s'.job.discardedFrames = s.job.discardedFrames + 1 ∧
          (s'.fn 0).transfers = [{ u with done := u.bytes, status := some 0 }])) ∧
    (fn = 0 → ¬goes → exec (.ttBlock env) s = .next s) ∧
    (s.takes f = false → exec (.fence fn) s = .next s) ∧
    (s.takes f = true → alone → r.type = 6 → s.committedOf f = [] →
      (x.egEnable = false → ∃ s' v, exec (.fence fn) s = .next s' ∧ s.keeps s' ∧ entry s' r.id v 0 4 r.slot ∧
        s'.out = s.out) ∧
      (x.egEnable = true → x.used < 2 ^ x.egSize.toNat → ∃ s' e, exec (.fence fn) s = .next s' ∧ s.keeps s' ∧
        e.kind = 4 ∧ e.id = r.id ∧ (s'.fn f).hold = [] ∧ (s'.fn f).produced = x.produced + 1 ∧
        s'.out = s.out ++ [.hostWrite fn (x.ringBase + 32 * (x.produced.toNat % 2 ^ x.egSize.toNat))
          (entryBytes e (x.produced.toNat / 2 ^ x.egSize.toNat % 2 == 0) s.stamp)] ++
          (if x.egSignalled then [] else [.msix fn 1]))) ∧
    (x.egEnable = false → x.hold = [] → s.committedOf f = [] →
      (∀ st, x.transfers = [t] → t.status = some st → fn = 0 ∨ (∀ q ∈ x.records, q.type ≠ 5) →
        ∃ s', exec (.transferComplete fn) s = .next s' ∧ s.keeps s' ∧ (s'.fn f).transfers = [] ∧
          entry s' t.tag (st.setWidth 32) (BitVec.ofNat 32 t.done) 3 t.slot) ∧
      (fn ≠ 0 → s.takes f = true → alone → r.type = 5 → ∃ s', exec (.transferComplete fn) s = .next s' ∧ s.keeps s' ∧
        (s'.fn f).transfers = [] ∧ entry s' r.id 2 0 3 r.slot)) ∧
    (fn = 0 ∨ (∀ q ∈ x.records, q.type ≠ 5) → (∀ q ∈ x.transfers, q.status = none) →
      exec (.transferComplete fn) s = .next s) ∧
    (s.job.image = none ∨ s.job.state ≠ .relocated ∨ s.isMember = false ∨
      (s.job.image = some im ∧ s.frameFits im fr = false) → exec (.bundleFrame fr) s = .next s) ∧
    (s.job.image = some im → s.job.state = .relocated → s.isMember = true → s.frameFits im fr = true →
      (im.sections.findIdx? (fun x => x.kind == 3 && x.id == fr.set && x.member == fr.member) = none ∨ fr.ftype ≠ 1 ∨
        fr.format ≠ 1 ∨ fr.digest ≠ im.digest.setWidth 64 ∨ fr.granules = [] ∨ 32 < fr.granules.length ∨
        (fr.member ≠ 0xFFFF ∧ fr.member.toNat ≠ s.member) →
        ∃ s', exec (.bundleFrame fr) s = .next s' ∧ s'.job.discardedFrames = s.job.discardedFrames + 1 ∧
          s'.job.setGranules = s.job.setGranules ∧
          s'.out = s.out ++ [.firmware s.job.root (.done s.rc.address 0 0 [])]) ∧
      (∀ i x n, im.sections.findIdx? (fun x => x.kind == 3 && x.id == fr.set && x.member == fr.member) = some i →
        im.sections[i]? = some x → fr.ftype = 1 → fr.format = 1 → fr.digest = im.digest.setWidth 64 →
        1 ≤ fr.granules.length → fr.granules.length ≤ 32 → fr.first.toNat + fr.granules.length ≤ setGranules x →
        fr.member = 0xFFFF ∨ fr.member.toNat = s.member → n < setGranules x →
        (n < fr.first.toNat ∨ fr.first.toNat + fr.granules.length ≤ n) → (fr.set.toNat, n) ∉ s.job.setGranules →
        ∃ s', exec (.bundleFrame fr) s = .next s' ∧ s'.job.discardedFrames = s.job.discardedFrames ∧
          (∀ j, j < fr.granules.length → (fr.set.toNat, fr.first.toNat + j) ∈ s'.job.setGranules) ∧
          s'.out = s.out ++ [.firmware s.job.root (.done s.rc.address 0 0 [])]))

/-! ## The mailbox -/

/-- R398 to R401, R404, R405, R407, R408: bytes that land in mailbox-in become a request once all of it is there, are
discarded on a bad length, or are a violation while the buffer is not free; I3C carries whole messages. The oldest
response is written to mailbox-out, with its vector, while that is free, or onto I3C; HELLO opens a session. Where the
manual leaves it open, the readings of logs 88, 95 and 96 (the model's). -/
def Obligations.MailboxTransport : Prop :=
  ∀ (s : State) (tr : BitVec 7) (off : BitVec 12) (bytes : List Byte) (r : MailRequest) (p : MailResponse)
    (t : List MailRequest) (l : List MailResponse) (w : Waiting) (st : BitVec 16),
    let k := tr.toNat
    let x := s.mbox k
    let n := natAt bytes 8 4
    let queue (s' : State) := (s'.mbox k).queue
    (k < 64 → x.inFree = false → ∃ s', exec (.mailboxRequest tr off bytes) s = .next s' ∧ s.keeps s' ∧ s'.mb = s.mb ∧
      bit s'.hi.viol k = true ∧ s'.hi.violKind = 4 ∧ s'.hi.violAddr = BitVec.ofNat 32 (0x10000 + off.toNat)) ∧
    (k < 64 → x.inFree = true → s.hi.ready = true →
      let y := x.land off.toNat bytes
      let m := natAt (y.bytes 12) 8 4
      let c : Instr := .mailboxRequest tr off bytes
      (∀ j b, bytes[j]? = some b → tabGet 0 y.inBytes (off.toNat + j) = b ∧ tabGet false y.inMask (off.toNat + j) = true) ∧
      (∀ i, (i < off.toNat ∨ off.toNat + bytes.length ≤ i) → tabGet 0 y.inBytes i = tabGet 0 x.inBytes i ∧
        tabGet false y.inMask i = tabGet false x.inMask i) ∧
      (y.landed 12 = false ∨ (lengthAllowed m = true ∧ y.landed m = false) → exec c s = .next (s.setMbox k y)) ∧
      (y.landed 12 = true → lengthAllowed m = true → y.landed m = true →
        let q := requestOf (y.bytes m)
        ∃ s', exec c s = .next s' ∧ s.keeps s' ∧ (s'.mbox k).inMask = [] ∧
          (s.nv.storeFault = false ∨ q.opcode = 2 ∨ q.opcode = 0x70 →
            queue s' = x.queue ++ [q] ∧ (s'.mbox k).inFree = decide (x.held + 1 < 4)) ∧
          (s.nv.storeFault = true → q.opcode ≠ 2 → q.opcode ≠ 0x70 →
            queue s' = x.queue ∧ (s'.mbox k).discards = x.discards + 1)) ∧
      (y.landed 12 = true → lengthAllowed m = false → ∃ s', exec c s = .next s' ∧ s.keeps s' ∧ queue s' = x.queue ∧
        (s'.mbox k).discards = x.discards + 1 ∧ (s'.mbox k).inMask = [])) ∧
    (k < 64 → x.inFree = true → s.hi.ready = false → exec (.mailboxRequest tr off bytes) s = .next s) ∧
    (k = 64 → s.hi.ready = true → s.rc.dynamic ≠ none → x.held < 4 →
      ∃ s', exec (.mailboxRequest tr off bytes) s = .next s' ∧ s.keeps s' ∧
        (bytes.length = n → lengthAllowed n = true → s.nv.storeFault = false → queue s' = x.queue ++ [requestOf bytes]) ∧
        (bytes.length ≠ n ∨ lengthAllowed n = false → queue s' = x.queue ∧ (s'.mbox k).discards = x.discards + 1)) ∧
    (64 < k ∨ k = 64 ∧ (s.hi.ready = false ∨ s.rc.dynamic = none ∨ 4 ≤ x.held) →
      exec (.mailboxRequest tr off bytes) s = .next s) ∧
    ((∀ q ∈ x.queue.head?, q.opcode.toNat ∈ opcodes ∨ s.mailTurn k = false) → x.responses = p :: l →
      (k < 64 → x.outValid = false → ∃ s', exec (.mailboxResponse tr) s = .next s' ∧ s.keeps s' ∧
        (s'.mbox k).responses = l ∧ (s'.mbox k).outValid = true ∧ (s'.mbox k).outBytes = responseBytes p ∧
        s'.out = s.out ++ [.msix (tr.setWidth 6) 0]) ∧
      (k < 64 → x.outValid = true → exec (.mailboxResponse tr) s = .next s) ∧
      (k = 64 → ∃ s', exec (.mailboxResponse tr) s = .next s' ∧ s.keeps s' ∧ (s'.mbox k).responses = l ∧
        s'.out = s.out ++ [.i3cResponse (vendorPrefix ++ responseBytes p)])) ∧
    ((∀ q ∈ x.queue.head?, q.opcode.toNat ∈ opcodes ∨ s.mailTurn k = false) → x.responses = [] → exec (.mailboxResponse tr) s = .next s) ∧
    (x.queue = r :: t → r.opcode.toNat ∉ opcodes → s.mailTurn k = true → s.nv.storeFault = false → x.session = true →
      r.major = x.major → r.minor = x.minor → r.sequence = x.expected → x.responses = [] → x.outValid = true → k < 64 →
      s.says (.mailboxResponse tr) (s.startRequest k x t true) (waitingOf k x r) 4 []) ∧
    (k < 64 → exec (.mbOutRelease tr) s = .next (s.setMbox k { x with outValid := false })) ∧
    (64 ≤ k → exec (.mbOutRelease tr) s = .next s) ∧
    (x.queue = r :: t → r.opcode = 1 → s.mailTurn k = true → k ≤ 64 →
      let s1 := s.startRequest k x t false
      let count := natAt r.body 0 1
      (r.body.length < 4 + 2 * count → s.says (.hello tr) s1 (waitingOf k x r) 5 []) ∧
      (4 + 2 * count ≤ r.body.length → count = 0 ∨ 6 < count → s.says (.hello tr) s1 (waitingOf k x r) 0xB []) ∧
      (4 + 2 * count ≤ r.body.length → 1 ≤ count → count ≤ 6 → (∀ v ∈ helloPairs r.body, v.1 ≠ 1) → s.says (.hello tr) s1 (waitingOf k x r) 1 []) ∧
      (∀ v, 4 + 2 * count ≤ r.body.length → 1 ≤ count → count ≤ 6 → v ∈ helloPairs r.body → v.1 = 1 → ∃ s', exec (.hello tr) s = .next s' ∧ s.keeps s' ∧
        (s'.mbox k).session = true ∧ (s'.mbox k).expected = r.sequence + 1 ∧ (s'.mbox k).major = 1 ∧
        (s'.mbox k).minor = 0 ∧ (s'.mbox k).responses = x.responses ++
          [{ opcode := 1, sequence := r.sequence, cookie := r.cookie, status := 0, major := 1, minor := 0
             body := [1, 0, 0, 0] ++ toBytes 4 s.runningSlot.version ++ natToBytes 2 3840 ++ [4, 0, 0, 0, 0, 0] }])) ∧
    (s.mailTurn k = false ∨ (∀ q ∈ x.queue.head?, q.opcode ≠ 1) → exec (.hello tr) s = .next s) ∧
    (k = w.transport.toNat →
      (x.life = w.life → ((s.answer w st bytes).mbox k).running = x.running - 1 ∧
        ((s.answer w st bytes).mbox k).responses = x.responses ++
          [{ opcode := w.opcode, sequence := w.sequence, cookie := w.cookie, status := st
             major := if x.session then x.major else 1, minor := if x.session then x.minor else 0, body := bytes }]) ∧
      (x.life ≠ w.life → s.answer w st bytes = s))

/-- R402, R403, R411, Tables 16-5 and 16-6: a command starts in its transport's turn, and the first of the checks that
fails answers it: the session's version, the session, the sequence number, the issuer, the length, a trial image. Where
the manual leaves it open, the reading of log 94 (the model's). -/
def Obligations.MailboxChecks : Prop :=
  ∀ (s : State) (tr : BitVec 7) (host : HostMem) (r : MailRequest) (t : List MailRequest)
    (row : Nat × Instr × Bool × Bool × Nat × Bool),
    row ∈ ([(0x02, .identify tr, true, true, 0, false), (0x03, .caps tr, true, true, 0, false),
      (0x10, .jobCreate tr, false, false, 24, false), (0x11, .sliceAssign tr, false, false, 528, true),
      (0x12, .ttLoad tr host, false, false, 16, false), (0x13, .ttRelocate tr, false, false, 2, false),
      (0x14, .ttPatch tr, false, false, 8, false), (0x15, .jobStart tr, false, false, 8, false),
      (0x16, .jobStop tr, false, false, 3, false), (0x20, .weightsProgram tr host, false, false, 32, true),
      (0x21, .weightsRestore tr, false, false, 2, true), (0x22, .adapterStore tr host, false, false, 32, true),
      (0x23, .adapterBind tr, false, false, 10, false), (0x24, .keyringSet tr host, false, false, 12, true),
      (0x30, .powerStep tr, false, false, 1, false), (0x31, .powerLimit tr, false, true, 1, false),
      (0x32, .bankPower tr, false, false, 3, false), (0x40, .routeDrain tr, false, false, 2, false),
      (0x41, .routeSet tr, false, false, 80, true), (0x50, .countersEnable tr, true, false, 148, false),
      (0x51, .countersRead tr, true, true, 4, false), (0x60, .debugAuth tr host, false, false, 12, true),
      (0x61, .debugProbe tr, false, false, 32, false), (0x62, .debugBreak tr, false, false, 16, false),
      (0x63, .lockstep tr, false, false, 6, false), (0x70, .attest tr, true, true, 72, false),
      (0x71, .updateStatus tr, false, true, 0, false), (0x72, .padlock tr host, false, false, 12, true)] :
        List (Nat × Instr × Bool × Bool × Nat × Bool)) →
    let k := tr.toNat
    let x := s.mbox k
    let (op, c, vf, i3c, length, persistent) := row
    x.queue = r :: t →
    (r.opcode.toNat ≠ op ∨ s.mailTurn k = false → exec c s = .next s) ∧
    (r.opcode.toNat = op → s.mailTurn k = true → s.nv.storeFault = false →
      let ends (st : BitVec 16) (counted : Bool) : Prop := s.says c (s.startRequest k x t counted) (waitingOf k x r) st []
      let version := r.major = x.major ∧ r.minor = x.minor
      (x.session = true → ¬version → ends 1 false) ∧ (x.session = false → ends 3 false) ∧
      (x.session = true → version → r.sequence ≠ x.expected → ends 2 false) ∧
      (x.session = true → version → r.sequence = x.expected →
        (k ≠ 0 → (k < 64 → vf = false) → (k = 64 → i3c = false) → ends 6 true) ∧
        (k = 0 → r.body.length < length → ends 5 true) ∧
        (k = 0 → length ≤ r.body.length → persistent = true → s.sec.trial = true → ends 0xE true)))

/-- R207, R208, R402, R411, R414 to R416, R441 to R444, R449, R451, R458 to R460, R480, R484, Tables 14-10, 16-6, 18-3
and 19-4: the commands that report on the part, and those of power, half-layers, counters and debug. Where the manual
leaves it open, the readings of logs 83, 92 and 107 (the model's). -/
def Obligations.ReportCommands : Prop :=
  ∀ (s s1 : State) (tr : BitVec 7) (b : List Byte) (w : Waiting),
    let k := tr.toNat
    let byte (i : Nat) := natAt b i 1
    (k ≤ 64 → s.accepts k 0x02 b w s1 → s.says (.identify tr) s1 w 0 s.identifyBody ∧
      natAt s.identifyBody 0 2 = 0x9400 ∧ fieldAt 64 s.identifyBody 4 = s.fused.serial ∧
      fieldAt 16 s.identifyBody 16 = s.rc.address ∧ fieldAt 8 s.identifyBody 22 = jobCode s.job.state) ∧
    (k ≤ 64 → s.accepts k 0x03 b w s1 → s.says (.caps tr) s1 w 0 s.capsTable ∧ s.capsTable.length = 512 ∧
      natAt s.capsTable 2 2 = 512 ∧ bytesAt s.capsTable 128 128 = toBytes 128 s.usableMap) ∧
    (k = 0 ∨ k = 64 → s.accepts k 0x71 b w s1 → s.says (.updateStatus tr) { s1 with free := s.free + 1 } w 0
      ([s.sec.running.setWidth 8, 0, 0, 0] ++ toBytes 4 s.sec.slotA.version ++ toBytes 4 s.sec.slotB.version ++
        [slotCode s.sec.slotA.state, slotCode s.sec.slotB.state] ++ natToBytes 1 (if s.sec.slotA.state = .trial then
          s.sec.slotA.failedTrials else if s.sec.slotB.state = .trial then s.sec.slotB.failedTrials else 0) ++ [0] ++
        toBytes 8 s.sec.antiRollback)) ∧
    (s.accepts 0 0x70 b w s1 → 72 ≤ b.length →
      let nonce := bytesAt b 0 64
      let tenant : BitVec 16 := fieldAt 16 b 64
      (natAt b 68 4 = 0 → ∃ r, bytesAt r 64 64 = nonce ∧ fieldAt 64 r 8 = s.fused.serial ∧ natAt r 4 4 = r.length % 2 ^ 32 ∧
        s.says (.attest 0) (s1.setMbox 0 { s1.mbox 0 with report := some (nonce, tenant, r) }) w 0
          (natToBytes 4 r.length ++ natToBytes 4 0 ++ r.take 3800)) ∧
      (natAt b 68 4 ≠ 0 → (∀ r, (s.mbox 0).report = some (nonce, tenant, r) → s.says (.attest 0) s1 w 0
          (natToBytes 4 r.length ++ natToBytes 4 (natAt b 68 4) ++ (r.drop (natAt b 68 4)).take 3800)) ∧
        ((s.mbox 0).report = none → s.says (.attest 0) s1 w 8 []))) ∧
    (s.accepts 0 0x30 b w s1 → 1 ≤ b.length → s.pw.stepWaits = [] →
      (s.gradeStep < byte 0 → s.says (.powerStep 0) s1 w 0x10 []) ∧
      (byte 0 ≤ s.gradeStep → s.inSession = true → s.isMember = true → exec (.powerStep 0) s =
        .next { s1 with pw := { s.pw with requested := BitVec.ofNat 3 (byte 0), stepWaits := [w] } }) ∧
      (byte 0 ≤ s.gradeStep → s.inSession = false → ∃ s2, s.says (.powerStep 0) s2 w 0 [s2.pw.step.setWidth 8] ∧
        s2.pw.requested = BitVec.ofNat 3 (byte 0) ∧ s2.pw.step = s2.stepWanted none ∧ s1.keeps s2)) ∧
    (k = 0 ∨ k = 64 → s.accepts k 0x31 b w s1 → 1 ≤ b.length → s.pw.limitWaits = [] →
      (3 < byte 0 → s.says (.powerLimit tr) s1 w 0xB []) ∧
      (byte 0 ≤ 3 → s.inSession = true → s.isMember = true → byte 0 < s.pw.limit.toNat → exec (.powerLimit tr) s =
        .next { s1 with pw := { s.pw with nextLimit := some (BitVec.ofNat 2 (byte 0)), limitWaits := [w] } }) ∧
      (byte 0 ≤ 3 → s.inSession = false → ∃ s' r, exec (.powerLimit tr) s = .next s' ∧ s1.keeps s' ∧
        s'.pw.limit = BitVec.ofNat 2 (byte 0) ∧ s'.pw.step = s'.stepWanted none ∧ s'.pw.nextLimit = none ∧
        (s'.mbox k).responses = (s.mbox k).responses ++ [r] ∧ r.status = 0 ∧ r.body = [BitVec.ofNat 8 (byte 0)])) ∧
    (s.accepts 0 0x32 b w s1 → 3 ≤ b.length →
      let bad := 3 < byte 0 ∨ 2 * layersOf s.fused.variant ≤ byte 1 ∨ 1 < byte 2
      let g := s.gateOf (byte 0) (byte 1)
      let r : GateRequest := { die := BitVec.ofNat 2 (byte 0), half := BitVec.ofNat 3 (byte 1), up := byte 2 == 1 }
      (bad → s.says (.bankPower 0) s1 w 0xB []) ∧
      (¬bad → byte 2 = 0 → s.halfInUse (byte 0) (byte 1) = true → s.says (.bankPower 0) s1 w 0x11 []) ∧
      (¬bad → byte 2 = 1 → g = 0 → s.says (.bankPower 0) s1 w 0 [0]) ∧
      (¬bad → byte 2 = 1 → g = 2 → ∃ s', exec (.bankPower 0) s = .next s' ∧ s1.keeps s' ∧
        s'.mem.gateWaits = s.mem.gateWaits ++ [(r, w)] ∧ s'.gateOf (byte 0) (byte 1) = 3) ∧
      (¬bad → byte 2 = 0 → g = 0 → s.inSession = false → ∃ s', exec (.bankPower 0) s = .next s' ∧ s1.keeps s' ∧
        s'.mem.gateWaits = s.mem.gateWaits ++ [(r, w)] ∧ s'.gateOf (byte 0) (byte 1) = 1) ∧
      (¬bad → byte 2 = 0 → g = 0 → s.inSession = true → s.halfInUse (byte 0) (byte 1) = false →
        ∃ s', exec (.bankPower 0) s = .next s' ∧ s1.keeps s' ∧ s'.mem.gateRequests = s.mem.gateRequests ++ [r] ∧
          s'.gateOf (byte 0) (byte 1) = 0)) ∧
    (s.accepts 0 0x50 b w s1 → 148 ≤ b.length →
      let listed := ∀ i, i < 8 → selectorListed (byte 0) (natAt b (4 + 2 * i) 2) = true
      let bad := 3 < byte 0 ∨ 1 < byte 1 ∨ (byte 1 = 1 ∧ ¬listed)
      (bad → s.says (.countersEnable 0) s1 w 0xB []) ∧
      (¬bad → s.inSession = true → exec (.countersEnable 0) s =
        .next { s1 with dg := { s.dg with cntWaits := s.dg.cntWaits ++ [(w, b)] } }) ∧
      (¬bad → s.inSession = false → ∃ s2, s.says (.countersEnable 0) s2 w 0 [] ∧ s1.keeps s2 ∧
        bit s2.dg.cntOn (byte 0) = (byte 1 == 1) ∧ (∀ n, n < 4 → n ≠ byte 0 → bit s2.dg.cntOn n = bit s.dg.cntOn n) ∧
        (byte 1 = 1 → ∀ i, i < 8 → tabGet 0 s2.dg.cntSel (8 * byte 0 + i) = fieldAt 16 b (4 + 2 * i)))) ∧
    (s.accepts 0 0x51 b w s1 → 4 ≤ b.length →
      let n := natAt b 2 2
      let counts (count : Nat → BitVec 64) := toBytes 8 s.dg.cntStamp ++ (List.range 8).flatMap fun i => toBytes 8 (count i)
      (byte 0 = 0 → s.says (.countersRead 0) s1 w 0 s.flagBody) ∧
      (byte 0 = 1 → s.says (.countersRead 0) s1 w 0 (s.registrarBody 0)) ∧
      (byte 0 = 2 → n < 1024 → s.says (.countersRead 0) s1 w 0 (counts fun i => tabGet 0 (s.tile n).totals i)) ∧
      (byte 0 = 3 → n < 1024 → 256 ≤ n → n % 256 < s.instances (n / 256) → s.says (.countersRead 0) s1 w 0
        (counts fun i => tabGet 0 s.dg.cntCopy (256 * (64 * (n / 256) + n % 256) + i))) ∧
      (4 ≤ byte 0 ∨ (2 ≤ byte 0 ∧ 1024 ≤ n) → s.says (.countersRead 0) s1 w 0xB [])) ∧
    (s.accepts 0 0x61 b w s1 → 32 ≤ b.length →
      (s.dg.debugMode = false → s.says (.debugProbe 0) s1 w 8 []) ∧
      (s.dg.debugMode = true → ∃ t, s.says (.debugProbe 0) { s1 with dg := { s.dg with probes := t } } w 0 [] ∧
        ∀ i, i < 16 → tabGet 0 t i = fieldAt 16 b (2 * i))) ∧
    (s.accepts 0 0x62 b w s1 → 16 ≤ b.length →
      let rest := s.dg.breakpoints.filter fun x => x.kind.toNat != byte 1
      let bad := 1 < byte 0 ∨ 2 < byte 1 ∨ (byte 0 = 1 ∧ 1023 < natAt b 2 2 ∧ natAt b 2 2 ≠ 0xFFFF)
      (s.dg.debugMode = false → s.says (.debugBreak 0) s1 w 8 []) ∧
      (s.dg.debugMode = true → bad → s.says (.debugBreak 0) s1 w 0xB []) ∧
      (s.dg.debugMode = true → ¬bad → byte 0 = 1 → s.says (.debugBreak 0) { s1 with dg := { s.dg with breakpoints := rest ++
        [{ kind := BitVec.ofNat 2 (byte 1), tile := fieldAt 16 b 2, value := fieldAt 64 b 8 }] } } w 0 []) ∧
      (s.dg.debugMode = true → ¬bad → byte 0 = 0 → ∃ s2, s.says (.debugBreak 0) s2 w 0 [] ∧ s2.dg.breakpoints = rest ∧
        (s.brokenBy (byte 1) = true → s2.bell.withheld = false) ∧ (s.brokenBy (byte 1) = false → s2.bell = s.bell)))

/-- R278 to R282, R324, R329, R410, R415, R421 to R428, R437, R439, Tables 16-6 and 17-4: the job commands at the root of a
job of one part: each in the state of the job that it needs, NO_JOB and STATE otherwise, and what each leaves. Commands that
change a persistent record are answered by its commit, which the clauses name; an input failure starts none. A part of more
than one waits for the others' answers. Where the manual leaves it open, the readings of logs 87, 89, 98 and 99 (the
model's). -/
def Obligations.JobCommands : Prop :=
  ∀ (s s1 : State) (b : List Byte) (w : Waiting) (host : HostMem) (im : Image),
    let j := s.job
    let named := j.state ≠ .none ∧ fieldAt 16 b 0 = j.id
    let solo := j.memberList = [s.rc.address] ∧ s.otherParts = [] ∧ j.waits = []
    let at1 (op : BitVec 16) := (s1.addWait w).beginOrder op j.memberList
    let needs (c : Instr) (state : JobState) : Prop := (¬named → s.says c s1 w 0xA []) ∧
      (named → j.state ≠ state → s.says c s1 w 8 [])
    -- one commit follows those that wait
    let commits (s' : State) (type : Byte) (a : After) : Prop :=
      ∃ c, s'.nv.commits = s.nv.commits ++ [c] ∧ c.type = type ∧ c.after = a
    (s.accepts 0 0x10 b w s1 → 24 ≤ b.length →
      (j.state ≠ .none ∨ s.rt.slice ≠ 0 → s.says (.jobCreate 0) s1 w 9 []) ∧
      (j.state = .none → s.rt.slice = 0 → 15 < natAt b 8 1 → s.says (.jobCreate 0) s1 w 0xB []) ∧
      (j.state = .none → s.rt.slice = 0 → natAt b 8 1 ≤ 15 → ∃ s2, s.says (.jobCreate 0) s2 w 0 (toBytes 2 s2.job.id) ∧
        s2.job.state = .created ∧ s2.job.seed = fieldAt 64 b 0 ∧ s2.job.attach = fieldAt 64 b 16 ∧
        s2.bell.replayLimit = BitVec.ofNat 4 (natAt b 8 1) ∧ s2.bell.phase = .idle ∧ s2.bell.number = 0 ∧
        s2.bell.recessMin.toNat = min 0xFFFFF (max 2048 (natAt b 12 4)) ∧ s2.dg.cntOn = 0 ∧ s2.dg.digestRun = 0 ∧
        ∀ n, n < 256 → s2.region n = .reset)) ∧
    (s.accepts 0 0x11 b w s1 → 528 ≤ b.length → needs (.sliceAssign 0) .created ∧
      (named → j.state = .created →
        let slice := natAt b 2 1
        let a := s.rc.address
        let members := boxMembers b (cornerOf b 4) (cornerOf b 8)
        (slice = 0 → s.says (.sliceAssign 0) s1 w 0xB []) ∧
        (slice ≠ 0 → s.shapeOk b = false → s.says (.sliceAssign 0) s1 w 0x14 []) ∧
        (slice ≠ 0 → s.shapeOk b = true → rootOf (cornerOf b 4) (cornerOf b 8) members ≠ a →
          s.says (.sliceAssign 0) s1 w 0xF []) ∧
        (slice ≠ 0 → s.shapeOk b = true → cornerOf b 4 = a → cornerOf b 8 = a → members = 1 → j.waits = [] →
          (s.rt.slice ≠ 0 → ∃ s2, s.says (.sliceAssign 0) s2 w 0x13 [] ∧ s2.job.state = .created ∧ s2.job.members = 0 ∧
            s2.rt = s.rt) ∧
          (s.rt.slice = 0 → s.rc.plan = none → ∃ s2, s.says (.sliceAssign 0) s2 w 0x15 [] ∧ s2.job.state = .created) ∧
          (s.rt.slice = 0 → s.rc.plan ≠ none → s.cutting = false → ∃ s', exec (.sliceAssign 0) s = .next s' ∧
            s'.job.state = .assigned ∧ s'.job.root = a ∧ s'.job.waits = [w] ∧ s'.rt.slice.toNat = slice ∧
            s'.rt.role = 1 ∧ s'.bell.limitUs = 10000 ∧ commits s' 2 (.reply 0x11 [0, 0]) ∧
            -- the commit's completion answers the command
            ∀ t : State, t.job = s'.job → t.rc.address = a → ∃ (u : State) (body : List Byte),
              t.applyAfter (.reply 0x11 [0, 0]) = u.answer w 0 body ∧ u.job.waits = [] ∧
              natAt body 0 2 = a.toNat ∧ natAt body 2 2 = 1)))) ∧
    (s.accepts 0 0x12 b w s1 → 16 ≤ b.length → needs (.ttLoad 0 host) .assigned ∧
      (named → j.state = .assigned →
        let n := natAt b 4 4
        let ends (st : BitVec 16) (state : JobState) : Prop := ∃ s2 body, s.says (.ttLoad 0 host) s2 w st body ∧
          s2.job.state = state ∧ s1.keeps s2
        (natAt b 8 8 % 64 ≠ 0 → s.says (.ttLoad 0 host) s1 w 0xB []) ∧
        (natAt b 8 8 % 64 = 0 → hostRead host (natAt b 8 8) n = none → s.says (.ttLoad 0 host) s1 w 0xC []) ∧
        (∀ d, natAt b 8 8 % 64 = 0 → hostRead host (natAt b 8 8) n = some d →
          (headerOk d = false ∨ n ≠ 128 + 32 * dirSections d → ends 0x40 .assigned) ∧
          (headerOk d = true → n = 128 + 32 * dirSections d → fetchSections host d 0 (dirSections d) = none →
            s.says (.ttLoad 0 host) s1 w 0xC []) ∧
          ∀ raw, headerOk d = true → n = 128 + 32 * dirSections d → fetchSections host d 0 (dirSections d) = some raw →
            let im := imageFrom d (metadata d 0 raw)
            let own := (at1 0x12).checkMember im
            (∀ f, checkFormat d n raw im = some f → ends f.status .assigned) ∧
            (solo → checkFormat d n raw im = none →
              (∀ f, earlierFault own (checkImage d raw im) = some f → f.status ≠ 0 → ends f.status .assigned) ∧
              (own = none → checkImage d raw im = none →
                ∃ s2, s.says (.ttLoad 0 host) s2 w 0 (List.replicate 12 0) ∧ s2.job.state = .loaded ∧
                  s2.job.image = some im ∧ s2.job.symbols = im.symbolTable ∧ s2.ts.profileB1 = im.profileB1 ∧
                  s1.keeps s2))))) ∧
    (s.accepts 0 0x13 b w s1 → 2 ≤ b.length → needs (.ttRelocate 0) .loaded ∧
      (named → j.state = .loaded → solo → j.image = some im →
        let z := (at1 0x13).relocate j.symbols im
        ∃ s2, s.says (.ttRelocate 0) s2 w 0 (natToBytes 4 z.2 ++ natToBytes 4 (awaitingSymbols j.symbols)) ∧
          s2.job.state = .relocated ∧ s2.job.image = some z.1 ∧ s1.keeps s2)) ∧
    (s.accepts 0 0x14 b w s1 → 8 + 16 * natAt b 2 2 ≤ b.length → needs (.ttPatch 0) .relocated ∧
      (named → j.state = .relocated →
        let l := patchPairs b
        let n := natAt b 2 2
        let s2 : State := { at1 0x14 with job := { (at1 0x14).job with orderBody := b } }
        (n = 0 ∨ 64 < n ∨ s.patchNames l = false → s.says (.ttPatch 0) s1 w 0xB []) ∧
        (1 ≤ n → n ≤ 64 → s.patchNames l = true → solo → j.image = some im →
          ((s2.patchCheck b).1 ≠ 0 → ∃ s3 body, s.says (.ttPatch 0) s3 w (s2.patchCheck b).1 body ∧
            s3.job.symbols = j.symbols ∧ s3.job.image = some im) ∧
          ((s2.patchCheck b).1 = 0 → ∃ s3, s.says (.ttPatch 0) s3 w 0 (natToBytes 4 (awaitingSymbols s3.job.symbols)) ∧
            s3.job.symbols = patchedSymbols l j.symbols)))) ∧
    (s.accepts 0 0x15 b w s1 → 8 ≤ b.length → needs (.jobStart 0) .relocated ∧
      (named → j.state = .relocated → solo →
        let s2 : State := { at1 0x15 with
          job := { (at1 0x15).job with orderBody := bytesAt b 4 4 ++ [if s.dg.partner.isSome then 1 else 0] } }
        let st : BitVec 16 := if s.pairAgrees then s2.startCheck else 8
        (st ≠ 0 → ∃ s3, s.says (.jobStart 0) s3 w st [] ∧ s3.job.state = .relocated) ∧
        (st = 0 → j.image = some im → im.serving = false ∨ im.prologue ≠ 0 → ∃ s' r, exec (.jobStart 0) s = .next s' ∧
          s'.job.state = .inSession ∧ s'.job.termCount = fieldAt 32 b 4 ∧ s'.bell.index = 0 ∧ s'.job.waits = [w] ∧
          s'.dg.paired = s.dg.partner.isSome ∧ s'.bell.release = some r ∧ r.bell = 0 ∧ r.attempt = 0 ∧ r.index = 0))) ∧
    (s.accepts 0 0x16 b w s1 → 3 ≤ b.length →
      let release := natAt b 2 1 % 2 == 1
      (¬named → s.says (.jobStop 0) s1 w 0xA []) ∧
      (named → j.state = .ended → release = false → s.says (.jobStop 0) s1 w 0 s.stopBody) ∧
      (named → j.state = .ended → release = true → ∃ s', exec (.jobStop 0) s = .next s' ∧ s'.job = .reset ∧
        s'.rt.slice = 0 ∧ (s.cutting = false → commits s' 2 (.respondAll [w] s.stopBody))) ∧
      (named → j.state = .inSession → s.stopHeld = false → exec (.jobStop 0) s =
        .next { s1 with job := { j with stop := some release, waits := j.waits ++ [w] } }) ∧
      (named → j.state ≠ .ended → j.state ≠ .inSession ∨ s.stopHeld = true → ∃ s', exec (.jobStop 0) s = .next s' ∧
        s'.job.state = (if release then .none else .ended))) ∧
    (s.accepts 0 0x21 b w s1 → 2 ≤ b.length → needs (.weightsRestore 0) .relocated ∧
      (named → j.state = .relocated → j.image = some im → s.cutting = false → ∃ s',
        exec (.weightsRestore 0) s = .next s' ∧ s1.keeps s' ∧ s'.nv.restoring = true ∧ s'.nv.restoredCount = 0 ∧
        s'.nv.restoreMap = (weightEntries im s.member).map s.mapEntry ∧ s'.nv.restores = s'.nv.restoreMap ∧
        s'.job.modelTag = s.modelTagOf im ∧ s'.job.waits = j.waits ++ [w] ∧ commits s' 7 .endRestore)) ∧
    (s.accepts 0 0x63 b w s1 → 6 ≤ b.length →
      (¬named → s.says (.lockstep 0) s1 w 0xA []) ∧
      (named → 1 < natAt b 2 1 → s.says (.lockstep 0) s1 w 0xB []) ∧
      (named → natAt b 2 1 = 1 → j.state ≠ .created → j.state ≠ .assigned → s.says (.lockstep 0) s1 w 8 []) ∧
      (named → natAt b 2 1 = 1 → j.state = .created ∨ j.state = .assigned → ∃ s2 m,
        s.says (.lockstep 0) s2 w 0 (List.replicate 5 0xFF) ∧ s2.dg.partner = some (fieldAt 16 b 4) ∧
        s2.out = s.out ++ [.lockstep (fieldAt 16 b 4) m] ∧ s1.keeps s2) ∧
      (named → natAt b 2 1 = 0 → s.inSession = true → exec (.lockstep 0) s =
        .next { s1 with dg := { s.dg with unpairAtBell := s.dg.unpairAtBell ++ [w] } }) ∧
      (named → natAt b 2 1 = 0 → s.inSession = false → ∃ s2 body, s.says (.lockstep 0) s2 w 0 body ∧
        s2.dg.partner = none ∧ s2.dg.paired = false ∧ ∀ p, s.dg.partner = some p → .lockstep p .withdraw ∈ s2.out)) ∧
    (s.accepts 0 0x40 b w s1 → 2 ≤ b.length →
      let bad := natAt b 0 1 = 0 ∨ natAt b 0 1 ≠ s.rt.slice.toNat ∨ 1 < natAt b 1 1
      (bad → s.says (.routeDrain 0) s1 w 0xB []) ∧
      (¬bad → natAt b 1 1 = 0 → s.inSession = true → s.says (.routeDrain 0) s1 w 8 []) ∧
      (¬bad → natAt b 1 1 = 0 → s.inSession = false → ∃ s2, s.says (.routeDrain 0) s2 w 0 [] ∧ s2.rt.drain = false) ∧
      (¬bad → natAt b 1 1 = 1 → ∃ s', exec (.routeDrain 0) s = .next s' ∧ s1.keeps s' ∧ s'.rt.drain = true ∧
        s'.rt.drainWaits = s.rt.drainWaits ++ [w] ∧ s'.rt.drainAwaiting = s.rc.address :: s.sliceParts)) ∧
    (s.accepts 0 0x41 b w s1 → 80 ≤ b.length →
      (s.inSession = true → s.rt.drain = false → s.says (.routeSet 0) s1 w 8 []) ∧
      (s.inSession = false ∨ s.rt.drain = true → 2 < natAt b 1 1 → s.says (.routeSet 0) s1 w 0xB []) ∧
      (s.inSession = false → natAt b 1 1 ≤ 2 → s.quiet = false → s.says (.routeSet 0) s1 w 0x12 []) ∧
      (s.inSession = false → natAt b 1 1 ≤ 2 → s.quiet = true → ∃ s', exec (.routeSet 0) s = .next s' ∧
        s'.rt.epoch = s.rt.epoch + 1 ∧ s'.rt.slice = fieldAt 8 b 0 ∧ s'.rt.role.toNat = natAt b 1 1 ∧
        (∀ d, d < s.axes → (s'.router d).dir = fieldAt 32 b (20 + 16 * d)) ∧
        (s.cutting = false → commits s' 2 (.respond w (toBytes 1 (s'.rt.epoch.setWidth 8))))) ∧
      (s.inSession = true → s.rt.drain = true → natAt b 1 1 ≤ 2 → exec (.routeSet 0) s =
        .next { s1 with rt := { s.rt with routeWaits := s.rt.routeWaits ++ [(w, b)] } }))

/-- R311, R321, R322, R361, R412, R414, R446, R461 to R467, Tables 13-9, 19-5, 19-7 and 19-8: the commands that carry a
manifest or a signed object, and ADAPTER_BIND: the first check that fails answers; what passes begins a distribution or
starts the record commit that holds its effect and answers once it is durable. Where the manual leaves it open, the
readings of logs 111 and 112 (the model's). -/
def Obligations.StoreCommands : Prop :=
  ∀ (s s1 : State) (b m o : List Byte) (w : Waiting) (host : HostMem),
    let commits (c : Instr) (type : Byte) (effect : Effect) (body : List Byte) : Prop := ∃ s' k, exec c s = .next s' ∧
      s1.keeps s' ∧ s'.nv.commits = s.nv.commits ++ [k] ∧ k.type = type ∧ k.effect = effect ∧ k.after = .respond w body ∧
      s'.sec = s.sec ∧ s'.mb = s1.mb
    let program (op : Nat) (c : Instr) (adapter : Bool) : Prop := s.accepts 0 op b w s1 → 32 ≤ b.length →
      let free := s.owned = true ∧ s.distributing = false ∧ s.storeRegionNow ≠ none
      let good := free ∧ s.distBoxOk b = true ∧ natAt b 12 1 ≤ 1
      let fetched := hostRead host (natAt b 0 8) (natAt b 8 4)
      (s.owned = false → s.says c s1 w 7 []) ∧
      (s.owned = true → s.distributing = true ∨ s.storeRegionNow = none → s.says c s1 w 9 []) ∧
      (free → s.distBoxOk b = false → s.says c s1 w 0x24 []) ∧
      (free → s.distBoxOk b = true → 1 < natAt b 12 1 → s.says c s1 w 0xB []) ∧
      (good → fetched = none → s.says c s1 w 0xC []) ∧
      (good → fetched = some m → s.mfVerifies m = false → s.says c s1 w 0x25 []) ∧
      (good → fetched = some m → s.mfVerifies m = true → mfFormed (if adapter then 2 else 1) m = false →
        s.says c s1 w 0x26 []) ∧
      (good → fetched = some m → s.mfVerifies m = true → mfFormed (if adapter then 2 else 1) m = true →
        (natAt b 12 1 = 0 → ∀ i, i < mfBlocks m → hostRead host (natAt b 16 8 + 65536 * i) 65536 ≠ none) →
        ∃ s' d, exec c s = .next s' ∧ s1.keeps s' ∧ s'.nv.dist = some d ∧ d.reader = true ∧ d.adapter = adapter ∧
          d.object = fieldAt 32 m 4 ∧ d.generation = fieldAt 16 m 8 ∧ d.digest = mfDigest m ∧ d.state = .waitNak ∧
          d.pass = 1 ∧ d.waits = [w] ∧ d.parts = boxParts (cornerOf b 24) (cornerOf b 28))
    let object (c : Instr) (types : List Nat) : Prop :=
      (1048576 < natAt b 8 4 → s.says c s1 w 0xD []) ∧
      (natAt b 8 4 ≤ 1048576 → hostRead host (natAt b 0 8) (natAt b 8 4) = none → s.says c s1 w 0xC []) ∧
      (natAt b 8 4 ≤ 1048576 → hostRead host (natAt b 0 8) (natAt b 8 4) = some o → s.objVerifies types o = false →
        s.says c s1 w 0xD [])
    let verified (types : List Nat) := natAt b 8 4 ≤ 1048576 ∧ hostRead host (natAt b 0 8) (natAt b 8 4) = some o ∧
      s.objVerifies types o = true
    program 0x20 (.weightsProgram 0 host) false ∧ program 0x22 (.adapterStore 0 host) true ∧
    (s.accepts 0 0x23 b w s1 → 10 ≤ b.length →
      let tenant : BitVec 12 := BitVec.ofNat 12 (natAt b 8 2)
      let named := s.job.state ≠ .none ∧ fieldAt 16 b 0 = s.job.id
      let serves := s.inSession = true ∧ s.isRegistrar = true
      let known := natAt b 8 2 ≤ 4095 ∧ s.keyEntry tenant ≠ none
      let bad := 1 < natAt b 2 1 ∨ s.adapterGen tenant (fieldAt 32 b 4) = none
      (¬named → s.says (.adapterBind 0) s1 w 0xA []) ∧ (named → ¬serves → s.says (.adapterBind 0) s1 w 8 []) ∧
      (named → serves → ¬known → s.says (.adapterBind 0) s1 w 0x29 []) ∧
      (named → serves → known → bad → s.says (.adapterBind 0) s1 w 0xB []) ∧
      (named → serves → known → ¬bad → exec (.adapterBind 0) s = .next { s1 with sv := { s.sv with pinRequests :=
        s.sv.pinRequests ++ [{ pin := natAt b 2 1 == 0, adapter := fieldAt 32 b 4, tenant := tenant, wait := w }] } })) ∧
    (s.cutting = false → s.accepts 0 0x24 b w s1 → 12 ≤ b.length →
      (s.owned = false → s.says (.keyringSet 0 host) s1 w 7 []) ∧
      (s.owned = true → object (.keyringSet 0 host) [0x10]) ∧
      (s.owned = true → verified [0x10] →
        (s.openRing o = none → s.says (.keyringSet 0 host) s1 w 0xD []) ∧
        (∀ p, s.openRing o = some p → ringEntries (ringCount (objBody o)) p = none →
          s.says (.keyringSet 0 host) s1 w 0xB []) ∧
        (∀ p l, s.openRing o = some p → ringEntries (ringCount (objBody o)) p = some l →
          let ring := l.foldl applyRingEntry s.sec.keyRing
          commits (.keyringSet 0 host) 4 (.keyRing ring (objCounter o)) (natToBytes 2 ring.length)))) ∧
    (s.cutting = false → s.accepts 0 0x60 b w s1 → 12 ≤ b.length →
      (s.inSession = true → s.says (.debugAuth 0 host) s1 w 9 []) ∧
      (s.inSession = false → object (.debugAuth 0 host) [0x20]) ∧
      (s.inSession = false → verified [0x20] →
        (natAt (objBody o) 0 1 / 2 % 2 = 0 → s.says (.debugAuth 0 host) s1 w 7 []) ∧
        (natAt (objBody o) 0 1 / 2 % 2 = 1 → commits (.debugAuth 0 host) 4 (.debug (objCounter o)) []))) ∧
    (s.cutting = false → s.accepts 0 0x72 b w s1 → 12 ≤ b.length →
      object (.padlock 0 host) [1, 2, 3, 4, 5, 0x10, 0x20] ∧
      (verified [1, 2, 3, 4, 5, 0x10, 0x20] →
        let leads (p : Padlock) (owner : List Byte) (mask : BitVec 64) (erase clear : Bool) : Prop :=
          if erase = true ∧ s.job.state ≠ .none then s.says (.padlock 0 host) s1 w 8 []
          else commits (.padlock 0 host) 3 (.padlock p owner mask (objCounter o) erase clear) [padlockByte p]
        let refused := s.says (.padlock 0 host) s1 w 7 []
        (s.sec.padlock = .opened →
          if objType o = 1 then leads .owned (objBody o) 0 false false else refused) ∧
        (s.sec.padlock = .owned →
          if objType o = 2 then leads .locked s.sec.owner (fieldAt 64 (objBody o) 0) false false
          else if objType o = 4 then leads .owned (objBody o) 0 false true
          else if objType o = 5 then leads .opened [] 0 true true else refused) ∧
        (s.sec.padlock = .locked →
          if objType o = 3 then leads .owned s.sec.owner 0 false false
          else if objType o = 4 then leads .owned (objBody o) 0 false true
          else if objType o = 5 then leads .opened [] 0 true true else refused))) ∧
    (∀ types, s.objVerifies types o = true → objType o ∈ types ∧ fieldAt 64 o 8 = s.fused.serial ∧
      s.sec.ownerCounter.toNat < (objCounter o).toNat ∧
      verifyDigest (s.objKey o) (o.take (64 + objLength o)) (objSig o) = true)

/-! ## The service port, lock-step and firmware messages -/

/-- R287 to R290, R331, R469 to R472, Tables 12-3, 19-12 and 19-13: a request over the service port is answered in its
turn; a repeat gets the answer again. PLAN, and the steps of an update, are refused by the first check that fails, or
start the record commit that answers once it is durable. Where the manual leaves it open, the readings of logs 113 to
118 (the model's). -/
def Obligations.ServicePort : Prop :=
  ∀ (s : State) (mac : Nat) (seq off : Word) (bytes : List Byte) (slot : Byte) (c : Instr),
    c ∈ ([.serviceIdentify mac seq, .plan mac seq bytes, .updateBegin mac seq bytes, .updateData mac seq off bytes,
      .updateEnd mac seq, .updateActivate mac seq slot, .serviceUpdateStatus mac seq] : List Instr) →
    let turn := (s.pw.firmware = true ∨ s.sec.recovery = true) ∧ s.serviceTurn mac = true
    let fresh := turn ∧ s.nv.storeFault = false ∧ s.cutting = false ∧
      ∀ a, tabGet none s.sec.answered mac = some a → a.sequence ≠ seq
    let serves (c : Instr) (x : State) (type : Byte) (status : BitVec 16) (body : List Byte) : Prop :=
      exec c s = .next { x with
        sec := { x.sec with answered := tabSet none x.sec.answered mac (some ⟨seq, type, status, body⟩) }
        out := x.out ++ [.service mac type seq status body] }
    let commits (c : Instr) (type : Byte) (effect : Effect) (after : After) (update : Option Update) : Prop :=
      ∃ s' k, exec c s = .next s' ∧ s.keeps s' ∧ s'.nv.commits = s.nv.commits ++ [k] ∧ k.type = type ∧ k.effect = effect ∧
        k.after = after ∧ s'.sec.update = update ∧ s'.out = s.out
    let slots (x : FirmwareSlot) (counter : BitVec 64) : Effect :=
      if s.sec.running = 0 then .slots s.sec.slotA x counter else .slots x s.sec.slotB counter
    let with1 (u : Option Update) : State := { s with sec := { s.sec with update := u } }
    (¬turn → exec c s = .next s) ∧
    (s.nv.storeFault = true → c ≠ .serviceIdentify mac seq → exec c s = .next s) ∧
    (∀ a, turn → s.nv.storeFault = false → s.pw.firmware = true → tabGet none s.sec.answered mac = some a →
      a.sequence = seq → exec c s = .next { s with out := s.out ++ [.service mac a.type seq a.status a.body] }) ∧
    (turn → (∀ a, tabGet none s.sec.answered mac = some a → a.sequence ≠ seq) →
      serves (.serviceIdentify mac seq) s 1 0 s.identifyBody) ∧
    (fresh → serves (.serviceUpdateStatus mac seq) { s with free := s.free + 1 } 7 0 s.updateBody.1) ∧
    (fresh → s.pw.firmware = true →
      let r := s.planRefusal bytes
      (s.sec.trial = true → serves (.plan mac seq bytes) s 2 3 []) ∧
      (s.sec.trial = false → r ≠ 0 → serves (.plan mac seq bytes) s 2 (Config.planStatus r) []) ∧
      (s.sec.trial = false → r = 0 → commits (.plan mac seq bytes) 1 (.plan (planOf bytes)) (.service mac seq 2 [])
        s.sec.update)) ∧
    (let st := s.beginStatus bytes
     (fresh → st ≠ 0 → serves (.updateBegin mac seq bytes) s 3 st []) ∧
     (fresh → st = 0 → commits (.updateBegin mac seq bytes) 8
       (slots .reset (if s.sec.padlock = .locked then objCounter (beginAuth bytes) else 0)) (.service mac seq 3 [])
       (some { header := bytes.take 256, pieces := [] })) ∧
     (headerFormed bytes = false → st = 1) ∧ (headerFormed bytes = true → s.inSession = true → st = 2) ∧
     (headerFormed bytes = true → s.inSession = false → s.sec.trial = true → st = 3)) ∧
    (∀ u, fresh → s.sec.update = some u → serves (.updateData mac seq off bytes)
      (with1 (some { u with pieces := (off.toNat, bytes) :: u.pieces })) 4 0 []) ∧
    (fresh → s.sec.update = none → serves (.updateData mac seq off bytes) s 4 0 [] ∧ serves (.updateEnd mac seq) s 5 1 []) ∧
    (∀ u, fresh → s.sec.update = some u →
      (s.updateResult u = none → serves (.updateEnd mac seq) s 5 1 []) ∧
      (∀ r, s.updateResult u = some r → Config.sha3 r ≠ pkDigest u.header → serves (.updateEnd mac seq) (with1 none) 5 12 []) ∧
      (∀ r, s.updateResult u = some r → Config.sha3 r = pkDigest u.header → commits (.updateEnd mac seq) 8
        (slots { state := .trial, version := pkVersion u.header, security := pkSecurity u.header
                 digest := pkDigest u.header, image := r, failedTrials := 0, activate := false
                 majors := (Config.recordMajors (pkDigest u.header)).1 :: (Config.recordMajors (pkDigest u.header)).2 } 0)
        (.service mac seq 5 (toBytes 64 (pkDigest u.header))) none)) ∧
    (let st := s.activateStatus slot.toNat
     let set (on : Bool) (x : FirmwareSlot) : FirmwareSlot := if on then { x with activate := true } else x
     (fresh → st ≠ 0 → serves (.updateActivate mac seq slot) s 6 st []) ∧
     (fresh → st = 0 → commits (.updateActivate mac seq slot) 8
       (.slots (set (slot == 0) s.sec.slotA) (set (slot == 1) s.sec.slotB) 0) (.activate mac seq) s.sec.update) ∧
     (1 < slot.toNat → s.updateBusy = 0 → s.updateUnfit = 0 → st = 14))

/-- R40, R59, R185, R283, R359, R410, R437 to R440: what firmware messages do at the part they reach: job records,
assignments, orders, ends and stops of the root, flags, widths and damaged pages; and a lock-step partner's offer, digests and placements. Where the
manual leaves it open, the readings of logs 67, 99, 102, 105 and 121 (the model's). -/
def Obligations.FirmwareMessages : Prop :=
  ∀ (s : State) (a p : FabricAddr) (job : BitVec 16) (seed : BitVec 64) (limit code : Byte) (recess : Word) (page : Nat)
    (bell : BitVec 40) (l : List (Nat × BitVec 10)) (release : Bool) (op : BitVec 16) (b : List Byte)
    (value : BitVec 64) (members : List (BitVec 64)) (places : List PlacementRec) (m : FwMessage)
    (slice : BitVec 8) (low high part : FabricAddr) (map : List Nat) (epoch : BitVec 2) (us : Word) (lanes : Nat),
    let msg (m : FwMessage) : Instr := .firmwareMessage a m
    let taken := s.pw.firmware = true ∧ s.nv.storeFault = false
    (¬taken → exec (msg m) s = .next s) ∧
    (taken → s.job.state = .none → s.rt.slice = 0 → ∃ s', exec (msg (.create job seed limit recess)) s = .next s' ∧
      s.keeps s' ∧ s'.job.state = .created ∧ s'.job.id = job ∧ s'.job.seed = seed ∧ s'.job.root = a ∧
      s'.bell.phase = .idle ∧ s'.bell.number = 0) ∧
    (taken → s.job.state ≠ .none → exec (msg (.create job seed limit recess)) s = .next s) ∧
    (taken → s.job.state = .created → s.job.id = job → s.job.root = p →
      let mask := map.foldl (fun (m : BitVec 4096) i => m ||| BitVec.ofNat 4096 (2 ^ i)) 0
      let z := s.assignHere slice low high mask p epoch us
      (z.1 = 0 → exec (msg (.assign job slice low high map p epoch us)) s = .next z.2 ∧ z.2.job.state = .assigned ∧
        z.2.rt.slice = slice) ∧
      (z.1 ≠ 0 → exec (msg (.assign job slice low high map p epoch us)) s =
        .next { s with job := .reset, out := s.out ++ [.firmware a (.done s.rc.address 0x11 z.1 [])] })) ∧
    (taken → op ≠ 0x40 → s.job.root ≠ a → exec (msg (.order op b)) s = .next s) ∧
    (taken → s.job.state ≠ .none → s.job.root = a → exec (msg (.order 0x8011 b)) s =
      .next { s with bell := { s.bell with delayNs := fieldAt 16 b 0, targetNs := fieldAt 16 b 2 } }) ∧
    (taken → s.isRoot = false → s.job.root = a → s.inSession = true → s.job.stop = none →
      ∃ s', exec (msg (.jobEnd 7 code)) s = .next s' ∧ s'.job.state = .ended ∧ s'.bell.phase = .faulted ∧
        s'.bell.faultCode = code) ∧
    (taken → s.isRoot = false → s.job.root ≠ a → code ≠ 6 ∨ s.inSlice a = false →
      exec (msg (.jobEnd 7 code)) s = .next s) ∧
    (taken → s.isRoot = false → s.inSession = true → s.job.stop = none → s.inSlice a = true →
      ∃ s', exec (msg (.jobEnd 7 6)) s = .next s' ∧ s'.job.state = .ended ∧ s'.bell.phase = .faulted ∧
        s'.bell.faultCode = 6) ∧
    (taken → s.isRoot = true → s.inSession = true → s.job.stop = none → s.inSlice a = true →
      ∃ s', exec (msg (.jobEnd 7 code)) s = .next s' ∧ s'.job.state = .ended ∧ s'.bell.phase = .faulted ∧
        s'.bell.faultCode = code) ∧
    (taken → s.isRoot = true → s.inSession = true → s.job.stop = none → ∀ im, s.job.image = some im →
      lanes < im.minWidth → s.bell.attempt.toNat < s.bell.replayLimit.toNat →
      ∃ s', exec (msg (.width part lanes)) s = .next s' ∧ s'.job.state = .ended ∧ s'.bell.phase = .faulted ∧
        s'.bell.faultCode = 4) ∧
    (taken → s.isRoot = false → exec (msg (.width part lanes)) s = .next s) ∧
    (taken → s.inSession = true → s.job.root = a → s.job.id = job → exec (msg (.stop job release)) s =
      .next { s with job := { s.job with stop := some release } }) ∧
    (taken → s.job.state = .assigned → s.job.root = a → s.job.id = job → s.dg.partner = none → ∃ s',
      exec (msg (.stop job true)) s = .next s' ∧ s.keeps s' ∧ s'.job = .reset ∧ s'.rt.slice = 0 ∧ s'.rt.role = 0) ∧
    (taken → s.job.state = .none → s.rt.slice ≠ 0 → s.nv.fabric.job = job → s.nv.fabric.root = a → ∃ s',
      exec (msg (.stop job true)) s = .next s' ∧ s.keeps s' ∧ s'.rt.slice = 0 ∧ s'.rt.role = 0) ∧
    (taken → s.isRegistrar = true → ∃ s', exec (msg (.damagedPage page)) s = .next s' ∧ s.keeps s' ∧
      (∀ e ∈ s'.sv.prefixes, e.page ≠ page) ∧ ∀ n, page ∈ (s.ctx n).pages → (s'.ctx n).damaged = true) ∧
    (taken → s.isRegistrar = false → exec (msg (.damagedPage page)) s = .next s) ∧
    (taken → s.isRoot = false → exec (msg (.flags bell l)) s = .next s) ∧
    (∀ f t, taken → s.isRoot = true → (tabGet { set := false, bell := 0, part := 0, tile := 0 } s.job.flagSummary f).set = false →
      ∃ s', exec (msg (.flags bell [(f, t)])) s = .next s' ∧ s.keeps s' ∧
        tabGet { set := false, bell := 0, part := 0, tile := 0 } s'.job.flagSummary f =
          { set := true, bell := bell, part := a, tile := t }) ∧
    (taken → s.isRoot = true → s.inSession = true → s.job.stop = none → s.inSlice a = true → ∀ x, ∃ s', exec (msg (.inputFailure x)) s = .next s' ∧
      s'.job.state = .ended ∧ s'.bell.phase = .faulted ∧ s'.bell.faultCode = 6) ∧
    (∀ d det r, exec (.lockstepDigest p (.offer d seed det r)) s =
      .next { s with dg := { s.dg with offer := some (p, .offer d seed det r) } }) ∧
    (s.dg.partner ≠ some p ∨ s.inSession = false → ∃ o, exec (.lockstepDigest p .withdraw) s =
      .next { s with dg := { s.dg with offer := o } } ∧ ∀ x, o = some x → x.1 ≠ p) ∧
    (s.dg.partner = some p → s.inSession = true → ∃ s', exec (.lockstepDigest p .withdraw) s = .next s' ∧ s.keeps s' ∧
      s'.dg.partner = none ∧ s'.dg.paired = false) ∧
    (s.isRoot = true → s.inSession = true → s.dg.paired = true → s.dg.partner = some p → ∀ own,
      s.dg.ownSlice = some (s.bell.number, own) → s.job.stop = none →
      (value = own → exec (.lockstepDigest p (.digest s.bell.number value members)) s =
        .next { s with dg := { s.dg with partnerSlice := some (s.bell.number, value), partnerMembers := members } }) ∧
      (value ≠ own → ∃ s', exec (.lockstepDigest p (.digest s.bell.number value members)) s = .next s' ∧
        s'.dg.lockMismatch = true ∧ s'.dg.lockBell = s.bell.number ∧ s'.bell.phase = .stopped ∧ s'.job.state = .ended)) ∧
    (s.dg.partner ≠ some p → exec (.lockstepDigest p (.digest bell value members)) s = .next s ∧
      exec (.lockstepPlacement p bell places) s = .next s) ∧
    (s.dg.paired = true → s.dg.partner = some p → p.toNat < s.rc.address.toNat → s.termRecess = false →
      s.dg.placed = false ∨ s.bell.phase ≠ .idle →
      exec (.lockstepPlacement p bell places) s =
        .next { s with dg := { s.dg with placements := s.dg.placements ++ [(bell.toNat, places)] } })

/-! ## The whole part -/

/-- The command at the front of the queue runs on the state with the queue's rest, whatever the command and the state;
with nothing waiting the block idles for one reference cycle (the one count of passed cycles rises by 1, and no register
of a tile, no byte and no link changes), which is the model's choice (log 6). -/
def Obligations.StepRunsFrontCommand : Prop :=
  ∀ (s : State) (c : Instr) (rest : List Instr),
    (s.pending = c :: rest → step s = exec c { s with pending := rest }) ∧
    (s.pending = [] → step s = .next s.tick ∧ s.tick.ts.now.ticks = s.ts.now.ticks + 1 ∧ s.tick.tiles = s.tiles ∧
      s.tick.mem = s.mem ∧ s.tick.links = s.links ∧ (s.dg.cntOn = 0 → s.tick.dg = s.dg))

/-- R25, Tables 2-10 to 2-14, 9-5, 10-7, 11-10, 16-3 and 20-8: what reset leaves: bell 0 without causes, replay limit
3, minimum recess 2,048 and time limit 10,000; links DOWN, routers that discard, regions OFF, memory that reads zero,
no session, power state P0 at step 6, and an empty queue. The memory has its canonical form. Where the manual leaves it
open, the readings of logs 3 and 7 (the model's). -/
def Obligations.ResetLeaves : Prop :=
  let s := State.reset
  s.pending = [] ∧ s.memWf ∧ (∀ a, s.mem.byte a = 0) ∧ (∀ t, (s.tile t).regs = Tile.reset.regs) ∧
  s.bell.number = 0 ∧ s.bell.causes = 0 ∧ s.bell.attempt = 0 ∧ s.bell.replayLimit = 3 ∧ s.bell.phase = .idle ∧
  s.bell.firstWhere = 0 ∧ s.bell.firstCycle = 0 ∧ s.bell.recessMin = 2048 ∧ s.bell.limitUs = 10000 ∧
  s.bell.delayNs = 0 ∧ s.bell.targetNs = 0 ∧ s.bell.replays = 0 ∧ s.bell.faultCode = 0 ∧ s.bell.seq = 0 ∧
  s.job.state = .none ∧ (∀ k, (s.region k).kind = .off ∧ (s.region k).head = 0 ∧ (s.region k).tail = 0) ∧
  (∀ l, (s.link l).phase = .down ∧ (s.link l).width = 0 ∧ (s.link l).crcErrors = 0) ∧
  (∀ d, (s.router d).dir = 0xFFFFFFFF ∧ (s.router d).linkmap = 0xE4E4) ∧ s.rt.role = 0 ∧ s.rt.slice = 0 ∧
  (∀ k, (s.mbox k).inFree = true ∧ (s.mbox k).outValid = false ∧ (s.mbox k).session = false) ∧
  s.pw.state = .p0 ∧ s.pw.step = 6 ∧ s.pw.requested = 6 ∧ s.pw.thermalStep = 7 ∧ s.pw.limit = 3 ∧ s.pw.throttles = 0 ∧
  s.pw.lastReset = 0 ∧ s.ts.discards = 0 ∧ s.ts.profileB1 = false ∧ s.hi.ready = false

/-- Every step keeps working memory in its canonical form, in every state that has it, and takes at most the front
command off the queue. -/
def Obligations.StepKeepsMemoryCanonical : Prop :=
  ∀ (s s' : State), s.memWf → step s = .next s' → s'.memWf ∧ s'.pending = s.pending.tail

/-- R21: on a G1 part a request for frequency step 7 is refused, and the step in force does not change. -/
def Obligations.StepSevenRefusedOnG1 : Prop :=
  ∀ (s s1 : State) (b : List Byte) (w : Waiting), s.fused.gradeG2 = false → s.accepts 0 0x30 b w s1 → 1 ≤ b.length →
    natAt b 0 1 = 7 → s.pw.stepWaits = [] →
    ∃ s', exec (.powerStep 0) s = .next s' ∧ s' = s1.answer w 0x10 [] ∧ s'.pw.step = s.pw.step ∧
      s'.pw.requested = s.pw.requested

/-- R301 to R303: the dynamic address survives PERST_N, compute reset and part reset; it is lost when VSB is removed and
when the bus controller resets dynamic addresses. The I3C address plays no part in the fabric address. -/
def Obligations.I3cAddressSurvives : Prop :=
  ∀ (s : State) (cause : BitVec 4) (value : Word) (a : BitVec 7) (pid : BitVec 48),
    (∃ s', exec .perstN s = .next s' ∧ s'.rc.dynamic = s.rc.dynamic) ∧
    (∃ s', exec (.partReset cause) s = .next s' ∧ s'.rc.dynamic = s.rc.dynamic) ∧
    (∃ s', exec (.pwResetCompute value) s = .next s' ∧ s'.rc.dynamic = s.rc.dynamic) ∧
    (∃ s', exec .vsbLoss s = .next s' ∧ s'.rc.dynamic = none) ∧
    (∃ s', exec .i3cResetDynamicAddress s = .next s' ∧ s'.rc.dynamic = none ∧ s'.rc.address = s.rc.address) ∧
    (∃ s', exec (.i3cDynamicAddress a pid) s = .next s' ∧ s'.rc.address = s.rc.address)
end

