-- ==== Sys2Proof/Laws/Bits.lean ====
section
/-! SUPPORT. Fields, lanes and masks: what a packed vector reads as. -/

namespace Sys2Proof.Machine

/-- A bit of packed fields. -/
theorem getLsbD_packFields {n : Nat} (w k : Nat) (hw : 0 < w) (f : Nat → BitVec w) (i : Nat) :
    (packFields w k f : BitVec n).getLsbD i =
      (decide (i < n) && decide (i < w * k) && (f (i / w)).getLsbD (i % w)) := by
  induction k with
  | zero => simp [packFields]
  | succ k ih =>
    simp only [packFields, BitVec.getLsbD_or, ih, BitVec.getLsbD_shiftLeft, BitVec.getLsbD_setWidth]
    by_cases hn : i < n
    · by_cases hlt : i < w * k
      · have h2 : i < w * (k + 1) := by rw [Nat.mul_succ]; omega
        simp [hn, hlt, h2]
      · have hge : w * k ≤ i := Nat.le_of_not_lt hlt
        by_cases h2 : i < w * (k + 1)
        · have hsub : i - w * k < w := by rw [Nat.mul_succ] at h2; omega
          have hdiv : i / w = k := by
            rw [show i = w * k + (i - w * k) by omega, Nat.mul_add_div hw, Nat.div_eq_of_lt hsub]; omega
          have hmod : i % w = i - w * k := by
            conv_lhs => rw [show i = w * k + (i - w * k) by omega]
            rw [Nat.mul_add_mod, Nat.mod_eq_of_lt hsub]
          simp [hn, hlt, h2, hdiv, hmod]; omega
        · have : w ≤ i - w * k := by rw [Nat.mul_succ] at h2; omega
          simp [hn, hlt, h2, BitVec.getLsbD_of_ge _ _ this]
    · simp [hn]

/-- Field k of packed fields. -/
theorem extract_packFields {n : Nat} (w k j : Nat) (hw : 0 < w) (f : Nat → BitVec w) (hj : j < k)
    (hn : w * k ≤ n) : (packFields w k f : BitVec n).extractLsb' (w * j) w = f j := by
  apply BitVec.eq_of_getLsbD_eq
  intro i hi
  have h1 : w * j + i < w * k := by
    have : w * (j + 1) ≤ w * k := Nat.mul_le_mul_left w hj
    rw [Nat.mul_succ] at this; omega
  have hdiv : (w * j + i) / w = j := by rw [Nat.mul_add_div hw, Nat.div_eq_of_lt hi]; omega
  have hmod : (w * j + i) % w = i := by rw [Nat.mul_add_mod, Nat.mod_eq_of_lt hi]
  have h2 : w * j + i < n := by omega
  rw [BitVec.getLsbD_extractLsb', getLsbD_packFields w k hw, hdiv, hmod]
  simp [hi, h1, h2]

@[simp] theorem lane_ofLanes (f : Nat → Word) {n : Nat} (h : n < 64) : lane (ofLanes f) n = f n :=
  extract_packFields 32 64 n (by omega) f h (by omega)

@[simp] theorem lane_splat (x : Word) {n : Nat} (h : n < 64) : lane (splat x) n = x := lane_ofLanes _ h

@[simp] theorem lane_laneMask (m : BitVec 64) {n : Nat} (h : n < 64) :
    lane (laneMask m) n = if bit m n then 0xFFFFFFFF else 0 := lane_ofLanes _ h

theorem lane_allBits {n : Nat} (h : n < 64) : lane allBits n = 0xFFFFFFFF := by
  have h2 : (0xFFFFFFFF : Word) = BitVec.allOnes 32 := by decide
  rw [h2]
  apply BitVec.eq_of_getLsbD_eq
  intro i hi
  have h1 : 32 * n + i < 2048 := by omega
  rw [lane, allBits, BitVec.getLsbD_extractLsb', BitVec.getLsbD_allOnes, BitVec.getLsbD_allOnes]
  simp [hi, h1]

@[simp] theorem bit_ofMask (f : Nat → Bool) {n : Nat} (h : n < 64) : bit (ofMask f) n = f n := by
  rw [bit, ofMask, getLsbD_packFields 1 64 Nat.one_pos]
  simp [h, Nat.mod_one, ofBit]

/-- A lane of a blend. -/
theorem lane_blend (mask x old : Vec) (n : Nat) (h : n < 64) :
    lane (blend mask x old) n = blend (lane mask n) (lane x n) (lane old n) := by
  apply BitVec.eq_of_getLsbD_eq
  intro i hi
  have h1 : 32 * n + i < 2048 := by omega
  simp only [lane, blend, BitVec.getLsbD_extractLsb', BitVec.getLsbD_or, BitVec.getLsbD_and, BitVec.getLsbD_not]
  simp [hi, h1]

@[simp] theorem blend_all (w : Nat) (x old : BitVec w) : blend (BitVec.allOnes w) x old = x := by
  apply BitVec.eq_of_getLsbD_eq
  intro i hi
  simp [blend, hi]

@[simp] theorem blend_zero (w : Nat) (x old : BitVec w) : blend 0#w x old = old := by
  apply BitVec.eq_of_getLsbD_eq
  intro i hi
  simp [blend, hi]

end Sys2Proof.Machine
end

