-- ==== Sys2Proof/Laws/Tab.lean ====
section
/-! SUPPORT. The laws of sparse tables: a read after a write, and that every write keeps the canonical form. -/

namespace Sys2Proof.Machine

variable {α : Type}

@[simp] theorem tabGet_nil (d : α) (k : Nat) : tabGet d [] k = d := rfl

theorem tabGet_cons (d : α) (j : Nat) (x : α) (t : Tab α) (k : Nat) :
    tabGet d ((j, x) :: t) k = if k = j then x else tabGet d t k := rfl

@[simp] theorem tabGet_tabErase_same (d : α) (t : Tab α) (k : Nat) : tabGet d (tabErase t k) k = d := by
  induction t with
  | nil => rfl
  | cons e t ih =>
    obtain ⟨j, x⟩ := e
    by_cases h : j = k
    · simpa [tabErase, h] using ih
    · have : ¬k = j := fun e => h e.symm
      simpa [tabErase, h, tabGet_cons, this] using ih

theorem tabGet_tabErase_other (d : α) (t : Tab α) {j k : Nat} (h : k ≠ j) :
    tabGet d (tabErase t j) k = tabGet d t k := by
  induction t with
  | nil => rfl
  | cons e t ih =>
    obtain ⟨i, x⟩ := e
    by_cases hi : i = j
    · have : ¬k = i := fun e => h (e.trans hi)
      simpa [tabErase, hi, tabGet_cons, this, h] using ih
    · simp only [tabErase] at ih
      simp [tabErase, hi, tabGet_cons, ih]

@[simp] theorem tabGet_tabInsert_same (d : α) (t : Tab α) (k : Nat) (x : α) :
    tabGet d (tabInsert t k x) k = x := by
  induction t with
  | nil => simp [tabInsert, tabGet_cons]
  | cons e t ih =>
    obtain ⟨j, y⟩ := e
    simp only [tabInsert]
    split
    · simp [tabGet_cons]
    · split
      · simp [tabGet_cons]
      · next h _ => simp [tabGet_cons, h, ih]

theorem tabGet_tabInsert_other (d : α) (t : Tab α) {j k : Nat} (x : α) (h : k ≠ j) :
    tabGet d (tabInsert t j x) k = tabGet d t k := by
  induction t with
  | nil => simp [tabInsert, tabGet_cons, h]
  | cons e t ih =>
    obtain ⟨i, y⟩ := e
    simp only [tabInsert]
    split
    · next hi => subst hi; simp [tabGet_cons, h]
    · split
      · simp [tabGet_cons, h]
      · simp [tabGet_cons, ih]

variable [DecidableEq α]

/-- A read of the key just written. -/
@[simp] theorem tabGet_tabSet_same (d : α) (t : Tab α) (k : Nat) (x : α) :
    tabGet d (tabSet d t k x) k = x := by
  unfold tabSet
  split
  · next h => simp [h]
  · simp

/-- A write leaves every other key alone. -/
theorem tabGet_tabSet_other (d : α) (t : Tab α) {j k : Nat} (x : α) (h : k ≠ j) :
    tabGet d (tabSet d t j x) k = tabGet d t k := by
  unfold tabSet
  split
  · exact tabGet_tabErase_other d t h
  · exact tabGet_tabInsert_other d t x h

theorem tabGet_tabSet (d : α) (t : Tab α) (j k : Nat) (x : α) :
    tabGet d (tabSet d t j x) k = if k = j then x else tabGet d t k := by
  split
  · next h => subst h; simp
  · next h => exact tabGet_tabSet_other d t x h

@[simp] theorem tabGet_tabMod_same (d : α) (t : Tab α) (k : Nat) (f : α → α) :
    tabGet d (tabMod d t k f) k = f (tabGet d t k) := by simp [tabMod]

theorem tabGet_tabMod_other (d : α) (t : Tab α) {j k : Nat} (f : α → α) (h : k ≠ j) :
    tabGet d (tabMod d t j f) k = tabGet d t k := tabGet_tabSet_other d t _ h

/-! ## The canonical form -/

/-- The canonical form as facts: no default is listed and the keys strictly rise. -/
theorem tabWf_iff (d : α) (t : Tab α) :
    tabWf d t = true ↔ (∀ e ∈ t, e.2 ≠ d) ∧ t.Pairwise fun a b => a.1 < b.1 := by
  induction t with
  | nil => simp [tabWf]
  | cons e t ih =>
    obtain ⟨j, x⟩ := e
    cases t with
    | nil => simp [tabWf]
    | cons f t =>
      obtain ⟨k, y⟩ := f
      simp only [tabWf, Bool.and_eq_true, bne_iff_ne, decide_eq_true_eq, ih, List.mem_cons, forall_eq_or_imp,
        List.pairwise_cons]
      constructor
      · rintro ⟨⟨hx, hjk⟩, ⟨hy, ht⟩, hk, hp⟩
        exact ⟨⟨hx, hy, ht⟩, ⟨hjk, fun e he => Nat.lt_trans hjk (hk e he)⟩, hk, hp⟩
      · rintro ⟨⟨hx, hy, ht⟩, ⟨hjk, -⟩, hk, hp⟩
        exact ⟨⟨hx, hjk⟩, ⟨hy, ht⟩, hk, hp⟩

/-- Leaving entries out keeps the form. -/
theorem tabWf_filter (d : α) (t : Tab α) (p : Nat × α → Bool) (h : tabWf d t = true) :
    tabWf d (t.filter p) = true := by
  rw [tabWf_iff] at h ⊢
  exact ⟨fun e he => h.1 e (List.mem_filter.1 he).1, h.2.filter _⟩

theorem tabWf_tabErase (d : α) (t : Tab α) (k : Nat) (h : tabWf d t = true) : tabWf d (tabErase t k) = true :=
  tabWf_filter d t _ h

omit [DecidableEq α] in
theorem mem_tabInsert {t : Tab α} {k : Nat} {x : α} {e : Nat × α} (h : e ∈ tabInsert t k x) :
    e = (k, x) ∨ e ∈ t := by
  induction t with
  | nil => simpa [tabInsert] using h
  | cons f t ih =>
    obtain ⟨j, y⟩ := f
    simp only [tabInsert] at h
    split at h
    · rcases List.mem_cons.1 h with h | h
      · exact .inl h
      · exact .inr (List.mem_cons_of_mem _ h)
    · split at h
      · rcases List.mem_cons.1 h with h | h
        · exact .inl h
        · exact .inr h
      · rcases List.mem_cons.1 h with h | h
        · exact .inr (h ▸ List.mem_cons_self)
        · rcases ih h with h | h
          · exact .inl h
          · exact .inr (List.mem_cons_of_mem _ h)

omit [DecidableEq α] in
theorem pairwise_tabInsert (t : Tab α) (k : Nat) (x : α) (h : t.Pairwise fun a b => a.1 < b.1) :
    (tabInsert t k x).Pairwise fun a b => a.1 < b.1 := by
  induction t with
  | nil => simp [tabInsert]
  | cons f t ih =>
    obtain ⟨j, y⟩ := f
    rw [List.pairwise_cons] at h
    simp only [tabInsert]
    split
    · next hk => subst hk; exact List.pairwise_cons.2 h
    · split
      · next hk =>
        refine List.pairwise_cons.2 ⟨fun e he => ?_, List.pairwise_cons.2 h⟩
        rcases List.mem_cons.1 he with he | he
        · subst he; exact hk
        · exact Nat.lt_trans hk (h.1 e he)
      · next h1 h2 =>
        refine List.pairwise_cons.2 ⟨fun e he => ?_, ih h.2⟩
        rcases mem_tabInsert he with he | he
        · subst he; show j < k; omega
        · exact h.1 e he

/-- A write keeps the canonical form. -/
theorem tabWf_tabSet (d : α) (t : Tab α) (k : Nat) (x : α) (h : tabWf d t = true) :
    tabWf d (tabSet d t k x) = true := by
  unfold tabSet
  split
  · exact tabWf_tabErase d t k h
  · next hx =>
    rw [tabWf_iff] at h ⊢
    refine ⟨fun e he => ?_, pairwise_tabInsert t k x h.2⟩
    rcases mem_tabInsert he with he | he
    · subst he; exact hx
    · exact h.1 e he

theorem tabWf_tabMod (d : α) (t : Tab α) (k : Nat) (f : α → α) (h : tabWf d t = true) :
    tabWf d (tabMod d t k f) = true := tabWf_tabSet d t k _ h

omit [DecidableEq α] in
/-- A map over values keeps the keys. -/
theorem tabGet_tabMap (d : α) (f : Nat → α → α) (t : Tab α) (k : Nat) (h : f k d = d) :
    tabGet d (tabMap f t) k = f k (tabGet d t k) := by
  induction t with
  | nil => simp [tabMap, h]
  | cons e t ih =>
    obtain ⟨j, x⟩ := e
    simp only [tabMap, tabGet_cons, ih]
    split
    · next hk => subst hk; rfl
    · rfl

end Sys2Proof.Machine
end

