-- ==== Sys2Proof/Laws/State.lean ====
section
/-! SUPPORT. Each update of the state leaves every other field alone, and a read of what was just written. -/

namespace Sys2Proof.Machine

/-! ## setTile -/

section
variable (s : State) (t : Nat) (x : Tile)
@[simp] theorem State.setTile_pending : (s.setTile t x).pending = s.pending := rfl
@[simp] theorem State.setTile_fused : (s.setTile t x).fused = s.fused := rfl
@[simp] theorem State.setTile_bell : (s.setTile t x).bell = s.bell := rfl
@[simp] theorem State.setTile_job : (s.setTile t x).job = s.job := rfl
@[simp] theorem State.setTile_mem : (s.setTile t x).mem = s.mem := rfl
@[simp] theorem State.setTile_cq : (s.setTile t x).cq = s.cq := rfl
@[simp] theorem State.setTile_lkSelect : (s.setTile t x).lkSelect = s.lkSelect := rfl
@[simp] theorem State.setTile_lkLane : (s.setTile t x).lkLane = s.lkLane := rfl
@[simp] theorem State.setTile_links : (s.setTile t x).links = s.links := rfl
@[simp] theorem State.setTile_rt : (s.setTile t x).rt = s.rt := rfl
@[simp] theorem State.setTile_rc : (s.setTile t x).rc = s.rc := rfl
@[simp] theorem State.setTile_nv : (s.setTile t x).nv = s.nv := rfl
@[simp] theorem State.setTile_sv : (s.setTile t x).sv = s.sv := rfl
@[simp] theorem State.setTile_hi : (s.setTile t x).hi = s.hi := rfl
@[simp] theorem State.setTile_mb : (s.setTile t x).mb = s.mb := rfl
@[simp] theorem State.setTile_dg : (s.setTile t x).dg = s.dg := rfl
@[simp] theorem State.setTile_sec : (s.setTile t x).sec = s.sec := rfl
@[simp] theorem State.setTile_pw : (s.setTile t x).pw = s.pw := rfl
@[simp] theorem State.setTile_pins : (s.setTile t x).pins = s.pins := rfl
@[simp] theorem State.setTile_ts : (s.setTile t x).ts = s.ts := rfl
@[simp] theorem State.setTile_out : (s.setTile t x).out = s.out := rfl
@[simp] theorem State.setTile_free : (s.setTile t x).free = s.free := rfl
end

/-! ## modTile -/

section
variable (s : State) (t : Nat) (f : Tile → Tile)
@[simp] theorem State.modTile_pending : (s.modTile t f).pending = s.pending := rfl
@[simp] theorem State.modTile_fused : (s.modTile t f).fused = s.fused := rfl
@[simp] theorem State.modTile_bell : (s.modTile t f).bell = s.bell := rfl
@[simp] theorem State.modTile_job : (s.modTile t f).job = s.job := rfl
@[simp] theorem State.modTile_mem : (s.modTile t f).mem = s.mem := rfl
@[simp] theorem State.modTile_cq : (s.modTile t f).cq = s.cq := rfl
@[simp] theorem State.modTile_lkSelect : (s.modTile t f).lkSelect = s.lkSelect := rfl
@[simp] theorem State.modTile_lkLane : (s.modTile t f).lkLane = s.lkLane := rfl
@[simp] theorem State.modTile_links : (s.modTile t f).links = s.links := rfl
@[simp] theorem State.modTile_rt : (s.modTile t f).rt = s.rt := rfl
@[simp] theorem State.modTile_rc : (s.modTile t f).rc = s.rc := rfl
@[simp] theorem State.modTile_nv : (s.modTile t f).nv = s.nv := rfl
@[simp] theorem State.modTile_sv : (s.modTile t f).sv = s.sv := rfl
@[simp] theorem State.modTile_hi : (s.modTile t f).hi = s.hi := rfl
@[simp] theorem State.modTile_mb : (s.modTile t f).mb = s.mb := rfl
@[simp] theorem State.modTile_dg : (s.modTile t f).dg = s.dg := rfl
@[simp] theorem State.modTile_sec : (s.modTile t f).sec = s.sec := rfl
@[simp] theorem State.modTile_pw : (s.modTile t f).pw = s.pw := rfl
@[simp] theorem State.modTile_pins : (s.modTile t f).pins = s.pins := rfl
@[simp] theorem State.modTile_ts : (s.modTile t f).ts = s.ts := rfl
@[simp] theorem State.modTile_out : (s.modTile t f).out = s.out := rfl
@[simp] theorem State.modTile_free : (s.modTile t f).free = s.free := rfl
end

/-! ## emit -/

section
variable (s : State) (o : Output)
@[simp] theorem State.emit_pending : (s.emit o).pending = s.pending := rfl
@[simp] theorem State.emit_fused : (s.emit o).fused = s.fused := rfl
@[simp] theorem State.emit_tiles : (s.emit o).tiles = s.tiles := rfl
@[simp] theorem State.emit_bell : (s.emit o).bell = s.bell := rfl
@[simp] theorem State.emit_job : (s.emit o).job = s.job := rfl
@[simp] theorem State.emit_mem : (s.emit o).mem = s.mem := rfl
@[simp] theorem State.emit_cq : (s.emit o).cq = s.cq := rfl
@[simp] theorem State.emit_lkSelect : (s.emit o).lkSelect = s.lkSelect := rfl
@[simp] theorem State.emit_lkLane : (s.emit o).lkLane = s.lkLane := rfl
@[simp] theorem State.emit_links : (s.emit o).links = s.links := rfl
@[simp] theorem State.emit_rt : (s.emit o).rt = s.rt := rfl
@[simp] theorem State.emit_rc : (s.emit o).rc = s.rc := rfl
@[simp] theorem State.emit_nv : (s.emit o).nv = s.nv := rfl
@[simp] theorem State.emit_sv : (s.emit o).sv = s.sv := rfl
@[simp] theorem State.emit_hi : (s.emit o).hi = s.hi := rfl
@[simp] theorem State.emit_mb : (s.emit o).mb = s.mb := rfl
@[simp] theorem State.emit_dg : (s.emit o).dg = s.dg := rfl
@[simp] theorem State.emit_sec : (s.emit o).sec = s.sec := rfl
@[simp] theorem State.emit_pw : (s.emit o).pw = s.pw := rfl
@[simp] theorem State.emit_pins : (s.emit o).pins = s.pins := rfl
@[simp] theorem State.emit_ts : (s.emit o).ts = s.ts := rfl
@[simp] theorem State.emit_free : (s.emit o).free = s.free := rfl
end

/-! ## emitAll -/

section
variable (s : State) (l : List Output)
@[simp] theorem State.emitAll_pending : (s.emitAll l).pending = s.pending := rfl
@[simp] theorem State.emitAll_fused : (s.emitAll l).fused = s.fused := rfl
@[simp] theorem State.emitAll_tiles : (s.emitAll l).tiles = s.tiles := rfl
@[simp] theorem State.emitAll_bell : (s.emitAll l).bell = s.bell := rfl
@[simp] theorem State.emitAll_job : (s.emitAll l).job = s.job := rfl
@[simp] theorem State.emitAll_mem : (s.emitAll l).mem = s.mem := rfl
@[simp] theorem State.emitAll_cq : (s.emitAll l).cq = s.cq := rfl
@[simp] theorem State.emitAll_lkSelect : (s.emitAll l).lkSelect = s.lkSelect := rfl
@[simp] theorem State.emitAll_lkLane : (s.emitAll l).lkLane = s.lkLane := rfl
@[simp] theorem State.emitAll_links : (s.emitAll l).links = s.links := rfl
@[simp] theorem State.emitAll_rt : (s.emitAll l).rt = s.rt := rfl
@[simp] theorem State.emitAll_rc : (s.emitAll l).rc = s.rc := rfl
@[simp] theorem State.emitAll_nv : (s.emitAll l).nv = s.nv := rfl
@[simp] theorem State.emitAll_sv : (s.emitAll l).sv = s.sv := rfl
@[simp] theorem State.emitAll_hi : (s.emitAll l).hi = s.hi := rfl
@[simp] theorem State.emitAll_mb : (s.emitAll l).mb = s.mb := rfl
@[simp] theorem State.emitAll_dg : (s.emitAll l).dg = s.dg := rfl
@[simp] theorem State.emitAll_sec : (s.emitAll l).sec = s.sec := rfl
@[simp] theorem State.emitAll_pw : (s.emitAll l).pw = s.pw := rfl
@[simp] theorem State.emitAll_pins : (s.emitAll l).pins = s.pins := rfl
@[simp] theorem State.emitAll_ts : (s.emitAll l).ts = s.ts := rfl
@[simp] theorem State.emitAll_free : (s.emitAll l).free = s.free := rfl
end

/-! ## modDie -/

section
variable (s : State) (d : Nat) (f : DieRegs → DieRegs)
@[simp] theorem State.modDie_pending : (s.modDie d f).pending = s.pending := rfl
@[simp] theorem State.modDie_fused : (s.modDie d f).fused = s.fused := rfl
@[simp] theorem State.modDie_tiles : (s.modDie d f).tiles = s.tiles := rfl
@[simp] theorem State.modDie_bell : (s.modDie d f).bell = s.bell := rfl
@[simp] theorem State.modDie_job : (s.modDie d f).job = s.job := rfl
@[simp] theorem State.modDie_cq : (s.modDie d f).cq = s.cq := rfl
@[simp] theorem State.modDie_lkSelect : (s.modDie d f).lkSelect = s.lkSelect := rfl
@[simp] theorem State.modDie_lkLane : (s.modDie d f).lkLane = s.lkLane := rfl
@[simp] theorem State.modDie_links : (s.modDie d f).links = s.links := rfl
@[simp] theorem State.modDie_rt : (s.modDie d f).rt = s.rt := rfl
@[simp] theorem State.modDie_rc : (s.modDie d f).rc = s.rc := rfl
@[simp] theorem State.modDie_nv : (s.modDie d f).nv = s.nv := rfl
@[simp] theorem State.modDie_sv : (s.modDie d f).sv = s.sv := rfl
@[simp] theorem State.modDie_hi : (s.modDie d f).hi = s.hi := rfl
@[simp] theorem State.modDie_mb : (s.modDie d f).mb = s.mb := rfl
@[simp] theorem State.modDie_dg : (s.modDie d f).dg = s.dg := rfl
@[simp] theorem State.modDie_sec : (s.modDie d f).sec = s.sec := rfl
@[simp] theorem State.modDie_pw : (s.modDie d f).pw = s.pw := rfl
@[simp] theorem State.modDie_pins : (s.modDie d f).pins = s.pins := rfl
@[simp] theorem State.modDie_ts : (s.modDie d f).ts = s.ts := rfl
@[simp] theorem State.modDie_out : (s.modDie d f).out = s.out := rfl
@[simp] theorem State.modDie_free : (s.modDie d f).free = s.free := rfl
end

/-! ## setRegion -/

section
variable (s : State) (n : Nat) (r : Region)
@[simp] theorem State.setRegion_pending : (s.setRegion n r).pending = s.pending := rfl
@[simp] theorem State.setRegion_fused : (s.setRegion n r).fused = s.fused := rfl
@[simp] theorem State.setRegion_tiles : (s.setRegion n r).tiles = s.tiles := rfl
@[simp] theorem State.setRegion_bell : (s.setRegion n r).bell = s.bell := rfl
@[simp] theorem State.setRegion_job : (s.setRegion n r).job = s.job := rfl
@[simp] theorem State.setRegion_mem : (s.setRegion n r).mem = s.mem := rfl
@[simp] theorem State.setRegion_lkSelect : (s.setRegion n r).lkSelect = s.lkSelect := rfl
@[simp] theorem State.setRegion_lkLane : (s.setRegion n r).lkLane = s.lkLane := rfl
@[simp] theorem State.setRegion_links : (s.setRegion n r).links = s.links := rfl
@[simp] theorem State.setRegion_rt : (s.setRegion n r).rt = s.rt := rfl
@[simp] theorem State.setRegion_rc : (s.setRegion n r).rc = s.rc := rfl
@[simp] theorem State.setRegion_nv : (s.setRegion n r).nv = s.nv := rfl
@[simp] theorem State.setRegion_sv : (s.setRegion n r).sv = s.sv := rfl
@[simp] theorem State.setRegion_hi : (s.setRegion n r).hi = s.hi := rfl
@[simp] theorem State.setRegion_mb : (s.setRegion n r).mb = s.mb := rfl
@[simp] theorem State.setRegion_dg : (s.setRegion n r).dg = s.dg := rfl
@[simp] theorem State.setRegion_sec : (s.setRegion n r).sec = s.sec := rfl
@[simp] theorem State.setRegion_pw : (s.setRegion n r).pw = s.pw := rfl
@[simp] theorem State.setRegion_pins : (s.setRegion n r).pins = s.pins := rfl
@[simp] theorem State.setRegion_ts : (s.setRegion n r).ts = s.ts := rfl
@[simp] theorem State.setRegion_out : (s.setRegion n r).out = s.out := rfl
@[simp] theorem State.setRegion_free : (s.setRegion n r).free = s.free := rfl
end

/-! ## setSlice -/

section
variable (s : State) (d n : Nat) (x : Slice)
@[simp] theorem State.setSlice_pending : (s.setSlice d n x).pending = s.pending := rfl
@[simp] theorem State.setSlice_fused : (s.setSlice d n x).fused = s.fused := rfl
@[simp] theorem State.setSlice_tiles : (s.setSlice d n x).tiles = s.tiles := rfl
@[simp] theorem State.setSlice_bell : (s.setSlice d n x).bell = s.bell := rfl
@[simp] theorem State.setSlice_job : (s.setSlice d n x).job = s.job := rfl
@[simp] theorem State.setSlice_cq : (s.setSlice d n x).cq = s.cq := rfl
@[simp] theorem State.setSlice_lkSelect : (s.setSlice d n x).lkSelect = s.lkSelect := rfl
@[simp] theorem State.setSlice_lkLane : (s.setSlice d n x).lkLane = s.lkLane := rfl
@[simp] theorem State.setSlice_links : (s.setSlice d n x).links = s.links := rfl
@[simp] theorem State.setSlice_rt : (s.setSlice d n x).rt = s.rt := rfl
@[simp] theorem State.setSlice_rc : (s.setSlice d n x).rc = s.rc := rfl
@[simp] theorem State.setSlice_nv : (s.setSlice d n x).nv = s.nv := rfl
@[simp] theorem State.setSlice_sv : (s.setSlice d n x).sv = s.sv := rfl
@[simp] theorem State.setSlice_hi : (s.setSlice d n x).hi = s.hi := rfl
@[simp] theorem State.setSlice_mb : (s.setSlice d n x).mb = s.mb := rfl
@[simp] theorem State.setSlice_dg : (s.setSlice d n x).dg = s.dg := rfl
@[simp] theorem State.setSlice_sec : (s.setSlice d n x).sec = s.sec := rfl
@[simp] theorem State.setSlice_pw : (s.setSlice d n x).pw = s.pw := rfl
@[simp] theorem State.setSlice_pins : (s.setSlice d n x).pins = s.pins := rfl
@[simp] theorem State.setSlice_ts : (s.setSlice d n x).ts = s.ts := rfl
@[simp] theorem State.setSlice_out : (s.setSlice d n x).out = s.out := rfl
@[simp] theorem State.setSlice_free : (s.setSlice d n x).free = s.free := rfl
end

/-! ## setGate -/

section
variable (s : State) (d h : Nat) (x : BitVec 2)
@[simp] theorem State.setGate_pending : (s.setGate d h x).pending = s.pending := rfl
@[simp] theorem State.setGate_fused : (s.setGate d h x).fused = s.fused := rfl
@[simp] theorem State.setGate_tiles : (s.setGate d h x).tiles = s.tiles := rfl
@[simp] theorem State.setGate_bell : (s.setGate d h x).bell = s.bell := rfl
@[simp] theorem State.setGate_job : (s.setGate d h x).job = s.job := rfl
@[simp] theorem State.setGate_cq : (s.setGate d h x).cq = s.cq := rfl
@[simp] theorem State.setGate_lkSelect : (s.setGate d h x).lkSelect = s.lkSelect := rfl
@[simp] theorem State.setGate_lkLane : (s.setGate d h x).lkLane = s.lkLane := rfl
@[simp] theorem State.setGate_links : (s.setGate d h x).links = s.links := rfl
@[simp] theorem State.setGate_rt : (s.setGate d h x).rt = s.rt := rfl
@[simp] theorem State.setGate_rc : (s.setGate d h x).rc = s.rc := rfl
@[simp] theorem State.setGate_nv : (s.setGate d h x).nv = s.nv := rfl
@[simp] theorem State.setGate_sv : (s.setGate d h x).sv = s.sv := rfl
@[simp] theorem State.setGate_hi : (s.setGate d h x).hi = s.hi := rfl
@[simp] theorem State.setGate_mb : (s.setGate d h x).mb = s.mb := rfl
@[simp] theorem State.setGate_dg : (s.setGate d h x).dg = s.dg := rfl
@[simp] theorem State.setGate_sec : (s.setGate d h x).sec = s.sec := rfl
@[simp] theorem State.setGate_pw : (s.setGate d h x).pw = s.pw := rfl
@[simp] theorem State.setGate_pins : (s.setGate d h x).pins = s.pins := rfl
@[simp] theorem State.setGate_ts : (s.setGate d h x).ts = s.ts := rfl
@[simp] theorem State.setGate_out : (s.setGate d h x).out = s.out := rfl
@[simp] theorem State.setGate_free : (s.setGate d h x).free = s.free := rfl
end

/-! ## setLink -/

section
variable (s : State) (l : Nat) (x : Link)
@[simp] theorem State.setLink_pending : (s.setLink l x).pending = s.pending := rfl
@[simp] theorem State.setLink_fused : (s.setLink l x).fused = s.fused := rfl
@[simp] theorem State.setLink_tiles : (s.setLink l x).tiles = s.tiles := rfl
@[simp] theorem State.setLink_bell : (s.setLink l x).bell = s.bell := rfl
@[simp] theorem State.setLink_job : (s.setLink l x).job = s.job := rfl
@[simp] theorem State.setLink_mem : (s.setLink l x).mem = s.mem := rfl
@[simp] theorem State.setLink_cq : (s.setLink l x).cq = s.cq := rfl
@[simp] theorem State.setLink_lkSelect : (s.setLink l x).lkSelect = s.lkSelect := rfl
@[simp] theorem State.setLink_lkLane : (s.setLink l x).lkLane = s.lkLane := rfl
@[simp] theorem State.setLink_rt : (s.setLink l x).rt = s.rt := rfl
@[simp] theorem State.setLink_rc : (s.setLink l x).rc = s.rc := rfl
@[simp] theorem State.setLink_nv : (s.setLink l x).nv = s.nv := rfl
@[simp] theorem State.setLink_sv : (s.setLink l x).sv = s.sv := rfl
@[simp] theorem State.setLink_hi : (s.setLink l x).hi = s.hi := rfl
@[simp] theorem State.setLink_mb : (s.setLink l x).mb = s.mb := rfl
@[simp] theorem State.setLink_dg : (s.setLink l x).dg = s.dg := rfl
@[simp] theorem State.setLink_sec : (s.setLink l x).sec = s.sec := rfl
@[simp] theorem State.setLink_pw : (s.setLink l x).pw = s.pw := rfl
@[simp] theorem State.setLink_pins : (s.setLink l x).pins = s.pins := rfl
@[simp] theorem State.setLink_ts : (s.setLink l x).ts = s.ts := rfl
@[simp] theorem State.setLink_out : (s.setLink l x).out = s.out := rfl
@[simp] theorem State.setLink_free : (s.setLink l x).free = s.free := rfl
end

/-! ## modRouter -/

section
variable (s : State) (d : Nat) (f : Router → Router)
@[simp] theorem State.modRouter_pending : (s.modRouter d f).pending = s.pending := rfl
@[simp] theorem State.modRouter_fused : (s.modRouter d f).fused = s.fused := rfl
@[simp] theorem State.modRouter_tiles : (s.modRouter d f).tiles = s.tiles := rfl
@[simp] theorem State.modRouter_bell : (s.modRouter d f).bell = s.bell := rfl
@[simp] theorem State.modRouter_job : (s.modRouter d f).job = s.job := rfl
@[simp] theorem State.modRouter_mem : (s.modRouter d f).mem = s.mem := rfl
@[simp] theorem State.modRouter_cq : (s.modRouter d f).cq = s.cq := rfl
@[simp] theorem State.modRouter_lkSelect : (s.modRouter d f).lkSelect = s.lkSelect := rfl
@[simp] theorem State.modRouter_lkLane : (s.modRouter d f).lkLane = s.lkLane := rfl
@[simp] theorem State.modRouter_links : (s.modRouter d f).links = s.links := rfl
@[simp] theorem State.modRouter_rc : (s.modRouter d f).rc = s.rc := rfl
@[simp] theorem State.modRouter_nv : (s.modRouter d f).nv = s.nv := rfl
@[simp] theorem State.modRouter_sv : (s.modRouter d f).sv = s.sv := rfl
@[simp] theorem State.modRouter_hi : (s.modRouter d f).hi = s.hi := rfl
@[simp] theorem State.modRouter_mb : (s.modRouter d f).mb = s.mb := rfl
@[simp] theorem State.modRouter_dg : (s.modRouter d f).dg = s.dg := rfl
@[simp] theorem State.modRouter_sec : (s.modRouter d f).sec = s.sec := rfl
@[simp] theorem State.modRouter_pw : (s.modRouter d f).pw = s.pw := rfl
@[simp] theorem State.modRouter_pins : (s.modRouter d f).pins = s.pins := rfl
@[simp] theorem State.modRouter_ts : (s.modRouter d f).ts = s.ts := rfl
@[simp] theorem State.modRouter_out : (s.modRouter d f).out = s.out := rfl
@[simp] theorem State.modRouter_free : (s.modRouter d f).free = s.free := rfl
end

/-! ## modRing -/

section
variable (s : State) (r : Nat) (f : RingRun → RingRun)
@[simp] theorem State.modRing_pending : (s.modRing r f).pending = s.pending := rfl
@[simp] theorem State.modRing_fused : (s.modRing r f).fused = s.fused := rfl
@[simp] theorem State.modRing_tiles : (s.modRing r f).tiles = s.tiles := rfl
@[simp] theorem State.modRing_bell : (s.modRing r f).bell = s.bell := rfl
@[simp] theorem State.modRing_job : (s.modRing r f).job = s.job := rfl
@[simp] theorem State.modRing_mem : (s.modRing r f).mem = s.mem := rfl
@[simp] theorem State.modRing_cq : (s.modRing r f).cq = s.cq := rfl
@[simp] theorem State.modRing_lkSelect : (s.modRing r f).lkSelect = s.lkSelect := rfl
@[simp] theorem State.modRing_lkLane : (s.modRing r f).lkLane = s.lkLane := rfl
@[simp] theorem State.modRing_links : (s.modRing r f).links = s.links := rfl
@[simp] theorem State.modRing_rc : (s.modRing r f).rc = s.rc := rfl
@[simp] theorem State.modRing_nv : (s.modRing r f).nv = s.nv := rfl
@[simp] theorem State.modRing_sv : (s.modRing r f).sv = s.sv := rfl
@[simp] theorem State.modRing_hi : (s.modRing r f).hi = s.hi := rfl
@[simp] theorem State.modRing_mb : (s.modRing r f).mb = s.mb := rfl
@[simp] theorem State.modRing_dg : (s.modRing r f).dg = s.dg := rfl
@[simp] theorem State.modRing_sec : (s.modRing r f).sec = s.sec := rfl
@[simp] theorem State.modRing_pw : (s.modRing r f).pw = s.pw := rfl
@[simp] theorem State.modRing_pins : (s.modRing r f).pins = s.pins := rfl
@[simp] theorem State.modRing_ts : (s.modRing r f).ts = s.ts := rfl
@[simp] theorem State.modRing_out : (s.modRing r f).out = s.out := rfl
@[simp] theorem State.modRing_free : (s.modRing r f).free = s.free := rfl
end

/-! ## setMbox -/

section
variable (s : State) (k : Nat) (x : Mailbox)
@[simp] theorem State.setMbox_pending : (s.setMbox k x).pending = s.pending := rfl
@[simp] theorem State.setMbox_fused : (s.setMbox k x).fused = s.fused := rfl
@[simp] theorem State.setMbox_tiles : (s.setMbox k x).tiles = s.tiles := rfl
@[simp] theorem State.setMbox_bell : (s.setMbox k x).bell = s.bell := rfl
@[simp] theorem State.setMbox_job : (s.setMbox k x).job = s.job := rfl
@[simp] theorem State.setMbox_mem : (s.setMbox k x).mem = s.mem := rfl
@[simp] theorem State.setMbox_cq : (s.setMbox k x).cq = s.cq := rfl
@[simp] theorem State.setMbox_lkSelect : (s.setMbox k x).lkSelect = s.lkSelect := rfl
@[simp] theorem State.setMbox_lkLane : (s.setMbox k x).lkLane = s.lkLane := rfl
@[simp] theorem State.setMbox_links : (s.setMbox k x).links = s.links := rfl
@[simp] theorem State.setMbox_rt : (s.setMbox k x).rt = s.rt := rfl
@[simp] theorem State.setMbox_rc : (s.setMbox k x).rc = s.rc := rfl
@[simp] theorem State.setMbox_nv : (s.setMbox k x).nv = s.nv := rfl
@[simp] theorem State.setMbox_sv : (s.setMbox k x).sv = s.sv := rfl
@[simp] theorem State.setMbox_hi : (s.setMbox k x).hi = s.hi := rfl
@[simp] theorem State.setMbox_dg : (s.setMbox k x).dg = s.dg := rfl
@[simp] theorem State.setMbox_sec : (s.setMbox k x).sec = s.sec := rfl
@[simp] theorem State.setMbox_pw : (s.setMbox k x).pw = s.pw := rfl
@[simp] theorem State.setMbox_pins : (s.setMbox k x).pins = s.pins := rfl
@[simp] theorem State.setMbox_ts : (s.setMbox k x).ts = s.ts := rfl
@[simp] theorem State.setMbox_out : (s.setMbox k x).out = s.out := rfl
@[simp] theorem State.setMbox_free : (s.setMbox k x).free = s.free := rfl
end

/-! ## setFn -/

section
variable (s : State) (f : Nat) (x : Func)
@[simp] theorem State.setFn_pending : (s.setFn f x).pending = s.pending := rfl
@[simp] theorem State.setFn_fused : (s.setFn f x).fused = s.fused := rfl
@[simp] theorem State.setFn_tiles : (s.setFn f x).tiles = s.tiles := rfl
@[simp] theorem State.setFn_bell : (s.setFn f x).bell = s.bell := rfl
@[simp] theorem State.setFn_job : (s.setFn f x).job = s.job := rfl
@[simp] theorem State.setFn_mem : (s.setFn f x).mem = s.mem := rfl
@[simp] theorem State.setFn_cq : (s.setFn f x).cq = s.cq := rfl
@[simp] theorem State.setFn_lkSelect : (s.setFn f x).lkSelect = s.lkSelect := rfl
@[simp] theorem State.setFn_lkLane : (s.setFn f x).lkLane = s.lkLane := rfl
@[simp] theorem State.setFn_links : (s.setFn f x).links = s.links := rfl
@[simp] theorem State.setFn_rt : (s.setFn f x).rt = s.rt := rfl
@[simp] theorem State.setFn_rc : (s.setFn f x).rc = s.rc := rfl
@[simp] theorem State.setFn_nv : (s.setFn f x).nv = s.nv := rfl
@[simp] theorem State.setFn_sv : (s.setFn f x).sv = s.sv := rfl
@[simp] theorem State.setFn_mb : (s.setFn f x).mb = s.mb := rfl
@[simp] theorem State.setFn_dg : (s.setFn f x).dg = s.dg := rfl
@[simp] theorem State.setFn_sec : (s.setFn f x).sec = s.sec := rfl
@[simp] theorem State.setFn_pw : (s.setFn f x).pw = s.pw := rfl
@[simp] theorem State.setFn_pins : (s.setFn f x).pins = s.pins := rfl
@[simp] theorem State.setFn_ts : (s.setFn f x).ts = s.ts := rfl
@[simp] theorem State.setFn_out : (s.setFn f x).out = s.out := rfl
@[simp] theorem State.setFn_free : (s.setFn f x).free = s.free := rfl
end

/-! ## modFn -/

section
variable (s : State) (f : Nat) (g : Func → Func)
@[simp] theorem State.modFn_pending : (s.modFn f g).pending = s.pending := rfl
@[simp] theorem State.modFn_fused : (s.modFn f g).fused = s.fused := rfl
@[simp] theorem State.modFn_tiles : (s.modFn f g).tiles = s.tiles := rfl
@[simp] theorem State.modFn_bell : (s.modFn f g).bell = s.bell := rfl
@[simp] theorem State.modFn_job : (s.modFn f g).job = s.job := rfl
@[simp] theorem State.modFn_mem : (s.modFn f g).mem = s.mem := rfl
@[simp] theorem State.modFn_cq : (s.modFn f g).cq = s.cq := rfl
@[simp] theorem State.modFn_lkSelect : (s.modFn f g).lkSelect = s.lkSelect := rfl
@[simp] theorem State.modFn_lkLane : (s.modFn f g).lkLane = s.lkLane := rfl
@[simp] theorem State.modFn_links : (s.modFn f g).links = s.links := rfl
@[simp] theorem State.modFn_rt : (s.modFn f g).rt = s.rt := rfl
@[simp] theorem State.modFn_rc : (s.modFn f g).rc = s.rc := rfl
@[simp] theorem State.modFn_nv : (s.modFn f g).nv = s.nv := rfl
@[simp] theorem State.modFn_sv : (s.modFn f g).sv = s.sv := rfl
@[simp] theorem State.modFn_mb : (s.modFn f g).mb = s.mb := rfl
@[simp] theorem State.modFn_dg : (s.modFn f g).dg = s.dg := rfl
@[simp] theorem State.modFn_sec : (s.modFn f g).sec = s.sec := rfl
@[simp] theorem State.modFn_pw : (s.modFn f g).pw = s.pw := rfl
@[simp] theorem State.modFn_pins : (s.modFn f g).pins = s.pins := rfl
@[simp] theorem State.modFn_ts : (s.modFn f g).ts = s.ts := rfl
@[simp] theorem State.modFn_out : (s.modFn f g).out = s.out := rfl
@[simp] theorem State.modFn_free : (s.modFn f g).free = s.free := rfl
end

/-! ## setCtx -/

section
variable (s : State) (n : Nat) (c : Ctx)
@[simp] theorem State.setCtx_pending : (s.setCtx n c).pending = s.pending := rfl
@[simp] theorem State.setCtx_fused : (s.setCtx n c).fused = s.fused := rfl
@[simp] theorem State.setCtx_tiles : (s.setCtx n c).tiles = s.tiles := rfl
@[simp] theorem State.setCtx_bell : (s.setCtx n c).bell = s.bell := rfl
@[simp] theorem State.setCtx_job : (s.setCtx n c).job = s.job := rfl
@[simp] theorem State.setCtx_mem : (s.setCtx n c).mem = s.mem := rfl
@[simp] theorem State.setCtx_cq : (s.setCtx n c).cq = s.cq := rfl
@[simp] theorem State.setCtx_lkSelect : (s.setCtx n c).lkSelect = s.lkSelect := rfl
@[simp] theorem State.setCtx_lkLane : (s.setCtx n c).lkLane = s.lkLane := rfl
@[simp] theorem State.setCtx_links : (s.setCtx n c).links = s.links := rfl
@[simp] theorem State.setCtx_rt : (s.setCtx n c).rt = s.rt := rfl
@[simp] theorem State.setCtx_rc : (s.setCtx n c).rc = s.rc := rfl
@[simp] theorem State.setCtx_nv : (s.setCtx n c).nv = s.nv := rfl
@[simp] theorem State.setCtx_hi : (s.setCtx n c).hi = s.hi := rfl
@[simp] theorem State.setCtx_mb : (s.setCtx n c).mb = s.mb := rfl
@[simp] theorem State.setCtx_dg : (s.setCtx n c).dg = s.dg := rfl
@[simp] theorem State.setCtx_sec : (s.setCtx n c).sec = s.sec := rfl
@[simp] theorem State.setCtx_pw : (s.setCtx n c).pw = s.pw := rfl
@[simp] theorem State.setCtx_pins : (s.setCtx n c).pins = s.pins := rfl
@[simp] theorem State.setCtx_ts : (s.setCtx n c).ts = s.ts := rfl
@[simp] theorem State.setCtx_out : (s.setCtx n c).out = s.out := rfl
@[simp] theorem State.setCtx_free : (s.setCtx n c).free = s.free := rfl
end

/-! ## modSlot -/

section
variable (s : State) (k : Nat) (g : AdapterSlot → AdapterSlot)
@[simp] theorem State.modSlot_pending : (s.modSlot k g).pending = s.pending := rfl
@[simp] theorem State.modSlot_fused : (s.modSlot k g).fused = s.fused := rfl
@[simp] theorem State.modSlot_tiles : (s.modSlot k g).tiles = s.tiles := rfl
@[simp] theorem State.modSlot_bell : (s.modSlot k g).bell = s.bell := rfl
@[simp] theorem State.modSlot_job : (s.modSlot k g).job = s.job := rfl
@[simp] theorem State.modSlot_mem : (s.modSlot k g).mem = s.mem := rfl
@[simp] theorem State.modSlot_cq : (s.modSlot k g).cq = s.cq := rfl
@[simp] theorem State.modSlot_lkSelect : (s.modSlot k g).lkSelect = s.lkSelect := rfl
@[simp] theorem State.modSlot_lkLane : (s.modSlot k g).lkLane = s.lkLane := rfl
@[simp] theorem State.modSlot_links : (s.modSlot k g).links = s.links := rfl
@[simp] theorem State.modSlot_rt : (s.modSlot k g).rt = s.rt := rfl
@[simp] theorem State.modSlot_rc : (s.modSlot k g).rc = s.rc := rfl
@[simp] theorem State.modSlot_nv : (s.modSlot k g).nv = s.nv := rfl
@[simp] theorem State.modSlot_hi : (s.modSlot k g).hi = s.hi := rfl
@[simp] theorem State.modSlot_mb : (s.modSlot k g).mb = s.mb := rfl
@[simp] theorem State.modSlot_dg : (s.modSlot k g).dg = s.dg := rfl
@[simp] theorem State.modSlot_sec : (s.modSlot k g).sec = s.sec := rfl
@[simp] theorem State.modSlot_pw : (s.modSlot k g).pw = s.pw := rfl
@[simp] theorem State.modSlot_pins : (s.modSlot k g).pins = s.pins := rfl
@[simp] theorem State.modSlot_ts : (s.modSlot k g).ts = s.ts := rfl
@[simp] theorem State.modSlot_out : (s.modSlot k g).out = s.out := rfl
@[simp] theorem State.modSlot_free : (s.modSlot k g).free = s.free := rfl
end

/-! ## modRoll -/

section
variable (s : State) (l : Nat) (f : RollEntry → RollEntry)
@[simp] theorem State.modRoll_pending : (s.modRoll l f).pending = s.pending := rfl
@[simp] theorem State.modRoll_fused : (s.modRoll l f).fused = s.fused := rfl
@[simp] theorem State.modRoll_tiles : (s.modRoll l f).tiles = s.tiles := rfl
@[simp] theorem State.modRoll_bell : (s.modRoll l f).bell = s.bell := rfl
@[simp] theorem State.modRoll_job : (s.modRoll l f).job = s.job := rfl
@[simp] theorem State.modRoll_mem : (s.modRoll l f).mem = s.mem := rfl
@[simp] theorem State.modRoll_cq : (s.modRoll l f).cq = s.cq := rfl
@[simp] theorem State.modRoll_lkSelect : (s.modRoll l f).lkSelect = s.lkSelect := rfl
@[simp] theorem State.modRoll_lkLane : (s.modRoll l f).lkLane = s.lkLane := rfl
@[simp] theorem State.modRoll_links : (s.modRoll l f).links = s.links := rfl
@[simp] theorem State.modRoll_rt : (s.modRoll l f).rt = s.rt := rfl
@[simp] theorem State.modRoll_nv : (s.modRoll l f).nv = s.nv := rfl
@[simp] theorem State.modRoll_sv : (s.modRoll l f).sv = s.sv := rfl
@[simp] theorem State.modRoll_hi : (s.modRoll l f).hi = s.hi := rfl
@[simp] theorem State.modRoll_mb : (s.modRoll l f).mb = s.mb := rfl
@[simp] theorem State.modRoll_dg : (s.modRoll l f).dg = s.dg := rfl
@[simp] theorem State.modRoll_sec : (s.modRoll l f).sec = s.sec := rfl
@[simp] theorem State.modRoll_pw : (s.modRoll l f).pw = s.pw := rfl
@[simp] theorem State.modRoll_pins : (s.modRoll l f).pins = s.pins := rfl
@[simp] theorem State.modRoll_ts : (s.modRoll l f).ts = s.ts := rfl
@[simp] theorem State.modRoll_out : (s.modRoll l f).out = s.out := rfl
@[simp] theorem State.modRoll_free : (s.modRoll l f).free = s.free := rfl
end

/-! ## modStack -/

section
variable (s : State) (k : Nat) (f : Stack → Stack)
@[simp] theorem State.modStack_pending : (s.modStack k f).pending = s.pending := rfl
@[simp] theorem State.modStack_fused : (s.modStack k f).fused = s.fused := rfl
@[simp] theorem State.modStack_tiles : (s.modStack k f).tiles = s.tiles := rfl
@[simp] theorem State.modStack_bell : (s.modStack k f).bell = s.bell := rfl
@[simp] theorem State.modStack_job : (s.modStack k f).job = s.job := rfl
@[simp] theorem State.modStack_mem : (s.modStack k f).mem = s.mem := rfl
@[simp] theorem State.modStack_cq : (s.modStack k f).cq = s.cq := rfl
@[simp] theorem State.modStack_lkSelect : (s.modStack k f).lkSelect = s.lkSelect := rfl
@[simp] theorem State.modStack_lkLane : (s.modStack k f).lkLane = s.lkLane := rfl
@[simp] theorem State.modStack_links : (s.modStack k f).links = s.links := rfl
@[simp] theorem State.modStack_rt : (s.modStack k f).rt = s.rt := rfl
@[simp] theorem State.modStack_rc : (s.modStack k f).rc = s.rc := rfl
@[simp] theorem State.modStack_sv : (s.modStack k f).sv = s.sv := rfl
@[simp] theorem State.modStack_hi : (s.modStack k f).hi = s.hi := rfl
@[simp] theorem State.modStack_mb : (s.modStack k f).mb = s.mb := rfl
@[simp] theorem State.modStack_dg : (s.modStack k f).dg = s.dg := rfl
@[simp] theorem State.modStack_sec : (s.modStack k f).sec = s.sec := rfl
@[simp] theorem State.modStack_pw : (s.modStack k f).pw = s.pw := rfl
@[simp] theorem State.modStack_pins : (s.modStack k f).pins = s.pins := rfl
@[simp] theorem State.modStack_ts : (s.modStack k f).ts = s.ts := rfl
@[simp] theorem State.modStack_out : (s.modStack k f).out = s.out := rfl
@[simp] theorem State.modStack_free : (s.modStack k f).free = s.free := rfl
end

/-! ## modDist -/

section
variable (s : State) (f : Dist → Dist)
@[simp] theorem State.modDist_pending : (s.modDist f).pending = s.pending := rfl
@[simp] theorem State.modDist_fused : (s.modDist f).fused = s.fused := rfl
@[simp] theorem State.modDist_tiles : (s.modDist f).tiles = s.tiles := rfl
@[simp] theorem State.modDist_bell : (s.modDist f).bell = s.bell := rfl
@[simp] theorem State.modDist_job : (s.modDist f).job = s.job := rfl
@[simp] theorem State.modDist_mem : (s.modDist f).mem = s.mem := rfl
@[simp] theorem State.modDist_cq : (s.modDist f).cq = s.cq := rfl
@[simp] theorem State.modDist_lkSelect : (s.modDist f).lkSelect = s.lkSelect := rfl
@[simp] theorem State.modDist_lkLane : (s.modDist f).lkLane = s.lkLane := rfl
@[simp] theorem State.modDist_links : (s.modDist f).links = s.links := rfl
@[simp] theorem State.modDist_rt : (s.modDist f).rt = s.rt := rfl
@[simp] theorem State.modDist_rc : (s.modDist f).rc = s.rc := rfl
@[simp] theorem State.modDist_sv : (s.modDist f).sv = s.sv := rfl
@[simp] theorem State.modDist_hi : (s.modDist f).hi = s.hi := rfl
@[simp] theorem State.modDist_mb : (s.modDist f).mb = s.mb := rfl
@[simp] theorem State.modDist_dg : (s.modDist f).dg = s.dg := rfl
@[simp] theorem State.modDist_sec : (s.modDist f).sec = s.sec := rfl
@[simp] theorem State.modDist_pw : (s.modDist f).pw = s.pw := rfl
@[simp] theorem State.modDist_pins : (s.modDist f).pins = s.pins := rfl
@[simp] theorem State.modDist_ts : (s.modDist f).ts = s.ts := rfl
@[simp] theorem State.modDist_out : (s.modDist f).out = s.out := rfl
@[simp] theorem State.modDist_free : (s.modDist f).free = s.free := rfl
end

/-! ## tcDiscard -/

section
variable (s : State)
@[simp] theorem State.tcDiscard_pending : (s.tcDiscard).pending = s.pending := rfl
@[simp] theorem State.tcDiscard_fused : (s.tcDiscard).fused = s.fused := rfl
@[simp] theorem State.tcDiscard_tiles : (s.tcDiscard).tiles = s.tiles := rfl
@[simp] theorem State.tcDiscard_bell : (s.tcDiscard).bell = s.bell := rfl
@[simp] theorem State.tcDiscard_job : (s.tcDiscard).job = s.job := rfl
@[simp] theorem State.tcDiscard_mem : (s.tcDiscard).mem = s.mem := rfl
@[simp] theorem State.tcDiscard_cq : (s.tcDiscard).cq = s.cq := rfl
@[simp] theorem State.tcDiscard_lkSelect : (s.tcDiscard).lkSelect = s.lkSelect := rfl
@[simp] theorem State.tcDiscard_lkLane : (s.tcDiscard).lkLane = s.lkLane := rfl
@[simp] theorem State.tcDiscard_links : (s.tcDiscard).links = s.links := rfl
@[simp] theorem State.tcDiscard_rt : (s.tcDiscard).rt = s.rt := rfl
@[simp] theorem State.tcDiscard_rc : (s.tcDiscard).rc = s.rc := rfl
@[simp] theorem State.tcDiscard_nv : (s.tcDiscard).nv = s.nv := rfl
@[simp] theorem State.tcDiscard_sv : (s.tcDiscard).sv = s.sv := rfl
@[simp] theorem State.tcDiscard_hi : (s.tcDiscard).hi = s.hi := rfl
@[simp] theorem State.tcDiscard_mb : (s.tcDiscard).mb = s.mb := rfl
@[simp] theorem State.tcDiscard_dg : (s.tcDiscard).dg = s.dg := rfl
@[simp] theorem State.tcDiscard_sec : (s.tcDiscard).sec = s.sec := rfl
@[simp] theorem State.tcDiscard_pw : (s.tcDiscard).pw = s.pw := rfl
@[simp] theorem State.tcDiscard_pins : (s.tcDiscard).pins = s.pins := rfl
@[simp] theorem State.tcDiscard_out : (s.tcDiscard).out = s.out := rfl
@[simp] theorem State.tcDiscard_free : (s.tcDiscard).free = s.free := rfl
end

/-! ## powerRefused -/

section
variable (s : State)
@[simp] theorem State.powerRefused_pending : (s.powerRefused).pending = s.pending := rfl
@[simp] theorem State.powerRefused_fused : (s.powerRefused).fused = s.fused := rfl
@[simp] theorem State.powerRefused_tiles : (s.powerRefused).tiles = s.tiles := rfl
@[simp] theorem State.powerRefused_bell : (s.powerRefused).bell = s.bell := rfl
@[simp] theorem State.powerRefused_job : (s.powerRefused).job = s.job := rfl
@[simp] theorem State.powerRefused_mem : (s.powerRefused).mem = s.mem := rfl
@[simp] theorem State.powerRefused_cq : (s.powerRefused).cq = s.cq := rfl
@[simp] theorem State.powerRefused_lkSelect : (s.powerRefused).lkSelect = s.lkSelect := rfl
@[simp] theorem State.powerRefused_lkLane : (s.powerRefused).lkLane = s.lkLane := rfl
@[simp] theorem State.powerRefused_links : (s.powerRefused).links = s.links := rfl
@[simp] theorem State.powerRefused_rt : (s.powerRefused).rt = s.rt := rfl
@[simp] theorem State.powerRefused_rc : (s.powerRefused).rc = s.rc := rfl
@[simp] theorem State.powerRefused_nv : (s.powerRefused).nv = s.nv := rfl
@[simp] theorem State.powerRefused_sv : (s.powerRefused).sv = s.sv := rfl
@[simp] theorem State.powerRefused_hi : (s.powerRefused).hi = s.hi := rfl
@[simp] theorem State.powerRefused_mb : (s.powerRefused).mb = s.mb := rfl
@[simp] theorem State.powerRefused_dg : (s.powerRefused).dg = s.dg := rfl
@[simp] theorem State.powerRefused_sec : (s.powerRefused).sec = s.sec := rfl
@[simp] theorem State.powerRefused_pins : (s.powerRefused).pins = s.pins := rfl
@[simp] theorem State.powerRefused_ts : (s.powerRefused).ts = s.ts := rfl
@[simp] theorem State.powerRefused_out : (s.powerRefused).out = s.out := rfl
@[simp] theorem State.powerRefused_free : (s.powerRefused).free = s.free := rfl
end

/-! ## Reads after writes -/

@[simp] theorem State.setTile_tile_same (s : State) (t : Nat) (x : Tile) : (s.setTile t x).tile t = x := by
  simp [State.tile, State.setTile]

theorem State.setTile_tile_other (s : State) {t u : Nat} (x : Tile) (h : u ≠ t) :
    (s.setTile t x).tile u = s.tile u := by
  simp [State.tile, State.setTile, tabGet_tabSet_other _ _ _ h]

@[simp] theorem State.modTile_tile_same (s : State) (t : Nat) (f : Tile → Tile) :
    (s.modTile t f).tile t = f (s.tile t) := by simp [State.modTile]

theorem State.modTile_tile_other (s : State) {t u : Nat} (f : Tile → Tile) (h : u ≠ t) :
    (s.modTile t f).tile u = s.tile u := s.setTile_tile_other _ h

@[simp] theorem State.setRegion_region_same (s : State) (n : Nat) (r : Region) :
    (s.setRegion n r).region n = r := by simp [State.region, State.setRegion]

theorem State.setRegion_region_other (s : State) {n m : Nat} (r : Region) (h : m ≠ n) :
    (s.setRegion n r).region m = s.region m := by
  simp [State.region, State.setRegion, tabGet_tabSet_other _ _ _ h]

@[simp] theorem State.setLink_link_same (s : State) (l : Nat) (x : Link) : (s.setLink l x).link l = x := by
  simp [State.link, State.setLink]

theorem State.setLink_link_other (s : State) {l k : Nat} (x : Link) (h : k ≠ l) :
    (s.setLink l x).link k = s.link k := by simp [State.link, State.setLink, tabGet_tabSet_other _ _ _ h]

@[simp] theorem State.setMbox_mbox_same (s : State) (k : Nat) (x : Mailbox) : (s.setMbox k x).mbox k = x := by
  simp [State.mbox, State.setMbox]

theorem State.setMbox_mbox_other (s : State) {k j : Nat} (x : Mailbox) (h : j ≠ k) :
    (s.setMbox k x).mbox j = s.mbox j := by simp [State.mbox, State.setMbox, tabGet_tabSet_other _ _ _ h]

@[simp] theorem State.setFn_fn_same (s : State) (f : Nat) (x : Func) : (s.setFn f x).fn f = x := by
  simp [State.fn, State.setFn]

theorem State.setFn_fn_other (s : State) {f g : Nat} (x : Func) (h : g ≠ f) : (s.setFn f x).fn g = s.fn g := by
  simp [State.fn, State.setFn, tabGet_tabSet_other _ _ _ h]

@[simp] theorem State.modFn_fn_same (s : State) (f : Nat) (g : Func → Func) : (s.modFn f g).fn f = g (s.fn f) := by
  simp [State.modFn]

@[simp] theorem State.modRoll_rollOf_same (s : State) (l : Nat) (f : RollEntry → RollEntry) :
    (s.modRoll l f).rollOf l = f (s.rollOf l) := by simp [State.rollOf, State.modRoll]

@[simp] theorem State.setSlice_slice_same (s : State) (d n : Nat) (x : Slice) : (s.setSlice d n x).slice d n = x := by
  simp [State.slice, State.setSlice]

@[simp] theorem State.setSlice_mem_bytes (s : State) (d n : Nat) (x : Slice) :
    (s.setSlice d n x).mem.bytes = s.mem.bytes := rfl

@[simp] theorem State.setGate_mem_bytes (s : State) (d h : Nat) (x : BitVec 2) :
    (s.setGate d h x).mem.bytes = s.mem.bytes := rfl

@[simp] theorem State.modDie_mem_bytes (s : State) (d : Nat) (f : DieRegs → DieRegs) :
    (s.modDie d f).mem.bytes = s.mem.bytes := rfl

end Sys2Proof.Machine
end

