-- ==== Sys2Proof/Laws/Memory.lean ====
section
/-! SUPPORT. The laws of working memory: a byte read after a write, and that every memory operation keeps the
canonical form. -/

namespace Sys2Proof.Machine

/-! ## Bytes -/

@[simp] theorem Mem.setByte_byte_same (m : Mem) (k : Nat) (b : Byte) : (m.setByte k b).byte k = b := by
  simp [Mem.byte, Mem.setByte]

theorem Mem.setByte_byte_other (m : Mem) {j k : Nat} (b : Byte) (h : j ≠ k) : (m.setByte k b).byte j = m.byte j := by
  simp [Mem.byte, Mem.setByte, tabGet_tabSet_other _ _ _ h]

theorem Mem.setByte_wf (m : Mem) (k : Nat) (b : Byte) (h : Memory.wf m.bytes = true) :
    Memory.wf (m.setByte k b).bytes = true := tabWf_tabSet 0 m.bytes k b h

theorem Mem.setBytes_wf (m : Mem) (k : Nat) (x : Vec) (mask : BitVec 256) (i j : Nat)
    (h : Memory.wf m.bytes = true) : Memory.wf (m.setBytes k x mask i j).bytes = true := by
  induction j generalizing m i with
  | zero => exact h
  | succ j ih =>
    simp only [Mem.setBytes]
    split
    · exact ih _ _ (m.setByte_wf _ _ h)
    · exact ih _ _ h

/-- A byte outside the run keeps its value. -/
theorem Mem.setBytes_byte_outside (m : Mem) (k : Nat) (x : Vec) (mask : BitVec 256) (i j a : Nat)
    (h : a < k + i ∨ k + i + j ≤ a) : (m.setBytes k x mask i j).byte a = m.byte a := by
  induction j generalizing m i with
  | zero => rfl
  | succ j ih =>
    simp only [Mem.setBytes]
    rw [ih _ _ (by omega)]
    split
    · exact Mem.setByte_byte_other m _ (by omega)
    · rfl

/-- A byte of the run is the new one where the mask names it, and keeps its value elsewhere. -/
theorem Mem.setBytes_byte_inside (m : Mem) (k : Nat) (x : Vec) (mask : BitVec 256) (i j n : Nat)
    (h : i ≤ n) (h' : n < i + j) :
    (m.setBytes k x mask i j).byte (k + n) = if bit mask n then byteOf x n else m.byte (k + n) := by
  induction j generalizing m i with
  | zero => omega
  | succ j ih =>
    simp only [Mem.setBytes]
    by_cases hn : n = i
    · subst hn
      rw [Mem.setBytes_byte_outside _ _ _ _ _ _ _ (by omega)]
      by_cases hb : bit mask n = true <;> simp [hb]
    · rw [ih _ _ (by omega) (by omega)]
      have hne : k + n ≠ k + i := by omega
      by_cases hb : bit mask i = true
      · simp [hb, Mem.setByte_byte_other m _ hne]
      · simp [hb]

/-! ## Granules -/

theorem writeWord_wf (g : Nat) (x : Vec) (mask : BitVec 256) (a : GranuleWrite) (k : Nat)
    (h : Memory.wf a.mem.bytes = true) : Memory.wf (writeWord g x mask a k).mem.bytes = true := by
  simp only [writeWord]
  split
  · exact h
  · split
    · exact Mem.setBytes_wf _ _ _ _ _ _ h
    · split
      · exact h
      · exact Mem.setBytes_wf _ _ _ _ _ _ h

theorem foldl_wf {β : Type} (f : GranuleWrite → β → GranuleWrite)
    (hf : ∀ a k, Memory.wf a.mem.bytes = true → Memory.wf (f a k).mem.bytes = true) (l : List β) (a : GranuleWrite)
    (h : Memory.wf a.mem.bytes = true) : Memory.wf (l.foldl f a).mem.bytes = true := by
  induction l generalizing a with
  | nil => exact h
  | cons b l ih => exact ih _ (hf _ _ h)

theorem Mem.writeGranule_wf (m : Mem) (g : Nat) (x : Vec) (mask : BitVec 256) (h : Memory.wf m.bytes = true) :
    Memory.wf (m.writeGranule g x mask).mem.bytes = true :=
  foldl_wf _ (fun a k ha => writeWord_wf g x mask a k ha) _ _ h

/-- A word outside the granule keeps its bytes. -/
theorem writeWord_byte_outside (g : Nat) (x : Vec) (mask : BitVec 256) (a : GranuleWrite) (k b : Nat)
    (hk : k < 32) (h : b < g ∨ g + 256 ≤ b) : (writeWord g x mask a k).mem.byte b = a.mem.byte b := by
  simp only [writeWord]
  split
  · rfl
  · split
    · exact Mem.setBytes_byte_outside a.mem g x mask (8 * k) 8 b (by omega)
    · split
      · rfl
      · exact Mem.setBytes_byte_outside a.mem g x mask (8 * k) 8 b (by omega)

/-- A granule write leaves every byte outside its granule alone. -/
theorem Mem.writeGranule_byte_outside (m : Mem) (g : Nat) (x : Vec) (mask : BitVec 256) (b : Nat)
    (h : b < g ∨ g + 256 ≤ b) : (m.writeGranule g x mask).mem.byte b = m.byte b := by
  have step : ∀ (l : List Nat) (a : GranuleWrite), (∀ k ∈ l, k < 32) →
      (l.foldl (writeWord g x mask) a).mem.byte b = a.mem.byte b := by
    intro l
    induction l with
    | nil => intro a _; rfl
    | cons k l ih =>
      intro a hl
      rw [List.foldl_cons, ih _ fun j hj => hl j (List.mem_cons_of_mem _ hj)]
      exact writeWord_byte_outside g x mask a k b (hl k List.mem_cons_self) h
  exact step _ _ fun k hk => List.mem_range.1 hk

@[simp] theorem State.ceHold_mem_bytes (s : State) (k n : Nat) : (s.ceHold k n).mem.bytes = s.mem.bytes := by
  simp only [State.ceHold]
  split
  · rfl
  · simp only [State.countEvent]; split <;> rfl

@[simp] theorem State.ueHold_mem_bytes (s : State) (k n kind : Nat) :
    (s.ueHold k n kind).mem.bytes = s.mem.bytes := rfl

/-- An accepted granule write keeps the canonical form. -/
theorem State.applyGranule_wf (s : State) (g : Nat) (x : Vec) (mask : BitVec 256) (h : s.memWf) :
    (s.applyGranule g x mask).memWf := by
  have hw := s.mem.writeGranule_wf g x mask h
  simp only [State.applyGranule, State.memWf]
  split
  · split <;> simpa using hw
  · exact h

theorem State.putGranule_wf (s : State) (g : Nat) (x : Vec) (mask : BitVec 256) (h : s.memWf) :
    (s.putGranule g x mask).memWf := by
  simp only [State.putGranule]
  split
  · exact s.applyGranule_wf g x mask h
  · exact h

theorem State.putBytes_wf (s : State) (g n : Nat) (l : List Byte) (h : s.memWf) : (s.putBytes g n l).memWf := by
  induction n generalizing s g l with
  | zero => exact h
  | succ n ih => exact ih _ _ _ (s.putGranule_wf _ _ _ h)

/-- A granule write leaves every byte outside its granule alone. -/
theorem State.applyGranule_byte_outside (s : State) (g : Nat) (x : Vec) (mask : BitVec 256) (b : Nat)
    (h : b < g ∨ g + 256 ≤ b) : (s.applyGranule g x mask).mem.byte b = s.mem.byte b := by
  have hw := s.mem.writeGranule_byte_outside g x mask b h
  simp only [Mem.byte] at hw ⊢
  simp only [State.applyGranule]
  split
  · split <;> simpa using hw
  · rfl

/-- Clearing a half-layer keeps the canonical form. -/
theorem Mem.clearHalf_wf (m : Mem) (die half : Nat) (h : Memory.wf m.bytes = true) :
    Memory.wf (m.clearHalf die half).bytes = true := tabWf_filter 0 m.bytes _ h

theorem reset_memWf : State.reset.memWf := rfl

end Sys2Proof.Machine
end

