-- ==== Sys2Proof/Laws/Tiles.lean ====
section
/-! SUPPORT. What counting, a cause, and a report of the hall monitor leave unchanged; what issuing a slot comes to. -/

namespace Sys2Proof.Machine

theorem tabGet_tabMap_of {α β : Type} (d : α) (f : Nat → α → α) (g : α → β) (hg : ∀ k x, g (f k x) = g x)
    (t : Tab α) (k : Nat) : g (tabGet d (tabMap f t) k) = g (tabGet d t k) := by
  induction t with
  | nil => rfl
  | cons e t ih =>
    obtain ⟨j, x⟩ := e
    simp only [tabMap, tabGet_cons]
    split
    · exact hg j x
    · exact ih

/-- The tile with other counts of its island. -/
def Tile.onIsle (x : Tile) (i : Island) : Tile := { x with isle := i }

/-- The tile with other lesson counters. -/
def Tile.counting (x : Tile) (c : Tab (BitVec 64)) : Tile := { x with counters := c }

/-! ## Counters -/

/-- Counting a tile event changes that tile's lesson counters only. -/
theorem State.countTile_tile (s : State) (t ev n : Nat) :
    (∃ c, (s.countTile t ev n).tile t = (s.tile t).counting c) ∧
      ∀ u, u ≠ t → (s.countTile t ev n).tile u = s.tile u := by
  simp only [State.countTile]
  split
  · exact ⟨⟨_, State.modTile_tile_same _ _ _⟩, fun u hu => State.modTile_tile_other _ _ hu⟩
  · exact ⟨⟨_, rfl⟩, fun _ _ => rfl⟩

theorem State.countTile_eq (s : State) (t ev n : Nat) :
    ∃ tiles, s.countTile t ev n = { s with tiles := tiles } := by
  simp only [State.countTile]
  split
  · exact ⟨_, rfl⟩
  · exact ⟨s.tiles, rfl⟩

@[simp] theorem State.countTile_mem (s : State) (t ev n : Nat) : (s.countTile t ev n).mem = s.mem := by
  obtain ⟨_, h⟩ := s.countTile_eq t ev n; rw [h]
@[simp] theorem State.countTile_bell (s : State) (t ev n : Nat) : (s.countTile t ev n).bell = s.bell := by
  obtain ⟨_, h⟩ := s.countTile_eq t ev n; rw [h]
@[simp] theorem State.countTile_cq (s : State) (t ev n : Nat) : (s.countTile t ev n).cq = s.cq := by
  obtain ⟨_, h⟩ := s.countTile_eq t ev n; rw [h]
@[simp] theorem State.countTile_ts (s : State) (t ev n : Nat) : (s.countTile t ev n).ts = s.ts := by
  obtain ⟨_, h⟩ := s.countTile_eq t ev n; rw [h]
@[simp] theorem State.countTile_dg (s : State) (t ev n : Nat) : (s.countTile t ev n).dg = s.dg := by
  obtain ⟨_, h⟩ := s.countTile_eq t ev n; rw [h]
@[simp] theorem State.countTile_rt (s : State) (t ev n : Nat) : (s.countTile t ev n).rt = s.rt := by
  obtain ⟨_, h⟩ := s.countTile_eq t ev n; rw [h]
@[simp] theorem State.countTile_rc (s : State) (t ev n : Nat) : (s.countTile t ev n).rc = s.rc := by
  obtain ⟨_, h⟩ := s.countTile_eq t ev n; rw [h]
@[simp] theorem State.countTile_job (s : State) (t ev n : Nat) : (s.countTile t ev n).job = s.job := by
  obtain ⟨_, h⟩ := s.countTile_eq t ev n; rw [h]
@[simp] theorem State.countTile_fused (s : State) (t ev n : Nat) : (s.countTile t ev n).fused = s.fused := by
  obtain ⟨_, h⟩ := s.countTile_eq t ev n; rw [h]

/-! ## Causes -/

theorem State.cause_eq (s : State) (b c d u k : Nat) : ∃ x, s.cause b c d u k = { s with bell := x } := by
  simp only [State.cause]
  split
  · exact ⟨_, rfl⟩
  · exact ⟨s.bell, rfl⟩

@[simp] theorem State.cause_tiles (s : State) (b c d u k : Nat) : (s.cause b c d u k).tiles = s.tiles := by
  obtain ⟨_, h⟩ := s.cause_eq b c d u k; rw [h]
@[simp] theorem State.cause_mem (s : State) (b c d u k : Nat) : (s.cause b c d u k).mem = s.mem := by
  obtain ⟨_, h⟩ := s.cause_eq b c d u k; rw [h]

@[simp] theorem State.cause_ts (s : State) (b c d u k : Nat) : (s.cause b c d u k).ts = s.ts := by
  obtain ⟨_, h⟩ := s.cause_eq b c d u k; rw [h]

/-! ## Reports of the hall monitor -/

/-- A change of the island's counts of every tile is one of each tile. -/
theorem tabGet_tabMap_isle (f : Nat → Tile → Tile) (hf : ∀ k x, ∃ i, f k x = x.onIsle i) (l : Tab Tile) (u : Nat) :
    ∃ i, tabGet .reset (tabMap f l) u = (tabGet .reset l u).onIsle i := by
  induction l with
  | nil => exact ⟨Tile.reset.isle, rfl⟩
  | cons e l ih =>
    obtain ⟨j, x⟩ := e
    simp only [tabMap, tabGet_cons]
    split
    · exact hf j x
    · exact ih

theorem State.spreadStop_tile (s : State) (f : Option Nat) (u : Nat) :
    ∃ i, (s.spreadStop f).tile u = (s.tile u).onIsle i := by
  simp only [State.spreadStop, State.tile]
  exact tabGet_tabMap_isle _ (fun _ _ => ⟨_, rfl⟩) _ _

/-- A debug stop changes, of a tile, the counts of its island only. -/
theorem State.debugStop_tile (s : State) (h : Bool) (t c k cy : Nat) (tag : BitVec 64) (d a : Nat) (f : Option Nat)
    (u : Nat) : ∃ i, (s.debugStop h t c k cy tag d a f).tile u = (s.tile u).onIsle i := by
  unfold State.debugStop
  obtain ⟨i, hi⟩ := State.spreadStop_tile
    (State.cause { s.noteStop h t c k cy tag d a with bell := { (s.noteStop h t c k cy tag d a).bell with withheld := true } }
      cClockStop cy 0 0 3) f u
  refine ⟨i, hi.trans ?_⟩
  simp only [State.tile, State.cause_tiles]
  rfl

theorem State.debugStop_eq (s : State) (h : Bool) (t c k cy : Nat) (tag : BitVec 64) (d a : Nat) (f : Option Nat) :
    ∃ tiles dg bell ts free, s.debugStop h t c k cy tag d a f =
      { s with tiles := tiles, dg := dg, bell := bell, ts := ts, free := free } := by
  unfold State.debugStop State.cause
  dsimp only
  split <;> exact ⟨_, _, _, _, _, rfl⟩

/-- Joining a stop changes, of a tile, the counts of its island only. -/
theorem State.takeStop_tile (s : State) (h : Bool) (t c k cy : Nat) (tag : BitVec 64) (d a : Nat) (u : Nat) :
    ∃ i, (s.takeStop h t c k cy tag d a).tile u = (s.tile u).onIsle i := by
  unfold State.takeStop
  by_cases hu : u = t
  · rw [hu, State.modTile_tile_same]; exact ⟨_, rfl⟩
  · rw [State.modTile_tile_other _ _ hu]; exact ⟨_, rfl⟩

/-- What the hall monitor changes: the counts of the tiles' islands, the report, the bell's record and the other
islands. -/
theorem State.hazard_tile (s : State) (t c cy d a u : Nat) : ∃ i, (s.hazard t c cy d a).tile u = (s.tile u).onIsle i := by
  unfold State.hazard
  split
  · split
    · exact s.debugStop_tile _ _ _ _ _ _ _ _ _ u
    · split
      · exact s.takeStop_tile _ _ _ _ _ _ _ _ u
      · exact ⟨_, rfl⟩
  · exact ⟨_, rfl⟩

theorem State.hazard_eq (s : State) (t c cy d a : Nat) : ∃ tiles dg bell ts free, s.hazard t c cy d a =
    { s with tiles := tiles, dg := dg, bell := bell, ts := ts, free := free } := by
  unfold State.hazard
  split
  · split
    · exact s.debugStop_eq _ _ _ _ _ _ _ _ _
    · split
      · exact ⟨_, _, _, _, _, rfl⟩
      · exact ⟨_, _, _, _, _, rfl⟩
  · exact ⟨_, _, _, _, _, rfl⟩

theorem State.hazard_profileB1 (s : State) (t c cy d a : Nat) : (s.hazard t c cy d a).ts.profileB1 = s.ts.profileB1 := by
  unfold State.hazard
  split
  · split
    · unfold State.debugStop State.spreadStop
      show (State.cause _ _ _ _ _ _).ts.profileB1 = _
      rw [State.cause_ts]; rfl
    · split <;> rfl
  · rfl

/-- A report changes, of a tile, the counts of its island only. -/
theorem State.report_tile (s : State) (t : Nat) (l : List Hazard) (u : Nat) :
    ∃ i, (s.report t l).tile u = (s.tile u).onIsle i := by
  simp only [State.report]
  split
  · exact ⟨_, rfl⟩
  · exact s.hazard_tile _ _ _ _ _ u

theorem State.report_regs (s : State) (t : Nat) (l : List Hazard) (u : Nat) :
    ((s.report t l).tile u).regs = (s.tile u).regs ∧ ((s.report t l).tile u).pend = (s.tile u).pend := by
  obtain ⟨i, h⟩ := s.report_tile t l u
  rw [h]
  exact ⟨rfl, rfl⟩

theorem State.report_eq (s : State) (t : Nat) (l : List Hazard) :
    ∃ tiles dg bell ts free, s.report t l =
      { s with tiles := tiles, dg := dg, bell := bell, ts := ts, free := free } := by
  simp only [State.report]
  split
  · exact ⟨_, _, _, _, _, rfl⟩
  · exact s.hazard_eq _ _ _ _ _

@[simp] theorem State.report_mem (s : State) (t : Nat) (l : List Hazard) : (s.report t l).mem = s.mem := by
  obtain ⟨_, _, _, _, _, h⟩ := s.report_eq t l; rw [h]

@[simp] theorem State.report_profileB1 (s : State) (t : Nat) (l : List Hazard) :
    (s.report t l).ts.profileB1 = s.ts.profileB1 := by
  simp only [State.report]
  split
  · rfl
  · exact s.hazard_profileB1 _ _ _ _ _

/-- Outside debug mode the hall monitor reports nothing. -/
theorem State.report_of_not_debug (s : State) (t : Nat) (l : List Hazard) (h : s.dg.debugMode = false) :
    s.report t l = s := by
  simp only [State.report]
  split
  · rfl
  · simp [State.hazard, h]

/-! ## Issuing one slot -/

/-- A tile that runs issues the slot between the two reports of its hazards. -/
theorem State.issueOne_eq (s : State) (t : Nat) (w : SlotWork) (h : s.tileRuns t = true) :
    s.issueOne t w =
      ((w.run (s.report t ((w.hazards s).filter fun h => h.code < 5))).report t
        ((w.hazards s).filter fun h => 5 ≤ h.code)) := by
  simp [State.issueOne, h, State.issue]

/-- A tile that does not run issues nothing. -/
theorem State.issueOne_idle (s : State) (t : Nat) (w : SlotWork) (h : s.tileRuns t = false) :
    s.issueOne t w = s := by
  simp [State.issueOne, h]

/-- A slot that changes its own tile only, and posts writes there: what issuing it comes to. The slot may meet its
tile with other counts of its island, where the hall monitor has just reported. -/
theorem State.issueOne_posts (s : State) (t : Nat) (w : SlotWork) (hr : s.tileRuns t = true) (P : List PendWrite → Prop)
    (hrun : ∀ s1 i, s1.tile t = (s.tile t).onIsle i → s1.ts.profileB1 = s.ts.profileB1 →
      ∃ l, P l ∧ ((w.run s1).tile t).pend = (s1.tile t).pend ++ l ∧ ((w.run s1).tile t).regs = (s1.tile t).regs ∧
        (∀ u, u ≠ t → (w.run s1).tile u = s1.tile u) ∧ (w.run s1).mem = s1.mem) :
    ∃ l, P l ∧ s.keeps (s.issueOne t w) ∧ ((s.issueOne t w).tile t).pend = (s.tile t).pend ++ l ∧
      ∀ u, u ≠ t → ((s.issueOne t w).tile u).pend = (s.tile u).pend := by
  rw [s.issueOne_eq t w hr]
  generalize h1 : s.report t ((w.hazards s).filter fun h => h.code < 5) = s1
  obtain ⟨i, hj⟩ := s.report_tile t ((w.hazards s).filter fun h => h.code < 5) t
  have hb : s1.ts.profileB1 = s.ts.profileB1 := by rw [← h1]; simp
  rw [h1] at hj
  obtain ⟨l, hP, hp, hg, ho, hm⟩ := hrun s1 i hj hb
  have hpre := fun u => s.report_regs t ((w.hazards s).filter fun h => h.code < 5) u
  rw [h1] at hpre
  have hpost := fun u => (w.run s1).report_regs t ((w.hazards s).filter fun h => 5 ≤ h.code) u
  refine ⟨l, hP, ⟨fun a => ?_, fun u => ?_⟩, ?_, fun u hu => ?_⟩
  · rw [State.report_mem, hm, ← h1, State.report_mem]
  · rw [(hpost u).1]
    by_cases hu : u = t
    · rw [hu, hg, (hpre t).1]
    · rw [ho u hu, (hpre u).1]
  · rw [(hpost t).2, hp, (hpre t).2]
  · rw [(hpost u).2, ho u hu, (hpre u).2]

/-- What a legal vector instruction other than VGATH and VSCAT does on its tile. -/
theorem vxIssue_eq (op : VxOp) (f : VxFields) (t : Nat) (s : State) (hl : vxLegal op f = true) (h1 : op ≠ .vgath)
    (h2 : op ≠ .vscat) :
    vxIssue op f t s = (s.countTile t 0x0004 1).modTile t (vxTile s.ts.profileB1 op f) := by
  cases op <;> simp_all [vxIssue]

/-- An illegal vector slot does nothing (R90, R160). -/
theorem vxWork_illegal (op : VxOp) (f : VxFields) (t : Nat) (s : State) (hl : vxLegal op f = false) :
    s.issueOne t (vxWork op f t) = s := by
  cases hr : s.tileRuns t
  · exact s.issueOne_idle t _ hr
  · rw [s.issueOne_eq t _ hr]
    simp [vxWork, vxIssue, vxHazards, hl, State.report, lowestHazard]

end Sys2Proof.Machine
end

