-- ==== Sys2Proof/WellFormed.lean ====
section
/-! DEFINITION. Which terms of Instr are commands as the manual lays them out: counts and ranges that the types of the
operands leave open. -/

namespace Sys2Proof

/-- A transport of the mailbox: function 0 to 63, or 64 for I3C. -/
def transportOk (tr : BitVec 7) : Bool := tr.toNat ≤ 64

/-- A MAC address of six bytes. -/
def macOk (mac : Nat) : Bool := mac < 2 ^ 48

/-- A packet carries at most 256 bytes (Table 11-2). -/
def packetOk (p : Packet) : Bool := p.length.toNat ≤ 256

/-- A speed and width of Table 15-1, or the link down. -/
def linkOk (speed : BitVec 3) (width : BitVec 5) (flit : Bool) : Bool :=
  if speed == 0 then width == 0 && !flit
  else 4 ≤ speed.toNat && speed.toNat ≤ 6 && (width == 4 || width == 8 || width == 16) && flit == (speed == 6)

/-- The command is well formed. -/
def Instr.wf : Instr → Bool
  | .pieceLanding piece => piece.region.toNat < 1280
  | .temperatureSample readings => readings.length == 80
  | .selfTestComplete failures => failures.all fun e => e.2 == 1 || e.2 == 2
  | .partReset cause => cause == 1 || cause == 2
  | .recordCommitDone failed => failed.all fun e => e.1 < 3
  | .vsbGood on => on.failing.all fun e => e.1 != 3
  | .packetRoute _ _ a => packetOk a.packet
  | .statusFlit _ f _ => f.credits.length == 8
  | .train _ f => f.versions.length == 4
  | .manifestFrame f => f.data.length == 65536
  | .blockFrame f => f.data.length == 65536
  | .storeNak _ _ _ _ ranges => ranges.length ≤ 30
  | .ingressWrite _ offset bytes => !bytes.isEmpty && offset.toNat + bytes.length ≤ 1048576
  | .bundleFrame f => 1 ≤ f.granules.length && f.granules.length ≤ 32
  | .mailboxRequest tr offset bytes => transportOk tr && (tr == 64 || offset.toNat + bytes.length ≤ 4096)
  | .updateData mac _ _ bytes => macOk mac && bytes.length ≤ 67108864
  | .accessViolation _ _ _ kind => 1 ≤ kind.toNat && kind.toNat ≤ 4
  | .pciExpressLinkChange speed width flit => linkOk speed width flit
  | .bellGather p | .bellVerdict p _ | .bellReady p | .bellRelease p | .bellNotice p
  | .putPacket p | .getReq p _ | .getResp p | .mcast p | .rf _ p => packetOk p
  | .mailboxResponse tr | .mbOutRelease tr | .hello tr | .identify tr | .caps tr | .jobCreate tr
  | .sliceAssign tr | .ttLoad tr _ | .ttRelocate tr | .ttPatch tr | .jobStart tr | .jobStop tr
  | .weightsProgram tr _ | .weightsRestore tr | .adapterStore tr _ | .adapterBind tr | .keyringSet tr _
  | .powerStep tr | .powerLimit tr | .bankPower tr | .routeDrain tr | .routeSet tr | .countersEnable tr
  | .countersRead tr | .debugAuth tr _ | .debugProbe tr | .debugBreak tr | .lockstep tr | .attest tr
  | .updateStatus tr | .padlock tr _ => transportOk tr
  | .serviceIdentify mac _ | .plan mac _ _ | .updateBegin mac _ _ | .updateEnd mac _ | .updateActivate mac _ _
  | .serviceUpdateStatus mac _ => macOk mac
  | .bundleFetch _ | .lessonEnd _ | .mxb _ _ | .mxc _ _ | .vmov _ _ | .iadd _ _ | .isub _ _ | .imul _ _
  | .imin _ _ | .imax _ _ | .vand _ _ | .vor _ _ | .vxor _ _ | .shl _ _ | .shr _ _ | .sar _ _ | .key _ _
  | .vcmp _ _ | .vsel _ _ | .vperm _ _ | .vrda _ _ | .vwra _ _ | .vgath _ _ | .vscat _ _ | .fadd _ _ | .fsub _ _
  | .fmul _ _ | .ffma _ _ | .fmax _ _ | .fmin _ _ | .vcvt _ _ | .vscan _ _ | .vscanx _ _ | .vred _ _
  | .vhist _ _ | .vfirst _ _ | .vacc _ _ | .vscana _ _ | .exp2 _ _ | .log2 _ _ | .rcp _ _ | .rsqrt _ _
  | .sin _ _ | .cos _ _ | .lds _ _ | .ldv _ _ | .ldo _ _ | .ldi _ _ | .sts _ _ | .stv _ _ | .sendv _ _ _ _ _
  | .sends _ _ _ _ _ | .red _ _ _ _ | .put _ _ _ | .loop _ _ _ | .brc _ _ _ _ | .endl _ | .sets _ _ _ _
  | .seta _ _ _ _ | .salu _ _ _ _ _ | .rdctl _ _ _ | .mset _ _ _ _ | .rand _ _ _ _ _ | .dgsel _ _
  | .resultWriteback _ | .mxRowWrite _ | .hingeEntryArrival _ _ | .hingeDueRelease _ | .droopDetect _
  | .stretchDebtRecovery _ | .sliceRequestServe _ _ _ _ | .sliceRequestDrop _ _ _ _
  | .collisionWindowExpiry _ _ _ | .reductionContribution _ _ _ | .reductionClose _ _ _ | .gatherStatusSend
  | .gatherTimeout | .readySend _ | .releaseIssue _ | .tileRelease | .drainQuiet | .thermalStepRise
  | .cooldownReady | .powerSample _ _ | .p1IdleEntry | .inputGood | .storeMount | .domainAPowerUp
  | .startupRestoreComplete | .inputFailure | .vsbLoss | .refclkLoss | .perstN | .flr _ | .trialWatchdogExpiry
  | .trialConfirm | .restoreBlockRead _ _ | .readDisturbRelocate _ _ | .retentionRefresh _ _ | .scrubIdleTick
  | .halfLayerClosed _ _ | .halfLayerOpened _ _ | .codewordReceive _ _ _ _ _ | .dataFlit _ _ _ _
  | .flitSlotTransmit _ | .replayTimeout _ | .linkLightDetect _ | .linkCodewordLock _ | .linkDetectTimeout _
  | .linkLockDone _ _ | .linkCheckDone _ _ | .laneFail _ _ _ | .degradeTimeout _ | .linkDown _ _
  | .getReqIssue _ | .ringStart _ _ | .announce _ _ | .announceRepeat _ | .echoReq _ _ _ _ | .echoResp _ _ _
  | .rollCallWindowClose | .linkWindowClose _ | .relayReverifyTimeout | .readerNotice _ _
  | .blockProgramDone _ _ _ | .endOfPass _ | .endOfPassResend | .prepared _ _ | .commit _ _ | .commitResend
  | .committed _ _ | .serviceTick _ | .reqOpen _ | .reqAppend _ | .reqCancel _ | .dataPut _ _ | .ttBlock _
  | .fence _ | .transferComplete _ | .lockstepDigest _ _ | .lockstepPlacement _ _ _ | .i3cDynamicAddress _ _
  | .i3cResetDynamicAddress | .setEndpointId _ | .egCtrlEnable _ | .tsSampleTake | .tsSampleDone
  | .pwCtrlEnterP2 | .pwCtrlLeaveP2 | .pwCtrlEnterP3 | .pwResetCompute _ | .pwResetPart _
  | .registerWrite _ _ _ _ | .firmwareMessage _ _ | .partRstNRelease | .refclkPresent
  | .holdupStoreCharged | .opticalReadingsRefresh _ _ _ _ _ _ | .testAccessPort _ => true

end Sys2Proof
end

