-- ==== Sys2Proof/Tests/Slice0.lean ====
section
/-! SUPPORT. The model's own tests: ill-formed commands that WellFormed refuses, single steps whose results are worked
out from the manual, and states that meet the hypotheses of the statements. -/

namespace Sys2Proof.Tests

set_option Elab.async false

open Sys2Proof Sys2Proof.Machine

/-! ## Ill-formed commands -/

def pkt : Packet :=
  { kind := 1, cls := 3, vc := 0, epoch := 0, mark := false, untagged := false, dest := 0, source := 0, slice := 1
    tagBell := 0, tagAttempt := 0, length := 256, rest := 0, payload := 0 }

def frm : Frame :=
  { objKind := 1, format := 1, object := 0, generation := 0, index := 0, tag := 0, pass := 0, sequence := 0, digest := 0
    data := [0] }

def bfr (l : List Vec) : BundleFrame :=
  { ftype := 3, format := 1, member := 0, set := 0, first := 0, digest := 0, granules := l }

def stf (l : List (BitVec 16)) : StatusFlit :=
  { ackSeq := 0, ackValid := true, nakSeq := 0, nak := false, credits := l, rxOk := 0xFF }

def trf (l : List (Byte × Byte)) : TrainFlit :=
  { state := 2, versions := l, stepping := 1, rxOk := 0xFF, txOk := 0xFF, width := 8, txFirst := 0 }

theorem test_wf_region : (Instr.pieceLanding ⟨1280, 0⟩).wf = false ∧ (Instr.pieceLanding ⟨1279, 0⟩).wf = true := by decide
theorem test_wf_readings : (Instr.temperatureSample (List.replicate 79 0)).wf = false ∧
    (Instr.temperatureSample (List.replicate 80 0)).wf = true := by decide
theorem test_wf_selftest : (Instr.selfTestComplete [(0, 3)]).wf = false ∧ (Instr.selfTestComplete [(0, 2)]).wf = true := by
  decide
theorem test_wf_reset : (Instr.partReset 3).wf = false ∧ (Instr.partReset 2).wf = true := by decide
theorem test_wf_copies : (Instr.recordCommitDone [(3, 0)]).wf = false ∧ (Instr.recordCommitDone [(2, 9)]).wf = true ∧
    (Instr.vsbGood ⟨0, [(3, 1, 0)]⟩).wf = false ∧ (Instr.vsbGood ⟨0, [(2, 1, 0)]⟩).wf = true := by decide
theorem test_wf_credits : (Instr.statusFlit 0 (stf [0]) 0).wf = false ∧
    (Instr.statusFlit 0 (stf (List.replicate 8 0)) 0).wf = true := by decide
theorem test_wf_versions : (Instr.train ⟨0, 0⟩ (trf [])).wf = false ∧
    (Instr.train ⟨0, 0⟩ (trf (List.replicate 4 (0, 0)))).wf = true := by decide
theorem test_wf_frames : (Instr.manifestFrame frm).wf = false ∧ (Instr.blockFrame frm).wf = false := by decide
theorem test_wf_nak : (Instr.storeNak 0 0 false 0 (List.replicate 31 (0, 1))).wf = false ∧
    (Instr.storeNak 0 0 false 0 (List.replicate 30 (0, 1))).wf = true := by decide
theorem test_wf_ingress : (Instr.ingressWrite 0 0 []).wf = false ∧ (Instr.ingressWrite 0 1048575 [0, 0]).wf = false ∧
    (Instr.ingressWrite 0 1048575 [0]).wf = true := by decide
theorem test_wf_bundles : (Instr.bundleFrame (bfr [])).wf = false ∧
    (Instr.bundleFrame (bfr (List.replicate 33 0))).wf = false ∧ (Instr.bundleFrame (bfr [0])).wf = true := by decide
theorem test_wf_mailbox : (Instr.mailboxRequest 65 0 [0]).wf = false ∧ (Instr.mailboxRequest 0 4095 [0, 0]).wf = false ∧
    (Instr.mailboxRequest 64 4095 [0, 0]).wf = true := by decide
theorem test_wf_transport : (Instr.hello 65).wf = false ∧ (Instr.hello 64).wf = true := by decide
theorem test_wf_mac : (Instr.serviceIdentify (2 ^ 48) 0).wf = false ∧ (Instr.updateData (2 ^ 48) 0 0 []).wf = false := by
  decide
theorem test_wf_violation : (Instr.accessViolation 0 false 0 0).wf = false ∧ (Instr.accessViolation 0 false 0 5).wf = false ∧
    (Instr.accessViolation 0 false 0 4).wf = true := by decide
theorem test_wf_link : (Instr.pciExpressLinkChange 3 16 false).wf = false ∧ (Instr.pciExpressLinkChange 5 16 true).wf = false ∧
    (Instr.pciExpressLinkChange 6 16 true).wf = true ∧ (Instr.pciExpressLinkChange 0 4 false).wf = false := by decide
theorem test_wf_packet : (Instr.putPacket { pkt with length := 257 }).wf = false ∧ (Instr.putPacket pkt).wf = true := by
  decide

/-! ## Small states -/

/-- The next state of a command. -/
def after (c : Instr) (s : State) : State := match exec c s with | .next t => t | _ => s

/-- A running tile. -/
def live : Tile := { Tile.reset with ended := false }

/-- A job of one part, in a lesson of 100 cycles. -/
def job1 : Job := { Job.reset with state := .inSession, members := 1 }

def lesson (x : Tile) : State :=
  { State.reset with
    tiles := [(0, x)]
    bell := { Bell.reset with phase := .lesson, lessonLength := 100 }
    job := job1
    rt := { Fabric.reset with role := 1, slice := 1 } }

def vx : VxFields :=
  { vd := 1, va := 2, vb := 3, mask := 0, zeroing := false, vc := 0, rnd := 0, ftz := false, sat := false
    bs := false, sb := 0, cs := false, sc := 0, fmt := 2, fmt2 := 2, aux := 0 }

/-- A tile with v2 and v3 the same in every lane. -/
def ab (a b : Word) : State := lesson { live with v := [(2, splat a), (3, splat b)] }

/-- The writes owed by tile 0. -/
def owed (c : Instr) (s : State) : List PendWrite := ((after c s).tile 0).pend

/-- Lane n of the one vector write owed. -/
def lane0 (c : Instr) (s : State) (n : Nat) : Option Word :=
  match owed c s with
  | [w] => match w.op with | .vreg _ d _ => some (lane d n) | _ => none
  | _ => none

/-- The scalar written. -/
def scalar (c : Instr) (s : State) : Option Word :=
  match owed c s with
  | [w] => match w.op with | .sreg _ x => some x | _ => none
  | _ => none

/-- The end of the cycle in which the one write owed takes effect. -/
def dueOf (c : Instr) (s : State) : Option Nat := match owed c s with | [w] => some w.due | _ => none

/-! ## Vector and scalar instructions, by hand from Tables 7-2, 4-9 and 4-10 -/

theorem test_iadd_wraps : lane0 (.iadd 0 vx) (ab 0x7FFFFFFF 1) 63 = some 0x80000000 ∧
    lane0 (.iadd 0 { vx with sat := true }) (ab 0x7FFFFFFF 1) 63 = some 0x7FFFFFFF := by decide +kernel
theorem test_isub : lane0 (.isub 0 vx) (ab 1 2) 0 = some 0xFFFFFFFF := by decide +kernel
theorem test_imul_low : lane0 (.imul 0 vx) (ab 0x10001 0x10001) 1 = some 0x20001 := by decide +kernel
theorem test_imin_signed : lane0 (.imin 0 vx) (ab 0xFFFFFFFF 1) 0 = some 0xFFFFFFFF ∧
    lane0 (.imax 0 vx) (ab 0xFFFFFFFF 1) 0 = some 1 := by decide +kernel
theorem test_shifts : lane0 (.shl 0 vx) (ab 3 33) 0 = some 6 ∧ lane0 (.shr 0 vx) (ab 0x80000000 31) 0 = some 1 ∧
    lane0 (.sar 0 vx) (ab 0x80000000 31) 0 = some 0xFFFFFFFF := by decide +kernel
theorem test_key : lane0 (.key 0 vx) (ab 0x3F800000 0) 0 = some 0xBF800000 ∧
    lane0 (.key 0 vx) (ab 0xBF800000 0) 0 = some 0x407FFFFF := by decide +kernel
theorem test_fadd : lane0 (.fadd 0 vx) (ab 0x3F800000 0x40000000) 63 = some 0x40400000 ∧
    dueOf (.fadd 0 vx) (ab 0x3F800000 0x40000000) = some 5 := by decide +kernel
theorem test_fmul_invalid : lane0 (.fmul 0 vx) (ab 0x7F800000 0) 0 = some 0x7FC00000 := by decide +kernel
theorem test_fadd_toward_zero : lane0 (.fadd 0 { vx with rnd := 1 }) (ab 0x3F800000 0x33FFFFFF) 0 = some 0x3F800000 ∧
    lane0 (.fadd 0 vx) (ab 0x3F800000 0x33FFFFFF) 0 = some 0x3F800001 := by decide +kernel
theorem test_fmax_zero : lane0 (.fmax 0 vx) (ab 0x80000000 0) 0 = some 0 ∧
    lane0 (.fmin 0 vx) (ab 0x80000000 0) 0 = some 0x80000000 := by decide +kernel
theorem test_exp2_exact : lane0 (.exp2 0 vx) (ab 0x40400000 0) 0 = some 0x41000000 ∧
    dueOf (.exp2 0 vx) (ab 0x40400000 0) = some 11 := by decide +kernel
theorem test_vmov_due : dueOf (.vmov 0 vx) (ab 7 0) = some 3 ∧ lane0 (.vmov 0 vx) (ab 7 0) 5 = some 7 := by decide +kernel
theorem test_rnd3_nop : owed (.iadd 0 { vx with rnd := 3 }) (ab 1 1) = [] := by decide +kernel
theorem test_vred_sum : lane0 (.vred 0 vx) (ab 0x3F800000 0) 9 = some 0x42800000 := by decide +kernel
theorem test_vscan : lane0 (.vscan 0 vx) (ab 0x3F800000 0) 2 = some 0x40400000 ∧
    lane0 (.vscanx 0 vx) (ab 0x3F800000 0) 2 = some 0x40000000 := by decide +kernel
theorem test_vfirst_none : lane0 (.vfirst 0 vx) (ab 0 0x3F800000) 0 = some 64 ∧
    lane0 (.vfirst 0 vx) (ab 0x3F800000 0x3F800000) 0 = some 0 := by decide +kernel
theorem test_sets_modes : scalar (.sets 0 1 0xFFFFF 0) (lesson live) = some 0xFFFFFFFF ∧
    scalar (.sets 0 1 0xABC 1) (lesson { live with s := [(1, 0x12345)] }) = some 0xABC12345 ∧
    owed (.sets 0 1 0 3) (lesson live) = [] := by decide +kernel
theorem test_salu : scalar (.salu 0 1 2 3 7) (lesson { live with s := [(2, 0x80000000), (3, 4)] }) = some 0xF8000000 ∧
    owed (.salu 0 1 2 3 12) (lesson live) = [] := by decide +kernel
theorem test_rdctl_tile : scalar (.rdctl 5 1 10) (lesson live) = none ∧
    scalar (.rdctl 0 1 0) (lesson { live with isle := { Island.reset with count := 7 } }) = some 7 := by decide +kernel

/-! ## The end of a cycle (R98, R100, R101) -/

def wr (due : Nat) (slot : Slot) (rank : Nat) (x : Word) : PendWrite :=
  { due := due, slot := slot, issue := 0, rank := rank, op := .sreg 4 x, flags := 0 }

theorem test_ct_wins : ((after (.resultWriteback 0) (lesson { live with pend := [wr 0 .ct 0 1, wr 0 .ld 0 2, wr 1 .ct 0 3] })).tile
    0).rs 4 = 1 := by decide +kernel

def looping : Tile :=
  { live with pc := 5, loops := [{ start := 2, endIndex := 9, trips := 2, index := 0 },
      { start := 4, endIndex := 5, trips := 3, index := 2 }] }

theorem test_inner_loop_closes : ((after (.resultWriteback 0) (lesson looping)).tile 0).pc = 6 ∧
    ((after (.resultWriteback 0) (lesson looping)).tile 0).loops.length = 1 := by decide +kernel
theorem test_outer_loop_repeats : ((after (.resultWriteback 0) (lesson { looping with
    pc := 9, loops := looping.loops.take 1 })).tile 0).pc = 2 := by decide +kernel

/-! ## States that meet the hypotheses of the statements about tiles -/

def s0 : State := lesson live

/-- Tile 0 in this cycle. -/
def atCycle (c : Nat) : Tile := { live with isle := { Island.reset with count := c } }

def mxf : MxFields :=
  { acc := 0, accumulate := false, held := 0, stream := 0, fmtA := 0, fmtB := 0, mxA := false, mxB := false, mask := 0
    sat := false, pieceA := 0, pieceB := 0, scaleA := 0, scaleB := 0, shift := 0 }

def ldf (reach : BitVec 2) (aux : BitVec 8) : LdFields := { reach := reach, dst := 1, base := 0, offset := 0, aux := aux }

def stfl (reach : BitVec 2) : StFields := { reach := reach, src := 1, base := 0, offset := 0, mask := 0, digest := false }

/-- Tile 0 with a0 this address. -/
def addressed (a : BitVec 40) : State := lesson { live with a := [(0, a)] }

theorem witness_VxIntegerLanes : s0.tileRuns 0 = true ∧ vxLegal .iadd vx = true ∧
    vxLegal .iadd { vx with rnd := 3 } = false := by decide +kernel
theorem witness_VxFloatLanes : s0.tileRuns 0 = true ∧ vxLegal .ffma vx = true ∧ vxLegal .fadd { vx with rnd := 2 } = true ∧
    vxLegal .ffma { vx with rnd := 2 } = false ∧ vxLegal .exp2 vx = true := by decide +kernel
theorem witness_VxAcrossLanes : s0.tileRuns 0 = true ∧ vx.rnd.toNat < 2 ∧ vxLegal .vsel vx = true ∧
    vxLegal .vfirst vx = true ∧ vxLegal .vhist { vx with aux := 26 } = true ∧ vxLegal .vhist { vx with aux := 27 } = false ∧
    2 ≤ ({ vx with rnd := 2 } : VxFields).rnd.toNat := by decide +kernel
theorem witness_VxCompareAndConvert : s0.tileRuns 0 = true ∧ vxLegal .vcmp { vx with aux := 5 } = true ∧
    vxLegal .vcmp { vx with aux := 6 } = false ∧ vxLegal .vcvt vx = true ∧ vx.fmt = 2 ∧
    vxLegal .vcvt { vx with fmt := 0 } = true ∧ vxLegal .vcvt { vx with fmt := 12 } = false := by decide +kernel
/-- Tile 0 in this cycle of a VACC issued in cycle 0. -/
def streaming (c : Nat) : Tile :=
  { atCycle c with streams := [{ issue := 0, scan := false, f := vx, a := 0, b := 0, mask := BitVec.allOnes 64, seg := 0
                                 running := 0 }] }

theorem witness_VxAccumulators : s0.tileRuns 0 = true ∧ vxLegal .vrda vx = true ∧ vxLegal .vwra vx = true ∧
    vxLegal .vacc { vx with aux := 0x40 } = true ∧ vxLegal .vscana { vx with aux := 0x20 } = true ∧
    (lesson { atCycle 64 with lastStream := some 0 }).tileRuns 0 = true ∧
    (lesson { atCycle 63 with lastStream := some 0 }).tileRuns 0 = true ∧
    vxLegal .vrda { vx with rnd := 3 } = false ∧ vxLegal .vwra { vx with rnd := 3 } = false ∧
    vxLegal .vacc { vx with rnd := 3 } = false ∧ vxLegal .vscana { vx with rnd := 3 } = false ∧
    (lesson (streaming 63)).tileRuns 0 = true ∧ (0 ≤ 63 ∧ 63 < 0 + 64) ∧ bit (BitVec.allOnes 64) 63 = true ∧
    bit (0 : BitVec 64) 0 = false := by decide +kernel
theorem witness_VxGatherScatter : s0.tileRuns 0 = true ∧ s0.mem.ue = [] ∧ (∀ k, s0.messageRegion k = none) ∧
    vxLegal .vgath vx = true ∧ vxLegal .vscat vx = true :=
  ⟨by decide +kernel, rfl, fun _ => rfl, by decide, by decide⟩
theorem witness_MatrixIssue : s0.tileRuns 0 = true ∧ mxLegal false mxf = true ∧
    mxLegal true { mxf with shift := 1 } = true ∧ mxLegal false { mxf with shift := 1 } = false := by decide +kernel
theorem test_mx_spacing : ((after (.mxb 0 mxf) (lesson { atCycle 64 with lastMx := some ⟨0, false, 0, 0⟩ })).tile 0).mx.length = 1 ∧
    ((after (.mxb 0 mxf) (lesson { atCycle 63 with lastMx := some ⟨0, false, 0, 0⟩ })).tile 0).mx.length = 0 := by
  decide +kernel

/-- An MXB issued in cycle 0 whose row m is due at the end of this cycle. -/
def rowDue (c : Nat) : Tile :=
  { atCycle c with mx := [{ issue := 0, f := mxf, mask := BitVec.allOnes 64, scaleA0 := 0, scaleA1 := 0, scaleB0 := 0
                            scaleB1 := 0, held := [], heldLo := [], str := [], strLo := [], snaps := [] }] }

def lessonOf (n : Nat) (x : Tile) : State := { lesson x with bell := { (lesson x).bell with lessonLength := n } }

theorem witness_MatrixRowWrite : (lessonOf 200 (rowDue 102)).tileRuns 0 = true ∧ (rowDue 102).pend = [] ∧
    (rowDue 102).isle.count = 0 + 31 + 71 ∧ (rowDue 104).isle.count = 0 + 32 + 72 := by decide +kernel
theorem test_mx_row_zero : (match owed (.mxRowWrite 0) (lessonOf 200 (rowDue 102)) with
    | [w] => w.due == 102 && (match w.op with | .acc b r d _ => b == 0 && r == 31 && d == 0 | _ => false)
    | _ => false) = true := by decide +kernel

theorem witness_Loads : (addressed 0).tileRuns 0 = true ∧ (∀ k, (addressed 0).messageRegion k = none) ∧
    (addressed 0x7FFFF).reachKey 0 0 0x7FFFF = some 0x40007FFFF ∧ s0.reachKey 0 0 0x80000 = none ∧
    s0.reachKey 0 1 0x1FFFFFFFF = some 0x1FFFFFFFF ∧ s0.reachKey 0 1 0x200000000 = none ∧
    s0.reachKey 0 2 0x800000000 = some 0x800000000 ∧ (ldf 0 4).aux.extractLsb' 2 2 = (1 : BitVec 2) :=
  ⟨by decide +kernel, fun _ => rfl, by decide +kernel, by decide +kernel, by decide +kernel, by decide +kernel,
    by decide +kernel, by decide⟩
theorem test_lds_reach : (match ((after (.lds 0 (ldf 1 0)) s0).tile 0).hinge with
    | [h] => h.due == 20 && h.dest == .s 1 | _ => false) = true ∧
    ((after (.lds 0 (ldf 2 0)) s0).ts.discards = 1) ∧
    scalar (.lds 0 (ldf 0 0)) { addressed 4 with mem := { Mem.reset with bytes := [(0x400000005, 7)] } } = some 0x700 := by
  decide +kernel

/-- Tile 0's refill region. -/
def refill : State :=
  { s0 with cq := { Regions.reset with table := [(256, { Region.reset with kind := .localRegion, slotsLog := 7 })] } }

theorem witness_InstructionRefill : refill.tileRuns 0 = true ∧ refill.dg.debugMode = false ∧ (ldf 1 0).reach = 1 ∧
    (refill.region 256).kind = .localRegion ∧ (s0.region 256).kind ≠ .localRegion ∧
    (lesson (atCycle 100)).lastCycle 0 = true ∧ (lesson (atCycle 100)).bell.lessonLength ≤ 100 ∧
    (lesson (atCycle 99)).lastCycle 0 = true ∧ (lesson (atCycle 98)).lastCycle 0 = false ∧
    (atCycle 99).isle.stopAt = none ∧ 99 + 1 = (lesson live).bell.lessonLength := by decide +kernel
theorem test_ldi_underrun : bit (after (.ldi 0 (ldf 1 0)) s0).bell.lessonCauses 1 = true ∧
    (after (.ldi 0 (ldf 1 0)) s0).cq.underruns = 1 ∧ after (.ldi 0 (ldf 0 0)) s0 = s0 := by decide +kernel

theorem witness_Stores : s0.tileRuns 0 = true ∧ (stfl 2).reach ≠ 3 ∧ s0.reachKey 0 0 0 = some 0x400000000 ∧
    s0.reachKey 0 1 0 = some 0 ∧ s0.reachKey 0 2 0 = none := by decide +kernel
theorem test_stv_layer : (after (.stv 0 (stfl 1)) s0).mem.slices.length = 1 ∧
    (match ((after (.stv 0 (stfl 1)) s0).slice 0 0).writes with | [w] => w.arrival == 6 | _ => false) = true := by
  decide +kernel

theorem witness_Sends : s0.tileRuns 0 = true ∧ s0.dg.debugMode = false ∧ s0.fenced 1 = false ∧
    ({ s0 with ts := { Stamps.reset with fences := [(1, 1)] } } : State).fenced 1 = true := by decide +kernel
theorem test_send_minimum : (match ((after (.sendv 0 2 3 1 4) (lesson { live with s := [(3, 30)] })).tile 1).hinge with
      | [h] => h.due == 30 && h.dest == .v 4 | _ => false) = true ∧
    bit (after (.sendv 0 2 3 1 4) (lesson { live with s := [(3, 29)] })).bell.lessonCauses 0 = true := by decide +kernel

/-- Region 0 open in a lesson. -/
def landing0 : State := { s0 with cq := { Regions.reset with table := [(0, { Region.reset with kind := .localRegion })] } }

theorem witness_ReductionsAndPuts : s0.tileRuns 0 = true ∧ (s0.region 0).kind = .off ∧
    ({ s0 with cq := { Regions.reset with table := [(0, { Region.reset with kind := .forward, homePart := 1 })] }
               job := { job1 with high := 1 } } : State).region 0 = { Region.reset with kind := .forward, homePart := 1 } ∧
    inBox 0 1 1 = true ∧ firstAxis 0 1 = some 0 ∧ s0.rt.drain = false ∧ inBox 0 0 1 = false ∧
    (landing0.region 0).kind = .localRegion := by decide +kernel
theorem test_red_minimum : (after (.red 0 1 3 5) (lesson { live with s := [(3, 20)] })).mem.redFlight.length = 1 ∧
    bit (after (.red 0 1 3 5) (lesson { live with s := [(3, 19)] })).bell.lessonCauses 3 = true := by decide +kernel

theorem witness_ControlScalars : s0.tileRuns 0 = true ∧ (0xFFF : BitVec 20).toNat < 4096 ∧ 4096 ≤ (0x1000 : BitVec 20).toNat ∧
    12 ≤ (12 : BitVec 4).toNat ∧ 14 ≤ (14 : BitVec 5).toNat := by decide +kernel
theorem witness_RandomAndTensor : s0.tileRuns 0 = true := by decide +kernel
theorem test_rand_due : dueOf (.rand 0 1 2 0 0) s0 = some 7 ∧ owed (.rand 0 1 2 0 3) s0 = [] ∧
    ((after (.dgsel 0 9) s0).tile 0).tensor = 9 := by decide +kernel

theorem witness_ControlFlow : (lesson looping).tileRuns 0 = true ∧ (lesson looping).dg.debugMode = false ∧
    looping.pc < (9 : BitVec 10).toNat ∧ looping.loops.length < 4 ∧ looping.loops[0]? = some ⟨2, 9, 2, 0⟩ := by
  decide +kernel
theorem test_brc_takes : ((after (.brc 0 0 0 8) (lesson { looping with loops := looping.loops.take 1 })).tile 0).branch = some 8 ∧
    ((after (.brc 0 0 1 8) (lesson { looping with loops := looping.loops.take 1 })).tile 0).branch = none ∧
    ((after (.brc 0 0 0 10) (lesson { looping with loops := looping.loops.take 1 })).tile 0).branch = none := by
  decide +kernel
theorem witness_NextBundle : (lesson looping).tileRuns 0 = true ∧ looping.drained = false ∧ looping.pc < 1024 ∧
    looping.branch = none ∧ (⟨4, 5, 3, 2⟩ : LoopLevel).trips ≤ 2 + 1 ∧ looping.loops = [⟨2, 9, 2, 0⟩] ++ [⟨4, 5, 3, 2⟩] := by
  decide +kernel
theorem test_endl : ((after (.resultWriteback 0) (after (.endl 0) s0)).tile 0).pc = 1024 := by decide +kernel

/-- SETS s1, 5 in the CT slot: opcode 4, sd in [9:5], imm in [29:10]. -/
def setsWord : Bundle := (BitVec.ofNat 256 (4 + 2 ^ 5 * 1 + 2 ^ 10 * 5)) <<< 224

/-- Bundle 0 is the SETS, in a tile whose lesson gives it a bundle set. -/
def fetching : State := lesson { live with ib := [(0, setsWord)] }

theorem witness_BundleFetch : fetching.tileRuns 0 = true ∧ fetching.dg.cntOn = 0 ∧ (fetching.tile 0).issued = false ∧
    fetchUe (fetching.tile 0) = [] ∧ fetchUe { live with ibUe := [0] } ≠ [] ∧
    setsWord.extractLsb' 224 5 = (4 : BitVec 5) := by decide +kernel
theorem test_fetch_sets : scalar (.bundleFetch 0) fetching = some 5 ∧
    ((after (.bundleFetch 0) fetching).tile 0).issued = true := by decide +kernel

/-- Between lessons. -/
def resting0 : State := { s0 with bell := Bell.reset }

theorem witness_WriteArbitration : (lesson { live with pend := [wr 0 .ct 0 1, wr 0 .ld 0 2] }).tileRuns 0 = true ∧
    ({ s0 with bell := Bell.reset } : State).bell.phase ≠ .lesson ∧
    ({ s0 with ts := { Stamps.reset with fences := [(0, 1)] } } : State).fenced 0 = true ∧
    (s0.tileIsle 0).stopped = false ∧
    (lesson { live with isle := { Island.reset with stopAt := some 0 } }).tileRuns 0 = true ∧
    (resting0.tileRuns 0 = false ∧ resting0.fenced 0 = false ∧ (resting0.tileIsle 0).stopped = false) := by decide +kernel

/-- An entry due in cycle 20. -/
def entry (st : HingeStatus) (id : Nat) : HingeItem :=
  { id := id, issue := 0, due := 20, slot := .ld, dest := .s 3, source := 1, tagBell := 0, tagAttempt := 0, data := 9
    status := st }

def hinged (c : Nat) (l : List HingeItem) : State := lesson { atCycle c with hinge := l }

/-- A transposing load of tile 0 whose granules still come, or are missing. -/
def filled (missing : Bool) : Tile := { live with fills := [(7, { emptyFill with missing := missing })] }

theorem witness_Hinges : (hinged 19 [entry .flight 4]).tileRuns 0 = true ∧
    ((hinged 19 [entry .flight 4]).tile 0).hinge.find? (fun g => g.id == 4) = some (entry .flight 4) ∧
    (entry .flight 4).due = 19 + 1 ∧ (entry .flight 4).tagBell = s0.bell.number.setWidth 8 ∧
    ¬((1 : BitVec 8) = s0.bell.number.setWidth 8) ∧ (hinged 19 []).bell.gathered = false ∧
    (hinged 20 [entry .flight 4]).tileRuns 0 = true ∧ resting0.tileRuns 0 = false ∧
    (19 < 20 ∧ ¬(20 < 20)) ∧ (tabGet emptyFill (filled true).fills 7).missing = true ∧
    (tabGet emptyFill (filled false).fills 7).missing = false ∧
    (tabGet emptyFill (filled false).fills 7).granules.length ≠ 16 := by decide +kernel
theorem test_hinge_holds : ((after (.hingeEntryArrival 0 4) (hinged 19 [entry .flight 4])).tile 0).hinge = [entry .held 4] ∧
    ((after (.hingeEntryArrival 0 4) (hinged 20 [entry .flight 4])).tile 0).hinge = [] ∧
    (((after (.hingeEntryArrival 0 4) (hinged 19 (entry .flight 4 :: (List.range 16).map fun k => entry .held (5 + k)))).tile
      0).hinge.map HingeItem.status).head? = some .lost := by decide +kernel
theorem test_hinge_releases : scalar (.hingeDueRelease 0) (hinged 19 [entry .held 4]) = some 9 ∧
    scalar (.hingeDueRelease 0) (hinged 19 [entry .flight 4]) = some 0 ∧
    bit (after (.hingeDueRelease 0) (hinged 19 [entry .flight 4])).bell.lessonCauses 0 = true := by decide +kernel

/-- An island with one cycle of debt, this many cycles after its last droop. -/
def indebted (c : Nat) : Island := { Island.reset with count := c, stretch := { Stretch.reset with debt := 1 } }

theorem witness_Stretching : islandExists .m4n8x3 0 = true ∧ s0.isleStopped 0 = false ∧ s0.bell.phase = .lesson ∧
    (s0.isle 0).count < s0.bell.lessonLength ∧ (s0.isle 0).lessonStretch = s0.bell.stretchBudget ∧
    (indebted 32).debt ≠ 0 ∧ (indebted 32).stretch.calm + 32 ≤ (indebted 32).count ∧
    (indebted 31).count < (indebted 31).stretch.calm + 32 ∧ islandExists .m4n8x3 0xFFFF = false ∧
    s0.isleStopped 0xFFFF = false := by decide +kernel
theorem test_droop : ((after (.droopDetect 0) s0).isle 0).debt = 1 ∧
    bit (after (.droopDetect 0) s0).bell.lessonCauses 5 = true ∧
    ((after (.stretchDebtRecovery 0) (lesson { live with isle := indebted 32 })).isle 0).debt = 0 ∧
    ((after (.stretchDebtRecovery 0) (lesson { live with isle := indebted 31 })).isle 0).debt = 1 := by decide +kernel

/-- A write of one granule at house address 0, and a read of it. -/
def wq (arrival : Nat) : WriteReq :=
  { arrival := arrival, port := 0, source := .tile 0, addr := 0, data := 5, bytes := fullBytes }
def rq (arrival : Nat) : ReadReq :=
  { arrival := arrival, port := 0, tile := some 0, addr := 0, size := .word, dest := .hinge 0 4 0 }
/-- One further write and read of another port, later. -/
def wq2 : WriteReq := { wq 7 with port := 1, addr := 512, source := .tile 1 }
def sliced (x : Slice) : State := { hinged 5 [entry (.awaiting 1) 4] with mem := { Mem.reset with slices := [(0, x)] } }

/-- A part whose half-layer 0 is off. -/
def gone0 : State := { s0 with mem := { Mem.reset with gate := [(0, 2)] } }

theorem witness_SliceRequests : (sliced { Slice.reset with writes := [wq 6] }).dg.cntOn = 0 ∧ s0.memOpen 0 = true ∧
    s0.memApplies 0 = true ∧ s0.messageRegion 0 = none ∧ s0.isRefill (rq 6) = false ∧ (6 ≤ 8 ∧ 8 ≤ 6 + 2) ∧ 6 + 2 < 9 ∧
    8 + 4 ≤ 12 ∧ (sliced { Slice.reset with writes := [wq 6, wq2] }).cq.pieces = [] ∧ ([wq 6, wq2] : List WriteReq).erase (wq 6) = [wq2] ∧
    Slice.reset.writeAt ≠ some 6 ∧ (rq 6).addr % 256 + (rq 6).size.bytes ≤ 256 ∧ s0.mem.hasUe 0 4 = false ∧
    (wq 6).rank < wq2.rank ∧ ¬(wq2.rank < (wq 6).rank) ∧ s0.mem.ue = [] ∧ s0.causeOpen = true ∧
    s0.memOpen 0x100000000 = true ∧ (gone0.memOpen 0 = false) := by decide +kernel
theorem test_slice_write : ((after (.sliceRequestServe 0 0 true 8) (sliced { Slice.reset with writes := [wq 6] })).slice 0
      0).window.length = 1 ∧
    (after (.sliceRequestServe 0 0 true 9) (sliced { Slice.reset with writes := [wq 6] })).mem.slices =
      (sliced { Slice.reset with writes := [wq 6] }).mem.slices ∧
    (after (.collisionWindowExpiry 0 0 12) (sliced { Slice.reset with window := [(8, wq 6)] })).mem.byte 0 = 5 ∧
    (after (.collisionWindowExpiry 0 0 11) (sliced { Slice.reset with window := [(8, wq 6)] })).mem.byte 0 = 0 := by
  decide +kernel
theorem test_slice_drop : ((after (.sliceRequestDrop 0 0 false 9) (sliced { Slice.reset with reads := [rq 6] })).dieRegs
      0).late = 1 ∧
    ((after (.sliceRequestDrop 0 0 false 8) (sliced { Slice.reset with reads := [rq 6] })).dieRegs 0).late = 0 := by
  decide +kernel

def contribution (t : BitVec 10) (x : Word) : Contribution :=
  { tile := t, due := 30, tagBell := 0, tagAttempt := 0, data := splat x }

/-- Group 0 of die 0: two contributions, FP32, to granule 0 (Table 8-5). -/
def reducing (l : List Contribution) (i : Option RedInstance) (d : BitVec 64) : State :=
  { s0 with mem := { Mem.reset with
      redFlight := if l = [] then [] else [(0, l)], groups := [(0, d)]
      instances := match i with | none => [] | some r => [(0, some r)] } }

def opened (l : List Contribution) : RedInstance := { due := 30, contributions := l, base := none, failed := false }

theorem witness_Reductions : (reducing [contribution 0 1] none (2 ^ 40 * 2)).dg.cntOn = 0 ∧
    s0.tagNow 0 0 = true ∧ 30 ≤ 30 ∧ groupCount (2 ^ 40 * 2) = 2 ∧
    (reducing [contribution 0 1] (some (opened [contribution 1 1])) (2 ^ 40 * 2)).redHeld 0 = 1 ∧
    tabGet none (reducing [contribution 0 1] (some (opened [contribution 1 1])) 0).mem.instances 0 =
      some (opened [contribution 1 1]) ∧
    tabGet [] (reducing [contribution 0 1] none 0).mem.redFlight 0 = [contribution 0 1] ∧
    groupMode (2 ^ 40 * 2) = false ∧ groupMode (2 ^ 40 * 2 + 2 ^ 51) = true ∧ s0.tagNow 1 0 = false ∧ s0.causeOpen = true ∧
    (reducing [] none 0).redHeld 0 < 4096 ∧ tabGet none (reducing [] none 0).mem.instances 0 = none ∧
    ({ opened [] with failed := true } : RedInstance).failed = true ∧ (0 : BitVec 10).toNat < (1 : BitVec 10).toNat := by decide +kernel
theorem test_red_sum :
    (((after (.reductionClose 0 0 30) (reducing [] (some (opened [contribution 1 0x40000000, contribution 0 0x3F800000]))
      (2 ^ 40 * 2))).slice 0 0).writes.map fun w => lane w.data 63) = [0x40400000] ∧
    bit (after (.reductionClose 0 0 30) (reducing [] (some (opened [contribution 0 1])) (2 ^ 40 * 2))).bell.lessonCauses 3 =
      true := by decide +kernel

/-- A piece for region 0 from tile 2, and the region: two slots of one granule at house address 0. -/
def piece : Piece :=
  { region := 0, data := splat 9, part := 0, tile := 2, engine := false, firmware := false, untagged := false
    tagBell := 0, tagAttempt := 0, arrival := none, port := 0 }
/-- The same piece on its way to the slice. -/
def piece3 : Piece := { piece with arrival := some 3 }
def landing (k : RegionKind) (tail : Word) : State :=
  { s0 with
    job := { job1 with state := .inSession }
    cq := { Regions.reset with
      pieces := [piece]
      table := [(0, { Region.reset with kind := k, slotsLog := 1, producerTile := 2, tailSh := tail })] } }

def waiting (tail : Word) : State :=
  { landing .localRegion tail with cq := { (landing .localRegion tail).cq with pieces := [piece3] } }
/-- The piece is in the window of its slice. -/
def windowed : State := after (.sliceRequestServe 0 1 true 3) (waiting 1)

theorem witness_PieceLanding : (landing .localRegion 1).cq.pieces.find? (fun p => p.region == 0) = some piece ∧
    ((landing .localRegion 1).region 0).producedBy piece = true ∧ s0.tagNow piece.tagBell piece.tagAttempt = true ∧
    ((landing .localRegion 1).region 0).hasRoom 0 = true ∧ ((landing .localRegion 2).region 0).hasRoom 0 = false ∧
    ((landing .localRegion 2).region 0).overrun = false ∧ (landing .localRegion 2).causeOpen = true ∧
    ((landing .off 0).region 0).kind ≠ .localRegion ∧ (landing .localRegion 1).memOpen 256 = true ∧
    ((landing .localRegion 1).slice 0 0).window = [] ∧ (landing .localRegion 1).job.image = none ∧
    (landing .localRegion 1).landingWindow 0 = none ∧ (landing .localRegion 1).landing 0 = 0 ∧
    (landing .localRegion 1).lessonOpen = true ∧ ((landing .localRegion 1).region 0).dropped = false ∧
    ((landing .localRegion 1).region 0).overrun = false ∧ { piece with untagged := true }.untagged = true ∧
    (landing .localRegion 1).memApplies 256 = true ∧ (landing .localRegion 1).mem.ue = [] ∧
    (waiting 1).landingSlice 0 = some (0, 1) ∧ (waiting 1).cq.pieces = [piece3] ∧ piece3.untagged = false ∧
    tabWf Slice.reset (waiting 1).mem.slices = true ∧ (waiting 1).landingKey 0 = 256 ∧ (waiting 1).memOpen 256 = true ∧
    (3 ≤ 5 ∧ 5 ≤ 3 + 2 ∧ 3 + 2 < 6) ∧ ((waiting 1).slice 0 1).writes = [] := by decide +kernel
theorem test_piece_lands : ((after (.pieceLanding ⟨0, 7⟩) windowed).region 0).tailSh = 2 ∧
    (after (.pieceLanding ⟨0, 7⟩) windowed).mem.byte 256 = 9 ∧
    ((after (.pieceLanding ⟨0, 6⟩) windowed).region 0).tailSh = 1 ∧
    bit (after (.pieceLanding ⟨0, 7⟩) (landing .localRegion 2)).bell.lessonCauses 2 = true ∧
    (after (.pieceLanding ⟨0, 7⟩) (landing .off 0)).cq.discards = 1 ∧
    ((after (.sliceRequestDrop 0 1 true 6) (waiting 1)).region 0).dropped = true := by decide +kernel

/-! ## The bell -/

/-- Part a of a job of parts 0 and 1 with root 0, whose lesson has ended on every tile. -/
def pair (a : FabricAddr) (b : Bell) : State :=
  { State.reset with
    bell := b, rc := { RollCall.reset with address := a }
    job := { job1 with members := 3, high := 1 } }

/-- A job of the one part, likewise. -/
def alone (b : Bell) : State := { State.reset with bell := b, job := job1 }

/-- Part 2 relays between the root 0 and nothing. -/
def relay (b : Bell) : State :=
  { State.reset with
    bell := b, rc := { RollCall.reset with address := 1 }
    job := { job1 with members := 1, high := 1 } }

def gathering : Bell := { Bell.reset with phase := .gather }
def over1 : Bell := { Bell.reset with phase := .lesson, lessonCauses := 0x80 }
def bellPkt (k : BitVec 4) (src : FabricAddr) (x : BitVec 128) : Packet :=
  { pkt with kind := k, cls := 0, source := src, length := 16, payload := x.setWidth _ }

theorem witness_GatherUpTheTree : (pair 1 over1).isMember = true ∧ (pair 1 over1).ringShort = none ∧
    (pair 1 over1).children = [] ∧ (pair 1 over1).isRoot = false ∧ (pair 1 over1).parentOf 1 = some 0 ∧
    (alone over1).isRoot = true ∧ (alone over1).children = [] ∧ (alone over1).isMember = true ∧
    (pair 0 over1).children = [1] ∧ (pair 0 over1).bellFresh (bellPkt 6 1 0) = true ∧
    (pair 0 { over1 with attempt := 1 }).bellFresh (bellPkt 6 1 0) = false ∧ over1.verdict = none ∧
    over1.childGather = [] ∧ over1.gathered = false ∧ (alone over1).bell.phase = .lesson ∧
    bit over1.lessonCauses 7 = true ∧ (alone gathering).bell.phase ≠ .lesson ∧
    ({ pair 1 over1 with rt := { Fabric.reset with rings := [(0, 2)] } } : State).ringShort ≠ none ∧
    (relay over1).isMember = false ∧ (relay over1).bell.phase = .lesson ∧ (relay Bell.reset).bell.phase = .idle ∧
    (relay Bell.reset).bellFresh (bellPkt 6 1 0) = true ∧ 1 ∈ (pair 0 over1).children ∧
    over1.noticed = [] ∧ over1.notices = [] ∧ ((bellPkt 6 1 0).kind = 6 ∧ (bellPkt 7 1 0).kind ≠ 6) := by decide +kernel
theorem test_verdict_forms :
    ((after .gatherStatusSend (alone over1)).bell.verdict.map GatherStatus.causes) = some 0x80 ∧
    ((after (.bellGather (bellPkt 6 1 (0x10001))) (pair 0 { over1 with gathered := true })).bell.verdict.map
      GatherStatus.causes) = some 0x81 ∧
    (after .gatherStatusSend (pair 1 over1)).bell.sent.map Packet.dest = [0] := by decide +kernel
theorem test_notice : (after (.bellNotice (bellPkt 0xD 1 0x20000)) (alone over1)).bell.noticeCauses = 2 := by
  decide +kernel

/-- An image that needs links of two lanes. -/
def wideImage : Image :=
  { digest := 0, profileB1 := false, determinism := [], minWidth := 2, elpMinor := 0, layers := 0, axes := 0, extent := []
    full := 0, serving := false, members := 1, prologue := 0, term := 0, epilogue := 0, sections := [] }
/-- Part 0 of the pair in a dirty recess with no link in service towards part 1. -/
def narrowed : State := { pair 0 gathering with job := { (pair 0 gathering).job with image := some wideImage } }

theorem witness_JobFaults : (alone gathering).isRoot = true ∧ (alone gathering).inSession = true ∧
    gathering.verdict = none ∧ (alone gathering).job.stop = none ∧ (4 : BitVec 4).toNat ≤ (4 : BitVec 4).toNat ∧
    ¬((alone over1).bell.phase = .gather) ∧ (alone gathering).job.image = none ∧
    ¬((4 : BitVec 4).toNat ≤ (3 : BitVec 4).toNat) ∧ (pair 1 gathering).isRoot = false ∧
    (pair 1 gathering).inSession = true ∧ narrowed.job.image = some wideImage ∧ 0 ∈ narrowed.routeLinks ∧
    narrowed.linkWidth 0 < wideImage.minWidth := by decide +kernel
theorem test_gather_timeout : (after .gatherTimeout (alone gathering)).bell.faultCode = 2 ∧
    after .gatherTimeout (alone over1) = alone over1 ∧
    ((alone { gathering with attempt := 4, replayLimit := 4 }).dirtyCheck false).bell.faultCode = 1 ∧
    ((alone { gathering with attempt := 3, replayLimit := 4 }).dirtyCheck true).bell.faultCode = 5 ∧
    (narrowed.dirtyCheck true).bell.faultCode = 4 ∧
    ((pair 1 gathering).dirtyCheck true).out = [.firmware 0 (.jobEnd 7 5)] := by decide +kernel

def env0 : Surroundings := { consumed := [], host := [], meanPower := 0, dmaErrors := [] }
def clean : GatherStatus := { causes := 0, first := none }
def voted (g : GatherStatus) : Bell := { gathering with gathered := true, verdict := some g }

theorem witness_VerdictStartsRecess : (alone (voted clean)).isRoot = true ∧ (voted clean).verdict = some clean ∧
    (relay over1).isRoot = false ∧ (relay over1).isMember = false ∧ (relay over1).children = [] ∧
    (relay over1).parentOf 1 = some 0 ∧ (relay over1).bellFresh (bellPkt 7 0 0) = true ∧
    (relay { over1 with attempt := 1 }).bellFresh (bellPkt 7 0 0) = false ∧ (voted clean).phase = .gather ∧
    over1.verdict = none ∧ (pair 1 gathering).parentOf 1 = some (bellPkt 7 0 0).source ∧
    (pair 1 gathering).bellFresh (bellPkt 7 0 0) = true ∧ (pair 1 gathering).isMember = true ∧
    (relay over1).held = false ∧ (statusFrom (payload16 (bellPkt 7 0 0x10001))).causes ≠ 0 := by decide +kernel
theorem test_verdict_settles :
    (((landing .localRegion 2).settleRegions true).region 0).tail = 2 ∧
    (((landing .localRegion 2).settleRegions false).region 0).tailSh = 0 ∧
    (after (.bellVerdict (bellPkt 7 0 0x10001) env0) (relay over1)).bell.lastDirty = true ∧
    (after (.bellVerdict (bellPkt 7 0 0x10001) env0) (relay over1)).out = [.firmware 0 (.width 1 0)] ∧
    (after (.bellVerdict pkt env0) (alone (voted clean))).bell.phase = .recess := by decide +kernel

def resting : Bell := { Bell.reset with phase := .recess }
def ready0 (b : Bell) : Bell := { b with phase := .ready, ownReady := some { complete := true, quiet := false, step := 2 } }

/-- A dirty recess whose own ready is formed. -/
def stopping : Bell := { ready0 resting with lastDirty := true }
/-- No job. -/
def up0 : State := { State.reset with rt := { Fabric.reset with drain := true, drainAskers := [4] } }

theorem witness_ReadyUpTheTree : (pair 1 resting).isMember = true ∧ (pair 1 resting).workDone = true ∧
    (pair 1 resting).children = [] ∧ (pair 1 resting).parentOf 1 = some 0 ∧ (pair 1 resting).isRoot = false ∧
    (pair 1 { resting with withheld := true }).workDone = false ∧ (pair 0 resting).children = [1] ∧
    (bellPkt 8 1 0).tagBell = (pair 0 resting).tagBell ∧ (bellPkt 8 1 0).tagAttempt ≠ (1 : BitVec 4) ∧
    ({ pair 1 (ready0 resting) with rt := { Fabric.reset with drain := true } } : State).quiet = true ∧
    (relay resting).isMember = false ∧ (relay resting).placementDue = false ∧ (relay resting).rt.drain = false ∧
    (relay resting).bell.ownReady = none ∧ (relay resting).isRoot = false ∧ resting.recessDue = false ∧
    (pair 0 stopping).isRoot = true ∧ stopping.lastDirty = true ∧ (pair 0 stopping).held = false ∧ stopping.widthsDue = [] ∧
    (joinReady { complete := true, quiet := false, step := 2 } (readyFrom (payload16 (bellPkt 8 1 1)))).complete = true ∧
    (pair 1 resting).attachedFns = [0] ∧ up0.inSession = false := by decide +kernel
theorem test_ready : (after (.readySend env0) (pair 1 resting)).bell.sent.map (fun q => (q.kind, q.dest)) = [(8, 0)] ∧
    (after .drainQuiet { pair 1 (ready0 resting) with rt := { Fabric.reset with drain := true } }).bell.ownReady =
      some { complete := true, quiet := true, step := 2 } ∧
    (after (.bellReady (bellPkt 8 1 1)) { pair 0 stopping with job := { (pair 0 stopping).job with stop := some false } }).bell.phase =
      .stopped ∧ (after .drainQuiet up0).out = [.firmware 4 (.done 0 0x40 0 [])] := by decide +kernel

theorem witness_ReleaseTravels : (alone (ready0 resting)).isRoot = true ∧
    (alone (ready0 resting)).readyAll = some { complete := true, quiet := false, step := 2 } ∧
    (alone (ready0 resting)).held = false ∧ (alone (ready0 resting)).bell.release = none ∧
    (alone (ready0 resting)).dg.paired = false ∧ (alone { ready0 resting with reverify := [1] }).held = true ∧
    (pair 1 (ready0 resting)).parentOf 1 = some 0 ∧ (pair 1 (ready0 resting)).children = [] ∧
    (pair 1 (ready0 resting)).isMember = true ∧ (relay resting).isMember = false ∧
    (pair 1 resting).parentOf 1 ≠ some 5 ∧ (alone (ready0 resting)).bell.widthsDue = [] ∧
    (alone (ready0 resting)).lockstepAgrees = true ∧ (alone (ready0 resting)).rt.drain = false ∧
    (alone resting).readyAll = none ∧ (pair 1 (ready0 resting)).holdsRelease { releaseFrom [] with bell := 7 } = false ∧
    (bellPkt 9 0 7).kind = 9 ∧ (pair 1 (ready0 resting)).bell.release = none ∧ (2048 ≤ 2048 ∧ ¬(2048 ≤ 2047)) := by decide +kernel
theorem test_release_issue :
    ((after (.releaseIssue 50) (alone { ready0 resting with recessMin := 50, number := 7 })).bell.release.map fun r =>
      (r.bell, r.attempt)) = some (8, 0) ∧
    ((after (.releaseIssue 50) (alone { ready0 resting with recessMin := 50, number := 7, attempt := 1, lastDirty := true
        })).bell.release.map fun r => (r.bell, r.attempt)) = some (7, 2) ∧
    (after (.releaseIssue 49) (alone { ready0 resting with recessMin := 50 })).bell.release = none := by decide +kernel

def issued : Release := { targetNs := 0, step := 3, attempt := 2, index := 0, bell := 7 }

theorem witness_ReleaseStartsLesson : (alone { ready0 resting with release := some issued }).inSession = true ∧
    (alone { ready0 resting with release := some issued }).isMember = true ∧
    (alone { ready0 resting with release := some issued }).dg.debugMode = false ∧
    (alone { ready0 resting with release := some issued }).job.order ≠ 0x8015 ∧
    (alone { ready0 resting with release := some issued }).dg.cntWaits = [] ∧ (alone resting).bell.release = none ∧
    (relay { resting with release := some issued }).isMember = false ∧ State.reset.inSession = false ∧
    ({ s0 with ts := { Stamps.reset with fences := [(1023, 1)] } } : State).fenced 1023 = true ∧
    ({ kind := 0, tile := 0, value := 7 } : Breakpoint).value = issued.bell.setWidth 64 := by decide +kernel
theorem test_release_number : (((alone resting).releaseBell issued).bell.number, ((alone resting).releaseBell issued).bell.attempt) = (7, 2) := by
  decide +kernel
theorem test_release_clears : (Tile.release { Tile.reset with s := [(1, 5)], ib := [(3, 1)], hinge := [entry .held 4, entry .lost 5] } 7 true .reset).s = [] ∧
    (Tile.release { Tile.reset with s := [(1, 5)], ib := [(3, 1)], hinge := [entry .held 4, entry .lost 5] } 7 true .reset).discards = 1 ∧
    (Tile.release { Tile.reset with s := [(1, 5)], ib := [(3, 1)] } 7 true .reset).ib = [(3, 1)] := by decide +kernel

/-! ## Temperature, power, resets and start-up -/

/-- A part in P0 after start-up. -/
def up : State :=
  { State.reset with
    pw := { Power.reset with
      state := .p0, startup := 7, firmware := true, domainA := true, domainB := true, domainC := true, rom := true
      voltage := 4800 }
    pins := { Pins.reset with vsb := true, inputGood := true, partRst := false, refclk := true }
    nv := { State.reset.nv with charged := true, chargePct := 100 }
    hi := { State.reset.hi with ready := true } }

def readings (i : Nat) (x : BitVec 16) : List (BitVec 16) := (List.replicate 80 0).set i x

/-- A member of a job in a lesson, powered up. -/
def member0 : State := { up with job := job1, bell := { Bell.reset with phase := .lesson, lessonLength := 100 } }

theorem witness_Temperature : up.pw.firmware = true ∧ State.reset.pw.firmware = false ∧ up.pw.domainA = true ∧
    up.pw.thermalTrip = false ∧ sensorThere up.fused.variant 63 = true ∧ sensorThere up.fused.variant 64 = true ∧
    (840 : Int) ≤ ((readings 63 840).getD 63 0x8000).toInt ∧ ((readings 63 839).getD 63 0x8000).toInt < 840 ∧
    (920 : Int) ≤ ((readings 0 920).getD 0 0x8000).toInt ∧ (880 : Int) ≤ ((readings 64 880).getD 64 0x8000).toInt ∧
    up.cool = true ∧ up.inSession = false ∧ (alone resting).inSession = true ∧ up.working = false ∧ up.pw.tripped = false ∧
    ({ up with pw := { up.pw with temps := [(3, 721)] } } : State).cool = false ∧ up.cutting = false ∧
    (760 : Int) ≤ ((readings 72 760).getD 72 0x8000).toInt ∧ sensorThere up.fused.variant 72 = true ∧
    (680 : Int) ≤ ((readings 72 680).getD 72 0x8000).toInt ∧ up.isMember = false ∧ member0.isMember = true ∧
    member0.inSession = true ∧ member0.causeOpen = true ∧ up.pins.thermTrip = false ∧
    (after (.temperatureSample (readings 63 840)) up).pins.thermTrip = true ∧ up.pw.startup = 7 ∧
    97 * limitWatts 3 * 20 ≤ 100 * (limitWatts 3 * 20) ∧ up.pw.powerTrip = false ∧ (up.pw.samples ++ [1]).length ≠ 20 := by
  decide +kernel
theorem test_trip : (after (.temperatureSample (readings 63 840)) up).pins.thermTrip = true ∧
    (after (.temperatureSample (readings 63 839)) up).pins.thermTrip = false ∧
    (after (.temperatureSample (readings 63 920)) up).pw.state = .p2 ∧
    (after (.temperatureSample (readings 64 880)) up).pw.state = .p3 ∧
    (after (.temperatureSample (readings 0 759)) up).pw.throttleDue = false ∧
    (after (.temperatureSample (readings 0 760)) up).pw.throttleDue = true ∧
    (after (.temperatureSample (readings 63 840)) up).pw.thermalStep = 4 ∧
    (after (.temperatureSample (readings 72 680)) up).pw.stacksHot = true ∧
    bit (after (.temperatureSample (readings 63 840)) member0).bell.lessonCauses 7 = true := by decide +kernel
theorem test_idle : (after .p1IdleEntry up).pw.state = .p1 := by decide +kernel

theorem witness_PowerControl : up.job.state = .none ∧ up.distributing = false ∧ up.sec.update = none ∧ up.pw.state = .p0 ∧
    (after .pwCtrlEnterP2 up).pw.state = .p2 ∧ (after .pwCtrlEnterP2 up).pw.domainA = false ∧
    (0x94000001 : Word).extractLsb' 16 16 = (0x9400 : BitVec 16) ∧ (0x94000002 : Word).extractLsb' 0 2 = (2 : BitVec 2) ∧
    (alone resting).job.state ≠ .none ∧ up.pw.firmware = true ∧ State.reset.pw.firmware = false ∧ up.nv.commits = [] ∧
    up.pw.startup = 7 ∧ (after .pwCtrlEnterP2 up).pw.firmware = true ∧ (0x93FF0001 : Word).extractLsb' 16 16 ≠ (0x9400 : BitVec 16) ∧
    ({ up with pw := { up.pw with state := .p3 } } : State).pw.state = .p3 := by decide +kernel
theorem test_power : (after .pwCtrlLeaveP2 (after .pwCtrlEnterP2 up)).pw.startup = 5 ∧
    (after .pwCtrlEnterP3 up).pw.state = .p3 ∧ (after (.pwResetPart 0x94000002) up).pw.resetPending = true ∧
    (after (.pwResetPart 0x94000001) up).pw.resetPending = false ∧ (after (.pwResetCompute 0x94000001) up).pw.lastReset = 5 := by
  decide +kernel

def dark : State := { State.reset with pins := { Pins.reset with vsb := true, partRst := false, refclk := true } }
def mounted : State := { up with pw := { up.pw with startup := 4, domainA := false } }
def tested : State := { up with pw := { up.pw with startup := 5 } }

/-- Slot B holds an image whose trial is to begin. -/
def trialled : State := { dark with sec := { dark.sec with slotB := { dark.sec.slotA with state := .trial, activate := true } } }

theorem witness_StartUpSteps : dark.pins.vsb = true ∧ State.reset.pins.vsb = false ∧ dark.sec.slotA.state = .good ∧
    dark.sec.slotB.state = .empty ∧ dark.sec.antiRollback.toNat ≤ dark.sec.slotA.security.toNat ∧ dark.cutting = false ∧
    dark.pw.startup = 0 ∧ (after .inputGood dark).pw.startup = 1 ∧ (after .inputGood dark).mountFails = false ∧
    ({ up with nv := { up.nv with stackTab := (List.range 3).map fun k => (k, { Stack.reset with state := .failed }) } } :
      State).mountFails = true ∧
    mounted.rc.window = false ∧ State.reset.nv.charged = false ∧ tested.fenced 5 = false ∧ tested.nv.restores = [] ∧
    dark.pins.inputGood = false ∧ dark.pins.refclk = true ∧ dark.pins.partRst = false ∧ up.pw.rom = true ∧ dark.pw.rom = false ∧
    trialled.sec.slotB.state = .trial ∧ trialled.sec.slotB.activate = true ∧ up.pins.inputGood = true ∧
    mounted.pw.startup = 4 ∧ mounted.nv.charged = true ∧ tested.pw.domainA = true ∧ tested.pw.startup = 5 ∧
    (after .inputGood dark).mountFails = false := by
  decide +kernel
theorem test_startup : (after (.storeMount) (after .inputGood dark)).pw.startup = 4 ∧ (after .inputGood trialled).sec.running = 1 ∧
    (after .inputGood { dark with sec := { dark.sec with slotA := .reset } }).sec.recovery = true ∧
    (after .domainAPowerUp mounted).pw.domainA = true ∧ (after (.selfTestComplete [(5, 1)]) tested).fenced 5 = true ∧
    (after .startupRestoreComplete (after (.selfTestComplete []) tested)).hi.ready = true := by decide +kernel

/-- Part 1 of a job of two, powered up. -/
def member2 : State :=
  { up with rc := { RollCall.reset with address := 1 }, job := { job1 with members := 3, high := 1 } }

theorem witness_Resets : up.pw.state = .p0 ∧ up.nv.commits = [] ∧ up.rt.role ≠ 2 ∧ up.pins.vsb = true ∧
    up.inSession = false ∧ up.nv.dist = none ∧ up.sec.trial = false ∧ up.hi.ready = true ∧ up.cutting = false ∧
    ({ up with pw := { up.pw with resetPending := true } } : State).pw.resetPending = true ∧
    ({ up with sec := { up.sec with trial := true } } : State).mayConfirm = true ∧ up.mayConfirm = false ∧
    (5 : BitVec 6) ≠ 0 ∧ dark.pins.inputGood = false ∧ up.fencesDue = [] ∧ up.pins.partRst = false ∧ up.pins.inputGood = true ∧
    member2.inSession = true ∧ member2.isMember = true ∧ member2.isRoot = false ∧ up.nv.storeFault = false ∧
    ({ up with pw := { up.pw with firmware := false } } : State).pw.firmware = false := by decide +kernel
theorem test_resets : (after (.partReset 1) up).pw.lastReset = 1 ∧ (after .inputFailure up).pw.lastReset = 7 ∧
    (after .vsbLoss up).pins.vsb = false ∧ (after .refclkLoss up).pw.firmware = false ∧
    (after .trialWatchdogExpiry { up with sec := { up.sec with trial := true } }).pw.lastReset = 3 ∧
    (after .inputFailure member2).out.contains (.firmware 0 (.inputFailure 1)) = true := by decide +kernel
theorem test_flr : ((after (.flr 5) up).mbox 5).life = (up.mbox 5).life + 1 ∧ ((after (.flr 5) up).mbox 6).life = (up.mbox 6).life ∧
    (after .trialConfirm { up with sec := { up.sec with trial := true } }).nv.commits.map Commit.type = [8] := by
  decide +kernel

/-! ## Registers, management bus and board -/

def sampling (id : BitVec 16) : State := { up with ts := { Stamps.reset with sampling := some id } }

/-- Tile 0, this many cycles after its release, is to be sampled. -/
def sampledAt (c : Nat) : State := { sampling 0 with tiles := [(0, atCycle c)] }

theorem witness_RegisterAccess : (1 : BitVec 3).toNat ≤ 4 ∧ 4 < (5 : BitVec 3).toNat ∧ up.hi.ready = true ∧
    State.reset.hi.ready = false ∧ up.readReg 1 true 0xFFFFFFFC = none ∧ (up.fn 0).egSize.toNat < 7 ∧
    ({ up with hi := { up.hi with fns := [(1, { Func.reset with egSize := 20 })] } } : State).fn 1 =
      { Func.reset with egSize := 20 } ∧
    up.ts.sampling = none ∧ islandExists up.fused.variant 8192 = true ∧ (sampling 8192).unpowered 8192 = false ∧
    (sampling 8192).beforeStart = false ∧ ((sampling 8192).isle 8192).count = 0 ∧ ((sampling 0).isle 0).count = 0 ∧
    (sampledAt 5).ts.sampling = some 0 ∧ ((sampledAt 5).isle 0).count ≠ 0 ∧ (sampledAt 5).unpowered 0 = false ∧
    islandExists up.fused.variant 0x9000 = false ∧ (0x94000001 : Word).extractLsb' 0 2 = (1 : BitVec 2) ∧
    bit (1 : Word) 0 = true := by decide +kernel
theorem test_registers : (after (.registerWrite 0 false 0x202000 0x12345) up).ts.select = 0x2345 ∧
    (after (.registerWrite 0 false 0x202000 1) State.reset).ts.select = 0 ∧
    (after (.accessViolation 3 false 0x40 2) up).hi.violKind = 2 ∧ (after .tsSampleDone (sampling 8192)).ts.done = true ∧
    (after .tsSampleDone (sampledAt 5)).ts.stamp = 5 ∧
    (after .tsSampleDone { sampling 0 with tiles := [(0, { atCycle 0 with before := { Island.reset with count := 9, bell := 2 } })] }).ts.stamp =
      2 * 2 ^ 24 + 9 := by decide +kernel

def addressedBus : State := { up with rc := { up.rc with dynamic := some 8 } }
def tap (i : TapInstr) (d : List Bool) : State := { up with dg := { up.dg with tapIr := i, tapData := d } }

def linkedUp : State := up.setLink 0 { Link.reset with phase := .active, width := 8 }

theorem witness_BoardCommands : 4 ≤ up.pw.startup ∧ up.pins.vsb = true ∧ State.reset.pins.vsb = false ∧
    (0x38 : BitVec 7) = 0x38 + up.rc.straps.setWidth 7 ∧ up.provisionedId ≠ 0 ∧ up.hasLink 31 = false ∧
    (1449 : BitVec 16).toInt < 1450 ∧ ¬((1450 : BitVec 16).toInt < 1450) ∧ (linkedUp.link 0).phase ≠ .down ∧
    addressedBus.rc.dynamic ≠ none ∧
    (1 : Byte) ≠ 0 ∧ (0xFE : Byte) ≠ 0xFF ∧ 4 ≤ (4 : BitVec 3).toNat ∧ (6 : BitVec 3).toNat ≤ 6 ∧ up.hasLink 0 = true ∧
    (tap .bypass []).dg.tapIr = .bypass ∧ (tap .idcode []).dg.tapIr = .idcode := by decide +kernel
theorem test_board : (after (.setEndpointId 1) addressedBus).rc.eid = 1 ∧ (after (.setEndpointId 1) up).rc.eid = 0 ∧
    (after (.i3cDynamicAddress 0x38 0) up).rc.dynamic = some 0x38 ∧
    bit ((after (.opticalReadingsRefresh 0 3 1 2 1449 4) linkedUp).link 0).feedOk 3 = false ∧
    (after (.testAccessPort (.shift [true, true])) (tap .bypass [])).out = [.tdo [false, true]] ∧
    ((after (.opticalReadingsRefresh 0 3 1 2 3 4) up).link 0).optics = [(3, { tx := 1, rx := 2, feed := 3, ber := 4 })] := by
  decide +kernel

/-! ## Half-layers, scrub, the persistent store and the stacks -/

def gated (g : BitVec 2) : State :=
  { up with mem := { Mem.reset with gate := if g = 0 then [] else [(1, g)], bytes := [(2 ^ 30 - 1, 7), (2 ^ 30, 8)] } }

def entry13 : MapEntry := { block := 1, adapter := false, object := 5, generation := 1, index := 0 }

/-- A quantum of the scrub with an uncorrectable word in the block of a restore-map entry. -/
def scrubbing : State :=
  { up with mem := { Mem.reset with ue := [8192] }, nv := { up.nv with restoreMap := [entry13] } }
/-- A half-layer that has opened in a session. -/
def openedGate : State := { gated 3 with mem := { (gated 3).mem with gateOpened := [1] } }

theorem witness_HalfLayersAndScrub : (gated 1).gateOf 0 1 = 1 ∧ (gated 1).writesOpen 0 1 = false ∧
    ({ gated 1 with mem := { (gated 1).mem with slices := [(0, { Slice.reset with
        window := [(0, { wq 0 with addr := 2 ^ 30 })] })] } } : State).writesOpen 0 1 = true ∧
    (gated 3).gateOf 0 1 = 3 ∧ tabWf 0 (gated 3).mem.gate = true ∧ openedGate.gateOf 0 1 = 3 ∧ openedGate.mem.gateOpened = [1] ∧
    up.pw.firmware = true ∧ scrubbing.inQuantum 0 0 8192 = true ∧ 8 * 8192 / 65536 = entry13.block ∧
    (gated 3).inSession = false ∧ up.pw.domainA = true ∧ (alone resting).inSession = true := by
  decide +kernel
theorem test_half_layer : (after (.halfLayerClosed 0 1) (gated 1)).mem.bytes = [(2 ^ 30 - 1, 7)] ∧
    (after (.halfLayerClosed 0 1) (gated 1)).gateOf 0 1 = 2 ∧ (after (.halfLayerOpened 0 1) (gated 3)).gateOf 0 1 = 0 ∧
    ((after .scrubIdleTick up).dieRegs 0).scrubQuantum = 1 := by decide +kernel

def gen1 (st : GenState) : GenEntry :=
  { adapter := false, object := 5, generation := 1, state := st, tenant := 0, digest := 7, share := [(0, 4)] }

def committing (e : Effect) (x : StackState) : State :=
  { up with nv := { up.nv with
      commits := [{ type := 6, sequence := 5, started := true, effect := e, after := .nothing }]
      stackTab := (List.range 3).map fun k => (k, { Stack.reset with state := x }) } }

theorem witness_CommitsComplete : (committing .confirm .online).nv.charged = true ∧
    (committing .confirm .online).copyStacks ≠ [] ∧ (committing .confirm .failed).copyStacks = [] ∧
    (committing .confirm .online).cutting = false ∧ (committing .confirm .online).shuttingDown = false ∧
    ({ up with nv := { up.nv with charged := false } } : State).nv.commits = [] := by decide +kernel
theorem test_commit : ((after (.recordCommitDone []) (committing (.generations [gen1 .prepared]) .online)).copies 2).map
      (fun c => (c.type, c.sequence)) = [(6, 5)] ∧
    (after (.recordCommitDone []) (committing .confirm .failed)).nv.storeFault = true := by decide +kernel

def worn (n : Nat) : State :=
  { up with nv := { up.nv with eraseBlocks := [(0, { erases := 0, reads := n })] } }

def block13 : StoreBlock :=
  { kind := kindOf false, object := 5, generation := 1, index := 0, stack := 0, number := 0, eraseBlock := 0, ciphertext := [], tag := 0 }
def restoring : State :=
  { up with nv := { up.nv with restores := [entry13], generations := [gen1 .committed], blocks := [block13] } }

/-- Whether the block decrypts is the uninterpreted Config.gcmOpen's. -/
theorem witness_StoreReads : restoring.nv.restores = [entry13] ∧ restoring.inSession = false ∧
    restoring.nv.restoring = false ∧ restoring.unheld entry13 = false ∧
    restoring.storeBlock (kindOf false) 5 1 0 = some block13 ∧ restoring.genOf false 5 1 = some (gen1 .committed) ∧
    restoring.mem.ue = [] ∧ restoring.memOpen 65536 = true ∧ (worn 500000).mayProgram = true ∧
    ((worn 500000).stack 0).state = .online ∧ 500000 ≤ ((worn 500000).eraseBlock 0 0).reads ∧
    0 < stacksOf up.fused.variant ∧ ((worn 499999).eraseBlock 0 0).reads < 500000 := by decide +kernel
theorem test_relocate : ((after (.readDisturbRelocate 0 ⟨0, false⟩) (worn 500000)).stack 0).disturb = 1 ∧
    ((after (.readDisturbRelocate 0 ⟨0, false⟩) (worn 499999)).stack 0).disturb = 0 ∧
    ((after (.retentionRefresh 0 ⟨0, true⟩) (worn 0)).stack 0).refresh = 1 := by decide +kernel

/-! ## Links -/

def linked (y : Link) : State := up.setLink 0 y
def phased (p : LinkPhase) : Link := { Link.reset with phase := p, width := 8 }
def flit (n : BitVec 12) : SentFlit :=
  { seq := n, first := true, channel := 2, body := 0, cls := 1, tagBell := 0, tagAttempt := 0 }
def goodCrc : Word := crc32c (toBytes 2 (0 : BitVec 16) ++ toBytes 60 (0 : BitVec 480))

/-- A link with one NEIGHBOUR packet to send. -/
def queued : State := linked { phased .active with txQueue := [{ pkt with kind := 0xC, cls := 1 }] }

theorem witness_FlitTraffic : ((linked (phased .active)).link 0).phase = .active ∧ up.dg.cntOn = 0 ∧
    ((linked (phased .active)).link 0).expected = 0 ∧ goodCrc + 1 ≠ goodCrc ∧
    ({ phased .active with replayBuffer := [flit 3] } : Link).storedTag = none ∧ (phased .active).replayBuffer = [] ∧
    (phased .active).groupFailed = false ∧ (stf []).rxOk = (phased .active).peerRxOk ∧ (stf []).ackSeq = (flit 0).seq ∧
    127 ≤ ({ phased .active with sinceControl := 127 } : Link).sinceControl ∧ 126 < 127 ∧ up.hasLink 0 = true ∧
    ({ phased .active with txFirst := 0, rxFirst := 0, width := 2 } : Link).rxLanes = [0, 1] ∧
    ({ phased .active with lastResend := some (3, 5) } : Link).lastResend = some (3, 5) ∧ (204 < 5 + 200 ∧ 5 + 200 ≤ 205) ∧
    (phased .active).txFlits = [] ∧ up.nextPacket 0 (phased .active) = none ∧ 0 < 64 * (phased .active).width ∧
    (queued.nextPacket 0 (queued.link 0)) = some { pkt with kind := 0xC, cls := 1 } ∧ (phased .negotiate).phase = .negotiate ∧
    (phased .degrade).phase = .degrade ∧ (phased .down).phase ≠ .active ∧ 1 ∈ (phased .active).rxLanes ∧
    tabGet [] (phased .active).lanes 1 = [] := by decide +kernel
theorem test_flits : ((after (.dataFlit 0 true 0 goodCrc) (linked (phased .active))).link 0).expected = 1 ∧
    ((after (.dataFlit 0 true 0 (goodCrc + 1)) (linked (phased .active))).link 0).crcErrors = 1 ∧
    ((after (.flitSlotTransmit 0) (linked { phased .active with resend := [flit 3], sinceControl := 126 })).link
      0).sinceControl = 127 ∧
    ((after (.replayTimeout ⟨0, 0⟩) (linked { phased .active with replayBuffer := [flit 3] })).link 0).resend = [flit 3] ∧
    ((after (.statusFlit 0 { stf (List.replicate 8 0) with ackValid := false, nak := true, nakSeq := 3 } 205)
      (linked { phased .active with replayBuffer := [flit 3], lastResend := some (3, 5) })).link 0).replays = 1 ∧
    ((after (.statusFlit 0 { stf (List.replicate 8 0) with ackValid := false, nak := true, nakSeq := 3 } 204)
      (linked { phased .active with replayBuffer := [flit 3], lastResend := some (3, 5) })).link 0).replays = 0 := by
  decide +kernel

def trained (v : List (Byte × Byte)) : TrainFlit := { trf v with width := 8 }

theorem witness_LinkTraining : up.hasLink 23 = true ∧ up.pw.domainB = true ∧ ((linked (phased .down)).link 0).phase = .down ∧
    ((linked (phased .negotiate)).link 0).rxOk = 0xFF ∧ ((linked (phased .negotiate)).link 0).feedOk = 0xFF ∧
    (trained [(1, 0)]).versions.head? = some (1, 0) ∧ up.rc.plan = none ∧ up.bell.sent = [] ∧ up.rc.links = [] ∧
    (phased .active).txFirst = 0 ∧ (phased .active).rxFirst = 0 ∧ up.inSession = false ∧ (1 : BitVec 8) ≠ 0 ∧
    up.hasLink 31 = false ∧ up.leftOut 0 = false ∧ (phased .lock).phase = .lock ∧ (phased .check).groupFailed = false ∧
    ((phased .negotiate).heardTrain (trained [(1, 0)])).usable = some (8, 0, 0) ∧
    ((phased .negotiate).heardTrain { trained [(1, 0)] with rxOk := 0 }).usable = none ∧
    ((phased .check).heardTrain { trained [(1, 0)] with rxOk := 1 }).groupFailed = true ∧
    ((phased .degrade).heardTrain { trained [(1, 0)] with rxOk := 0xF0 }).usable ≠ none ∧ (6 : BitVec 4) ≠ 5 := by
  decide +kernel
theorem test_training : ((after (.train ⟨0, 0⟩ (trained [(1, 0)])) (linked (phased .negotiate))).link 0).phase = .check ∧
    ((after (.train ⟨0, 0⟩ (trained [(2, 0)])) (linked (phased .negotiate))).link 0).phase = .failed ∧
    ((after (.linkCheckDone 0 0) (linked (phased .check))).link 0).phase = .active ∧
    ((after (.laneFail 0 7 false) (linked (phased .active))).link 0).phase = .degrade ∧
    ((after (.linkDown 0 1) (linked (phased .active))).link 0).reason = 1 ∧
    after (.linkDown 0 6) (linked (phased .active)) = linked (phased .active) ∧
    ((after (.laneFail 0 7 true) (linked (phased .active))).link 0).feedOk = 0x7F := by decide +kernel

/-! ## Fabric -/

/-- Part 0 of a ring of three on axis 0: directions 1 to coordinate 1. -/
def routed (d : Word) : State :=
  { linked (phased .active) with
    rt := { Fabric.reset with slice := 1, role := 1, routers := [(0, { Router.reset with extent := 3, dir := d, linkmap := 0 })] } }

/-- Two packets of one output wait at ports 8 and 9. -/
def waitingTwo : State := ((routed 0).arrive 0 8 pkt 0).arrive 0 9 pkt 1

theorem witness_PacketRouting : (0 : BitVec 2).toNat < (routed 0).axes ∧ (routed 0).rt.queue = [] ∧ 8 ≤ (8 : BitVec 4).toNat ∧
    ((routed 0).arrive 0 8 pkt 0).waitingAt 0 8 pkt = some ⟨0, 8, 0, pkt⟩ ∧ ((routed 0).arrive 0 8 pkt 0).mayLeave ⟨0, 8, 0, pkt⟩ = true ∧
    waitingTwo.mayLeave ⟨0, 9, 1, pkt⟩ = false ∧ waitingTwo.atFront ⟨0, 8, 0, pkt⟩ = true ∧
    waitingTwo.outputOf 0 pkt = waitingTwo.outputOf 0 pkt ∧ (routed 0).axes ≤ (3 : BitVec 2).toNat ∧
    pkt.kind = 1 ∧ pkt.cls ≠ 0 ∧ pkt.epoch = (routed 0).rt.epoch ∧ pkt.slice = (routed 0).rt.slice ∧
    ({ pkt with slice := 2 } : Packet).slice ≠ (routed 0).rt.slice ∧ dirOf ((routed 0).router 0) 0 pkt = 0 ∧
    laterAxis 0 (routed 0).rc.address 0 = none ∧ laterAxis 0 (routed 0).rc.address 0x10 = some 1 ∧
    dirOf ((routed 4).router 0) 0 { pkt with dest := 1 } = 1 ∧
    ((routed 4).link (mappedLink ((routed 4).router 0).linkmap 0 false (bundleIndex 0 1))).phase = .active := by decide +kernel
theorem test_routing : (after (.packetRoute 0 8 ⟨pkt, 0⟩) (routed 0)).rt.inbox = [pkt] ∧
    ((after (.packetRoute 0 8 ⟨{ pkt with slice := 2 }, 0⟩) (routed 0)).router 0).sliceDrops = 1 ∧
    (after (.packetRoute 0 8 ⟨{ pkt with dest := 0x10, vc := 1 }, 0⟩) (routed 0)).rt.queue =
      [⟨1, 8, 0, { pkt with dest := 0x10 }⟩] ∧
    (after (.packetRoute 0 9 ⟨pkt, 1⟩) waitingTwo).rt.inbox = [] := by
  decide +kernel

/-- A get list of one entry: after cycle 5, one granule of the part's own house address 0, for region 2. -/
def getImage : Image :=
  { digest := 0, profileB1 := false, determinism := [], minWidth := 0, elpMinor := 0, layers := 0, axes := 0, extent := []
    full := 0, serving := false, members := 1, prologue := 0, term := 0, epilogue := 0
    sections := [{ kind := 0x07, member := 0, id := 0, place := 0, dies := 0, bundles := 0, length := 16
                   bytes := [5, 0, 0, 0, 0, 0, 0, 0, 0, 0, 2, 0, 0, 0, 0, 0], digest := 0 }] }
def getting (inbox : List Packet) : State :=
  { s0 with job := { job1 with image := some getImage }, rt := { s0.rt with inbox := inbox, outstanding := [(9, 2)] } }
def gresp (tag : Nat) : Packet := { pkt with kind := 3, rest := BitVec.ofNat _ (256 * tag + 2) }
def ringed (role : Nat) : State :=
  { s0 with rt := { s0.rt with rings := [(0, BitVec.ofNat 128 role)] } }

/-- The part's step count has come to the get's start. -/
def getsDue : State := { getting [] with ts := { s0.ts with now := { s0.ts.now with ticks := 5 } } }
def greq : Packet := { pkt with kind := 2 }
def asking : State := { s0 with rt := { s0.rt with inbox := [pkt, greq] } }
def mcp : Packet := { pkt with kind := 4, untagged := true }

theorem witness_FabricPackets : (gresp 9).kind = 3 ∧ bit (gresp 9).rest 25 = false ∧
    (((gresp 9).rest.extractLsb' 8 17).toNat, (gresp 9).rest.extractLsb' 0 8) ∈ (getting []).rt.outstanding ∧
    (((gresp 8).rest.extractLsb' 8 17).toNat, (gresp 8).rest.extractLsb' 0 8) ∉ (getting []).rt.outstanding ∧
    (getting []).tagNow 0 0 = true ∧ (getting []).isMember = true ∧ inLayers (offsetOf 0) = true ∧
    getEntry (sectionBytes getImage 0x07 0 0) 0 1 0 = some (0, 0) ∧ natAt (sectionBytes getImage 0x07 0 0) 0 3 = 5 ∧
    (getting []).partAt 0 ≠ none ∧ up.mayTransfer = true ∧
    s0.treeHops 0 0 0 = [] ∧ ((ringed 1).ring 0).role = 1 ∧ ((ringed 1).ring 0).start = 0 ∧ ((ringed 1).ring 0).count = 1 ∧
    (ringed 1).memOpen ((ringed 1).ring 0).base = true ∧ ((ringed 3).ring 0).role = 3 ∧ ((ringed 2).ring 0).role = 2 ∧
    0 < ((ringed 3).ring 0).count ∧ ((ringed 2).ring 0).op = 0 ∧ getsDue.ts.now.ticks = 5 ∧ s0.ts.now.ticks < 5 ∧
    asking.rt.inbox.find? (fun q => q.kind == 2) = some greq ∧ inLayers (offsetOf 0x400000000) = false ∧
    (getting []).tagNow 1 0 = false ∧ mcp.kind = 4 ∧ mcp.untagged = true ∧ mcp.source = s0.rc.address ∧
    ({ s0 with rt := { s0.rt with drain := true } } : State).rt.drain = true ∧ up.mayTransfer = true ∧ s0.mayTransfer = false ∧
    s0.bell.phase = .lesson ∧ (getting []).job.image = some getImage ∧ up.job.image = none := by decide +kernel
theorem test_fabric : (after (.putPacket pkt) s0).cq.pieces.map Piece.region = [0] ∧
    (after (.getResp (gresp 9)) (getting [])).cq.pieces.map Piece.region = [2] ∧
    (after (.getResp (gresp 8)) (getting [])).cq.pieces = [] ∧
    (after (.getReqIssue 0) getsDue).rt.getIssued = 1 ∧ (after (.getReqIssue 0) (getting [])).rt.getIssued = 0 ∧
    (match ((after (.getReq greq 7) asking).slice 0 0).reads with | [r] => r.arrival == 7 && r.port == 259 | _ => false) = true ∧
    after (.mcast mcp) s0 = s0 := by
  decide +kernel
theorem test_rings : (tabGet .reset (after (.ringStart 0 0) (ringed 1)).rt.ringRuns 0).sentPieces = 1 ∧
    (tabGet .reset (after (.rf 0 { pkt with kind := 5 }) (ringed 3)).rt.ringRuns 0).received = 1 ∧
    bit (after (.rf 0 { pkt with kind := 5 }) (ringed 0)).bell.lessonCauses 3 = true := by decide +kernel

/-! ## Roll call -/

def neighbour (turn : Word) : Neighbour :=
  { link := 0, address := 1, hasPlan := true, verified := true, stepping := 1, serial := 2, digest := 3, cookie := 0
    turnaround := turn }
def plan0 : Plan :=
  { axes := 3, extent := [2, 2, 2], serial := 0, campus := 0, digest := 0, entries := [], bytes := [] }
def rolling (e : List Nat) : State :=
  { linked (phased .active) with rc := { RollCall.reset with links := [(0, { RollEntry.reset with echoes := e })] } }

theorem witness_RollCall : ((rolling []).link 0).phase = .active ∧ ((rolling []).rollOf 0).reverify = false ∧
    (rolling []).rc.window = false ∧ ((linked (phased .down)).link 0).phase ≠ .active ∧
    ((rolling [80, 60, 70, 90, 90, 90, 90]).rollOf 0).echoes.length = 7 ∧ 
    ({ rolling [80] with rc := { (rolling [80]).rc with plan := some plan0 } } : State).rc.plan ≠ none ∧
    (∀ e ∈ (rolling [80]).rc.links, e.2.reverify = false) ∧
    (alone { gathering with reverify := [1] }).isRoot = true ∧
    (alone { gathering with reverify := [1] }).inSession = true ∧ (rolling []).bell.reverify = [] := by decide +kernel
theorem test_roll : ((after (.announce 0 (neighbour 0)) (rolling [])).rollOf 0).heard = some (neighbour 0) ∧
    ((after (.announceRepeat 0) (rolling [])).link 0).txQueue.map Packet.kind = [0xC] ∧
    (after .relayReverifyTimeout (alone { gathering with reverify := [1] })).bell.faultCode = 4 := by decide +kernel

/-! ## Distribution -/

/-- A distribution of two blocks that this part receives; region 255 carries its frames. -/
def dist (st : DistState) (reader : Bool) : Dist :=
  { emptyDist 2 false 0 3 with
    state := st, reader := reader, digest := 7, key := [1], shard := [(0, 2)], blocks := 2, parts := [1, 2], object := 5 }
def spread (d : Dist) : State :=
  { up with
    nv := { up.nv with dist := some d }
    sec := { up.sec with padlock := .owned }
    cq := { Regions.reset with table := [(255, { Region.reset with
      kind := .localRegion, slotsLog := 9, producerEngine := true, producerPart := 2, consumerFirmware := true })] } }
def ending : Frame := { frm with objKind := 0, digest := 7, pass := 1, data := [] }

/-- A block of the distribution that is being programmed. -/
def placing : State := spread { dist .pass false with programming := [{ block13 with index := 1, generation := 0 }] }

/-- Whether a block decrypts and a manifest verifies is the uninterpreted functions' of Config. -/
theorem witness_DistributionFrames : (spread (dist .pass false)).inSession = false ∧
    (spread (dist .pass false)).distributing = true ∧ up.distributing = false ∧ up.nv.storeFault = false ∧
    ((spread (dist .pass false)).region 255).producerPart = (dist .pass false).readerPart ∧
    (spread { emptyDist 2 false 0 3 with state := .manifest }).owned = true ∧ (emptyDist 2 false 0 3).key = [] ∧
    ({ emptyDist 2 false 0 3 with manifest := tabSet [] [] 3 [0] } : Dist).assembled = none ∧
    ending.digest = short (dist .pass false).digest ∧ (dist .pass false).refusal = 0 ∧
    (spread (dist .pass false)).mayProgram = true ∧ inRanges (dist .pass false).shard 1 = true ∧
    inRanges (dist .pass false).shard 2 = false ∧ (dist .pass false).programming = [] ∧
    (dist .pass false).missing = [0, 1] ∧ ({ dist .pass false with durable := [0, 1] } : Dist).missing = [] ∧
    (spread { dist .pass false with durable := [0, 1] }).preparing (dist .pass false) = false ∧
    
    257 ≤ ((spread (dist .pass false)).region 255).roomCommitted ∧ ((spread (dist .pass false)).region 255).capacity < 2 ^ 32 ∧
    (spread { dist .waitNak true with keepCopy := true }).copyFits (dist .waitNak true) 0 = true ∧
    (spread (dist .waitNak true)).storeBlock 3 5 0 1 = none ∧ (gen1 .prepared).digest = (dist .pass false).digest ∧
    placing.highPending (dist .pass false) = false ∧ placing.cutting = false ∧ up.storeRegionNow ≠ none ∧
    (alone resting).storeRegionNow = none ∧ (runs (dist .pass false).missing).length ≤ 30 ∧
    (dist .pass false).readerPart ≠ up.rc.address ∧ up.nv.dist = none ∧ up.owned = false := by decide +kernel
theorem test_frames : ((after (.readerNotice ⟨2, 0, 3⟩ false) up).region 255).producerPart = 2 ∧
    (after (.endOfPass ending) (spread (dist .pass false))).out = [.storeNak 2 1 false 7 [(0, 2)]] ∧
    (after (.endOfPass ending) (spread { dist .pass false with durable := [0, 1] })).nv.commits.map Commit.type = [6] ∧
    (after (.blockFrame frm) up).cq.discards = 257 := by decide +kernel
/-- A stack that holds nothing takes the block. -/
theorem witness_openBlock : placing.openBlock 0 ≠ none := by
  have h : ∀ (key : Nat → Nat) (l : List Nat), l ≠ [] → leastBy key l ≠ none := by
    intro key l hl
    cases l with
    | nil => exact absurd rfl hl
    | cons e t => simp only [leastBy]; split <;> simp <;> split <;> simp
  refine h _ _ (List.ne_nil_of_mem (a := 0) ?_)
  simp only [State.usable, List.mem_filter, List.mem_range]
  decide +kernel

def decided (u : List FabricAddr) : State :=
  { up with nv := { up.nv with decisions := [{ adapter := false, complete := false, object := 5, generation := 1, parts := 2
                                               boxLow := 0, boxHigh := 1, digest := 7, unanswered := u }] } }

theorem witness_DistributionCommit : (spread (dist .waitNak true)).nv.storeFault = false ∧
    (spread (dist .waitNak true)).cutting = false ∧ (dist .waitNak true).state = .waitNak ∧
    1 ∈ (dist .waitNak true).parts ∧ 1 ∉ (dist .waitNak true).answered ∧
    (List.range 2).filter (inRanges [(1, 1)]) = [1] ∧ (8 : BitVec 4).toNat ≥ 8 ∧
    (dist .prepared true).state ≠ .waitNak ∧ (dist .prepared true).preparedParts = [] ∧
    restoring.genByDigest 7 = some (gen1 .committed) ∧ restoring.genByDigest 8 = none ∧
    hostRead [(0, List.replicate 256 7)] 0 256 ≠ none ∧
    ({ dist .waitNak true with answered := [2], preparedParts := [1, 2] } : Dist).parts = [1, 2] ∧
    up.rc.address ∉ (dist .waitNak true).parts ∧ restoring.nv.dist = none ∧
    (decided [1, 2]).nv.decisions.length = 1 ∧ up.rc.address ∉ [(1 : FabricAddr), 2] ∧ up.nv.decisions = [] := by
  decide +kernel
/-- The reader has the block that a part asks for, in host memory of two blocks. -/
theorem sourced (l : List Byte) (h : l.length = 131072) (s : State) :
    (s.sourceBlock { dist .waitNak true with host := [(0, l)] } 1).2 ≠ none := by
  simp [State.sourceBlock, dist, emptyDist, hostRead, h]
theorem witness_sourceBlock : (up.sourceBlock { dist .waitNak true with host := [(0, List.replicate 131072 0)] } 1).2 ≠ none :=
  sourced _ List.length_replicate up
theorem test_dist_commit :
    ((after (.storeNak 1 0 false 7 []) (spread { dist .waitNak true with answered := [2] })).nv.dist.map Dist.state) =
      some .prepared ∧
    (after .endOfPassResend (spread { dist .waitNak true with resends := 2 })).out.length = 2 ∧
    ((after .endOfPassResend (spread { dist .waitNak true with resends := 3 })).nv.dist.map Dist.state) = some .incomplete ∧
    (after (.prepared 1 7) (spread { dist .prepared true with preparedParts := [2] })).nv.commits.map Commit.type = [6] ∧
    (after .commitResend (decided [1, 2])).out = [.distribution 1 0x12 7, .distribution 2 0x12 7] ∧
    (after (.committed 2 7) (decided [1, 2])).nv.decisions.map Decision.unanswered = [[1]] ∧
    (after (.commit 2 7) restoring).out = [.distribution 2 0x13 7] := by decide +kernel

/-! ## Host records and transfers -/

/-- A part whose function 0 has been given these bytes in its window. -/
def host0 : State := { up with hi := { up.hi with fnEnable := 1 } }
def hosted (b : List Byte) : State := after (.ingressWrite 0 0 b) host0
def rec8 (t : Byte) : List Byte := [t, 1, 8, 0, 9, 0, 0, 0]

/-- DATA_PUT to memory: 256 bytes of host address 0x40 to house address 0x100. -/
def put64 (n : Byte) : List Byte :=
  [4, 1, 64, 0, 9, 0, 0, 0, 1, 0, 0, 0, 0, 0, 0, 0, 0, 1, 0, 0, 0, 0, 0, 0, 0x40, 0, 0, 0, 0, 0, 0, 0, n, 1, 0, 0] ++
    List.replicate 28 0
def hostMem : HostMem := [(0x40, List.replicate 256 7)]

theorem witness_HostRequests : host0.fnEnabled 0 = true ∧ host0.fnEnabled 1 = false ∧ (host0.fn 0).visible = 0 ∧
    (host0.fn 0).slotBytes = [] ∧ (host0.fn 0).slotMask = [] ∧ (0 : BitVec 20).toNat = 64 * (host0.fn 0).head ∧
    (rec8 3).length = 8 ∧ natAt (rec8 3) 2 2 = 8 ∧ (host0.fn 0).firstOf 1 = none ∧ host0.takes 0 = true ∧
    (hosted (rec8 3)).served 0 = false ∧ ((hosted (rec8 3)).fn 0).firstOf 3 = some ⟨0, rec8 3⟩ ∧
    s0.takes 0 = false ∧ State.reset.pw.firmware = false ∧ up.inSession = false ∧ (host0.fn 0).egEnable = false := by
  decide +kernel
theorem test_records : ((hosted (rec8 6)).fn 0).records = [⟨0, rec8 6⟩] ∧ ((hosted ((rec8 6).take 4)).fn 0).records = [] ∧
    (after (.ingressWrite 1 0 [0]) host0).hi.violKind = 4 ∧
    ((after (.reqCancel 0) (hosted (rec8 3))).fn 0).iqErrors = 1 := by decide +kernel

/-- A registrar in a term recess of a serving job, with this context. -/
def serving (c : List (Nat × Ctx)) (b : List Byte) : State :=
  { hosted b with
    bell := { resting with phase := .recess }
    job := { job1 with image := some { getImage with serving := true, term := 1, prologue := 0 } }
    sv := { up.sv with contexts := c } }
def ctx9 : Ctx := { Ctx.reset with requestId := 9, state := .prefill, promptLen := 3 }
def app16 : List Byte := [2, 1, 16, 0, 9, 0, 0, 0, 0, 0, 0, 0, 5, 0, 0, 0]

theorem witness_Serving : (serving [] (rec8 3)).served 0 = true ∧ (serving [] (rec8 3)).termRecess = true ∧
    (serving [] (rec8 3)).findCtx 0 9 = none ∧ (serving [(4, ctx9)] (rec8 3)).findCtx 0 9 = some (4, ctx9) ∧
    (serving [(4, ctx9)] (rec8 3)).ctx 4 = ctx9 ∧ ctx9.open = true ∧ ctx9.prompt.length + 1 ≤ ctx9.promptLen ∧
    ((serving [(4, ctx9)] app16).fn 0).records.find? (fun r => r.valid && r.type == 2 &&
      !(serving [(4, ctx9)] app16).pendingOpen 0 r.id) = some ⟨0, app16⟩ := by decide +kernel
theorem test_cancel : ((after (.reqCancel 0) (serving [(4, ctx9)] (rec8 3))).ctx 4).endReason = 5 ∧
    (after (.reqCancel 0) (serving [] (rec8 3))).sv.ignoredCancels = 1 := by decide +kernel

theorem witness_HostTransfers : (hosted (put64 0)).takes 0 = true ∧ (hosted (put64 0)).mayTransfer = true ∧
    ((hosted (put64 0)).fn 0).records = [⟨0, put64 0⟩] ∧ (⟨0, put64 0⟩ : Rec).valid = true ∧
    ((hosted (put64 0)).fn 0).transfers = [] ∧ ((hosted (put64 0)).fn 0).hold = [] ∧ (⟨0, put64 0⟩ : Rec).type = 4 ∧
    (hosted (put64 0)).transferRefusal 0 (transferOf ⟨0, put64 0⟩) = none ∧
    (transferOf ⟨0, put64 0⟩).bytes = 256 ∧ (transferOf ⟨0, put64 1⟩).malformed = true ∧
    (hostRead hostMem 0x40 256).isSome = true ∧
    ({ transferOf ⟨0, put64 0⟩ with done := 256 } : Transfer).done ≤ 256 ∧ host0.gateOf 0 0 = 0 ∧ (gated 1).gateOf 0 1 = 1 ∧
    (host0.region 0).capacity < 2 ^ 32 ∧ (transferOf ⟨0, put64 0⟩).mode = 1 ∧ (hosted (put64 0)).memOpen 0x100 = true ∧ up.mem.ue = [] ∧
    (host0.region 0).roomCommitted ≠ 0 ∧ s0.mayTransfer = false ∧ host0.committedOf 0 = [] ∧ up.job.image = none ∧
    (hosted (rec8 6)).takes 0 = true := by decide +kernel
theorem test_put : (after (.dataPut 0 ⟨0, { env0 with host := hostMem }⟩) (hosted (put64 0))).mem.byte 0x1FF = 7 ∧
    ((after (.dataPut 0 ⟨0, { env0 with host := hostMem }⟩) (hosted (put64 1))).fn 0).transfers.map Transfer.status = [some 3] ∧
    ((after (.fence 0) (hosted (rec8 6))).fn 0).hold.map Entry.kind = [4] := by decide +kernel

/-! ## The mailbox -/

/-- The PF's mailbox in a session, with this request next in its turn. -/
def asked (k op : Nat) (b : List Byte) : State :=
  up.setMbox k { Mailbox.reset with
    session := true, major := 1, expected := 3
    queue := [{ opcode := BitVec.ofNat 16 op, sequence := 3, cookie := 0, major := 1, minor := 0, body := b }] }
def responses (c : Instr) (k : Nat) (s : State) : List (BitVec 16 × List Byte) :=
  ((after c s).mbox k).responses.map fun p => (p.status, p.body)

/-- The state takes up its oldest request. -/
def takenUp (s : State) (k op : Nat) (b : List Byte) : Prop := ∃ w s1, s.accepts k op b w s1

theorem takenUp_of {s : State} {k op : Nat} {b : List Byte}
    (q : s.mailTurn k = true ∧ s.nv.storeFault = false ∧ s.sec.trial = false ∧ (s.mbox k).session = true ∧
      (s.mbox k).major = 1 ∧ (s.mbox k).minor = 0 ∧ (s.mbox k).expected = 3 ∧ (s.mbox k).queue =
        [{ opcode := BitVec.ofNat 16 op, sequence := 3, cookie := 0, major := 1, minor := 0, body := b }]) :
    takenUp s k op b := by
  obtain ⟨a, c, d, e, f, g, h, i⟩ := q
  exact ⟨_, _, _, _, i, rfl, rfl, a, e, f.symm, g.symm, h.symm, c, d, rfl, rfl⟩

def request32 : List Byte := [1, 0, 2, 0, 0, 0, 0, 0, 32, 0, 0, 0] ++ List.replicate 20 0

theorem witness_MailboxTransport : (up.mbox 0).inFree = true ∧ (up.mbox 0).inMask = [] ∧ up.hi.ready = true ∧
    12 ≤ request32.length ∧ lengthAllowed (natAt request32 8 4) = true ∧ request32.length = natAt request32 8 4 ∧
    lengthAllowed 33 = false ∧ (asked 0 0x99 []).mailTurn 0 = true ∧ (0x99 ∉ opcodes) ∧
    helloStatus [1, 0, 0, 0, 1, 0] = 0 ∧ helloStatus ([7, 0, 0, 0] ++ List.replicate 14 0) = 0x0B ∧
    helloStatus [0, 0, 0, 0] = 0x0B ∧ helloStatus [1, 0, 0, 0] = 5 ∧ (1, 0) ∈ helloPairs [1, 0, 0, 0, 1, 0] ∧
    up.mailTurn 0 = false ∧ addressedBus.rc.dynamic ≠ none ∧ (up.mbox 64).held < 4 ∧ (up.mbox 0).life = 0 := by
  decide +kernel
theorem test_mailbox : ((after (.mailboxRequest 0 0 request32) up).mbox 0).queue.map MailRequest.opcode = [2] ∧
    ((after (.mailboxRequest 0 0 (request32.take 31)) up).mbox 0).queue = [] ∧
    ((after (.hello 0) (asked 0 1 [1, 0, 0, 0, 1, 0])).mbox 0).expected = 4 ∧
    responses (.hello 0) 0 (asked 0 1 [1, 0, 0, 0, 2, 0]) = [(1, [])] ∧
    ((after (.mailboxResponse 0) (after (.hello 0) (asked 0 1 [0, 0, 0, 0]))).mbox 0).outValid = true := by decide +kernel

theorem witness_MailboxChecks : (asked 0 2 []).mailTurn 0 = true ∧ (asked 1 0x10 []).mailTurn 1 = true ∧
    (asked 64 0x10 []).mailTurn 64 = true ∧ (asked 0 2 []).nv.storeFault = false ∧
    ((asked 0 2 []).mbox 0).session = true ∧ ((asked 0 2 []).mbox 0).expected = 3 ∧
    ([] : List Byte).length < 24 := by decide +kernel
theorem test_checks : responses (.jobCreate 1) 1 (asked 1 0x10 (List.replicate 24 0)) = [(6, [])] ∧
    responses (.jobCreate 0) 0 (asked 0 0x10 (List.replicate 23 0)) = [(5, [])] ∧
    responses (.sliceAssign 0) 0 { asked 0 0x11 (List.replicate 528 0) with sec := { up.sec with trial := true } } =
      [(0xE, [])] := by decide +kernel

theorem witness_ReportCommands :
    takenUp (asked 0 0x02 []) 0 0x02 [] ∧
    takenUp (asked 64 0x71 []) 64 0x71 [] ∧
    takenUp (asked 0 0x70 (List.replicate 72 0)) 0 0x70 (List.replicate 72 0) ∧
    takenUp (asked 0 0x30 [7]) 0 0x30 [7] ∧
    takenUp (asked 0 0x31 [3]) 0 0x31 [3] ∧
    takenUp (asked 0 0x32 [3, 0, 1]) 0 0x32 [3, 0, 1] ∧
    takenUp (asked 0 0x50 (List.replicate 148 0)) 0 0x50 (List.replicate 148 0) ∧
    takenUp (asked 0 0x51 [2, 0, 0xFF, 3]) 0 0x51 [2, 0, 0xFF, 3] ∧
    takenUp (asked 0 0x61 (List.replicate 32 0)) 0 0x61 (List.replicate 32 0) ∧
    takenUp (asked 0 0x62 (List.replicate 16 0)) 0 0x62 (List.replicate 16 0) := by
  refine ⟨?_, ?_, ?_, ?_, ?_, ?_, ?_, ?_, ?_, ?_⟩ <;> exact takenUp_of (by decide +kernel)
theorem witness_report_clauses : up.pw.stepWaits = [] ∧ up.pw.limitWaits = [] ∧ up.gradeStep = 7 ∧
    up.halfInUse 0 0 = false ∧ up.gateOf 0 0 = 0 ∧ (gated 2).gateOf 0 1 = 2 ∧ selectorListed 0 0x0E = true ∧
    selectorListed 0 0x0F = false ∧ up.instances 1 = 4 ∧ up.dg.debugMode = false ∧
    ({ up with dg := { up.dg with stopped := true, stopKind := 1 } } : State).brokenBy 1 = true := by decide +kernel
theorem test_report : responses (.powerStep 0) 0 (asked 0 0x30 [8]) = [(0x10, [])] ∧
    responses (.powerLimit 0) 0 (asked 0 0x31 [4]) = [(0xB, [])] ∧
    responses (.bankPower 0) 0 (asked 0 0x32 [0, 0, 1]) = [(0, [0])] ∧
    responses (.debugProbe 0) 0 (asked 0 0x61 (List.replicate 32 0)) = [(8, [])] ∧
    responses (.countersRead 0) 0 (asked 0 0x51 [4, 0, 0, 0]) = [(0xB, [])] := by decide +kernel
theorem test_identify : ((responses (.identify 0) 0 (asked 0 2 [])).map fun p => p.2.take 2) = [[0x00, 0x94]] := by
  decide +kernel

/-! ## Jobs -/

/-- A request to a part that is alone in a job in this state; the job's identifier is 0. -/
def jobbed (st : JobState) (op : Nat) (b : List Byte) : State :=
  { asked 0 op b with
    job := { Job.reset with state := st, members := 1, image := some getImage }
    rt := { up.rt with slice := if st = .none ∨ st = .created then 0 else 1 }
    rc := { up.rc with plan := some plan0 } }

/-- SLICE_ASSIGN of slice 1 to the part alone. -/
def sliceBody : List Byte := [0, 0, 1, 0] ++ List.replicate 12 0 ++ [1] ++ List.replicate 511 0

theorem witness_JobCommands : takenUp (jobbed .none 0x10 (List.replicate 24 0)) 0 0x10 (List.replicate 24 0) ∧
    takenUp (jobbed .created 0x11 sliceBody) 0 0x11 sliceBody ∧
    takenUp (jobbed .assigned 0x12 (List.replicate 16 0)) 0 0x12 (List.replicate 16 0) ∧
    takenUp (jobbed .loaded 0x13 [0, 0]) 0 0x13 [0, 0] ∧
    takenUp (jobbed .relocated 0x14 (List.replicate 8 0)) 0 0x14 (List.replicate 8 0) ∧
    takenUp (jobbed .relocated 0x15 (List.replicate 8 0)) 0 0x15 (List.replicate 8 0) ∧
    takenUp (jobbed .ended 0x16 [0, 0, 1]) 0 0x16 [0, 0, 1] ∧ takenUp (jobbed .relocated 0x21 [0, 0]) 0 0x21 [0, 0] ∧
    takenUp (jobbed .created 0x63 (List.replicate 6 0)) 0 0x63 (List.replicate 6 0) ∧
    takenUp (jobbed .relocated 0x40 [1, 1]) 0 0x40 [1, 1] ∧
    takenUp (jobbed .none 0x41 (List.replicate 80 0)) 0 0x41 (List.replicate 80 0) := by
  refine ⟨?_, ?_, ?_, ?_, ?_, ?_, ?_, ?_, ?_, ?_, ?_⟩ <;> exact takenUp_of (by decide +kernel)
theorem witness_job_clauses : (jobbed .created 0x11 sliceBody).shapeOk sliceBody = true ∧
    boxMembers sliceBody (cornerOf sliceBody 4) (cornerOf sliceBody 8) = 1 ∧ cornerOf sliceBody 4 = up.rc.address ∧
    (jobbed .created 0x11 sliceBody).rt.slice = 0 ∧ (jobbed .created 0x11 sliceBody).cutting = false ∧
    (jobbed .loaded 0x13 []).job.memberList = [up.rc.address] ∧ (jobbed .loaded 0x13 []).otherParts = [] ∧
    (jobbed .loaded 0x13 []).job.waits = [] ∧ (jobbed .loaded 0x13 []).dg.partner = none ∧
    (jobbed .inSession 0x16 []).stopHeld = false ∧
    ({ jobbed .inSession 0x16 [] with bell := resting, dg := { up.dg with stopped := true } } : State).stopHeld = true ∧
    (jobbed .relocated 0x15 []).pairAgrees = true ∧ (jobbed .relocated 0x15 []).otherParts = [] ∧
    (jobbed .relocated 0x15 []).job.memberList = [up.rc.address] ∧ getImage.serving = false ∧
    ({ jobbed .relocated 0x15 [] with dg := { up.dg with partner := some 5 } } : State).pairAgrees = false ∧ (jobbed .relocated 0x40 []).rt.slice.toNat = 1 ∧
    (jobbed .none 0x41 []).quiet = true ∧ (jobbed .relocated 0x15 []).startCheck = 0 ∧
    (jobbed .loaded 0x15 []).startCheck ≠ 0 ∧
    (jobbed .relocated 0x14 []).patchNames [] = true ∧
    weightEntries { getImage with sections := getImage.sections.map fun x => { x with kind := 0x08 } } 0 ≠ [] := by
  decide +kernel
theorem test_job_states :
    responses (.jobCreate 0) 0 (jobbed .created 0x10 (List.replicate 24 0)) = [(9, [])] ∧
    (after (.jobCreate 0) (jobbed .none 0x10 (List.replicate 24 0))).bell.recessMin = 2048 ∧
    responses (.ttRelocate 0) 0 (jobbed .assigned 0x13 [0, 0]) = [(8, [])] ∧
    responses (.ttRelocate 0) 0 (jobbed .none 0x13 [0, 0]) = [(0xA, [])] ∧
    (after (.jobStop 0) (jobbed .ended 0x16 [0, 0, 1])).job.state = .none ∧
    (after (.jobStop 0) (jobbed .loaded 0x16 [0, 0, 0])).job.state = .ended ∧
    (after (.routeDrain 0) (jobbed .relocated 0x40 [1, 1])).rt.drain = true ∧
    (after (.routeSet 0) (jobbed .none 0x41 (List.replicate 80 0))).rt.epoch = 1 := by decide +kernel
theorem test_slice_assign : (after (.sliceAssign 0) (jobbed .created 0x11 sliceBody)).job.state = .assigned ∧
    (after (.sliceAssign 0) (jobbed .created 0x11 sliceBody)).rt.slice = 1 := by decide +kernel

def padlocked (p : Padlock) (op : Nat) (b : List Byte) : State :=
  { asked 0 op b with sec := { up.sec with padlock := p, owner := [1] } }

/-- A box of the part alone: bytes 24 to 31 are zero. -/
def zero32 : List Byte := List.replicate 32 0

/-- Signatures and key unwrapping are the uninterpreted functions' of Config. -/
theorem witness_StoreCommands : takenUp (padlocked .owned 0x20 zero32) 0 0x20 zero32 ∧
    takenUp (padlocked .owned 0x22 zero32) 0 0x22 zero32 ∧ takenUp (padlocked .owned 0x23 zero32) 0 0x23 zero32 ∧
    takenUp (padlocked .owned 0x24 zero32) 0 0x24 zero32 ∧ takenUp (padlocked .opened 0x60 zero32) 0 0x60 zero32 ∧
    takenUp (padlocked .locked 0x72 zero32) 0 0x72 zero32 := by
  refine ⟨?_, ?_, ?_, ?_, ?_, ?_⟩ <;> exact takenUp_of (by decide +kernel)
theorem witness_store_clauses : (padlocked .owned 0x20 zero32).owned = true ∧ (padlocked .opened 0x20 zero32).owned = false ∧
    (padlocked .owned 0x20 zero32).distributing = false ∧ (padlocked .owned 0x20 zero32).storeRegionNow = some 255 ∧
    (padlocked .owned 0x20 zero32).distBoxOk zero32 = true ∧
    (padlocked .owned 0x20 zero32).distBoxOk (List.replicate 32 0xFF) = false ∧ hostRead [] 0 16 = none ∧
    (hostRead [] 0 0).isSome = true ∧ (padlocked .owned 0x20 zero32).cutting = false ∧
    1048576 < natAt (List.replicate 12 0xFF) 8 4 ∧ (padlocked .owned 0x24 zero32).objVerifies [0x10] [] = false ∧
    objFormed [1, 2, 3, 4, 5, 0x10, 0x20] ([0x20, 1] ++ List.replicate 4689 0) = true ∧
    objFormed [1, 2, 3, 4, 5, 0x10, 0x20] ([0x11, 1] ++ List.replicate 4689 0) = false ∧
    (serving [] []).inSession = true ∧ (serving [] []).isRegistrar = true ∧ up.keyEntry 0 = none := by decide +kernel
theorem test_store : responses (.weightsProgram 0 []) 0 (padlocked .opened 0x20 zero32) = [(7, [])] ∧
    responses (.keyringSet 0 []) 0 (padlocked .opened 0x24 zero32) = [(7, [])] ∧
    responses (.keyringSet 0 []) 0 (padlocked .owned 0x24 (List.replicate 12 0xFF)) = [(0xD, [])] ∧
    responses (.debugAuth 0 []) 0 (padlocked .opened 0x60 ([0, 0, 0, 0, 0, 0, 0, 0, 16, 0, 0, 0])) = [(0xC, [])] ∧
    responses (.adapterBind 0) 0 (padlocked .owned 0x23 zero32) = [(0xA, [])] := by decide +kernel

/-! ## The service port, lock-step and firmware messages -/

def said (q : Word) : State :=
  { up with sec := { up.sec with answered := [(7, some { sequence := q, type := 1, status := 0, body := [5] })] } }
def updating : State := { up with sec := { up.sec with update := some { header := [], pieces := [] } } }

theorem witness_ServicePort : up.pw.firmware = true ∧ up.serviceTurn 7 = true ∧ up.nv.storeFault = false ∧ up.cutting = false ∧
    tabGet none (said 3).sec.answered 7 = some { sequence := 3, type := 1, status := 0, body := [5] } ∧
    tabGet none up.sec.answered 7 = none ∧ (asked 0 2 []).serviceTurn 7 = false ∧ up.sec.trial = false ∧
    up.cutting = false ∧ up.planRefusal [] = 1 ∧ up.beginStatus [] = 1 ∧ headerFormed [] = false ∧ up.sec.update = none ∧
    updating.sec.update ≠ none ∧ up.activateStatus 2 = 14 ∧ up.activateStatus 0 = 14 ∧
    ({ up with sec := { up.sec with slotB := { up.sec.slotB with state := .good } } } : State).activateStatus 1 = 0 ∧
    up.updateBusy = 0 ∧ up.updateUnfit = 0 := by decide +kernel
theorem test_service : (after (.serviceIdentify 7 3) (said 3)).out = [.service 7 1 3 0 [5]] ∧
    (after (.updateEnd 7 4) up).out = [.service 7 5 4 1 []] ∧
    (after (.updateBegin 7 4 []) up).out = [.service 7 3 4 1 []] ∧
    ((after (.updateData 7 4 8 [1]) updating).sec.update.map Update.pieces) = some [(8, [1])] ∧
    (after (.serviceIdentify 7 3) (asked 0 2 [])).out = [] := by decide +kernel

def paired (own : BitVec 64) : State :=
  { alone gathering with
    dg := { State.reset.dg with paired := true, partner := some 5, ownSlice := some (0, own) } }
def member1 : State :=
  { up with job := { job1 with root := 2, id := 4, high := 2 } }

theorem witness_FirmwareMessages : up.pw.firmware = true ∧ up.nv.storeFault = false ∧ State.reset.pw.firmware = false ∧
    up.job.state = .none ∧ up.rt.slice = 0 ∧ member1.job.state ≠ .none ∧ member1.isRoot = false ∧ member1.inSession = true ∧
    member1.job.stop = none ∧ member1.inSlice 2 = true ∧ member1.inSlice 3 = false ∧
    (paired 1).inSlice 0 = true ∧ getImage.minWidth ≤ 0 ∧ up.job.state ≠ .created ∧
    ({ up with rt := { up.rt with slice := 1 }, nv := { up.nv with fabric := { up.nv.fabric with job := 4, root := 2 } } } :
      State).nv.fabric.job = 4 ∧
    ((jobbed .created 0 []).assignHere 1 0 0 1 0 0 10000).1 = 0 ∧ ((jobbed .loaded 0 []).assignHere 1 0 0 1 0 0 10000).1 ≠ 0 ∧
    (serving [] []).isRegistrar = true ∧ member1.isRegistrar = false ∧
    ({ member1 with job := { member1.job with state := .assigned } } : State).dg.partner = none ∧
    (tabGet { set := false, bell := 0, part := 0, tile := 0 } (serving [] []).job.flagSummary 3).set = false ∧
    (paired 1).isRoot = true ∧ (paired 1).inSession = true ∧ (paired 1).dg.ownSlice = some ((paired 1).bell.number, 1) ∧
    (paired 1).job.stop = none ∧ (paired 1).termRecess = false ∧ (5 : FabricAddr).toNat < 6 ∧ (paired 1).dg.partner ≠ some 6 := by
  decide +kernel
theorem test_messages : (after (.firmwareMessage 2 (.create 4 1 3 2048)) up).job.state = .created ∧
    (after (.firmwareMessage 2 (.jobEnd 7 6)) member1).bell.faultCode = 6 ∧
    (after (.firmwareMessage 3 (.jobEnd 7 6)) member1).job.state = .inSession ∧
    (after (.firmwareMessage 2 (.stop 4 true)) member1).job.stop = some true ∧
    (after (.lockstepDigest 5 (.digest 0 2 [])) (paired 1)).dg.lockMismatch = true ∧
    (after (.lockstepDigest 5 (.digest 0 1 [])) (paired 1)).dg.lockMismatch = false := by decide +kernel

/-! ## The whole part -/

theorem witness_StepRunsFrontCommand : ({ up with pending := [.storeMount] } : State).pending = .storeMount :: [] ∧
    up.pending = [] := by decide +kernel
theorem test_step : (match step { up with pending := [.setEndpointId 1, .storeMount] } with
    | .next t => t.pending == [.storeMount] | _ => false) = true ∧
    (match step up with | .next t => t.ts.now.ticks == 1 | _ => false) = true := by decide +kernel
/-- A link in DEGRADE whose microseconds are counted, one cycle before a microsecond ends. -/
def degraded (n : Nat) : State :=
  { linked (phased .degrade) with
    ts := { up.ts with now := { up.ts.now with ticks := n } }
    dg := { up.dg with cntOn := 4, cntSel := [(16, 0x0207)] } }
theorem test_time : tabGet 0 (degraded 1249).tick.dg.cnt 32768 = 1 ∧ tabGet 0 (degraded 1250).tick.dg.cnt 32768 = 0 ∧
    queued.starved 0 = false ∧ (linked { phased .active with txQueue := [{ pkt with kind := 0xC, cls := 1 }], sent := [(2, 256)] }).starved 0 = true := by decide +kernel
theorem witness_StepKeepsMemoryCanonical : (gated 1).memWf ∧ (match step { gated 1 with pending := [.halfLayerClosed 0 1] } with
    | .next t => Memory.wf t.mem.bytes | _ => false) = true := by
  refine ⟨?_, by decide +kernel⟩
  show Memory.wf (gated 1).mem.bytes = true
  decide +kernel

/-- A G1 part asked for step 7. -/
def g1 : State := { asked 0 0x30 [7] with fused := { up.fused with gradeG2 := false } }

theorem witness_StepSevenRefusedOnG1 : g1.fused.gradeG2 = false ∧ takenUp g1 0 0x30 [7] ∧ natAt [7] 0 1 = 7 ∧
    g1.pw.stepWaits = [] := ⟨rfl, takenUp_of (by decide +kernel), rfl, rfl⟩
theorem test_step_seven : responses (.powerStep 0) 0 g1 = [(0x10, [])] ∧
    (responses (.powerStep 0) 0 (asked 0 0x30 [7])).map Prod.fst = [0] := by decide +kernel

end Sys2Proof.Tests
end

section
/-! PROOFS. Register writes, violations and time-stamp samples (R7, R82, R84, R85, R379, R386, R396). -/

namespace Sys2Proof.Machine

/-! ## What keeps memory and tiles -/

/-- A command that touches neither working memory nor the tiles keeps both. -/
theorem State.keeps_of_mem_tiles {s s' : State} (hmem : s'.mem = s.mem) (htiles : s'.tiles = s.tiles) :
    s.keeps s' :=
  ⟨fun a => by rw [hmem], fun u => by simp only [State.tile, htiles]⟩

/-! ## Violations (R7, R379) -/

section
variable (s : State) (f : BitVec 6) (kind : Nat) (bar2 : Bool) (off : Word)

theorem State.keeps_violate (fn off : Nat) : s.keeps (s.violate fn kind bar2 off) :=
  State.keeps_of_mem_tiles rfl rfl

@[simp] theorem State.violate_bell (fn off : Nat) : (s.violate fn kind bar2 off).bell = s.bell := rfl

@[simp] theorem State.violate_violBar2 (fn off : Nat) : (s.violate fn kind bar2 off).hi.violBar2 = bar2 := rfl

/-- The function's own bit of HI_VIOL is set. -/
@[simp] theorem State.violate_viol : bit (s.violate f.toNat kind bar2 off.toNat).hi.viol f.toNat = true := by
  have hf : f.toNat < 64 := f.isLt
  have hset : (BitVec.ofNat 64 (2 ^ f.toNat)).getLsbD f.toNat = true := by
    rw [BitVec.getLsbD_ofNat, decide_eq_true hf, Nat.testBit_two_pow_self, Bool.and_self]
  rw [bit, State.violate, Nat.mod_eq_of_lt hf, BitVec.getLsbD_or, hset, Bool.or_true]

@[simp] theorem State.violate_violFn : (s.violate f.toNat kind bar2 off.toNat).hi.violFn = f := by
  simp [State.violate]

@[simp] theorem State.violate_violKind (k : BitVec 3) (fn off : Nat) :
    (s.violate fn k.toNat bar2 off).hi.violKind = k := by
  simp [State.violate]

@[simp] theorem State.violate_violAddr (fn : Nat) : (s.violate fn kind bar2 off.toNat).hi.violAddr = off := by
  simp [State.violate]
end

theorem exec_accessViolation_of_legal (s : State) (f : BitVec 6) (bar2 : Bool) (off : Word) {kind : BitVec 3}
    (hlow : 1 ≤ kind.toNat) (hhigh : kind.toNat ≤ 4) :
    exec (.accessViolation f bar2 off kind) s = .next (s.violate f.toNat kind.toNat bar2 off.toNat) := by
  simp [exec, execAccessViolation, hlow, hhigh]

theorem exec_accessViolation_of_reserved (s : State) (f : BitVec 6) (bar2 : Bool) (off : Word) {kind : BitVec 3}
    (h : kind = 0 ∨ 4 < kind.toNat) : exec (.accessViolation f bar2 off kind) s = .next s := by
  have hk : ¬(1 ≤ kind.toNat ∧ kind.toNat ≤ 4) := by
    rcases h with rfl | h
    · decide
    · omega
  simp [exec, execAccessViolation, hk]

/-! ## Register writes (R7, R396) -/

theorem exec_registerWrite_of_not_ready {s : State} (hr : s.hi.ready = false) (f : BitVec 6) (bar2 : Bool)
    (off v : Word) : exec (.registerWrite f bar2 off v) s = .next s := by
  simp [exec, execRegisterWrite, hr]

/-- Only the physical function has BAR0. -/
theorem exec_registerWrite_bar0_of_ne_zero (s : State) {f : BitVec 6} (hf : f ≠ 0) (off v : Word) :
    exec (.registerWrite f false off v) s = .next s := by
  have hf' : f.toNat ≠ 0 := fun h => hf (BitVec.eq_of_toNat_eq h)
  simp [exec, execRegisterWrite, hf']

theorem exec_registerWrite_bar2_of_unimplemented {s : State} (hr : s.hi.ready = true) {f : BitVec 6} {off : Word}
    (h : s.readReg f.toNat true off.toNat = none) (v : Word) :
    exec (.registerWrite f true off v) s =
      .next (s.violate f.toNat (violationKind f.toNat true off.toNat) true off.toNat) := by
  simp [exec, execRegisterWrite, hr, h]

/-- A write to a register of the privileged region that can be read. -/
theorem exec_registerWrite_priv {s : State} (hr : s.hi.ready = true) {at_ : Word} (o : Nat)
    (hat : at_.toNat = 0x200000 + o) (ho : o < 0x100000) (halign : o % 4 = 0) (hreg : (s.privReg o).isSome = true)
    (v : Word) : exec (.registerWrite 0 false at_ v) s = .next (s.writePriv o v) := by
  obtain ⟨w, hw⟩ := Option.isSome_iff_exists.mp hreg
  have hread : s.readReg 0 false at_.toNat = some w := by
    have h4 : (0x200000 + o) % 4 = 0 := by omega
    have h1 : ¬0x200000 + o < 0x100000 := by omega
    have h2 : ¬0x200000 + o < 0x102000 := by omega
    have h3 : 0x200000 + o < 0x300000 := by omega
    simp [State.readReg, State.readBar0, hat, h4, h1, h2, h3, hw]
  have hwrite : s.writeBar0 at_.toNat v = s.writePriv o v := by
    have h2 : ¬0x200000 + o < 0x102000 := by omega
    have h3 : 0x200000 + o < 0x300000 := by omega
    simp [State.writeBar0, hat, h2, h3]
  simp [exec, execRegisterWrite, hr, hread, hwrite]

theorem exec_registerWrite_pwCtrl {s : State} (hr : s.hi.ready = true) (v : Word) :
    exec (.registerWrite 0 false 0x209004 v) s = .next (s.writePwCtrl v) :=
  exec_registerWrite_priv hr 0x9004 rfl (by decide) rfl rfl v

theorem next_writePwCtrl_enterP2 (s : State) {v : Word} (h : v.extractLsb' 0 2 = (1 : BitVec 2)) :
    .next (s.writePwCtrl v) = exec .pwCtrlEnterP2 s := by
  rw [State.writePwCtrl, h]; rfl

theorem next_writePwCtrl_leaveP2 (s : State) {v : Word} (h : v.extractLsb' 0 2 = (2 : BitVec 2)) :
    .next (s.writePwCtrl v) = exec .pwCtrlLeaveP2 s := by
  rw [State.writePwCtrl, h]; rfl

theorem next_writePwCtrl_enterP3 (s : State) {v : Word} (h : v.extractLsb' 0 2 = (3 : BitVec 2)) :
    .next (s.writePwCtrl v) = exec .pwCtrlEnterP3 s := by
  rw [State.writePwCtrl, h]; rfl

/-! ## The egress ring (R386) -/

theorem exec_egCtrlEnable_of_ready {s : State} (hr : s.hi.ready = true) (f : BitVec 6) :
    exec (.egCtrlEnable f) s = .next (s.modFn f.toNat Func.enableRing) := by
  simp [exec, execEgCtrlEnable, hr]

theorem exec_egCtrlEnable_of_not_ready {s : State} (hr : s.hi.ready = false) (f : BitVec 6) :
    exec (.egCtrlEnable f) s = .next s := by
  simp [exec, execEgCtrlEnable, hr]

theorem Func.enableRing_of_legal {x : Func} (hlow : 7 ≤ x.egSize.toNat) (hhigh : x.egSize.toNat ≤ 20) :
    x.enableRing =
      { x with egEnable := true, produced := 0, badConsumed := false, dmaError := false, consumedWord := 0 } := by
  simp [Func.enableRing, hlow, hhigh]

theorem Func.enableRing_of_illegal {x : Func} (h : x.egSize.toNat < 7 ∨ 20 < x.egSize.toNat) : x.enableRing = x := by
  have hx : ¬(7 ≤ x.egSize.toNat ∧ x.egSize.toNat ≤ 20) := by omega
  simp [Func.enableRing, hx]

/-- Two changes that agree on the function's registers are one change. -/
theorem State.modFn_congr (s : State) (f : Nat) {g h : Func → Func} (hgh : g (s.fn f) = h (s.fn f)) :
    s.modFn f g = s.modFn f h :=
  congrArg (s.setFn f) hgh

/-- A change that leaves the function's registers alone leaves every function's alone. -/
theorem State.modFn_fn_of_fixed (s : State) {f : Nat} {g : Func → Func} (hg : g (s.fn f) = s.fn f) (k : Nat) :
    (s.modFn f g).fn k = s.fn k := by
  by_cases hk : k = f
  · subst hk
    rw [State.modFn_fn_same, hg]
  · exact s.setFn_fn_other _ hk

/-- EG_CTRL: a write of enable does what EG_CTRL_ENABLE does. -/
theorem exec_registerWrite_egCtrl {s : State} (hr : s.hi.ready = true) (f : BitVec 6) {v : Word}
    (hv : bit v 0 = true) : exec (.registerWrite f true 0x200020 v) s = exec (.egCtrlEnable f) s := by
  have hread : s.readReg f.toNat true 0x200020 = some (fields [(flag (s.fn f.toNat).egEnable, 0)]) := rfl
  have hring : (fun x : Func => x.writeRing 0x20 v) = Func.enableRing := by
    funext x
    simp [Func.writeRing, hv]
  have hwrite : s.writeBar2 f.toNat 0x200020 v = s.modFn f.toNat Func.enableRing := by
    rw [← hring]; rfl
  rw [exec_egCtrlEnable_of_ready hr]
  simp [exec, execRegisterWrite, hr, hread, hwrite]

/-! ## Time-stamp samples (R82, R84, R85) -/

theorem exec_tsSampleTake_of_ready {s : State} (hr : s.hi.ready = true) :
    exec .tsSampleTake s = .next s.sampleTake := by
  simp [exec, execTsSampleTake, hr]

theorem exec_tsSampleTake_of_not_ready {s : State} (hr : s.hi.ready = false) : exec .tsSampleTake s = .next s := by
  simp [exec, execTsSampleTake, hr]

/-- TS_CONTROL: a write of take does what TS_SAMPLE_TAKE does. -/
theorem exec_registerWrite_tsControl {s : State} (hr : s.hi.ready = true) {v : Word} (hv : bit v 0 = true) :
    exec (.registerWrite 0 false 0x202004 v) s = exec .tsSampleTake s := by
  rw [exec_registerWrite_priv hr 0x2004 rfl (by decide) rfl rfl v, exec_tsSampleTake_of_ready hr]
  simp [State.writePriv, hv]

theorem exec_tsSampleDone_of_none {s : State} (h : s.ts.sampling = none) : exec .tsSampleDone s = .next s := by
  simp [exec, execTsSampleDone, h]

/-- A sample of an absent island, or of one without power, finds nothing. -/
theorem exec_tsSampleDone_of_dark {s : State} {id : BitVec 16} (h : s.ts.sampling = some id)
    (hd : islandExists s.fused.variant id.toNat = false ∨ s.unpowered id.toNat = true) :
    exec .tsSampleDone s = .next { s with ts := s.ts.place .reset (islandExists s.fused.variant id.toNat) } := by
  rcases hd with hd | hd <;> simp [exec, execTsSampleDone, h, hd]

theorem exec_tsSampleDone_of_powered {s : State} {id : BitVec 16} (h : s.ts.sampling = some id)
    (ht : islandExists s.fused.variant id.toNat = true) (hu : s.unpowered id.toNat = false) :
    exec .tsSampleDone s = .next { s with ts := s.ts.place (s.sampled id.toNat) (s.clockHeld id.toNat) } := by
  simp [exec, execTsSampleDone, h, ht, hu]

/-- A bell number above a saturated cycle offset. -/
theorem toNat_stamp (bell : BitVec 40) (count : Nat) :
    ((bell.setWidth 64 <<< (24 : Nat)) ||| (satCycle count).setWidth 64 : BitVec 64).toNat =
      bell.toNat * 2 ^ 24 + min count 0xFFFFFF := by
  have hc : min count 0xFFFFFF < 2 ^ 24 := by omega
  have hb : bell.toNat < 2 ^ 40 := bell.isLt
  have hhigh : (bell.setWidth 64 <<< (24 : Nat)).toNat = bell.toNat <<< 24 := by
    rw [BitVec.toNat_shiftLeft, BitVec.toNat_setWidth, Nat.shiftLeft_eq, Nat.shiftLeft_eq]
    omega
  have hlow : ((satCycle count).setWidth 64).toNat = min count 0xFFFFFF := by
    rw [satCycle, BitVec.toNat_setWidth, BitVec.toNat_ofNat]
    omega
  rw [BitVec.toNat_or, hhigh, hlow, ← Nat.shiftLeft_add_eq_or_of_lt hc, Nat.shiftLeft_eq]

/-- The time-stamp registers hold this bell number and cycle offset, the stretching of this island, and whether its clock
stands (Tables 3-7 to 3-9). -/
def Stamps.Shows (t : Stamps) (i : Island) (number offset : Nat) (held : Bool) : Prop :=
  t.stamp.toNat = number * 2 ^ 24 + min offset 0xFFFFFF ∧ t.stretch = i.stretched ∧
    t.lessonStretch.toNat = min i.lessonStretch 0x1FFF ∧ t.debt.toNat = min i.debt 0xFF ∧ t.stopped = held

theorem Stamps.place_shows (t : Stamps) (i : Island) (held : Bool) :
    (t.place i held).Shows i i.bell.toNat i.count held :=
  ⟨toNat_stamp i.bell i.count, rfl, Nat.mod_eq_of_lt (by omega), Nat.mod_eq_of_lt (by omega), rfl⟩

theorem State.sampled_of_running {s : State} {id : Nat} (hc : (s.isle id).count ≠ 0) :
    s.sampled id = s.stamped (s.isle id) := by
  simp [State.sampled, hc]

/-- A sample outside the cycle of a release shows the island's own counts, bell 0 and offset 0 before the start. -/
theorem Stamps.place_sampled_shows_of_running (t : Stamps) {s : State} {id : Nat} (held : Bool)
    (hc : (s.isle id).count ≠ 0) :
    if s.beforeStart then (t.place (s.sampled id) held).Shows (s.isle id) 0 0 held
    else (t.place (s.sampled id) held).Shows (s.isle id) (s.isle id).bell.toNat (s.isle id).count held := by
  rw [State.sampled_of_running hc]
  by_cases hs : s.beforeStart = true
  · rw [if_pos hs, State.stamped, if_pos hs]
    exact t.place_shows { s.isle id with count := 0, bell := 0 } held
  · rw [if_neg hs, State.stamped, if_neg hs]
    exact t.place_shows (s.isle id) held

/-- The counts that a sample in the cycle of a release takes: those of the cycle before it (R85). -/
def State.isleBefore (s : State) (id : Nat) : Island :=
  if id < 8192 then (s.tile (islandTile id)).before else s.ts.before.isle id

theorem State.sampled_of_released {s : State} {id : Nat} (hc : (s.isle id).count = 0) :
    s.sampled id = { s.isleBefore id with stopped := (s.isle id).stopped } := by
  unfold State.sampled State.isleBefore
  rw [if_neg (not_not_intro hc)]
  split <;> rfl

/-- A sample in the cycle of a release shows the counts of the cycle before. -/
theorem Stamps.place_sampled_shows_of_released (t : Stamps) {s : State} {id : Nat} (held : Bool)
    (hc : (s.isle id).count = 0) :
    (t.place (s.sampled id) held).Shows (s.isleBefore id) (s.isleBefore id).bell.toNat (s.isleBefore id).count
      held := by
  rw [State.sampled_of_released hc]
  exact t.place_shows { s.isleBefore id with stopped := (s.isle id).stopped } held

/-- Settles O35: each register write, violation and sample by the rule of its own command. -/
theorem registerAccess : Obligations.RegisterAccess := by
  unfold Obligations.RegisterAccess
  refine ⟨fun s f bar2 off v kind => ⟨?violation, ?reserved, ?notReady, ?ready⟩,
    fun s => ⟨exec_tsSampleDone_of_none, ?sample⟩⟩
  case violation =>
    intro hlow hhigh
    exact ⟨_, exec_accessViolation_of_legal s f bar2 off hlow hhigh, s.keeps_violate _ _ _ _, by simp⟩
  case reserved => exact exec_accessViolation_of_reserved s f bar2 off
  case notReady =>
    intro hr
    exact ⟨exec_registerWrite_of_not_ready hr f bar2 off v, exec_egCtrlEnable_of_not_ready hr f,
      exec_tsSampleTake_of_not_ready hr⟩
  case ready =>
    intro hr
    refine ⟨exec_registerWrite_priv hr 0x2000 rfl (by decide) rfl rfl v,
      exec_registerWrite_priv hr 0x3000 rfl (by decide) rfl rfl v,
      exec_registerWrite_priv hr 0x4000 rfl (by decide) rfl rfl v,
      exec_registerWrite_priv hr 0x5000 rfl (by decide) rfl rfl v,
      exec_registerWrite_priv hr 0x6000 rfl (by decide) rfl rfl v,
      exec_registerWrite_priv hr 0x7000 rfl (by decide) rfl rfl v,
      exec_registerWrite_priv hr 0x8000 rfl (by decide) rfl rfl v,
      exec_registerWrite_priv hr 0x9018 rfl (by decide) rfl rfl v,
      fun h => (exec_registerWrite_pwCtrl hr v).trans (next_writePwCtrl_enterP2 s h),
      fun h => (exec_registerWrite_pwCtrl hr v).trans (next_writePwCtrl_leaveP2 s h),
      fun h => (exec_registerWrite_pwCtrl hr v).trans (next_writePwCtrl_enterP3 s h),
      exec_registerWrite_tsControl hr, exec_registerWrite_egCtrl hr f,
      ⟨_, exec_tsSampleTake_of_ready hr, rfl, rfl, State.keeps_of_mem_tiles rfl rfl⟩, fun h => ?_,
      fun hf => exec_registerWrite_bar0_of_ne_zero s hf off v, fun hlow hhigh => ?_, fun hill => ?_⟩
    · exact ⟨_, exec_registerWrite_bar2_of_unimplemented hr h v, s.keeps_violate _ _ _ _, by simp⟩
    · exact (exec_egCtrlEnable_of_ready hr f).trans
        (congrArg Host.Outcome.next (s.modFn_congr f.toNat (Func.enableRing_of_legal hlow hhigh)))
    · exact ⟨_, exec_egCtrlEnable_of_ready hr f, State.keeps_of_mem_tiles rfl rfl,
        s.modFn_fn_of_fixed (Func.enableRing_of_illegal hill)⟩
  case sample =>
    intro id h
    by_cases hd : islandExists s.fused.variant id.toNat = false ∨ s.unpowered id.toNat = true
    case pos =>
      exact ⟨_, exec_tsSampleDone_of_dark h hd, State.keeps_of_mem_tiles rfl rfl, rfl, rfl,
        fun _ => ⟨rfl, rfl, rfl, rfl, rfl⟩, fun ht hu => absurd hd (by simp [ht, hu]),
        fun ht hu => absurd hd (by simp [ht, hu])⟩
    case neg =>
      obtain ⟨ht, hu⟩ := not_or.mp hd
      exact ⟨_,
        exec_tsSampleDone_of_powered h (Bool.eq_true_of_not_eq_false ht) (Bool.eq_false_of_not_eq_true hu),
        State.keeps_of_mem_tiles rfl rfl, rfl, rfl, fun hd' => absurd hd' hd,
        fun _ _ => s.ts.place_sampled_shows_of_running _, fun _ _ => s.ts.place_sampled_shows_of_released _⟩

end Sys2Proof.Machine
end

section
/-! PROOFS. What reset leaves, and the refusal of frequency step 7 on a G1 part (R21, R25, Tables 2-10 to 2-14, 9-5, 10-7,
11-10, 16-3 and 20-8). -/

namespace Sys2Proof.Machine

/-! ## The state after reset: every table is empty, so each of its entries reads as its default -/

theorem reset_byte (a : Nat) : State.reset.mem.byte a = 0 := rfl

theorem reset_tile (t : Nat) : State.reset.tile t = Tile.reset := rfl

theorem reset_region (k : Nat) : State.reset.region k = Region.reset := rfl

theorem reset_link (l : Nat) : State.reset.link l = Link.reset := rfl

theorem reset_router (d : Nat) : State.reset.router d = Router.reset := rfl

theorem reset_mbox (k : Nat) : State.reset.mbox k = Mailbox.reset := rfl

/-- Settles O57: the entries of tables by the lemmas above, each register by its value after reset. -/
theorem resetLeaves : Obligations.ResetLeaves := by
  unfold Obligations.ResetLeaves
  simp only [reset_region, reset_link, reset_router, reset_mbox]
  exact ⟨rfl, reset_memWf, reset_byte, fun t => congrArg Tile.regs (reset_tile t),
    rfl, rfl, rfl, rfl, rfl, rfl, rfl, rfl, rfl, rfl, rfl, rfl, rfl, rfl,
    rfl, fun _ => ⟨rfl, rfl, rfl⟩, fun _ => ⟨rfl, rfl, rfl⟩, fun _ => ⟨rfl, rfl⟩, rfl, rfl, fun _ => ⟨rfl, rfl, rfl⟩,
    rfl, rfl, rfl, rfl, rfl, rfl, rfl, rfl, rfl, rfl⟩

/-! ## A request for a frequency step (R21, R403) -/

theorem State.gradeStep_of_g1 {s : State} (h : s.fused.gradeG2 = false) : s.gradeStep = 6 := by
  simp [State.gradeStep, h]

/-- An answer touches the mailboxes only. -/
theorem State.answer_pw (s : State) (w : Waiting) (status : BitVec 16) (body : List Byte) :
    (s.answer w status body).pw = s.pw := by
  simp only [State.answer]
  split <;> rfl

theorem State.accepts_started {s s1 : State} {k op : Nat} {b : List Byte} {w : Waiting} (h : s.accepts k op b w s1) :
    s1.pw = s.pw ∧ s1.fused = s.fused := by
  obtain ⟨r, t, _, _, _, _, _, _, _, _, _, _, _, rfl⟩ := h
  exact ⟨rfl, rfl⟩

/-- A command that the turn of its transport starts, from an issuer it grants and with a body that fits, takes effect. -/
theorem State.command_of_accepts {s s1 : State} {tr : BitVec 7} {kind : CommandKind} {b : List Byte} {w : Waiting}
    {fits : List Byte → Bool} (h : s.accepts tr.toNat kind.opcode b w s1) (hop : kind.opcode < 2 ^ 16)
    (hgrant : kind.issuers.grants tr.toNat = true) (hlen : kind.length ≤ b.length) (hfits : fits b = true)
    (run : State → Waiting → List Byte → State) : s.command tr kind true fits run = run s1 w b := by
  obtain ⟨r, t, hqueue, hr, rfl, hturn, hsession, hmajor, hminor, hseq, hstore, htrial, rfl, rfl⟩ := h
  have hopcode : r.opcode.toNat = kind.opcode := by
    rw [hr, BitVec.toNat_ofNat, Nat.mod_eq_of_lt hop]
  have hstatus : s.sessionStatus (s.mbox tr.toNat) r = 0 := by
    simp [State.sessionStatus, hstore, hsession, hmajor, hminor, hseq]
  have hcommand : s.commandStatus true true kind.persistent = 0 := by
    simp [State.commandStatus, htrial]
  simp [State.command, hqueue, hopcode, hturn, hstatus, hgrant, hlen, hfits, hcommand, hstore]

theorem exec_powerStep_of_accepts {s s1 : State} {b : List Byte} {w : Waiting} (h : s.accepts 0 0x30 b w s1)
    (hlen : 1 ≤ b.length) : exec (.powerStep 0) s = .next (s1.powerStep w b) :=
  congrArg Host.Outcome.next
    (State.command_of_accepts (tr := 0) (kind := ⟨0x30, onlyPf, 1, false⟩) h (by decide) rfl hlen rfl _)

theorem State.powerStep_of_above_grade {s : State} {b : List Byte} (h : s.gradeStep < natAt b 0 1) (w : Waiting) :
    s.powerStep w b = s.answer w 0x10 [] := by
  simp [State.powerStep, h]

/-- Settles O59: step 7 is above the grade of a G1 part, so the request is answered and nothing else changes. -/
theorem stepSevenRefusedOnG1 : Obligations.StepSevenRefusedOnG1 := by
  unfold Obligations.StepSevenRefusedOnG1
  intro s s1 b w hgrade haccepts hlen hseven _
  obtain ⟨hpw, hfused⟩ := State.accepts_started haccepts
  have habove : s1.gradeStep < natAt b 0 1 := by
    rw [State.gradeStep_of_g1 (hfused ▸ hgrade), hseven]
    decide
  have hexec : exec (.powerStep 0) s = .next (s1.answer w 0x10 []) := by
    rw [exec_powerStep_of_accepts haccepts hlen, State.powerStep_of_above_grade habove]
  exact ⟨_, hexec, rfl, by rw [State.answer_pw, hpw], by rw [State.answer_pw, hpw]⟩

end Sys2Proof.Machine
end

section
/-! PROOFS. What a reset or a power-off clears of domain A: the tiles' registers and working memory (R25, R488, R493). -/

namespace Sys2Proof.Machine

/-! ## Tables whose entries have all been cleared -/

/-- What holds of the default and of every entry listed holds of every read. -/
theorem tabGet_of_forall {α : Type} {P : α → Prop} {d : α} {t : Tab α} (hd : P d) (ht : ∀ e ∈ t, P e.2) (k : Nat) :
    P (tabGet d t k) := by
  induction t with
  | nil => exact hd
  | cons e t ih =>
    obtain ⟨j, x⟩ := e
    rw [tabGet_cons]
    split
    · exact ht (j, x) List.mem_cons_self
    · exact ih fun e he => ht e (List.mem_cons_of_mem _ he)

theorem mem_tabMap {α : Type} {f : Nat → α → α} {t : Tab α} {e : Nat × α} (h : e ∈ tabMap f t) :
    ∃ x ∈ t, e.2 = f x.1 x.2 := by
  induction t with
  | nil => simp [tabMap] at h
  | cons y t ih =>
    rcases List.mem_cons.1 h with rfl | h
    · exact ⟨y, List.mem_cons_self, rfl⟩
    · obtain ⟨x, hx, he⟩ := ih h
      exact ⟨x, List.mem_cons_of_mem _ hx, he⟩

/-- What a change makes true of every entry listed holds of every entry of the table changed, defaults left out. -/
theorem forall_mem_filter_tabMap {α : Type} {P : α → Prop} {f : Nat → α → α} {t : Tab α} (hf : ∀ e ∈ t, P (f e.1 e.2))
    (p : Nat × α → Bool) : ∀ e ∈ (tabMap f t).filter p, P e.2 := by
  intro e he
  obtain ⟨x, hx, hex⟩ := mem_tabMap (List.mem_filter.1 he).1
  rw [hex]
  exact hf x hx

/-! ## Tiles -/

/-- The tile's registers are those after reset. -/
def Tile.Blank (x : Tile) : Prop := x.regs = Tile.reset.regs

theorem resetTiles_blank (t : Tab Tile) : ∀ e ∈ resetTiles t, e.2.Blank :=
  forall_mem_filter_tabMap (fun _ _ => rfl) _

theorem computeTiles_blank (t : Tab Tile) : ∀ e ∈ computeTiles t, e.2.Blank :=
  forall_mem_filter_tabMap (fun _ _ => rfl) _

theorem tabGet_regs_of_blank {t : Tab Tile} (h : ∀ e ∈ t, e.2.Blank) (k : Nat) :
    (tabGet .reset t k).regs = Tile.reset.regs :=
  tabGet_of_forall (P := Tile.Blank) rfl h k

theorem tabGet_resetTiles_regs (t : Tab Tile) (k : Nat) : (tabGet .reset (resetTiles t) k).regs = Tile.reset.regs :=
  tabGet_regs_of_blank (resetTiles_blank t) k

theorem tabGet_computeTiles_regs (t : Tab Tile) (k : Nat) : (tabGet .reset (computeTiles t) k).regs = Tile.reset.regs :=
  tabGet_regs_of_blank (computeTiles_blank t) k

/-! ## Domain A off -/

/-- Domain A holds nothing, and the weight store what it held (R493). -/
def State.ClearedA (s s' : State) : Prop :=
  (∀ a, s'.mem.byte a = 0) ∧ s'.mem.ue = [] ∧ s'.mem.slices = [] ∧ (∀ t, (s'.tile t).regs = Tile.reset.regs) ∧
    s'.nv.blocks = s.nv.blocks ∧ s'.nv.restoreMap = s.nv.restoreMap

end Sys2Proof.Machine
end

section
/-! PROOFS. PW_CTRL and PW_RESET (R25, R488, R489, R493, Tables 20-2, 20-5 and 20-8). -/

namespace Sys2Proof.Machine

/-! ## Refusals -/

theorem State.refusesPower_iff (s : State) :
    s.refusesPower = true ↔ s.job.state ≠ .none ∨ s.distributing = true ∨ s.sec.update ≠ none := by
  simp [State.refusesPower, Option.isSome_iff_ne_none, or_assoc]

/-- Without firmware no write of PW_CTRL or PW_RESET does anything. -/
theorem exec_power_of_no_firmware {s : State} (hf : s.pw.firmware = false) (v : Word) :
    exec .pwCtrlEnterP2 s = .next s ∧ exec .pwCtrlEnterP3 s = .next s ∧ exec .pwCtrlLeaveP2 s = .next s ∧
      exec (.pwResetCompute v) s = .next s ∧ exec (.pwResetPart v) s = .next s := by
  simp [exec, execPwCtrlEnterP2, execPwCtrlEnterP3, execPwCtrlLeaveP2, execPwResetCompute, execPwResetPart, hf]

/-! ## Entering and leaving P2 -/

/-- P2 entered: domain A is off. -/
def State.enterP2 (s : State) : State :=
  { s with
    tiles := computeTiles s.tiles
    mem := { Mem.reset with select := s.mem.select, dies := s.mem.dies }
    pw := { s.pw with state := .p2, domainA := false, refused := false, tripped := false, powerTrip := false }
    ts := s.ts.afterCompute
    nv := { s.nv with restores := [], restoring := false } }

theorem State.enterP2_clearedA (s : State) : s.ClearedA s.enterP2 :=
  ⟨fun _ => rfl, rfl, rfl, tabGet_computeTiles_regs s.tiles, rfl, rfl⟩

theorem exec_pwCtrlEnterP2 {s : State} (hf : s.pw.firmware = true) :
    exec .pwCtrlEnterP2 s = .next (
      if s.refusesPower = true ∨ ¬(s.pw.state = .p0 ∨ s.pw.state = .p1) then s.powerRefused else s.enterP2) := by
  simp [exec, execPwCtrlEnterP2, hf, State.enterP2]

theorem exec_pwCtrlLeaveP2 {s : State} (hf : s.pw.firmware = true) :
    exec .pwCtrlLeaveP2 s = .next (
      if s.pw.state = .p2 ∧ s.pw.domainA = false then
        State.powerA { s with pw := { s.pw with refused := false } }
      else s.powerRefused) := by
  simp [exec, execPwCtrlLeaveP2, hf]

/-! ## Entering P3 -/

/-- The shutdown to P3 has begun (R493). -/
def State.beginShutdown (s : State) : State := { s with pw := { s.pw with state := .p3, refused := false } }

theorem exec_pwCtrlEnterP3 {s : State} (hf : s.pw.firmware = true) :
    exec .pwCtrlEnterP3 s = .next (
      if s.refusesPower = true ∨ s.pw.state = .p3 then s.powerRefused else s.beginShutdown.endShutdown) := by
  simp [exec, execPwCtrlEnterP3, hf, State.beginShutdown]

theorem State.powerOff_beginShutdown_clearedA (s : State) (cause : BitVec 4) (stays : Bool) :
    s.ClearedA (s.beginShutdown.powerOff cause stays) :=
  ⟨fun _ => rfl, rfl, rfl, tabGet_resetTiles_regs s.tiles, rfl, rfl⟩

/-- With no record commit in flight the domains power off at once. -/
theorem State.endShutdown_beginShutdown_of_idle {s : State} (hf : s.pw.firmware = true) (hc : s.nv.commits = []) :
    s.beginShutdown.endShutdown = s.beginShutdown.powerOff s.pw.lastReset false := by
  simp [State.endShutdown, State.shuttingDown, State.beginShutdown, hf, hc]

/-- A record commit in flight holds the domains' power. -/
theorem State.endShutdown_beginShutdown_of_committing {s : State} (hc : s.nv.commits ≠ []) :
    s.beginShutdown.endShutdown = s.beginShutdown := by
  simp [State.endShutdown, State.beginShutdown, hc]

/-! ## PW_RESET -/

theorem exec_pwResetCompute (s : State) (v : Word) :
    exec (.pwResetCompute v) s = .next (
      if v.extractLsb' 16 16 = (0x9400 : BitVec 16) ∧ v.extractLsb' 0 2 = (1 : BitVec 2) ∧ s.pw.firmware = true ∧
          s.pw.startup = 7 then
        (if s.pw.domainA = true then (s.computeReset 5).powerA else s.computeReset 5)
      else s) := by
  simp [exec, execPwResetCompute, and_assoc]

theorem exec_pwResetPart (s : State) (v : Word) :
    exec (.pwResetPart v) s = .next (
      if v.extractLsb' 16 16 = (0x9400 : BitVec 16) ∧ v.extractLsb' 0 2 = (2 : BitVec 2) ∧ s.pw.firmware = true then
        { s with pw := { s.pw with resetPending := true } }
      else s) := by
  simp [exec, execPwResetPart, and_assoc]

theorem State.computeReset_regs (s : State) (cause : BitVec 4) (t : Nat) :
    ((s.computeReset cause).tile t).regs = Tile.reset.regs :=
  tabGet_computeTiles_regs _ t

/-- A write of PW_RESET without the key does nothing. -/
theorem exec_pwReset_of_no_key (s : State) {v : Word} (h : v.extractLsb' 16 16 ≠ (0x9400 : BitVec 16)) :
    exec (.pwResetCompute v) s = .next s ∧ exec (.pwResetPart v) s = .next s := by
  rw [exec_pwResetCompute, exec_pwResetPart, if_neg fun hc => h hc.1, if_neg fun hc => h hc.1]
  exact ⟨rfl, rfl⟩

/-- Compute reset leaves domain A empty, and on where it was on: start-up goes on at its self-test. -/
theorem exec_pwResetCompute_of_key {s : State} {v : Word} (hf : s.pw.firmware = true)
    (hkey : v.extractLsb' 16 16 = (0x9400 : BitVec 16)) (hop : v.extractLsb' 0 2 = (1 : BitVec 2))
    (hup : s.pw.startup = 7) :
    ∃ s', exec (.pwResetCompute v) s = .next s' ∧ s'.pw.lastReset = 5 ∧ s'.pw.domainA = s.pw.domainA ∧
      (s.pw.domainA = true → s'.pw.startup = 5) ∧ (∀ a, s'.mem.byte a = 0) ∧
      ∀ t, (s'.tile t).regs = Tile.reset.regs := by
  rw [exec_pwResetCompute, if_pos ⟨hkey, hop, hf, hup⟩]
  cases hA : s.pw.domainA with
  | true => exact ⟨_, rfl, rfl, rfl, fun _ => rfl, fun _ => rfl, s.computeReset_regs 5⟩
  | false => exact ⟨_, rfl, rfl, rfl, nofun, fun _ => rfl, s.computeReset_regs 5⟩

/-- Settles O32: each op where it is refused, and where it is not. -/
theorem powerControl : Obligations.PowerControl := by
  unfold Obligations.PowerControl
  intro s v
  rw [← s.refusesPower_iff]
  refine ⟨fun hf => exec_power_of_no_firmware hf v, fun hf => ?_⟩
  rw [exec_pwCtrlEnterP2 hf, exec_pwCtrlLeaveP2 hf, exec_pwCtrlEnterP3 hf]
  refine ⟨fun h => by rw [if_pos h]; rfl, fun h => by rw [if_pos h]; rfl, fun hr hs => ?enterP2, fun hs ha => ?leaveP2,
    fun h => ?staysP2, fun hr hs hc => ?enterP3, fun hr hs hc => ?beginP3, exec_pwReset_of_no_key s, fun h => ?noCompute,
    fun h => ?noPart, exec_pwResetCompute_of_key hf, fun hkey hop => ?part⟩
  case enterP2 =>
    rw [if_neg (by simp [hr, hs])]
    exact ⟨_, rfl, s.enterP2_clearedA, rfl, rfl, rfl, hf, rfl⟩
  case leaveP2 =>
    rw [if_pos ⟨hs, ha⟩]
    exact ⟨_, rfl, rfl, rfl, rfl, fun _ => rfl, rfl⟩
  case staysP2 =>
    rw [if_neg fun hc => h.elim (· hc.1) fun ha => by simp [ha] at hc]
    rfl
  case enterP3 =>
    rw [if_neg (not_or.2 ⟨hr, hs⟩), State.endShutdown_beginShutdown_of_idle hf hc]
    exact ⟨_, rfl, s.powerOff_beginShutdown_clearedA _ _, rfl, rfl, rfl, rfl, rfl, rfl⟩
  case beginP3 =>
    rw [if_neg (not_or.2 ⟨hr, hs⟩), State.endShutdown_beginShutdown_of_committing hc]
    rfl
  case noCompute =>
    rw [exec_pwResetCompute, if_neg]
    rintro ⟨_, hop, _, hup⟩
    exact h.elim (· hop) (· hup)
  case noPart =>
    rw [exec_pwResetPart, if_neg fun hc => h hc.2.1]
  case part =>
    rw [exec_pwResetPart, if_pos ⟨hkey, hop, hf⟩]

end Sys2Proof.Machine
end

section
/-! PROOFS. What the boot ROM leaves alone (R457, R469): the image it chooses, and the record of the choice, touch
security, the store's records and the steps of start-up only. -/

namespace Sys2Proof.Machine

/-- What a fold leaves alone where no step changes it. -/
theorem foldl_unchanged {σ β γ : Type} {f : σ → β → σ} {g : σ → γ} (h : ∀ s b, g (f s b) = g s) (l : List β) (s : σ) :
    g (l.foldl f s) = g s := by
  induction l generalizing s with
  | nil => rfl
  | cons b l ih => exact (ih (f s b)).trans (h s b)

/-- The state apart from what a start of the boot ROM may change: security, the journal with the stacks' wear and the
complete decisions that a record drops, the steps of start-up, the signals sent and the free values drawn. -/
def State.besideBoot (s : State) : State :=
  { s with
    sec := .reset, out := [], free := 0
    nv := { s.nv with
      stackTab := [], eraseBlocks := [], decisions := [], journal := [], commits := [], nextSequence := 0
      degraded := false, degradedTold := false }
    pw := { s.pw with state := .p0, firmware := false, startup := 0, domainB := false, domainC := false, rom := false } }

/-! ## Writing a record -/

@[simp] theorem State.besideBoot_retireBlock (s : State) (k e : Nat) :
    (s.retireBlock k e).besideBoot = s.besideBoot := by
  unfold State.retireBlock
  split <;> rfl

@[simp] theorem State.besideBoot_writeCopy (s : State) (c : RecordCopy) (k : Nat) (bad : List Nat) :
    (s.writeCopy c k bad).besideBoot = s.besideBoot := by
  unfold State.writeCopy
  split <;> rfl

@[simp] theorem State.besideBoot_writeRecords (s : State) (c : Commit) (failed : List (Nat × Nat)) :
    (s.writeRecords c failed).besideBoot = s.besideBoot := by
  unfold State.writeRecords
  refine (foldl_unchanged (fun s x => ?copies) _ _).trans (foldl_unchanged (fun s k => ?retired) _ _)
  case copies => exact foldl_unchanged (fun s k => s.besideBoot_writeCopy _ _ _) _ _
  case retired => exact foldl_unchanged (fun s j => s.besideBoot_retireBlock _ _) _ _

@[simp] theorem State.besideBoot_noteDegraded (s : State) : s.noteDegraded.besideBoot = s.besideBoot := by
  unfold State.noteDegraded
  split
  · rfl
  · dsimp only
    split <;> rfl

@[simp] theorem State.besideBoot_startCommit (s : State) (type : Byte) (e : Effect) (a : After) :
    (s.startCommit type e a).besideBoot = s.besideBoot := by
  unfold State.startCommit
  split <;> rfl

@[simp] theorem State.besideBoot_recordWear (s t : State) : (s.recordWear t).besideBoot = s.besideBoot := by
  unfold State.recordWear
  dsimp only
  split
  · rfl
  · exact s.besideBoot_startCommit _ _ _

@[simp] theorem State.besideBoot_dropDecisions (s : State) (c : Commit) :
    (s.dropDecisions c).besideBoot = s.besideBoot := by
  unfold State.dropDecisions
  split <;> rfl

/-- A record of the firmware slots. -/
@[simp] theorem State.besideBoot_commitNow_slots (s : State) (type : Byte) (a b : FirmwareSlot) (n : BitVec 64) :
    (s.commitNow type (.slots a b n)).besideBoot = s.besideBoot := by
  unfold State.commitNow State.complete
  rw [State.besideBoot_recordWear, State.besideBoot_noteDegraded, State.besideBoot_writeRecords]
  exact State.besideBoot_dropDecisions _ _

/-! ## Choosing an image -/

@[simp] theorem State.besideBoot_startImage (s : State) (slot : BitVec 1) (trial : Bool) :
    (s.startImage slot trial).besideBoot = s.besideBoot := rfl

/-- Both slots judged, and their record written where the judgement changes it. -/
theorem State.besideBoot_judged (s : State) (a b : FirmwareSlot) :
    (if a == s.sec.slotA && b == s.sec.slotB then s else s.commitNow 8 (.slots a b 0)).besideBoot = s.besideBoot := by
  split
  · rfl
  · exact s.besideBoot_commitNow_slots _ _ _ _

@[simp] theorem State.besideBoot_boot (s : State) : s.boot.besideBoot = s.besideBoot := by
  unfold State.boot
  extract_lets a b judged
  have hjudged : judged.besideBoot = s.besideBoot := s.besideBoot_judged a b
  clear_value judged
  rw [← hjudged]
  split_ifs
  · rw [State.besideBoot_startImage, State.besideBoot_commitNow_slots]
  · rw [State.besideBoot_startImage, State.besideBoot_commitNow_slots]
  all_goals rfl

@[simp] theorem State.besideBoot_tryBoot (s : State) : s.tryBoot.besideBoot = s.besideBoot := by
  unfold State.tryBoot
  split
  · exact s.besideBoot_boot
  · rfl

@[simp] theorem State.besideBoot_startUp (s : State) : s.startUp.besideBoot = s.besideBoot := by
  unfold State.startUp
  split
  · exact State.besideBoot_tryBoot _
  · rfl

end Sys2Proof.Machine
end

section
/-! PROOFS. The resets of the part (R25, R488, R490, R494, R495, Table 20-5). -/

namespace Sys2Proof.Machine

/-! ## What a reset clears -/

/-- The part stands as after a reset, but for what its records hold (Table 20-5). -/
def State.ClearedAll (s s' : State) : Prop :=
  (∀ a, s'.mem.byte a = 0) ∧ (∀ t, (s'.tile t).regs = Tile.reset.regs) ∧ s'.cq = .reset ∧ s'.rc.eid = 0 ∧
    s'.nv.restoreMap = s.nv.restoreMap ∧ s'.nv.generations = s.nv.generations ∧ s'.ts.fences = s.ts.fences ∧
    s'.rt.slice = s.rt.slice ∧ s'.bell = .reset ∧ (s.rt.role ≠ 2 → s'.job = .reset)

theorem State.resetDomains_clearedAll (s : State) (state : PowerState) (cause : BitVec 4) (mark : Bool) :
    s.ClearedAll (s.resetDomains state cause mark) := by
  refine ⟨fun _ => rfl, tabGet_resetTiles_regs s.tiles, rfl, rfl, rfl, rfl, rfl, rfl, rfl, fun hrole => ?_⟩
  exact if_neg fun h => hrole (by simpa using h)

/-- Only what the records hold is asked of the state before. -/
theorem State.ClearedAll.of_records {s t s' : State} (h : t.ClearedAll s') (hnv : t.nv = s.nv)
    (hfences : t.ts.fences = s.ts.fences) (hrt : t.rt = s.rt) : s.ClearedAll s' := by
  unfold State.ClearedAll at h ⊢
  rw [hnv, hfences, hrt] at h
  exact h

/-- The power block is not among what is asked. -/
theorem State.ClearedAll.with_pw {s t : State} (h : s.ClearedAll t) (pw : Power) : s.ClearedAll { t with pw := pw } := h

/-- A start of the boot ROM brings nothing back. -/
theorem State.ClearedAll.of_besideBoot {s t t' : State} (h : s.ClearedAll t) (hb : t'.besideBoot = t.besideBoot) :
    s.ClearedAll t' := by
  have hcleared : s.ClearedAll t.besideBoot := h
  rw [← hb] at hcleared
  exact hcleared

/-! ## A part with no record commit in flight and no fence due -/

theorem State.dropUnstarted_of_none {s : State} (h : s.nv.commits = []) : s.dropUnstarted = s := by
  have hs : { s with nv := { s.nv with commits := [] } } = s := by rw [← h]
  simpa [State.dropUnstarted, h] using hs

theorem State.settleCommits_of_none {s : State} (h : s.nv.commits = []) : s.settleCommits = s := by
  have hs : { s with nv := { s.nv with commits := [] } } = s := by rw [← h]
  simp only [State.settleCommits, State.dropUnstarted_of_none h, h, List.foldl_nil, hs]

/-- The tiles once the bell has taken the fences that were due. -/
theorem State.fenceAtBell_of_none {s : State} (h : s.fencesDue = []) :
    s.fenceAtBell = { s with tiles := tabMap (fun _ x => { x with fenceDue := 0 }) s.tiles } := by
  simp [State.fenceAtBell, h, State.fence]

/-! ## A part reset -/

theorem State.resetCause_eq (s : State) (c : BitVec 4) :
    s.resetCause c = if s.pw.state = .p3 ∧ s.pw.causeStays = true then s.pw.lastReset else c := by
  simp [State.resetCause]

/-- A settled part goes through a reset with the tiles' registers cleared, then the boot ROM starts. -/
theorem State.partReset_of_settled {s : State} (hc : s.nv.commits = []) (hf : s.fencesDue = []) (cause : BitVec 4) :
    ∃ tiles, s.partReset cause = State.startUp
      ({ s with tiles := tiles }.resetDomains .p0 (s.resetCause cause) s.dg.debugMode) := by
  have hcommits : ({ s with tiles := tabMap (fun _ x => { x with fenceDue := 0 }) s.tiles } : State).nv.commits = [] := hc
  rw [State.partReset, State.fenceAtBell_of_none hf, State.settleCommits_of_none hcommits]
  exact ⟨_, rfl⟩

/-- Held in reset, or without its reference, the part does not boot. -/
theorem State.startUp_firmware_of_held {s : State} (h : s.pins.partRst = true ∨ s.pins.refclk = false) :
    s.startUp.pw.firmware = s.pw.firmware := by
  rcases h with h | h
  · simp [State.startUp, h]
  · unfold State.startUp
    split
    · simp [State.tryBoot, h]
    · rfl

theorem State.startUp_resetDomains_firmware (s : State) (state : PowerState) (cause : BitVec 4) (mark : Bool)
    (h : s.pins.partRst = true ∨ s.pins.refclk = false) :
    (s.resetDomains state cause mark).startUp.pw.firmware = false :=
  State.startUp_firmware_of_held (s := s.resetDomains state cause mark) h

/-- The part after a part reset with this cause, the boot ROM started where nothing holds it. -/
structure State.HasReset (s s' : State) (cause : BitVec 4) : Prop where
  cleared : s.ClearedAll s'
  lastReset : s'.pw.lastReset = s.resetCause cause
  resetPending : s'.pw.resetPending = false
  partRst : s'.pins.partRst = s.pins.partRst
  refclk : s'.pins.refclk = s.pins.refclk
  firmware : s.pins.partRst = true ∨ s.pins.refclk = false → s'.pw.firmware = false

theorem State.partReset_hasReset {s : State} (hc : s.nv.commits = []) (hf : s.fencesDue = []) (cause : BitVec 4) :
    s.HasReset (s.partReset cause) cause := by
  obtain ⟨tiles, h⟩ := State.partReset_of_settled hc hf cause
  rw [h]
  have hcleared := State.resetDomains_clearedAll { s with tiles := tiles } .p0 (s.resetCause cause) s.dg.debugMode
  have hb := State.besideBoot_startUp
    ({ s with tiles := tiles }.resetDomains .p0 (s.resetCause cause) s.dg.debugMode)
  exact {
    cleared := (hcleared.of_records rfl rfl rfl).of_besideBoot hb
    lastReset := (congrArg (fun x => x.pw.lastReset) hb :)
    resetPending := (congrArg (fun x => x.pw.resetPending) hb :)
    partRst := (congrArg (fun x => x.pins.partRst) hb :)
    refclk := (congrArg (fun x => x.pins.refclk) hb :)
    firmware := State.startUp_resetDomains_firmware { s with tiles := tiles } .p0 _ _ }

end Sys2Proof.Machine
end

section
/-! PROOFS. An input failure and the power cut (R334, R494, R495): what the gather of the power cut leaves alone. -/

namespace Sys2Proof.Machine

/-! ## The gather -/

/-- The state apart from what sending the part's own status may change: tiles' counts, the bell, the fabric's queues, the
debug reports and the time-stamps. -/
def State.besideGather (s : State) : State :=
  { s with tiles := [], bell := .reset, rt := .reset, dg := .reset, ts := .reset, out := [], free := 0 }

theorem State.besideGather_cause (s : State) (b c d u k : Nat) :
    (s.cause b c d u k).besideGather = s.besideGather := by
  obtain ⟨_, h⟩ := s.cause_eq b c d u k
  rw [h]; rfl

theorem State.besideGather_hazard (s : State) (t c cy d a : Nat) :
    (s.hazard t c cy d a).besideGather = s.besideGather := by
  obtain ⟨_, _, _, _, _, h⟩ := s.hazard_eq t c cy d a
  rw [h]; rfl

theorem State.besideGather_countEvent (s : State) (scope inst ev n : Nat) :
    (s.countEvent scope inst ev n).besideGather = s.besideGather := by
  unfold State.countEvent
  split <;> rfl

theorem State.besideGather_inject (s : State) (port : BitVec 4) (p : Packet) :
    (s.inject port p).besideGather = s.besideGather := by
  unfold State.inject
  split
  · rfl
  · dsimp only
    split
    · rfl
    · exact State.besideGather_countEvent _ _ _ _ _

theorem State.besideGather_sendBell (s : State) (kind : BitVec 4) (a : FabricAddr) (b : List Byte) :
    (s.sendBell kind a b).besideGather = s.besideGather :=
  State.besideGather_inject _ _ _

theorem State.besideGather_rootVerdict (s : State) (g : GatherStatus) :
    (s.rootVerdict g).besideGather = s.besideGather :=
  foldl_unchanged (fun s a => s.besideGather_sendBell _ a _) _ _

theorem State.besideGather_tryGather (s : State) : s.tryGather.besideGather = s.besideGather := by
  unfold State.tryGather
  split
  · rfl
  · split
    · split
      · rfl
      · exact s.besideGather_rootVerdict _
    · split
      · rfl
      · exact State.besideGather_sendBell _ _ _ _

theorem State.besideGather_gatherSend (s : State) : s.gatherSend.besideGather = s.besideGather := by
  unfold State.gatherSend
  split
  · refine (State.besideGather_tryGather _).trans ?_
    split
    · exact (State.besideGather_hazard _ _ _ _ _ _).trans (State.besideGather_cause _ _ _ _ _ _)
    · rfl
  · rfl

/-! ## The power cut -/

theorem State.besideGather_stopClocks (s : State) : s.stopClocks.besideGather = s.besideGather := rfl

/-- The status of a lesson that a power cut ends, sent with the clocks stopped. -/
def State.sendCutStatus (s : State) : State := (s.cause cClockStop (s.ioCount 0) 0 0 3).stopClocks.gatherSend

theorem State.besideGather_sendCutStatus (s : State) : s.sendCutStatus.besideGather = s.besideGather := by
  unfold State.sendCutStatus
  rw [State.besideGather_gatherSend, State.besideGather_stopClocks, State.besideGather_cause]

/-- A member that is not the root tells the root of the failure. -/
theorem State.cutJob_of_member {s : State} (hsession : s.inSession = true) (hmember : s.isMember = true)
    (hroot : s.isRoot = false) :
    ∃ t : State, t.besideGather = s.besideGather ∧
      s.cutJob = t.emit (.firmware s.job.root (.inputFailure s.rc.address)) := by
  have hb := s.besideGather_sendCutStatus
  have hjob : s.sendCutStatus.job = s.job := (congrArg State.job hb :)
  have hrc : s.sendCutStatus.rc = s.rc := (congrArg State.rc hb :)
  have hroot' : s.sendCutStatus.isRoot = false := by
    unfold State.isRoot at hroot ⊢
    rw [hjob, hrc]
    exact hroot
  have hcut : s.cutJob = if s.sendCutStatus.isRoot then s.sendCutStatus.fault 6 else
      s.sendCutStatus.emit (.firmware s.sendCutStatus.job.root (.inputFailure s.sendCutStatus.rc.address)) := by
    unfold State.cutJob
    rw [hsession, hmember]
    rfl
  refine ⟨s.sendCutStatus, hb, ?_⟩
  rw [hcut, hroot', hjob, hrc]
  rfl

/-- The state apart from the weight store. -/
def State.besideStore (s : State) : State := { s with nv := .reset }

theorem State.besideStore_freeBlocks (s : State) (p : StoreBlock → Bool) :
    (s.freeBlocks p).besideStore = s.besideStore := by
  have hstep : ∀ (s : State) (b : StoreBlock),
      (s.modStack b.stack fun x => { x with free := x.free + 1 }).besideStore = s.besideStore := fun _ _ => rfl
  exact foldl_unchanged hstep _ _

theorem State.besideStore_startCommit (s : State) (type : Byte) (e : Effect) (a : After) :
    (s.startCommit type e a).besideStore = s.besideStore := by
  unfold State.startCommit
  split <;> rfl

theorem State.besideStore_putProgress (s : State) (p : Progress) : (s.putProgress p).besideStore = s.besideStore :=
  s.besideStore_freeBlocks _

theorem State.besideStore_commitProgress (s : State) (d : Dist) : (s.commitProgress d).besideStore = s.besideStore := by
  unfold State.commitProgress
  split
  · rfl
  · exact (State.besideStore_startCommit _ _ _ _).trans (s.besideStore_putProgress _)

/-- The progress record of a distribution is the weight store's. -/
theorem State.besideStore_cutDist (s : State) : s.cutDist.besideStore = s.besideStore := by
  unfold State.cutDist
  split
  · split
    · exact s.besideStore_commitProgress _
    · rfl
  · rfl

/-- The end of the cut powers the domains off; what has left the part, and the pins of its supplies, stay. -/
theorem State.endCut_out_inputGood (s : State) :
    s.endCut.out = s.out ∧ s.endCut.pins.inputGood = s.pins.inputGood := by
  unfold State.endCut
  split <;> exact ⟨rfl, rfl⟩

/-- The power cut has begun (R494). -/
def State.beginCut (s : State) (cause : BitVec 4) : State :=
  { s with pw := { s.pw with lastReset := cause }, pins := { s.pins with inputGood := false } }

theorem State.cut_of_member {s : State} (cause : BitVec 4) (hsession : s.inSession = true) (hmember : s.isMember = true)
    (hroot : s.isRoot = false) :
    (s.cut cause).pins.inputGood = false ∧ .firmware s.job.root (.inputFailure s.rc.address) ∈ (s.cut cause).out := by
  obtain ⟨t, ht, hjob⟩ := State.cutJob_of_member (s := s.beginCut cause) hsession hmember hroot
  have hcut : s.cut cause = (s.beginCut cause).cutJob.cutDist := rfl
  have hstore := State.besideStore_cutDist (s.beginCut cause).cutJob
  rw [← hcut, hjob] at hstore
  have hpins : (s.cut cause).pins = t.pins := (congrArg State.pins hstore :)
  have hgood : t.pins.inputGood = false := (congrArg (fun x => x.pins.inputGood) ht :)
  have hout : (s.cut cause).out = t.out ++ [.firmware s.job.root (.inputFailure s.rc.address)] :=
    (congrArg State.out hstore :)
  rw [hpins, hout]
  exact ⟨hgood, List.mem_append_right _ List.mem_cons_self⟩

/-- A part with no job in session and no distribution has nothing to send or to record at a power cut. -/
theorem State.cut_of_idle {s : State} (cause : BitVec 4) (hsession : s.inSession = false) (hdist : s.nv.dist = none) :
    s.cut cause = s.beginCut cause := by
  have hsession' : (s.beginCut cause).inSession = false := hsession
  have hdist' : (s.beginCut cause).nv.dist = none := hdist
  have hjob : (s.beginCut cause).cutJob = s.beginCut cause := by simp [State.cutJob, hsession']
  calc s.cut cause = (s.beginCut cause).cutJob.cutDist := rfl
    _ = s.beginCut cause := by rw [hjob]; simp [State.cutDist, hdist']

/-- With nothing in flight the cut ends at once (R495). -/
theorem State.endCut_of_idle {s : State} (hcutting : s.cutting = true) (hdist : s.nv.dist = none)
    (hc : s.nv.commits = []) : s.endCut = s.powerOff s.pw.lastReset true := by
  simp [State.endCut, State.stillProgramming, hcutting, hdist, hc, State.dropUnstarted_of_none hc]

end Sys2Proof.Machine
end

section
/-! PROOFS. Each reset as a command, the Function Level Reset and TRIAL_CONFIRM (R375, R397, R407, R473, R474, R488, R490,
R494, R495, Table 20-5). -/

namespace Sys2Proof.Machine

/-! ## Part reset, watchdog and reference -/

theorem exec_partReset (s : State) (c : BitVec 4) :
    exec (.partReset c) s = .next (
      if c = 1 ∧ s.pins.vsb = true then State.partReset { s with pins := { s.pins with partRst := true } } 1
      else if c = 2 ∧ s.pw.resetPending = true ∧ s.pins.partRst = false then s.partReset 2
      else s) := by
  simp [exec, execPartReset, and_assoc]

theorem exec_partReset_of_ignored {s : State} {c : BitVec 4} (hpin : c = 1 → s.pins.vsb = false)
    (hpending : c = 2 → s.pw.resetPending = false ∨ s.pins.partRst = true) : exec (.partReset c) s = .next s := by
  have hpin' : ¬(c = 1 ∧ s.pins.vsb = true) := fun ⟨hc, hvsb⟩ => by simp [hpin hc] at hvsb
  have hpending' : ¬(c = 2 ∧ s.pw.resetPending = true ∧ s.pins.partRst = false) := fun ⟨hc, hp, hr⟩ => by
    rcases hpending hc with h | h
    · simp [h] at hp
    · simp [h] at hr
  rw [exec_partReset, if_neg hpin', if_neg hpending']

theorem exec_partReset_of_pin {s : State} (hvsb : s.pins.vsb = true) :
    exec (.partReset 1) s = .next (State.partReset { s with pins := { s.pins with partRst := true } } 1) := by
  rw [exec_partReset, if_pos ⟨rfl, hvsb⟩]

theorem exec_partReset_of_pending {s : State} (hp : s.pw.resetPending = true) (hr : s.pins.partRst = false) :
    exec (.partReset 2) s = .next (s.partReset 2) := by
  rw [exec_partReset, if_neg fun h => absurd h.1 (by decide), if_pos ⟨rfl, hp, hr⟩]

theorem exec_trialWatchdogExpiry (s : State) :
    exec .trialWatchdogExpiry s =
      .next (if s.sec.trial = true ∧ s.pins.partRst = false then s.partReset 3 else s) := by
  simp [exec, execTrialWatchdogExpiry]

theorem State.cause_if_eq (s : State) (c : Bool) (b cycle die unit source : Nat) :
    ∃ bell, (if c then s.cause b cycle die unit source else s) = { s with bell := bell } := by
  split
  · exact s.cause_eq _ _ _ _ _
  · exact ⟨s.bell, rfl⟩

/-- The firmware of a part that loses its reference marks the lesson, and takes a part reset of an unstated cause. -/
theorem exec_refclkLoss_of_firmware {s : State} (hf : s.pw.firmware = true) :
    ∃ bell free cause, exec .refclkLoss s =
      .next (State.partReset { s with pins := { s.pins with refclk := false }, bell := bell, free := free } cause) := by
  obtain ⟨bell, h⟩ := State.cause_if_eq { s with pins := { s.pins with refclk := false } } (s.inSession && s.isMember)
    cOverstretch (s.ioCount 0) 0 0 3
  refine ⟨bell, s.free + 1, Config.freeBits 4 s.free, ?_⟩
  have hexec : exec .refclkLoss s = .next (
      let t : State := { s with pins := { s.pins with refclk := false } }
      let t := if s.inSession && s.isMember then t.cause cOverstretch (s.ioCount 0) 0 0 3 else t
      State.partReset { t with free := t.free + 1 } (Config.freeBits 4 t.free)) := by
    simp only [exec, execRefclkLoss, hf, if_true]
    rfl
  dsimp only at h hexec
  rw [hexec, h]

theorem exec_refclkLoss_of_no_firmware {s : State} (hf : s.pw.firmware = false) :
    exec .refclkLoss s = .next { s with pins := { s.pins with refclk := false } } := by
  simp [exec, execRefclkLoss, hf]

/-! ## Input failure -/

theorem exec_inputFailure_of_ignored {s : State} (h : s.pins.partRst = true ∨ s.pins.inputGood = false) :
    exec .inputFailure s = .next s := by
  rcases h with h | h <;> simp [exec, execInputFailure, h]

theorem exec_inputFailure_of_firmware {s : State} (hp : s.pins.partRst = false) (hg : s.pins.inputGood = true)
    (hf : s.pw.firmware = true) : exec .inputFailure s = .next (s.cut 7).endCut := by
  simp [exec, execInputFailure, hp, hg, hf]

/-- Without firmware the domains power off at once, unless they are off already. -/
theorem exec_inputFailure_of_no_firmware {s : State} (hp : s.pins.partRst = false) (hg : s.pins.inputGood = true)
    (hf : s.pw.firmware = false) :
    exec .inputFailure s = .next (
      if s.pw.state = .p3 then { s with pins := { s.pins with inputGood := false } }
      else State.powerOff { s with pins := { s.pins with inputGood := false } } 7 true) := by
  simp [exec, execInputFailure, hp, hg, hf]

theorem State.powerOff_clearedAll (s : State) (cause : BitVec 4) (stays : Bool) :
    s.ClearedAll (s.powerOff cause stays) :=
  (s.resetDomains_clearedAll .p3 cause (s.dg.debugMode || s.dg.debugMark)).with_pw _

/-- The power-cut procedure of a part with nothing in flight leaves it in P3 with cause 7, which stays (R495). -/
theorem exec_inputFailure_of_idle {s : State} (hp : s.pins.partRst = false) (hg : s.pins.inputGood = true)
    (hf : s.pw.firmware = true) (hsession : s.inSession = false) (hdist : s.nv.dist = none) (hc : s.nv.commits = []) :
    exec .inputFailure s = .next ((s.beginCut 7).powerOff 7 true) := by
  have hcutting : (s.beginCut 7).cutting = true := by simp [State.cutting, State.beginCut, hf]
  rw [exec_inputFailure_of_firmware hp hg hf, State.cut_of_idle 7 hsession hdist,
    State.endCut_of_idle hcutting hdist hc]
  rfl

/-! ## Loss of standby power -/

theorem tabGet_coldReset_regs (s : State) (t : Nat) :
    (tabGet .reset s.coldReset.tiles t).regs = Tile.reset.regs :=
  tabGet_regs_of_blank (forall_mem_filter_tabMap (fun e he => resetTiles_blank _ e he) _) t

theorem exec_vsbLoss (s : State) :
    ∃ t : State, exec .vsbLoss s = .next { t.coldReset with pins := { t.coldReset.pins with inputGood := false } } :=
  ⟨_, rfl⟩

/-! ## Function Level Reset (R375, R397, R407) -/

/-- The function's rings are empty, and its mailbox is a new one (R397, R407). -/
def State.FnReset (s s' : State) (k : Nat) : Prop :=
  (s'.fn k).records = [] ∧ (s'.fn k).egEnable = false ∧ (s'.mbox k).queue = [] ∧ (s'.mbox k).running = 0 ∧
    (s'.mbox k).life = (s.mbox k).life + 1

theorem State.resetFn_fn_same (s : State) (f : Nat) :
    (s.resetFn f).fn f = { Func.reset with flrCancel := s.hasRequests f } := by
  rw [State.resetFn]
  exact State.setFn_fn_same _ _ _

theorem State.resetFn_mbox_same (s : State) (f : Nat) : (s.resetFn f).mbox f = resetMailbox (s.mbox f) :=
  State.setMbox_mbox_same _ _ _

theorem State.resetFn_other (s : State) {f k : Nat} (h : k ≠ f) :
    (s.resetFn f).fn k = s.fn k ∧ (s.resetFn f).mbox k = s.mbox k :=
  ⟨State.setFn_fn_other _ _ h, State.setMbox_mbox_other _ _ h⟩

theorem State.resetFn_fnReset (s : State) (f : Nat) : s.FnReset (s.resetFn f) f := by
  unfold State.FnReset
  rw [State.resetFn_fn_same, State.resetFn_mbox_same]
  exact ⟨rfl, rfl, rfl, rfl, rfl⟩

/-- The reset of the functions below n, one after another, reaches each of them once and no other. -/
theorem State.foldl_resetFn_range (s : State) (n : Nat) :
    (∀ k < n, s.FnReset ((List.range n).foldl (fun s k => s.resetFn k) s) k) ∧
      ∀ k, n ≤ k → ((List.range n).foldl (fun s k => s.resetFn k) s).fn k = s.fn k ∧
        ((List.range n).foldl (fun s k => s.resetFn k) s).mbox k = s.mbox k := by
  induction n with
  | zero => exact ⟨fun k hk => absurd hk (Nat.not_lt_zero k), fun _ _ => ⟨rfl, rfl⟩⟩
  | succ n ih =>
    rw [List.range_succ, List.foldl_append]
    generalize (List.range n).foldl (fun s k => s.resetFn k) s = t at ih ⊢
    obtain ⟨hbelow, habove⟩ := ih
    simp only [List.foldl_cons, List.foldl_nil]
    refine ⟨fun k hk => ?below, fun k hk => ?above⟩
    case below =>
      by_cases hkn : k = n
      · subst hkn
        have h := t.resetFn_fnReset k
        unfold State.FnReset at h ⊢
        rwa [(habove k le_rfl).2] at h
      · have h := hbelow k (by omega)
        unfold State.FnReset at h ⊢
        rwa [(t.resetFn_other hkn).1, (t.resetFn_other hkn).2]
    case above =>
      obtain ⟨hfn, hmbox⟩ := t.resetFn_other (show k ≠ n by omega)
      rw [hfn, hmbox]
      exact habove k (by omega)

theorem State.flr_of_ne_zero (s : State) {f : Nat} (h : f ≠ 0) : s.flr f = s.resetFn f := if_neg h

theorem State.flr_fnReset (s : State) {f : Nat} (hf : f ≠ 0) : s.FnReset (s.flr f) f := by
  rw [s.flr_of_ne_zero hf]
  exact s.resetFn_fnReset f

/-- A reset of the PF resets every function. -/
theorem State.flr_zero_fnReset (s : State) {k : Nat} (hk : k < 64) : s.FnReset (s.flr 0) k :=
  (s.foldl_resetFn_range 64).1 k hk

/-- The mailbox of the management bus is no function's. -/
theorem State.flr_zero_mbox_i3c (s : State) : (s.flr 0).mbox 64 = s.mbox 64 :=
  ((s.foldl_resetFn_range 64).2 64 le_rfl).2

/-- What a Function Level Reset leaves alone: memory, the tiles and the link. -/
def State.besideFlr (s : State) : Mem × Tab Tile × BitVec 3 × BitVec 5 :=
  (s.mem, s.tiles, s.hi.linkSpeed, s.hi.linkWidth)

theorem State.besideFlr_resetFn (s : State) (f : Nat) : (s.resetFn f).besideFlr = s.besideFlr := rfl

theorem State.besideFlr_flr (s : State) (f : Nat) : (s.flr f).besideFlr = s.besideFlr := by
  unfold State.flr
  split
  · exact foldl_unchanged State.besideFlr_resetFn _ _
  · rfl

theorem State.keeps_flr (s : State) (f : Nat) : s.keeps (s.flr f) :=
  State.keeps_of_mem_tiles (congrArg Prod.fst (s.besideFlr_flr f) :)
    (congrArg (fun x => x.2.1) (s.besideFlr_flr f) :)

theorem exec_flr_of_ready {s : State} (hr : s.hi.ready = true) (f : BitVec 6) :
    exec (.flr f) s = .next (s.flr f.toNat) := by
  simp [exec, execFlr, hr]

theorem exec_flr_of_not_ready {s : State} (hr : s.hi.ready = false) (f : BitVec 6) : exec (.flr f) s = .next s := by
  simp [exec, execFlr, hr]

/-- The link has fallen (R488). -/
def State.linkDown (s : State) : State :=
  { s with hi := { s.hi with linkSpeed := 0, linkWidth := 0, linkFlit := false } }

theorem exec_perstN (s : State) : exec .perstN s = .next (s.linkDown.flr 0) := rfl

/-! ## TRIAL_CONFIRM (R473, R474) -/

theorem State.any_confirm_iff (s : State) :
    (s.nv.commits.any fun c => c.effect == .confirm) = true ↔ ∃ c ∈ s.nv.commits, c.effect = .confirm := by
  simp

theorem exec_trialConfirm_of_allowed {s : State} (h : s.mayConfirm = true)
    (ha : ¬∃ c ∈ s.nv.commits, c.effect = .confirm) :
    exec .trialConfirm s = .next (s.startCommit 8 .confirm .nothing) := by
  rw [← s.any_confirm_iff, Bool.not_eq_true] at ha
  simp [exec, execTrialConfirm, h, ha]

theorem exec_trialConfirm_of_ignored {s : State}
    (h : s.mayConfirm = false ∨ ∃ c ∈ s.nv.commits, c.effect = .confirm) : exec .trialConfirm s = .next s := by
  rw [← s.any_confirm_iff] at h
  rcases h with h | h <;> simp [exec, execTrialConfirm, h]

/-- A commit that can start joins those in flight, under the next sequence number. -/
theorem State.startCommit_of_allowed {s : State} (type : Byte) (e : Effect) (a : After) (hfault : s.nv.storeFault = false)
    (hcut : s.cutting = false) :
    s.startCommit type e a = { s with nv := { s.nv with
      commits := s.nv.commits ++
        [{ type := type, sequence := s.nv.nextSequence, started := s.nv.charged, effect := e, after := a }]
      nextSequence := s.nv.nextSequence + BitVec.ofNat 64 (e.types type).length } } := by
  simp [State.startCommit, hfault, hcut]

/-! ## The settlement -/

/-- Settles O34: each reset by what its own path clears; the boot ROM, where it starts again, brings nothing back. -/
theorem resets : Obligations.Resets := by
  unfold Obligations.Resets
  refine ⟨fun s => ?part, fun s f g => ?function⟩
  case part =>
    simp only [← s.resetCause_eq]
    refine ⟨fun hvsb hs => ?pin, fun hp hr hs => ?pending, fun c => exec_partReset_of_ignored, fun ht hr hs => ?watchdog,
      fun h => ?noTrial, fun hf hs => ?refclk, exec_refclkLoss_of_no_firmware, exec_inputFailure_of_ignored,
      fun hp hg => ⟨fun hf hsession hdist hc => ?idle, fun hf hsession hmember hroot => ?member, fun hf hs => ?dark,
        fun hf hs => ?darkP3⟩, ?vsb⟩
    case pin =>
      have h := State.partReset_hasReset (s := { s with pins := { s.pins with partRst := true } }) hs.1 hs.2 1
      exact ⟨_, exec_partReset_of_pin hvsb, h.cleared.of_records rfl rfl rfl, h.partRst, h.lastReset,
        h.firmware (.inl rfl)⟩
    case pending =>
      have h := State.partReset_hasReset hs.1 hs.2 2
      exact ⟨_, exec_partReset_of_pending hp hr, h.cleared, h.lastReset, h.resetPending⟩
    case watchdog =>
      have h := State.partReset_hasReset hs.1 hs.2 3
      exact ⟨_, by rw [exec_trialWatchdogExpiry, if_pos ⟨ht, hr⟩], h.cleared, h.lastReset⟩
    case noTrial =>
      rw [exec_trialWatchdogExpiry, if_neg]
      rintro ⟨ht, hr⟩
      rcases h with h | h
      · simp [h] at ht
      · simp [h] at hr
    case refclk =>
      obtain ⟨bell, free, cause, hexec⟩ := exec_refclkLoss_of_firmware hf
      have h := State.partReset_hasReset
        (s := { s with pins := { s.pins with refclk := false }, bell := bell, free := free }) hs.1 hs.2 cause
      exact ⟨_, hexec, h.cleared.of_records rfl rfl rfl, h.refclk, h.firmware (.inr rfl)⟩
    case idle =>
      exact ⟨_, exec_inputFailure_of_idle hp hg hf hsession hdist hc,
        ((s.beginCut 7).powerOff_clearedAll 7 true).of_records rfl rfl rfl, rfl, rfl, rfl, rfl⟩
    case member =>
      obtain ⟨hgood, hmem⟩ := State.cut_of_member 7 hsession hmember hroot
      obtain ⟨hout, hpins⟩ := (s.cut 7).endCut_out_inputGood
      exact ⟨_, exec_inputFailure_of_firmware hp hg hf, hpins.trans hgood, hout ▸ hmem⟩
    case dark =>
      rw [exec_inputFailure_of_no_firmware hp hg hf, if_neg hs]
      exact ⟨_, rfl, (State.powerOff_clearedAll _ 7 true).of_records rfl rfl rfl, rfl, rfl, rfl⟩
    case darkP3 => rw [exec_inputFailure_of_no_firmware hp hg hf, if_pos hs]
    case vsb =>
      obtain ⟨t, h⟩ := exec_vsbLoss s
      exact ⟨_, h, rfl, rfl, rfl, rfl, rfl, fun _ => rfl, tabGet_coldReset_regs t⟩
  case function =>
    refine ⟨fun hr hf => ?one, fun hr => ?every, fun hr => exec_flr_of_not_ready hr f, ?perst, ?confirm, ?ignored⟩
    case one =>
      have hf' : f.toNat ≠ 0 := fun h => hf (BitVec.eq_of_toNat_eq h)
      refine ⟨_, exec_flr_of_ready hr f, s.keeps_flr _, s.flr_fnReset hf', fun hg => ?_⟩
      rw [s.flr_of_ne_zero hf']
      exact s.resetFn_other hg
    case every =>
      exact ⟨_, exec_flr_of_ready hr 0, s.keeps_flr _, s.flr_zero_fnReset, s.flr_zero_mbox_i3c⟩
    case perst =>
      have hbeside := s.linkDown.besideFlr_flr 0
      exact ⟨_, exec_perstN s, s.linkDown.keeps_flr 0, s.linkDown.flr_zero_fnReset,
        (congrArg (fun x => x.2.2.1) hbeside :), (congrArg (fun x => x.2.2.2) hbeside :)⟩
    case confirm =>
      intro hm ha hfault hcut
      have hexec := exec_trialConfirm_of_allowed hm ha
      rw [State.startCommit_of_allowed 8 .confirm .nothing hfault hcut] at hexec
      exact ⟨_, _, hexec, State.keeps_of_mem_tiles rfl rfl, rfl, rfl, rfl, rfl, rfl⟩
    case ignored => exact exec_trialConfirm_of_ignored

end Sys2Proof.Machine
end

section
/-! PROOFS. Bell packets of this part: what handing one to the fabric changes, the ones kept for the current bell, and
their payloads (R261, R263, R275, R277, Table 11-5). -/

namespace Sys2Proof.Machine

/-! ## Payloads -/

theorem natOfBytes_lt (l : List Byte) : natOfBytes l < 2 ^ (8 * l.length) := by
  induction l with
  | nil => simp [natOfBytes]
  | cons b t ih =>
    have hb : b.toNat < 256 := b.isLt
    have hpow : 2 ^ (8 * (b :: t).length) = 256 * 2 ^ (8 * t.length) := by
      rw [List.length_cons, Nat.mul_add, Nat.pow_add, Nat.mul_comm]
    rw [natOfBytes, hpow]
    omega

/-- The bytes of a word made of bytes are those bytes. -/
theorem toBytes_ofBytes (w : Nat) (l : List Byte) (h : 8 * l.length ≤ w) : toBytes l.length (ofBytes w l) = l := by
  induction l with
  | nil => rfl
  | cons b t ih =>
    have hlen : 8 * t.length + 8 ≤ w := by simpa [Nat.mul_add] using h
    have hfit : natOfBytes (b :: t) < 2 ^ w :=
      Nat.lt_of_lt_of_le (natOfBytes_lt _) (Nat.pow_le_pow_right (by decide) h)
    have hb : b.toNat < 256 := b.isLt
    have hval : (ofBytes w (b :: t)).toNat = b.toNat + 256 * natOfBytes t := by
      rw [ofBytes, BitVec.toNat_ofNat, Nat.mod_eq_of_lt hfit, natOfBytes]
    have hlow : (ofBytes w (b :: t)).extractLsb' 0 8 = b := by
      apply BitVec.eq_of_toNat_eq
      rw [BitVec.extractLsb'_toNat, hval]
      simp; omega
    have hhigh : ofBytes w (b :: t) >>> 8 = ofBytes w t := by
      have ht : natOfBytes t < 2 ^ w := by
        have := hfit
        rw [natOfBytes] at this
        omega
      apply BitVec.eq_of_toNat_eq
      rw [BitVec.toNat_ushiftRight, hval, ofBytes, BitVec.toNat_ofNat, Nat.mod_eq_of_lt ht, Nat.shiftRight_eq_div_pow]
      omega
    rw [List.length_cons, toBytes, hlow, hhigh, ih (by omega)]

@[simp] theorem length_toBytes {w : Nat} (n : Nat) (x : BitVec w) : (toBytes n x).length = n := by
  induction n generalizing x with
  | zero => rfl
  | succ n ih => rw [toBytes, List.length_cons, ih]

@[simp] theorem length_statusBytes (g : GatherStatus) : (statusBytes g).length = 16 := by simp [statusBytes]

@[simp] theorem length_readyBytes (r : ReadyStatus) : (readyBytes r).length = 16 := by simp [readyBytes]

@[simp] theorem length_releaseBytes (r : Release) : (releaseBytes r).length = 16 := by simp [releaseBytes]

theorem State.payload16_bellPacket (s : State) (kind : BitVec 4) (a : FabricAddr) {b : List Byte} (h : b.length = 16) :
    payload16 (s.bellPacket kind a b) = b := by
  have := toBytes_ofBytes 2048 b (by omega)
  rwa [h] at this

/-! ## Handing a packet to the fabric -/

theorem State.countEvent_eq (s : State) (scope inst ev n : Nat) :
    ∃ cnt, s.countEvent scope inst ev n = { s with dg := { s.dg with cnt := cnt } } := by
  unfold State.countEvent
  split
  · exact ⟨_, rfl⟩
  · exact ⟨s.dg.cnt, rfl⟩

/-- The state with other bell packets kept, other packets at its router and in its inbox, and other counts: what
sending bell packets may change. -/
def State.withSent (s : State) (sent inbox : List Packet) (queue kept : List Queued) (cnt : Tab (BitVec 64)) : State :=
  { s with
    bell := { s.bell with sent := sent }
    rt := { s.rt with inbox := inbox, queue := queue, kept := kept }
    dg := { s.dg with cnt := cnt } }

/-- A packet handed over waits in the inbox, at the router of the first axis of its route, or among those kept back. -/
theorem State.inject_eq (s : State) (port : BitVec 4) (p : Packet) : ∃ inbox queue kept cnt,
    s.inject port p = s.withSent s.bell.sent inbox queue kept cnt := by
  unfold State.inject
  split
  · exact ⟨_, _, _, _, rfl⟩
  · dsimp only
    split
    · exact ⟨_, _, _, _, rfl⟩
    · obtain ⟨cnt, h⟩ := State.countEvent_eq _ _ _ _ _
      exact ⟨_, _, _, cnt, h⟩

/-! ## Bell packets -/

theorem State.sendBell_eq (s : State) (kind : BitVec 4) (a : FabricAddr) (b : List Byte) : ∃ inbox queue kept cnt,
    s.sendBell kind a b =
      s.withSent ((s.bell.sent.filter fun q => q.dest != a) ++ [s.bellPacket kind a b]) inbox queue kept cnt :=
  State.inject_eq _ _ _

/-- Bell packets of one kind and payload sent to several parts: the one to each of them is kept, and those kept for
other parts stay. -/
theorem State.sendBells_eq (s : State) (kind : BitVec 4) (b : List Byte) (l : List FabricAddr) :
    ∃ sent inbox queue kept cnt,
      l.foldl (fun s a => s.sendBell kind a b) s = s.withSent sent inbox queue kept cnt ∧
      (∀ a ∈ l, s.bellPacket kind a b ∈ sent) ∧ ∀ q ∈ s.bell.sent, q.dest ∉ l → q ∈ sent := by
  induction l generalizing s with
  | nil => exact ⟨s.bell.sent, s.rt.inbox, s.rt.queue, s.rt.kept, s.dg.cnt, rfl, by simp, fun q hq _ => hq⟩
  | cons a l ih =>
    obtain ⟨inbox, queue, kept, cnt, hsend⟩ := s.sendBell_eq kind a b
    obtain ⟨sent', inbox', queue', kept', cnt', hrest, hto, hold⟩ := ih (s.sendBell kind a b)
    rw [hsend] at hrest hto hold
    refine ⟨sent', inbox', queue', kept', cnt', by rw [List.foldl_cons, hsend]; exact hrest, ?_, ?_⟩
    · intro c hc
      by_cases hcl : c ∈ l
      · exact hto c hcl
      · obtain rfl : c = a := (List.mem_cons.1 hc).resolve_right hcl
        exact hold _ (List.mem_append_right _ List.mem_cons_self) hcl
    · intro q hq hql
      obtain ⟨hqa, hql⟩ := not_or.1 (mt List.mem_cons.2 hql)
      exact hold q (List.mem_append_left _ (List.mem_filter.2 ⟨hq, bne_iff_ne.2 hqa⟩)) hql

theorem State.sendChildren_eq (s : State) (kind : BitVec 4) (b : List Byte) : ∃ sent inbox queue kept cnt,
    s.sendChildren kind b = s.withSent sent inbox queue kept cnt ∧
      (∀ a ∈ s.children, s.bellPacket kind a b ∈ sent) ∧ ∀ q ∈ s.bell.sent, q.dest ∉ s.children → q ∈ sent :=
  s.sendBells_eq kind b s.children

theorem State.keeps_withSent (s : State) (sent inbox : List Packet) (queue kept : List Queued) (cnt : Tab (BitVec 64)) :
    s.keeps (s.withSent sent inbox queue kept cnt) :=
  State.keeps_of_mem_tiles rfl rfl

theorem State.keeps.trans {s t u : State} (h : s.keeps t) (h' : t.keeps u) : s.keeps u :=
  ⟨fun a => (h'.1 a).trans (h.1 a), fun k => (h'.2 k).trans (h.2 k)⟩

end Sys2Proof.Machine
end

section
/-! PROOFS. Causes of a lesson, reports of the hall monitor, and what they leave alone (R51, R52, R448 to R450). -/

namespace Sys2Proof.Machine

theorem State.keeps.refl (s : State) : s.keeps s := ⟨fun _ => rfl, fun _ => rfl⟩

/-! ## Causes -/

theorem bit_or_of_left {w : Nat} {x : BitVec w} {n : Nat} (h : bit x n = true) (y : BitVec w) : bit (x ||| y) n = true := by
  rw [bit] at h ⊢
  rw [BitVec.getLsbD_or, h, Bool.true_or]

theorem State.keeps_cause (s : State) (b c d u k : Nat) : s.keeps (s.cause b c d u k) :=
  State.keeps_of_mem_tiles (s.cause_mem b c d u k) (s.cause_tiles b c d u k)

/-- A cause raised while the lesson is open to causes sets its bit. -/
theorem State.bit_cause (s : State) {b : Nat} (hb : b < 16) (c d u k : Nat) (h : s.causeOpen = true) :
    bit (s.cause b c d u k).bell.lessonCauses b = true := by
  have hset : (BitVec.ofNat 16 (2 ^ b)).getLsbD b = true := by
    rw [BitVec.getLsbD_ofNat, decide_eq_true hb, Nat.testBit_two_pow_self, Bool.and_self]
  rw [State.cause, if_pos h, bit, BitVec.getLsbD_or, hset, Bool.or_true]

/-- A cause that is set stays set whatever else is raised. -/
theorem State.bit_cause_of_bit {s : State} {n : Nat} (h : bit s.bell.lessonCauses n = true) (b c d u k : Nat) :
    bit (s.cause b c d u k).bell.lessonCauses n = true := by
  unfold State.cause
  split
  · exact bit_or_of_left h _
  · exact h

/-- A part whose lesson is no longer open to causes takes none. -/
theorem State.cause_of_closed {s : State} (h : s.causeOpen = false) (b c d u k : Nat) : s.cause b c d u k = s := by
  rw [State.cause, h]; rfl

/-! ## Reports -/

theorem State.keeps_of_isle {s s' : State} (hmem : s'.mem = s.mem) (htile : ∀ u, ∃ i, s'.tile u = (s.tile u).onIsle i) :
    s.keeps s' := by
  refine ⟨fun a => by rw [hmem], fun u => ?_⟩
  obtain ⟨i, h⟩ := htile u
  rw [h]; rfl

theorem State.keeps_hazard (s : State) (t c cy d a : Nat) : s.keeps (s.hazard t c cy d a) := by
  refine State.keeps_of_isle ?_ (s.hazard_tile t c cy d a)
  obtain ⟨_, _, _, _, _, h⟩ := s.hazard_eq t c cy d a
  rw [h]

theorem State.hazard_of_not_debug {s : State} (h : s.dg.debugMode = false) (t c cy d a : Nat) :
    s.hazard t c cy d a = s := by
  rw [State.hazard, h]; rfl

theorem State.bit_hazard_of_bit {s : State} {n : Nat} (h : bit s.bell.lessonCauses n = true) (t c cy d a : Nat) :
    bit (s.hazard t c cy d a).bell.lessonCauses n = true := by
  unfold State.hazard
  split_ifs
  · exact State.bit_cause_of_bit (s := { s.noteStop true t c 0 cy (s.bundleTag t) d a with
      bell := { s.bell with withheld := true } }) h _ _ _ _ _
  · exact h
  · exact h
  · exact h

end Sys2Proof.Machine
end

section
/-! PROOFS. Statuses, notices and the verdict on their way up the tree (R38, R273, R275, R284, R515). -/

namespace Sys2Proof.Machine

/-! ## The combined status -/

/-- A status of every child of the part is among these. -/
def State.HoldsAll {α : Type} (s : State) (l : List (FabricAddr × α)) : Prop := ∀ c ∈ s.children, ∃ e ∈ l, e.1 = c

theorem State.holdsAll_iff {α : Type} (s : State) (l : List (FabricAddr × α)) :
    s.HoldsAll l ↔ (s.children.all fun c => l.any fun e => e.1 == c) = true := by
  simp [State.HoldsAll]

/-- The part's own status: the causes of its lesson, or none at a relay part. -/
def State.ownStatus (s : State) : GatherStatus :=
  if s.isMember then { causes := s.bell.lessonCauses, first := s.bell.lessonFirst } else { causes := 0, first := none }

/-- The part's own status combined with those of its children. -/
def State.jointStatus (s : State) (l : List (FabricAddr × GatherStatus)) : GatherStatus :=
  l.foldl (fun a e => joinGather a e.2) s.ownStatus

theorem State.gatherReady_of_full {s : State} (hown : s.isMember = false ∨ s.bell.gathered = true)
    (hfull : s.HoldsAll s.bell.childGather) : s.gatherReady = some (s.jointStatus s.bell.childGather) := by
  have hready : (!s.isMember || s.bell.gathered) = true := by
    rcases hown with h | h <;> simp [h]
  unfold State.gatherReady
  rw [hready, (s.holdsAll_iff _).1 hfull]
  rfl

theorem State.gatherReady_of_not_full {s : State} (h : ¬s.HoldsAll s.bell.childGather) : s.gatherReady = none := by
  unfold State.gatherReady
  rw [Bool.eq_false_of_not_eq_true (mt (s.holdsAll_iff _).2 h), Bool.and_false]
  rfl

theorem State.gatherReady_of_not_gathered {s : State} (hm : s.isMember = true) (hg : s.bell.gathered = false) :
    s.gatherReady = none := by
  simp [State.gatherReady, hm, hg]

/-! ## Passing a gather on -/

/-- The root with the verdict of a status that no notice is missing from. -/
def State.withVerdict (s : State) (g : GatherStatus) : State :=
  { s with bell := { s.bell with
      verdict := some g, noticeCauses := 0, noticeFirst := none, childGather := []
      widthsDue := if g.causes = 0 then [] else s.relayParts } }

theorem State.rootVerdict_eq (s : State) (g : GatherStatus) : ∃ v sent inbox queue kept cnt,
    s.rootVerdict g = (s.withVerdict v).withSent sent inbox queue kept cnt ∧
      v.causes = g.causes ||| s.bell.noticeCauses := by
  obtain ⟨sent, inbox, queue, kept, cnt, h, -⟩ :=
    (s.withVerdict (joinGather g { causes := s.bell.noticeCauses, first := s.bell.noticeFirst })).sendChildren_eq 7
      (statusBytes (joinGather g { causes := s.bell.noticeCauses, first := s.bell.noticeFirst }))
  exact ⟨_, sent, inbox, queue, kept, cnt, h, rfl⟩

/-- The part once it has given the statuses it held to its parent. -/
def State.passedGather (s : State) : State := { s with bell := { s.bell with childGather := [], phase := .gather } }

/-- What the gather does at a part: nothing, the root's verdict, or the combined status on its way to the parent. -/
theorem State.tryGather_cases (s : State) : s.tryGather = s ∨ (∃ g, s.tryGather = s.rootVerdict g) ∨
    ∃ p g, s.tryGather = s.passedGather.sendBell 6 p (statusBytes g) := by
  unfold State.tryGather
  split
  · exact .inl rfl
  · split_ifs
    · exact .inl rfl
    · exact .inr (.inl ⟨_, rfl⟩)
    · split
      · exact .inl rfl
      · exact .inr (.inr ⟨_, _, rfl⟩)

/-- What the gather leaves as it is. -/
theorem State.tryGather_leaves (s : State) : s.keeps s.tryGather ∧ s.tryGather.bell.gathered = s.bell.gathered ∧
    s.tryGather.bell.lessonCauses = s.bell.lessonCauses ∧ s.tryGather.bell.number = s.bell.number ∧
    s.tryGather.bell.attempt = s.bell.attempt ∧
    (s.bell.phase = .gather → s.tryGather.bell.phase = .gather) := by
  rcases s.tryGather_cases with h | ⟨g, h⟩ | ⟨p, g, h⟩
  · rw [h]; exact ⟨State.keeps.refl s, rfl, rfl, rfl, rfl, id⟩
  · obtain ⟨v, sent, inbox, queue, kept, cnt, hv, -⟩ := s.rootVerdict_eq g
    rw [h, hv]; exact ⟨State.keeps_of_mem_tiles rfl rfl, rfl, rfl, rfl, rfl, id⟩
  · obtain ⟨inbox, queue, kept, cnt, hs⟩ := s.passedGather.sendBell_eq 6 p (statusBytes g)
    rw [h, hs]; exact ⟨State.keeps_of_mem_tiles rfl rfl, rfl, rfl, rfl, rfl, fun _ => rfl⟩

/-- The part's combined status, as its parent receives it. -/
def State.SendsStatus (s s' : State) (parent : FabricAddr) (g : GatherStatus) : Prop :=
  ∃ q ∈ s'.bell.sent, q.kind = 6 ∧ q.cls = 0 ∧ q.dest = parent ∧ q.source = s.rc.address ∧ q.length = 16 ∧
    q.tagBell = s.tagBell ∧ q.tagAttempt = s.bell.attempt ∧ payload16 q = statusBytes g

/-- The gather goes on from these statuses of the children: it waits, forms the verdict or goes to the parent. -/
def State.GathersOn (s s' : State) (parent : FabricAddr) (l : List (FabricAddr × GatherStatus)) : Prop :=
  (¬s.HoldsAll l → s'.bell.verdict = s.bell.verdict ∧ s'.bell.sent = s.bell.sent ∧ s'.bell.childGather = l) ∧
  (s.HoldsAll l → s.isRoot = true → ∃ g, s'.bell.verdict = some g ∧
    g.causes = (s.jointStatus l).causes ||| s.bell.noticeCauses ∧ s'.bell.noticeCauses = 0) ∧
  (s.HoldsAll l → s.isRoot = false → s.parentOf s.rc.address = some parent → s.SendsStatus s' parent (s.jointStatus l) ∧
    s'.bell.phase = .gather ∧ s'.bell.childGather = [])

/-- The part with other progress of the gather. -/
def State.withGather (s : State) (phase : Phase) (gathered : Bool) (l : List (FabricAddr × GatherStatus))
    (seen : List (BitVec 4 × BitVec 8 × BitVec 4 × FabricAddr)) : State :=
  { s with bell := { s.bell with phase := phase, gathered := gathered, childGather := l, seen := seen } }

theorem State.gathersOn_tryGather {s : State} (parent : FabricAddr) (phase : Phase) {gathered : Bool}
    (l : List (FabricAddr × GatherStatus)) (seen : List (BitVec 4 × BitVec 8 × BitVec 4 × FabricAddr))
    (hown : s.isMember = false ∨ gathered = true) (hv : s.bell.verdict = none) :
    s.GathersOn (s.withGather phase gathered l seen).tryGather parent l := by
  have hready : s.HoldsAll l → (s.withGather phase gathered l seen).gatherReady = some (s.jointStatus l) :=
    State.gatherReady_of_full (s := s.withGather phase gathered l seen) hown
  refine ⟨fun hnot => ?waits, fun hfull hroot => ?root, fun hfull hroot hparent => ?passes⟩
  case waits =>
    have hnone : (s.withGather phase gathered l seen).gatherReady = none := State.gatherReady_of_not_full hnot
    rw [State.tryGather, hnone]
    exact ⟨rfl, rfl, rfl⟩
  case root =>
    have hroot' : (s.withGather phase gathered l seen).isRoot = true := hroot
    have hv' : (s.withGather phase gathered l seen).bell.verdict = none := hv
    obtain ⟨v, sent, inbox, queue, kept, cnt, hverdict, hcauses⟩ :=
      (s.withGather phase gathered l seen).rootVerdict_eq (s.jointStatus l)
    rw [State.tryGather, hready hfull]
    simp only [hroot', hv', Option.isSome_none, if_true, Bool.false_eq_true, if_false, hverdict]
    exact ⟨v, rfl, hcauses, rfl⟩
  case passes =>
    have hroot' : (s.withGather phase gathered l seen).isRoot = false := hroot
    have hparent' : (s.withGather phase gathered l seen).parentOf (s.withGather phase gathered l seen).rc.address =
      some parent := hparent
    obtain ⟨inbox, queue, kept, cnt, hsend⟩ :=
      (s.withGather phase gathered l seen).passedGather.sendBell_eq 6 parent (statusBytes (s.jointStatus l))
    have htry : (s.withGather phase gathered l seen).tryGather =
        (s.withGather phase gathered l seen).passedGather.sendBell 6 parent (statusBytes (s.jointStatus l)) := by
      rw [State.tryGather, hready hfull]
      simp only [hroot', hparent', Bool.false_eq_true, if_false]
      rfl
    rw [htry, hsend]
    exact ⟨⟨_, List.mem_append_right _ List.mem_cons_self, rfl, rfl, rfl, rfl, rfl, rfl, rfl,
      State.payload16_bellPacket _ _ _ (length_statusBytes _)⟩, rfl, rfl⟩

/-! ## The part's own status -/

/-- The part's own status joins those of its children. -/
def State.gatheredOwn (s : State) : State := s.withGather .gather true s.bell.childGather s.bell.seen

/-- A ring that has received too few pieces marks the lesson MISSING. -/
def State.missedRing (s : State) (r : Nat) : State :=
  (s.cause cMissing s.bell.lessonLength 0 0 3).hazard 0 15 s.bell.lessonLength r 0

theorem State.gatherSend_of_done {s : State} (hm : s.isMember = true)
    (hdone : s.bell.phase = .lesson ∧ (s.lessonDone = true ∨ bit s.bell.lessonCauses 7 = true)) :
    (s.ringShort = none → s.gatherSend = s.gatheredOwn.tryGather) ∧
      ∀ r, s.ringShort = some r → s.gatherSend = (s.missedRing r).gatheredOwn.tryGather := by
  have hover : (s.lessonDone || s.clocksStopped) = true := by
    rcases hdone.2 with h | h
    · rw [h, Bool.true_or]
    · rw [State.clocksStopped, cClockStop, h, Bool.or_true]
  unfold State.gatherSend
  simp only [hdone.1, hm, hover, beq_self_eq_true, Bool.and_self, if_true]
  exact ⟨fun h => by rw [h]; rfl, fun r h => by rw [h]; rfl⟩

theorem exec_gatherStatusSend_of_member {s : State} (hm : s.isMember = true) :
    exec .gatherStatusSend s = .next s.gatherSend := by
  simp [exec, execGatherStatusSend, hm]

theorem exec_gatherStatusSend_of_not_done {s : State} (hm : s.isMember = true)
    (h : ¬(s.bell.phase = .lesson ∧ (s.lessonDone = true ∨ bit s.bell.lessonCauses 7 = true))) :
    exec .gatherStatusSend s = .next s := by
  rw [exec_gatherStatusSend_of_member hm, State.gatherSend, if_neg]
  simpa [State.clocksStopped, cClockStop, hm] using h

theorem exec_gatherStatusSend_of_relay {s : State} (hm : s.isMember = false) :
    exec .gatherStatusSend s =
      .next (if s.bell.phase = .lesson ∧ s.inSession = true then s.tryGather else s) := by
  simp [exec, execGatherStatusSend, State.relayGather, hm]

/-! ## A child's status -/

theorem State.rejoin_of_inBell {s : State} (h : s.isMember = true ∨ s.bell.phase ≠ .idle) (p : Packet) :
    s.rejoin p = s := by
  unfold State.rejoin
  rw [if_neg]
  rcases h with h | h <;> simp [h]

/-- A relay part that a part reset has taken out of the bell, in the bell that the packet names. -/
def State.rejoined (s : State) (p : Packet) : State :=
  { s with bell := { s.bell with
      number := p.tagBell.setWidth 40, attempt := p.tagAttempt, relNumber := p.tagBell.setWidth 40
      relAttempt := p.tagAttempt, phase := .lesson } }

theorem State.rejoin_of_out {s : State} (hs : s.inSession = true)
    (h : ¬(s.isMember = true ∨ s.bell.phase ≠ .idle)) (p : Packet) : s.rejoin p = s.rejoined p := by
  obtain ⟨hm, hi⟩ := not_or.1 h
  unfold State.rejoin
  rw [if_pos]
  · rfl
  · simp [hs, Bool.eq_false_of_not_eq_true hm, not_not.1 hi]

/-- A status that the part takes from a child. -/
def State.TakesGather (s : State) (p : Packet) : Prop :=
  p.kind = 6 ∧ s.inSession = true ∧ s.bellFresh p = true ∧ p.source ∈ s.children ∧ s.bell.verdict = none

/-- The part with a child's status among those it holds. -/
def State.heldGather (s : State) (p : Packet) : State :=
  s.withGather s.bell.phase s.bell.gathered (s.bell.childGather ++ [(p.source, statusFrom (payload16 p))])
    (s.bell.seen ++ [(p.kind, p.tagBell, p.tagAttempt, p.source)])

theorem exec_bellGather (s : State) (p : Packet) : ∃ t : State, t = (if p.kind = 6 then s.rejoin p else s) ∧
    (t.TakesGather p → exec (.bellGather p) s = .next (t.heldGather p).tryGather) ∧
    (¬t.TakesGather p → exec (.bellGather p) s = .next t) := by
  refine ⟨_, rfl, fun h => ?_, fun h => ?_⟩
  · simp only [exec, execBellGather, beq_iff_eq]
    rw [if_pos (by simpa [State.TakesGather, and_assoc] using h)]
    rfl
  · simp only [exec, execBellGather, beq_iff_eq]
    rw [if_neg (by simpa [State.TakesGather, and_assoc] using h)]

theorem exec_bellGather_of_inBell {s : State} (h : s.isMember = true ∨ s.bell.phase ≠ .idle) (p : Packet) :
    (s.TakesGather p → exec (.bellGather p) s = .next (s.heldGather p).tryGather) ∧
    (¬s.TakesGather p → exec (.bellGather p) s = .next s) := by
  obtain ⟨t, ht, hcases⟩ := exec_bellGather s p
  rw [State.rejoin_of_inBell h, ite_self] at ht
  exact ht ▸ hcases

/-- A packet that is no status of the job in session leaves the part as it is. -/
theorem exec_bellGather_of_other {s : State} {p : Packet} (h : p.kind ≠ 6 ∨ s.inSession = false) :
    exec (.bellGather p) s = .next s := by
  obtain ⟨t, ht, -, hno⟩ := exec_bellGather s p
  have hts : t = s := by
    rw [ht]
    rcases h with h | h
    · rw [if_neg h]
    · simp [State.rejoin, h]
  subst hts
  refine hno ?_
  rintro ⟨hk, hs, -⟩
  exact h.elim (fun h => h hk) fun h => absurd hs (by rw [h]; decide)

/-- The first status that reaches a relay part out of the bell names the bell. -/
theorem exec_bellGather_of_out {s : State} {p : Packet} (hk : p.kind = 6) (hs : s.inSession = true)
    (h : ¬(s.isMember = true ∨ s.bell.phase ≠ .idle)) : ∃ s', exec (.bellGather p) s = .next s' ∧ s.keeps s' ∧
      s'.bell.number = p.tagBell.setWidth 40 ∧ s'.bell.attempt = p.tagAttempt := by
  obtain ⟨t, ht, hyes, hno⟩ := exec_bellGather s p
  rw [if_pos hk, State.rejoin_of_out hs h] at ht
  subst ht
  by_cases hk : (s.rejoined p).TakesGather p
  · obtain ⟨hkeeps, -, -, hnum, hatt, -⟩ := ((s.rejoined p).heldGather p).tryGather_leaves
    exact ⟨_, hyes hk, (State.keeps_of_mem_tiles rfl rfl).trans hkeeps, hnum, hatt⟩
  · exact ⟨_, hno hk, State.keeps_of_mem_tiles rfl rfl, rfl, rfl⟩

/-! ## Notices (R515) -/

theorem exec_bellNotice_of_notice {s : State} {p : Packet} (hk : p.kind = 0xD) (hs : s.inSession = true) :
    exec (.bellNotice p) s = .next (s.passNotice p) := by
  simp [exec, execBellNotice, hk, hs]

theorem exec_bellNotice_of_other {s : State} {p : Packet} (h : p.kind ≠ 0xD ∨ s.inSession = false) :
    exec (.bellNotice p) s = .next s := by
  have hno : (p.kind == 0xD && s.inSession) = false := by
    rcases h with h | h
    · rw [beq_eq_false_iff_ne.2 h, Bool.false_and]
    · rw [h, Bool.and_false]
  simp only [exec, execBellNotice, hno, Bool.false_eq_true, if_false]

theorem firstOfParts_some_ne_none (a : Option CauseRec) (b : CauseRec) : firstOfParts a (some b) ≠ none := by
  cases a with
  | none => simp [firstOfParts]
  | some a => simp only [firstOfParts]; split_ifs <;> simp

theorem State.takeNotice_of_new {s : State} {v : Vec} (h : v ∉ s.bell.noticed) :
    (s.takeNotice v).bell.noticeCauses = s.bell.noticeCauses ||| fieldAt 16 (toBytes 16 v) 2 ∧
      (s.takeNotice v).bell.noticeFirst ≠ none ∧ v ∈ (s.takeNotice v).bell.noticed ∧ s.keeps (s.takeNotice v) := by
  have hc : ¬s.bell.noticed.contains v = true := by simpa using h
  rw [State.takeNotice, if_neg hc]
  exact ⟨rfl, firstOfParts_some_ne_none _ _, List.mem_append_right _ List.mem_cons_self,
    State.keeps_of_mem_tiles rfl rfl⟩

theorem State.takeNotice_of_held {s : State} {v : Vec} (h : v ∈ s.bell.noticed) : s.takeNotice v = s := by
  rw [State.takeNotice, if_pos (by simpa using h)]

theorem State.passNotice_of_root {s : State} (h : s.isRoot = true) (p : Packet) :
    s.passNotice p = s.takeNotice p.payload := by
  rw [State.passNotice, if_pos h]

theorem State.passNotice_of_held {s : State} (h : s.isRoot = false) {p : Packet}
    (hheld : ∃ q ∈ s.bell.notices, q.payload = p.payload) : s.passNotice p = s := by
  rw [State.passNotice, h, if_neg (by decide), if_pos (by simpa using hheld)]

theorem State.passNotice_of_new {s : State} (h : s.isRoot = false) {parent : FabricAddr}
    (hparent : s.parentOf s.rc.address = some parent) {p : Packet}
    (hnew : ∀ q ∈ s.bell.notices, q.payload ≠ p.payload) :
    s.passNotice p = State.inject { s with bell := { s.bell with
      notices := s.bell.notices ++ [{ p with dest := parent, source := s.rc.address }] } } 15
      { p with dest := parent, source := s.rc.address } := by
  rw [State.passNotice, h, if_neg (by decide), if_neg (by simpa using hnew), hparent]

/-! ## The settlement -/

/-- Settles O25: each status and notice by what its own step of the gather does. -/
theorem gatherUpTheTree : Obligations.GatherUpTheTree := by
  unfold Obligations.GatherUpTheTree
  intro s p parent
  refine ⟨fun hm hno => exec_gatherStatusSend_of_not_done hm hno, fun hm hdone hv => ?member,
    fun hm hp hs hv => ?relay, fun hm h => ?idle, ⟨fun hk hb hown => ?taken, fun hk hm hg => ?waits,
      fun hk h => ?ignored, fun hk hs hout => exec_bellGather_of_out hk hs hout⟩,
    fun hk hs hr hn => ?rootNotice, fun hk hs hr hp hn => ?passed, fun hk hs h => ?again,
    fun h => exec_bellNotice_of_other h⟩
  case member =>
    refine ⟨_, exec_gatherStatusSend_of_member hm, ?_⟩
    obtain ⟨hfull, hshort⟩ := State.gatherSend_of_done hm hdone
    cases hr : s.ringShort with
    | none =>
      obtain ⟨hkeeps, hg, -, -, -, hphase⟩ := s.gatheredOwn.tryGather_leaves
      rw [hfull hr]
      exact ⟨(State.keeps_of_mem_tiles rfl rfl).trans hkeeps, hphase rfl, hg,
        fun _ => State.gathersOn_tryGather parent _ _ _ (.inr rfl) hv, fun h => absurd rfl h⟩
    | some r =>
      obtain ⟨hkeeps, hg, hc, -, -, hphase⟩ := (s.missedRing r).gatheredOwn.tryGather_leaves
      rw [hshort r hr]
      refine ⟨((s.keeps_cause _ _ _ _ _).trans (State.keeps_hazard _ _ _ _ _ _)).trans
        ((State.keeps_of_mem_tiles rfl rfl).trans hkeeps), hphase rfl, hg, nofun, fun _ hopen => ?_⟩
      rw [hc]
      exact State.bit_hazard_of_bit (s.bit_cause (by decide) _ _ _ _ hopen) _ _ _ _ _
  case relay =>
    rw [exec_gatherStatusSend_of_relay hm, if_pos ⟨hp, hs⟩]
    exact ⟨_, rfl, s.tryGather_leaves.1,
      State.gathersOn_tryGather parent s.bell.phase s.bell.childGather s.bell.seen (gathered := s.bell.gathered)
        (.inl hm) hv⟩
  case idle =>
    rw [exec_gatherStatusSend_of_relay hm, if_neg]
    rintro ⟨hp, hs⟩
    rcases h with h | h
    · exact h hp
    · rw [h] at hs; exact absurd hs (by decide)
  case taken =>
    have ⟨_, _, _, _, hv⟩ := hk
    exact ⟨_, (exec_bellGather_of_inBell hb p).1 hk,
      (State.keeps_of_mem_tiles rfl rfl).trans (s.heldGather p).tryGather_leaves.1,
      State.gathersOn_tryGather parent _ _ _ hown hv⟩
  case waits =>
    have hnone : (s.heldGather p).gatherReady = none := State.gatherReady_of_not_gathered hm hg
    have htry : (s.heldGather p).tryGather = s.heldGather p := by rw [State.tryGather, hnone]
    have ⟨_, _, _, _, hv⟩ := hk
    refine ⟨_, (exec_bellGather_of_inBell (.inl hm) p).1 hk, ?_⟩
    rw [htry]
    exact ⟨State.keeps_of_mem_tiles rfl rfl, rfl, hv, rfl⟩
  case ignored =>
    rcases or_assoc.2 h with h | h
    · exact exec_bellGather_of_other h
    · exact (exec_bellGather_of_inBell h p).2 hk
  case rootNotice =>
    obtain ⟨hcauses, hfirst, hmem, hkeeps⟩ := State.takeNotice_of_new hn
    rw [exec_bellNotice_of_notice hk hs, State.passNotice_of_root hr]
    exact ⟨_, rfl, hkeeps, hcauses, hfirst, hmem⟩
  case passed => rw [exec_bellNotice_of_notice hk hs, State.passNotice_of_new hr hp hn]
  case again =>
    rw [exec_bellNotice_of_notice hk hs]
    rcases h with ⟨hr, hmem⟩ | ⟨hr, hheld⟩
    · rw [State.passNotice_of_root hr, State.takeNotice_of_held hmem]
    · rw [State.passNotice_of_held hr hheld]

end Sys2Proof.Machine
end

section
/-! PROOFS. The verdict: the registers it updates, the pointers of the regions, and its way down the tree (R39, R43, R51,
R52, R59, R67, R220, R284). -/

namespace Sys2Proof.Machine

/-! ## Registers and regions -/

theorem State.noteVerdict_first_some (s : State) {g : GatherStatus} {c : CauseRec} (h : g.first = some c) :
    (s.noteVerdict g).bell.firstWhere = causeWhere c ∧ (s.noteVerdict g).bell.firstCycle = c.cycle := by
  simp [State.noteVerdict, h]

theorem State.noteVerdict_first_none (s : State) {g : GatherStatus} (h : g.first = none) :
    (s.noteVerdict g).bell.firstWhere = 0 ∧ (s.noteVerdict g).bell.firstCycle = 0 := by
  simp [State.noteVerdict, h]

theorem State.settleRegions_region (s : State) (clean : Bool) (n : Nat) :
    (s.settleRegions clean).region n = (s.region n).settle clean := by
  have htable : (s.settleRegions clean).cq.table = tabMap (fun _ r => r.settle clean) s.cq.table := by
    cases clean <;> rfl
  rw [State.region, htable, tabGet_tabMap]
  · rfl
  · cases clean <;> rfl

/-! ## Passing a ready on -/

/-- At a part that is not the root the ready waits, or goes to the parent. -/
theorem State.tryReady_of_not_root {s : State} (h : s.isRoot = false) : s.tryReady = s ∨
    ∃ a r, s.parentOf s.rc.address = some a ∧ s.tryReady = s.sendBell 8 a (readyBytes r) := by
  unfold State.tryReady
  simp only [h, Bool.false_eq_true, if_false]
  split
  · exact .inl rfl
  · split
    · exact .inl rfl
    · next hp => exact .inr ⟨_, _, hp, rfl⟩

/-- A ready takes the place of what was sent to the parent, and changes nothing else but the packets under way. -/
theorem State.tryReady_eq_of_not_root {s : State} (h : s.isRoot = false) : ∃ sent inbox queue kept cnt,
    s.tryReady = s.withSent sent inbox queue kept cnt ∧
      ∀ q ∈ s.bell.sent, s.parentOf s.rc.address ≠ some q.dest → q ∈ sent := by
  rcases State.tryReady_of_not_root h with h | ⟨a, r, ha, h⟩
  · exact ⟨s.bell.sent, s.rt.inbox, s.rt.queue, s.rt.kept, s.dg.cnt, h, fun q hq _ => hq⟩
  · obtain ⟨inbox, queue, kept, cnt, hs⟩ := s.sendBell_eq 8 a (readyBytes r)
    refine ⟨_, inbox, queue, kept, cnt, h.trans hs, fun q hq hne => ?_⟩
    refine List.mem_append_left _ (List.mem_filter.2 ⟨hq, bne_iff_ne.2 fun hd => hne ?_⟩)
    rw [ha, hd]

/-! ## The verdict at the root -/

theorem exec_bellVerdict_of_root {s : State} (hr : s.isRoot = true) (p : Packet) (env : Surroundings) :
    (∀ g, s.bell.phase = .gather → s.bell.verdict = some g →
      exec (.bellVerdict p env) s = .next (s.performVerdict g env)) ∧
    (s.bell.verdict = none ∨ s.bell.phase ≠ .gather → exec (.bellVerdict p env) s = .next s) := by
  refine ⟨fun g hp hv => by simp [exec, execBellVerdict, hr, hp, hv], fun h => ?_⟩
  cases hv : s.bell.verdict with
  | none => simp [exec, execBellVerdict, hr, hv]
  | some g =>
    have hp : s.bell.phase ≠ .gather := h.resolve_left (by rw [hv]; nofun)
    simp [exec, execBellVerdict, hr, hv, hp]

/-! ## The verdict at another part -/

/-- A verdict of the bell in progress that comes from the parent. -/
def State.TakesVerdict (s : State) (p : Packet) : Prop :=
  p.kind = 7 ∧ s.inSession = true ∧ s.bellFresh p = true ∧ s.parentOf s.rc.address = some p.source

/-- The part once it has passed a verdict on to its children. -/
def State.passedVerdict (s : State) (p : Packet) : State :=
  (s.noteBell p).sendChildren 7 (statusBytes (statusFrom (payload16 p)))

/-- What a part other than the root does with a verdict that it takes. -/
def State.takeVerdict (s : State) (p : Packet) (env : Surroundings) : State :=
  if !(s.passedVerdict p).isMember then (s.passedVerdict p).relayVerdict (statusFrom (payload16 p))
  else if (s.passedVerdict p).bell.phase == .gather then
    (s.passedVerdict p).performVerdict (statusFrom (payload16 p)) env
  else s.passedVerdict p

theorem exec_bellVerdict_of_inBell {s : State} (hr : s.isRoot = false) (p : Packet) (env : Surroundings)
    (h : s.isMember = true ∨ s.bell.phase ≠ .idle) :
    (s.TakesVerdict p → exec (.bellVerdict p env) s = .next (s.takeVerdict p env)) ∧
    (¬s.TakesVerdict p → exec (.bellVerdict p env) s = .next s) := by
  simp only [exec, execBellVerdict, hr, State.rejoin_of_inBell h, ite_self, Bool.false_eq_true, if_false]
  refine ⟨fun hk => ?_, fun hk => ?_⟩
  · rw [if_pos (by simpa [State.TakesVerdict, and_assoc] using hk)]
    rfl
  · rw [if_neg (by simpa [State.TakesVerdict, and_assoc] using hk)]

theorem State.passedVerdict_eq (s : State) (p : Packet) : ∃ sent inbox queue kept cnt,
    s.passedVerdict p = (s.noteBell p).withSent sent inbox queue kept cnt ∧
      ∀ c ∈ s.children, ∃ q ∈ sent, q.kind = 7 ∧ q.dest = c ∧
        payload16 q = statusBytes (statusFrom (payload16 p)) := by
  obtain ⟨sent, inbox, queue, kept, cnt, h, hto, -⟩ :=
    (s.noteBell p).sendChildren_eq 7 (statusBytes (statusFrom (payload16 p)))
  exact ⟨sent, inbox, queue, kept, cnt, h, fun c hc => ⟨_, hto c hc, rfl, rfl,
    State.payload16_bellPacket _ _ _ (length_statusBytes _)⟩⟩

theorem State.takeVerdict_of_member {s : State} (hm : s.isMember = true) (p : Packet) (env : Surroundings) :
    s.takeVerdict p env = if s.bell.phase ≠ .gather then s.passedVerdict p
      else (s.passedVerdict p).performVerdict (statusFrom (payload16 p)) env := by
  obtain ⟨sent, inbox, queue, kept, cnt, h, -⟩ := s.passedVerdict_eq p
  have hm' : (s.passedVerdict p).isMember = true := by rw [h]; exact hm
  have hp : (s.passedVerdict p).bell.phase = s.bell.phase := by rw [h]; rfl
  rw [State.takeVerdict, hm', hp, if_neg (by decide)]
  by_cases hg : s.bell.phase = .gather
  · rw [if_pos (beq_iff_eq.2 hg), if_neg (not_not.2 hg)]
  · rw [if_neg (mt beq_iff_eq.1 hg), if_pos hg]

theorem State.takeVerdict_of_relay {s : State} (hm : s.isMember = false) (p : Packet) (env : Surroundings) :
    s.takeVerdict p env = (s.passedVerdict p).relayVerdict (statusFrom (payload16 p)) := by
  obtain ⟨sent, inbox, queue, kept, cnt, h, -⟩ := s.passedVerdict_eq p
  have hm' : (s.passedVerdict p).isMember = false := by rw [h]; exact hm
  rw [State.takeVerdict, hm']
  rfl

/-- A relay part in recess after a verdict. -/
def State.relayRecess (s : State) (g : GatherStatus) : State :=
  { s with bell := { s.bell with lastDirty := g.causes != 0, phase := .recess } }

theorem State.tellWidth_eq (s : State) : ∃ out, s.tellWidth = { s with out := s.out ++ out } ∧
    (s.inSession = true → s.isMember = false → s.bell.lastDirty = true → s.held = false →
      .firmware s.job.root (.width s.rc.address s.routeWidth) ∈ out) := by
  unfold State.tellWidth
  split
  · exact ⟨_, rfl, fun _ _ _ _ => List.mem_cons_self⟩
  · next h =>
    refine ⟨[], by rw [List.append_nil], fun hs hm hd hh => absurd ?_ h⟩
    simp [hs, hm, hd, hh]

/-- A relay part's recess: what it has sent to its children stays, and a dirty one tells the root of its links. -/
theorem State.relayVerdict_eq {s : State} (hr : s.isRoot = false) (g : GatherStatus) :
    ∃ sent inbox queue kept cnt out,
      s.relayVerdict g = ({ s.relayRecess g with out := s.out ++ out } : State).withSent sent inbox queue kept cnt ∧
      (∀ q ∈ s.bell.sent, s.parentOf s.rc.address ≠ some q.dest → q ∈ sent) ∧
      (s.inSession = true → s.isMember = false → g.causes ≠ 0 → s.held = false →
        .firmware s.job.root (.width s.rc.address s.routeWidth) ∈ out) := by
  obtain ⟨out, htell, hwidth⟩ := (s.relayRecess g).tellWidth_eq
  have hw : s.inSession = true → s.isMember = false → g.causes ≠ 0 → s.held = false →
      .firmware s.job.root (.width s.rc.address s.routeWidth) ∈ out :=
    fun hs hm hg hh => hwidth hs hm (bne_iff_ne.2 hg) hh
  have hrelay : s.relayVerdict g = if (s.relayRecess g).tellWidth.children.isEmpty then (s.relayRecess g).tellWidth
      else (s.relayRecess g).tellWidth.tryReady := rfl
  rw [hrelay, htell]
  split
  · exact ⟨s.bell.sent, s.rt.inbox, s.rt.queue, s.rt.kept, s.dg.cnt, out, rfl, fun q hq _ => hq, hw⟩
  · obtain ⟨sent, inbox, queue, kept, cnt, h, hold⟩ := State.tryReady_eq_of_not_root
      (s := { s.relayRecess g with out := (s.relayRecess g).out ++ out }) hr
    exact ⟨sent, inbox, queue, kept, cnt, out, h, hold, hw⟩

/-! ## The settlement -/

/-- Settles O27: the verdict's registers and pointers, and its way down the tree by the part that it reaches. -/
theorem verdictStartsRecess : Obligations.VerdictStartsRecess := by
  unfold Obligations.VerdictStartsRecess
  intro s p env g n
  refine ⟨⟨rfl, rfl, rfl, rfl, rfl, rfl, fun c => s.noteVerdict_first_some, s.noteVerdict_first_none,
    State.keeps_of_mem_tiles rfl rfl⟩, s.settleRegions_region true n, s.settleRegions_region false n,
    fun hr hp hv => (exec_bellVerdict_of_root hr p env).1 g hp hv, fun hr h => (exec_bellVerdict_of_root hr p env).2 h,
    fun hr hm hk => ?member, fun hr hm hi hk => ?relay,
    fun hr hb hk => (exec_bellVerdict_of_inBell hr p env hb).2 hk⟩
  case member =>
    rw [(exec_bellVerdict_of_inBell hr p env (.inl hm)).1 hk, State.takeVerdict_of_member hm]
    rfl
  case relay =>
    have ⟨_, hs, _, hparent⟩ := hk
    obtain ⟨sent, inbox, queue, kept, cnt, hpassed, hsent⟩ := s.passedVerdict_eq p
    rw [(exec_bellVerdict_of_inBell hr p env (.inr hi)).1 hk, State.takeVerdict_of_relay hm, hpassed]
    obtain ⟨sent', inbox', queue', kept', cnt', out, hrelay, hold, hwidth⟩ :=
      State.relayVerdict_eq (s := (s.noteBell p).withSent sent inbox queue kept cnt) hr (statusFrom (payload16 p))
    rw [hrelay]
    refine ⟨_, rfl, State.keeps_of_mem_tiles rfl rfl, rfl, rfl, rfl, fun c hc hne => ?_, fun hd hh => ?_⟩
    · obtain ⟨q, hq, hkind, hdest, hpay⟩ := hsent c hc
      refine ⟨q, hold q hq fun hp => hne ?_, hkind, hdest, hpay⟩
      rw [← hdest]
      exact Option.some.inj (hp.symm.trans hparent)
    · exact List.mem_append_right _ (hwidth hs hm hd hh)

end Sys2Proof.Machine
end

section
/-! PROOFS. The end of a job on this part (R32, R59, R60, R373): what the work of the end leaves of the bell and the job,
and what has left the part. -/

namespace Sys2Proof.Machine

/-! ## Work that leaves the bell and the job alone -/

/-- What the debug block holds of a lock-step mismatch. -/
def Debug.lock (d : Debug) : Bool × BitVec 40 := (d.lockMismatch, d.lockBell)

/-- The bell, the job's state, the order to stop it and a lock-step mismatch are as before, and what has left the part
is not taken back. -/
structure State.SameJob (s s' : State) : Prop where
  bell : s'.bell = s.bell
  state : s'.job.state = s.job.state
  stop : s'.job.stop = s.job.stop
  out : s.out <+: s'.out
  lock : s'.dg.lock = s.dg.lock

theorem State.SameJob.refl (s : State) : s.SameJob s := ⟨rfl, rfl, rfl, List.prefix_rfl, rfl⟩

theorem State.SameJob.trans {s t u : State} (h : s.SameJob t) (h' : t.SameJob u) : s.SameJob u :=
  ⟨h'.bell.trans h.bell, h'.state.trans h.state, h'.stop.trans h.stop, h.out.trans h'.out,
    h'.lock.trans h.lock⟩

/-- A change of other fields only. -/
theorem State.SameJob.of_eq {s s' : State} (hbell : s'.bell = s.bell) (hjob : s'.job = s.job) (hout : s'.out = s.out)
    (hlock : s'.dg.lock = s.dg.lock) : s.SameJob s' :=
  ⟨hbell, by rw [hjob], by rw [hjob], by rw [hout], hlock⟩

/-- A change of other fields before such work. -/
theorem State.SameJob.after {s t u : State} (h : t.SameJob u) (hbell : t.bell = s.bell) (hjob : t.job = s.job)
    (hout : t.out = s.out) (hlock : t.dg.lock = s.dg.lock) : s.SameJob u :=
  (State.SameJob.of_eq hbell hjob hout hlock).trans h

theorem State.SameJob.foldl {β : Type} {f : State → β → State} (h : ∀ (s : State) (b : β), s.SameJob (f s b)) (l : List β)
    (s : State) : s.SameJob (l.foldl f s) := by
  induction l generalizing s with
  | nil => exact .refl s
  | cons b l ih => exact (h s b).trans (ih (f s b))

theorem State.sameJob_emit (s : State) (o : Output) : s.SameJob (s.emit o) :=
  ⟨rfl, rfl, rfl, List.prefix_append _ _, rfl⟩

theorem State.sameJob_msix (s : State) (f v : Nat) : s.SameJob (s.msix f v) := s.sameJob_emit _

theorem State.sameJob_answer (s : State) (w : Waiting) (st : BitVec 16) (b : List Byte) : s.SameJob (s.answer w st b) := by
  unfold State.answer
  dsimp only
  split
  · exact .of_eq rfl rfl rfl rfl
  · exact .refl s

theorem State.sameJob_answerAll (s : State) (l : List Waiting) (st : BitVec 16) (b : List Byte) :
    s.SameJob (s.answerAll l st b) :=
  .foldl (fun s w => s.sameJob_answer w st b) l s

theorem State.sameJob_startCommit (s : State) (type : Byte) (e : Effect) (a : After) :
    s.SameJob (s.startCommit type e a) := by
  unfold State.startCommit
  split
  · exact .refl s
  · exact .of_eq rfl rfl rfl rfl

/-! ## The egress rings -/

theorem State.sameJob_writeEntry (s : State) (f : Nat) (e : Entry) : s.SameJob (s.writeEntry f e) := by
  unfold State.writeEntry
  dsimp only
  split <;> exact (s.sameJob_emit _).trans (.of_eq rfl rfl rfl rfl)

theorem State.sameJob_writeEntries (s : State) (f : Nat) (l : List Entry) : s.SameJob (s.writeEntries f l) := by
  induction l generalizing s with
  | nil => exact .of_eq rfl rfl rfl rfl
  | cons e l ih =>
    unfold State.writeEntries
    split
    · exact (s.sameJob_writeEntry f e).trans (ih _)
    · exact .of_eq rfl rfl rfl rfl

theorem State.sameJob_egressVector (s : State) (f : Nat) (fence : Bool) : s.SameJob (s.egressVector f fence) := by
  unfold State.egressVector
  dsimp only
  split_ifs
  · exact .refl s
  · exact .of_eq rfl rfl rfl rfl
  · exact (State.sameJob_msix _ _ _).after rfl rfl rfl rfl
  · exact .refl s

theorem State.sameJob_egressFn (s : State) (f : Nat) (l : List (Nat × Word)) : s.SameJob (s.egressFn f l) := by
  unfold State.egressFn
  dsimp only
  refine .trans ?_ (State.sameJob_egressVector _ _ _)
  refine .trans ?_ (State.sameJob_writeEntries _ _ _)
  exact .of_eq rfl rfl rfl rfl

theorem State.sameJob_egressAll (s : State) (l : List (Nat × Word)) : s.SameJob (s.egressAll l) :=
  .foldl (fun s f => s.sameJob_egressFn f l) _ s

theorem State.sameJob_queueEntry (s : State) (f : Nat) (id value extra : Word) (kind : Byte) (slot : Nat) :
    s.SameJob (s.queueEntry f id value extra kind slot) :=
  .of_eq rfl rfl rfl rfl

/-! ## Requests and transfers -/

theorem State.sameJob_closeRequest (s : State) (n : Nat) (reason : Byte) : s.SameJob (s.closeRequest n reason) := by
  unfold State.closeRequest
  dsimp only
  split
  · exact .of_eq rfl rfl rfl rfl
  · exact .refl s

theorem State.sameJob_closeAll (s : State) (reason : Byte) : s.SameJob (s.closeAll reason) := by
  unfold State.closeAll
  dsimp only
  refine .trans (t := s.sv.contexts.foldl (fun s e => s.closeRequest e.1 reason) s) ?contexts ?pending
  case contexts => exact .foldl (fun s _ => s.sameJob_closeRequest _ _) _ _
  case pending =>
    refine .foldl (fun s e => ?_) _ _
    exact .of_eq rfl rfl rfl rfl

theorem State.sameJob_closeServing (s : State) (phase : Phase) : s.SameJob (s.closeServing phase) := by
  unfold State.closeServing
  split
  · exact s.sameJob_closeAll _
  · exact .refl s

theorem State.sameJob_completeAll (s : State) (f : Nat) : s.SameJob (s.completeAll f) := by
  unfold State.completeAll
  exact .foldl (f := fun s t => s.completeEntry f t) (fun _ _ => .of_eq rfl rfl rfl rfl) _ s

theorem State.sameJob_abortTransfers (s : State) : s.SameJob s.abortTransfers := by
  unfold State.abortTransfers
  refine .foldl (fun s f => ?_) _ s
  exact (State.sameJob_completeAll _ f).after rfl rfl rfl rfl

theorem State.sameJob_faultVectors (s : State) : s.SameJob s.faultVectors :=
  .foldl (fun s f => s.sameJob_msix f 3) _ s

/-! ## Commands that waited for the running job -/

theorem State.sameJob_holdLimit (s : State) : s.SameJob s.holdLimit := by
  unfold State.holdLimit
  dsimp only
  split
  · exact .refl s
  · exact (State.sameJob_answerAll _ _ _ _).after rfl rfl rfl rfl

theorem State.sameJob_settleStep (s : State) : s.SameJob s.settleStep := by
  unfold State.settleStep
  split
  · exact .refl s
  · exact .of_eq rfl rfl rfl rfl

theorem State.sameJob_holdStep (s : State) : s.SameJob s.holdStep :=
  (State.sameJob_answerAll _ _ _ _).after rfl rfl rfl rfl

theorem State.sameJob_applyCounters (s : State) (b : List Byte) : s.SameJob (s.applyCounters b) := by
  unfold State.applyCounters
  dsimp only
  split <;> exact .of_eq rfl rfl rfl rfl

theorem State.sameJob_countersDue (s : State) : s.SameJob s.countersDue :=
  State.SameJob.after (.foldl (fun s _ => (s.sameJob_applyCounters _).trans (State.sameJob_answer _ _ _ _)) _ _)
    rfl rfl rfl rfl

theorem State.sameJob_leavePair (s : State) : s.SameJob s.leavePair := by
  unfold State.leavePair
  split
  · exact (s.sameJob_emit _).trans (.of_eq rfl rfl rfl rfl)
  · exact .of_eq rfl rfl rfl rfl

theorem State.sameJob_unpair (s : State) : s.SameJob s.unpair := by
  unfold State.unpair
  dsimp only
  split
  · exact .refl s
  · refine .trans ?_ (State.sameJob_answerAll _ _ _ _)
    exact (State.sameJob_leavePair _).after rfl rfl rfl rfl

theorem State.sameJob_gateNow (s : State) (r : GateRequest) : s.SameJob (s.gateNow r) := by
  unfold State.gateNow
  dsimp only
  split_ifs <;> exact .of_eq rfl rfl rfl rfl

theorem State.sameJob_gateOn (s : State) (die half : Nat) : s.SameJob (s.gateOn die half) := by
  unfold State.gateOn State.gateAnswer
  split
  · exact (State.sameJob_answerAll _ _ _ _).after rfl rfl rfl rfl
  · exact .refl s

theorem State.sameJob_gateRecess (s : State) : s.SameJob s.gateRecess := by
  unfold State.gateRecess
  dsimp only
  refine .trans ?_ (.foldl (fun s k => s.sameJob_gateOn _ _) _ _)
  exact State.SameJob.after (.foldl (fun s r => s.sameJob_gateNow r) _ _) rfl rfl rfl rfl

/-- The order that the root carries out is over. -/
theorem State.sameJob_answerJob (s : State) (st : BitVec 16) (b : List Byte) : s.SameJob (s.answerJob st b) := by
  unfold State.answerJob
  dsimp only
  refine .trans ?_ (State.sameJob_answerAll _ _ _ _)
  exact ⟨rfl, rfl, rfl, List.prefix_rfl, rfl⟩

theorem State.sameJob_answerEnded (s : State) : s.SameJob s.answerEnded := by
  have hbegin : s.SameJob (s.holdLimit.settleStep.holdStep.countersDue).unpair :=
    ((((s.sameJob_holdLimit.trans (State.sameJob_settleStep _)).trans (State.sameJob_holdStep _)).trans
      (State.sameJob_countersDue _)).trans (State.sameJob_unpair _))
  unfold State.answerEnded
  generalize (s.holdLimit.settleStep.holdStep.countersDue).unpair = t at hbegin ⊢
  dsimp only
  have hpins : t.SameJob (State.answerAll { t with sv := { t.sv with pinRequests := [] } }
      (t.sv.pinRequests.map (·.wait)) 0x0008 []).gateRecess := by
    refine .trans ?_ (State.sameJob_gateRecess _)
    exact (State.sameJob_answerAll _ _ _ _).after rfl rfl rfl rfl
  split_ifs
  · exact (hbegin.trans hpins).trans (State.sameJob_answerJob _ _ _)
  · exact hbegin.trans hpins
  · exact (hbegin.trans hpins).trans (State.sameJob_answerJob _ _ _)

/-! ## A lesson without a verdict -/

theorem State.sameJob_fence (s : State) (l : List (Nat × BitVec 4)) : s.SameJob (s.fence l) := by
  unfold State.fence
  split
  · exact .refl s
  · refine .trans ?_ (State.sameJob_msix _ _ _)
    exact (State.sameJob_startCommit _ _ _ _).after rfl rfl rfl rfl

theorem State.sameJob_fenceAtBell (s : State) : s.SameJob s.fenceAtBell :=
  (State.sameJob_fence _ _).after rfl rfl rfl rfl

theorem State.sameJob_settleRegions (s : State) (clean : Bool) : s.SameJob (s.settleRegions clean) := by
  cases clean <;> exact .of_eq rfl rfl rfl rfl

theorem State.sameJob_abandon (s : State) : s.SameJob s.abandon := by
  unfold State.abandon
  split
  · have hsettled : s.SameJob (s.rollbackServing.settleRegions false) :=
      (State.sameJob_settleRegions _ _).after rfl rfl rfl rfl
    exact (hsettled.trans (State.sameJob_fenceAtBell _)).trans (.of_eq rfl rfl rfl rfl)
  · exact .refl s

/-! ## The job record is released -/

theorem State.sameJob_sendLink (s : State) (l : Nat) (p : Packet) : s.SameJob (s.sendLink l p) := by
  unfold State.sendLink
  dsimp only
  split <;> exact .of_eq rfl rfl rfl rfl

theorem State.sameJob_undrain (s : State) : s.SameJob s.undrain :=
  State.SameJob.after (.foldl (fun s _ => s.sameJob_sendLink _ _) _ _) rfl rfl rfl rfl

theorem State.sameJob_clearSlice (s : State) : s.SameJob s.clearSlice :=
  s.sameJob_undrain.trans (.of_eq rfl rfl rfl rfl)

/-- The part without its job's records. -/
def State.withoutJob (s : State) : State :=
  { s with
    job := .reset, sv := { Serving.reset with committed := s.sv.committed, tokensSent := s.sv.tokensSent }
    sec := { s.sec with snapshot := none } }

theorem State.releaseJob_eq (s : State) (a : After) : s.releaseJob a = s.withoutJob.leavePair.clearSlice.commitFabric a :=
  rfl

/-- A release of the job record leaves the bell alone, what has left the part, and a lock-step mismatch. -/
theorem State.releaseJob_leaves (s : State) (a : After) : (s.releaseJob a).bell = s.bell ∧
    s.out <+: (s.releaseJob a).out ∧ (s.releaseJob a).dg.lock = s.dg.lock := by
  have h := ((s.withoutJob.sameJob_leavePair).trans (State.sameJob_clearSlice _)).trans
    (State.sameJob_startCommit _ 2 (.fabric s.withoutJob.leavePair.clearSlice.fabricNow) a)
  exact ⟨h.bell, h.out, h.lock⟩

/-! ## The end -/

/-- The job has ended on the part with a phase, and with a code where it has faulted. -/
structure State.HasEnded (s s' : State) (phase : Phase) (code : Byte) : Prop where
  phase_eq : s'.bell.phase = phase
  faulted : phase = .faulted → s'.bell.faulted = true ∧ s'.bell.faultCode = code
  state : s.job.stop ≠ some true → s'.job.state = .ended
  out : s.out <+: s'.out
  lock : s'.dg.lock = s.dg.lock

/-- The part with the records of a job that has ended. -/
def State.withEnd (s : State) (phase : Phase) (code : Byte) : State :=
  { s with
    bell := { s.bell with
      phase := phase
      faulted := s.bell.faulted || decide (phase = Phase.faulted)
      faultCode := if phase = Phase.faulted then code else s.bell.faultCode
      release := none, verdict := none, withheld := false, reverify := [], newFence := false, widthsDue := []
      recessDue := false }
    job := { s.job with state := .ended }
    dg := { s.dg with stopped := s.dg.stopped && !decide (phase = Phase.stopped) } }

theorem State.endJob_hasEnded (s : State) (phase : Phase) (code : Byte) : s.HasEnded (s.endJob phase code) phase code := by
  unfold State.endJob
  extract_lets abandoned bell job dg ended rung closed rungAgain signalled answered
  have habandon : s.SameJob abandoned := s.sameJob_abandon
  have hended : ended = abandoned.withEnd phase code := rfl
  have hrung : ended.SameJob rung := ended.sameJob_egressAll []
  have hclosed : rung.SameJob closed := (rung.sameJob_closeServing phase).trans (State.sameJob_abortTransfers _)
  have hagain : closed.SameJob rungAgain := closed.sameJob_egressAll []
  have hsignalled : rungAgain.SameJob signalled := by
    unfold signalled
    split
    · exact rungAgain.sameJob_faultVectors
    · exact .refl _
  have hanswered : signalled.SameJob answered := signalled.sameJob_answerEnded
  clear_value answered signalled rungAgain closed rung ended dg job bell abandoned
  have hwork : ended.SameJob answered := (((hrung.trans hclosed).trans hagain).trans hsignalled).trans hanswered
  subst hended
  have hout : s.out <+: answered.out := habandon.out.trans hwork.out
  have hlock : answered.dg.lock = s.dg.lock := hwork.lock.trans habandon.lock
  have hfault : phase = .faulted → answered.bell.faulted = true ∧ answered.bell.faultCode = code := by
    intro h
    rw [hwork.bell]
    exact ⟨by simp [State.withEnd, h], by simp [State.withEnd, h]⟩
  have hphase : answered.bell.phase = phase := by rw [hwork.bell]; rfl
  have hstop : answered.job.stop = s.job.stop := hwork.stop.trans habandon.stop
  split
  · next h =>
    obtain ⟨hbell, hout', hlock'⟩ := answered.releaseJob_leaves (.respondAll answered.job.waits answered.stopBody)
    exact ⟨by rw [hbell, hphase], fun h => by rw [hbell]; exact hfault h,
      fun hne => absurd (hstop ▸ beq_iff_eq.1 h) hne, hout.trans hout', hlock'.trans hlock⟩
  · exact ⟨hphase, hfault, fun _ => hwork.state, hout, hlock⟩

/-- The root ends the job on every part of the box: each of the others is told. -/
theorem State.endEverywhere_hasEnded (s : State) (phase : Phase) (code : Byte) :
    s.HasEnded (s.endEverywhere phase code) phase code ∧
      ∀ a ∈ s.otherParts, .firmware a (.jobEnd (phaseCode phase) code) ∈ (s.endEverywhere phase code).out := by
  have htold : ∀ t : State, (s.tellAll s.otherParts (.jobEnd (phaseCode phase) code)).SameJob t →
      s.HasEnded (t.endJob phase code) phase code ∧
        ∀ a ∈ s.otherParts, .firmware a (.jobEnd (phaseCode phase) code) ∈ (t.endJob phase code).out := by
    intro t ht
    have hend := t.endJob_hasEnded phase code
    refine ⟨⟨hend.phase_eq, hend.faulted, fun hne => hend.state (ht.stop ▸ hne), ?_,
      hend.lock.trans ht.lock⟩, fun a ha => ?_⟩
    · exact (List.prefix_append _ _).trans (ht.out.trans hend.out)
    · exact (ht.out.trans hend.out).subset (List.mem_append_right _ (List.mem_map.2 ⟨a, ha, rfl⟩))
  unfold State.endEverywhere
  dsimp only
  split
  · exact htold _ ⟨rfl, rfl, rfl, List.prefix_append _ _, rfl⟩
  · exact htold _ (.refl _)

end Sys2Proof.Machine
end

section
/-! PROOFS. Job faults of the gather's time limit and of a dirty bell (R40, R54, R59, Table 2-6). -/

namespace Sys2Proof.Machine

/-- The root's job has faulted with a code, and every other part of the box is told. -/
def State.FaultsAll (s t : State) (code : Byte) : Prop :=
  t.bell.phase = .faulted ∧ t.bell.faulted = true ∧ t.bell.faultCode = code ∧
    (s.job.stop ≠ some true → t.job.state = .ended) ∧ ∀ a ∈ s.otherParts, .firmware a (.jobEnd 7 code) ∈ t.out

theorem State.endEverywhere_faultsAll (s : State) (code : Byte) : s.FaultsAll (s.endEverywhere .faulted code) code := by
  obtain ⟨hend, htold⟩ := s.endEverywhere_hasEnded .faulted code
  exact ⟨hend.phase_eq, (hend.faulted rfl).1, (hend.faulted rfl).2, hend.state, htold⟩

/-- A fault of a job in session: the root ends it everywhere, a member reports it to the root. -/
theorem State.fault_of_inSession {s : State} (hs : s.inSession = true) (code : Byte) :
    (s.isRoot = true → s.FaultsAll (s.fault code) code) ∧
      (s.isRoot = false → s.fault code = s.emit (.firmware s.job.root (.jobEnd 7 code))) := by
  have hs' : (s.job.state == .inSession) = true := hs
  unfold State.fault
  rw [if_pos hs']
  refine ⟨fun hr => ?_, fun hr => ?_⟩
  · rw [if_pos hr]; exact s.endEverywhere_faultsAll code
  · rw [hr]; rfl

theorem exec_gatherTimeout (s : State) : exec .gatherTimeout s = .next
    (if s.isRoot = true ∧ s.inSession = true ∧ s.bell.phase = .gather ∧ s.bell.verdict = none then
      s.endEverywhere .faulted 2 else s) := by
  simp [exec, execGatherTimeout, and_assoc]

/-- A link of the job's routes is narrower than the image allows. -/
def State.Narrow (s : State) : Prop := ∃ im l, s.job.image = some im ∧ l ∈ s.routeLinks ∧ s.linkWidth l < im.minWidth

/-- The check of R59 by its first condition that holds. -/
theorem State.dirtyCheck_eq (s : State) (fenced : Bool) [Decidable s.Narrow] : s.dirtyCheck fenced =
    if s.bell.replayLimit.toNat ≤ s.bell.attempt.toNat then (if s.isRoot then s.fault 1 else s)
    else if s.Narrow then s.fault 4 else if fenced then s.fault 5 else s := by
  have hnarrow : s.Narrow ↔ (match s.job.image with
      | some im => s.routeLinks.any fun l => s.linkWidth l < im.minWidth
      | none => false) = true := by
    cases h : s.job.image <;> simp [State.Narrow, h]
  simp only [hnarrow]
  rfl

/-- Settles O26: each fault by the branch of its check. -/
theorem jobFaults : Obligations.JobFaults := by
  classical
  unfold Obligations.JobFaults
  refine ⟨fun s => ⟨fun hw => ?timeout, fun hw => by rw [exec_gatherTimeout, if_neg hw]⟩, fun s fenced hs => ?check⟩
  case timeout =>
    rw [exec_gatherTimeout, if_pos hw]
    exact ⟨_, rfl, s.endEverywhere_faultsAll 2⟩
  case check =>
    have hcheck := s.dirtyCheck_eq fenced
    refine ⟨fun hl hr => ?_, fun hl hr => ?_, fun hl hn => ?_, fun hl hn hf => ?_, fun hl hn hf => ?_⟩
    · rw [if_pos hl, if_pos hr] at hcheck
      rw [hcheck]
      exact State.fault_of_inSession hs 1
    · rw [if_pos hl, hr] at hcheck
      exact hcheck
    · rw [if_neg hl, if_pos (show s.Narrow from hn)] at hcheck
      rw [hcheck]
      exact State.fault_of_inSession hs 4
    · rw [if_neg hl, if_neg (show ¬s.Narrow from hn), if_pos hf] at hcheck
      rw [hcheck]
      exact State.fault_of_inSession hs 5
    · rw [if_neg hl, if_neg (show ¬s.Narrow from hn), hf] at hcheck
      rw [hf]
      exact hcheck

end Sys2Proof.Machine
end

section
/-! PROOFS. Answers to commands, and the end of a drain, by what of the state they change (R277, R279, R404, R407). -/

namespace Sys2Proof.Machine

theorem State.answer_eq (s : State) (w : Waiting) (st : BitVec 16) (b : List Byte) :
    ∃ mb, s.answer w st b = { s with mb := mb } := by
  unfold State.answer
  dsimp only
  split
  · exact ⟨_, rfl⟩
  · exact ⟨s.mb, rfl⟩

theorem State.answerAll_eq (s : State) (l : List Waiting) (st : BitVec 16) (b : List Byte) :
    ∃ mb, s.answerAll l st b = { s with mb := mb } := by
  unfold State.answerAll
  induction l generalizing s with
  | nil => exact ⟨s.mb, rfl⟩
  | cons w l ih =>
    obtain ⟨mb, h⟩ := s.answer_eq w st b
    obtain ⟨mb', h'⟩ := ih (s.answer w st b)
    exact ⟨mb', by rw [List.foldl_cons, h', h]⟩

theorem State.sendLink_eq (s : State) (l : Nat) (p : Packet) : ∃ links routers,
    s.sendLink l p = { s with links := links, rt := { s.rt with routers := routers } } := by
  unfold State.sendLink
  dsimp only
  split
  · exact ⟨s.links, _, rfl⟩
  · exact ⟨_, s.rt.routers, rfl⟩

theorem State.sendLinks_eq (s : State) (l : List (Nat × Packet)) : ∃ links routers,
    l.foldl (fun s e => s.sendLink e.1 e.2) s = { s with links := links, rt := { s.rt with routers := routers } } := by
  induction l generalizing s with
  | nil => exact ⟨s.links, s.rt.routers, rfl⟩
  | cons e l ih =>
    obtain ⟨links, routers, h⟩ := s.sendLink_eq e.1 e.2
    obtain ⟨links', routers', h'⟩ := ih (s.sendLink e.1 e.2)
    exact ⟨links', routers', by rw [List.foldl_cons, h', h]⟩

/-- The end of a drain frees what was kept back. -/
theorem State.undrain_eq (s : State) : ∃ links routers queue, s.undrain = { s with
    links := links
    rt := { s.rt with drain := false, kept := [], keptLinks := [], queue := queue, routers := routers } } := by
  obtain ⟨links, routers, h⟩ := State.sendLinks_eq { s with rt := { s.rt with
    drain := false, kept := [], keptLinks := []
    queue := s.rt.queue ++ s.rt.kept.map fun e =>
      { e with arrival := s.rt.now, packet := { e.packet with epoch := s.rt.epoch } } } } s.rt.keptLinks
  exact ⟨links, routers, _, h⟩

end Sys2Proof.Machine
end

section
/-! PROOFS. READY on its way up the tree, and the quiet of a part that drains (R32, R42, R45, R275, R278, R279). -/

namespace Sys2Proof.Machine

/-! ## The combined ready -/

/-- The ready that a part has of its own: its own one, or a relay part's, which waits for nothing but quiet. -/
def State.OwnReady (s : State) (r : ReadyStatus) : Prop :=
  s.bell.ownReady = some r ∨
    (s.bell.ownReady = none ∧ s.isMember = false ∧ r = { complete := true, quiet := s.quiet, step := 7 })

/-- A part's own ready combined with those of its children. -/
def jointReady (r : ReadyStatus) (l : List (FabricAddr × ReadyStatus)) : ReadyStatus :=
  l.foldl (fun a e => joinReady a e.2) r

theorem State.readyAll_of_full {s : State} {r : ReadyStatus} (hown : s.OwnReady r)
    (hfull : s.HoldsAll s.bell.childReady) : s.readyAll = some (jointReady r s.bell.childReady) := by
  unfold State.readyAll
  rw [if_pos ((s.holdsAll_iff _).1 hfull)]
  rcases hown with h | ⟨h, hm, rfl⟩
  · rw [h]; rfl
  · rw [h, hm]; rfl

theorem State.readyAll_of_not_full {s : State} (h : ¬s.HoldsAll s.bell.childReady) : s.readyAll = none := by
  unfold State.readyAll
  rw [if_neg (mt (s.holdsAll_iff _).2 h)]

theorem State.readyAll_of_no_own {s : State} (h : s.bell.ownReady = none) (hm : s.isMember = true) :
    s.readyAll = none := by
  unfold State.readyAll
  rw [h, hm]
  split <;> rfl

/-! ## Passing a ready on -/

theorem State.stopDirty_of_no_stop {s : State} (h : s.job.stop = none) (all : Bool) : s.stopDirty all = s := by
  simp [State.stopDirty, h]

/-- Unless the root ends a job, a ready changes nothing but the packets under way. -/
theorem State.tryReady_eq {s : State} (h : s.isRoot = false ∨ s.job.stop = none) : ∃ sent inbox queue kept cnt,
    s.tryReady = s.withSent sent inbox queue kept cnt := by
  cases hr : s.isRoot with
  | false =>
    obtain ⟨sent, inbox, queue, kept, cnt, h, -⟩ := State.tryReady_eq_of_not_root hr
    exact ⟨sent, inbox, queue, kept, cnt, h⟩
  | true =>
    have hstop : s.job.stop = none := h.resolve_left (by rw [hr]; decide)
    refine ⟨s.bell.sent, s.rt.inbox, s.rt.queue, s.rt.kept, s.dg.cnt, ?_⟩
    unfold State.tryReady
    split
    · rfl
    · rw [hr, if_pos rfl, State.stopDirty_of_no_stop hstop]; rfl

/-- The part's combined ready, as its parent receives it. -/
def State.SendsReady (u s' : State) (parent : FabricAddr) (r : ReadyStatus) : Prop :=
  ∃ q ∈ s'.bell.sent, q.kind = 8 ∧ q.cls = 0 ∧ q.dest = parent ∧ q.source = u.rc.address ∧ q.length = 16 ∧
    payload16 q = readyBytes r

/-- The ready goes on from these readies of the children: to the parent where all are held, nowhere else. -/
def State.ReadiesOn (u s' : State) (parent : FabricAddr) (r : ReadyStatus) (l : List (FabricAddr × ReadyStatus)) :
    Prop :=
  (u.HoldsAll l → u.isRoot = false → u.parentOf u.rc.address = some parent →
    u.SendsReady s' parent (jointReady r l)) ∧
  (¬u.HoldsAll l → s'.bell.sent = u.bell.sent)

theorem State.readiesOn_tryReady {s : State} {r : ReadyStatus} (hown : s.OwnReady r) (parent : FabricAddr) :
    s.ReadiesOn s.tryReady parent r s.bell.childReady := by
  refine ⟨fun hfull hroot hparent => ?_, fun hnot => ?_⟩
  · obtain ⟨inbox, queue, kept, cnt, hsend⟩ := s.sendBell_eq 8 parent (readyBytes (jointReady r s.bell.childReady))
    have htry : s.tryReady = s.sendBell 8 parent (readyBytes (jointReady r s.bell.childReady)) := by
      rw [State.tryReady, State.readyAll_of_full hown hfull]
      simp only [hroot, hparent, Bool.false_eq_true, if_false]
    rw [htry, hsend]
    exact ⟨_, List.mem_append_right _ List.mem_cons_self, rfl, rfl, rfl, rfl, rfl,
      State.payload16_bellPacket _ _ _ (length_readyBytes _)⟩
  · rw [State.tryReady, State.readyAll_of_not_full hnot]

/-! ## READY_SEND -/

theorem State.tryPlacement_of_not_due {s : State} (h : s.placementDue = false) : s.tryPlacement = s := by
  rw [State.tryPlacement, h]; rfl

theorem State.placementDue_of_workDone {s : State} (h : s.workDone = true) : s.placementDue = false := by
  simp only [State.workDone, Bool.and_eq_true, Bool.not_eq_true'] at h
  exact h.2

/-- A member that has finished its recess work: what still goes on in the same recess. -/
def State.recessEnd (s : State) (env : Surroundings) : State :=
  let s := if s.bell.recessDue then s.recessRest env else s
  let s := s.attachedFns.foldl (fun s f => s.takeRecords f env) s
  if s.rt.drain && s.quiet then s.reportQuiet else s

/-- A member that is READY. -/
def State.withReady (s : State) : State :=
  { s with bell := { s.bell with phase := .ready, ownReady := some s.ownReadyNow } }

theorem exec_readySend_of_done {s : State} (env : Surroundings) (hs : s.inSession = true) (hp : s.bell.phase = .recess)
    (hm : s.isMember = true) (hw : s.workDone = true) :
    exec (.readySend env) s = .next (s.recessEnd env).withReady.tryReady := by
  simp only [exec, execReadySend, hp, beq_self_eq_true, if_true,
    State.tryPlacement_of_not_due (State.placementDue_of_workDone hw), hs, hm, hw, Bool.and_self]
  rfl

theorem exec_readySend_of_relay {s : State} (env : Surroundings) (hs : s.inSession = true) (hp : s.bell.phase = .recess)
    (hm : s.isMember = false) (hplace : s.placementDue = false) (hd : s.rt.drain = false) :
    exec (.readySend env) s = .next s.tryReady := by
  simp [exec, execReadySend, hp, State.tryPlacement_of_not_due hplace, hs, hm, hd]

theorem exec_readySend_of_open {s : State} (env : Surroundings) (h : s.bell.phase ≠ .recess ∨
    (s.placementDue = false ∧ (s.inSession = false ∨ (s.isMember = true ∧ s.workDone = false)))) :
    exec (.readySend env) s = .next s := by
  rcases h with h | ⟨hplace, h⟩
  · simp [exec, execReadySend, h]
  · simp only [exec, execReadySend, State.tryPlacement_of_not_due hplace, ite_self]
    rcases h with h | ⟨hm, hw⟩
    · simp [h]
    · simp [hm, hw]

/-! ## BELL_READY -/

/-- A ready of a child for the bell in progress. -/
def State.TakesReady (s : State) (p : Packet) : Prop :=
  p.kind = 8 ∧ s.inSession = true ∧ p.source ∈ s.children ∧ p.tagBell = s.tagBell ∧ p.tagAttempt = s.bell.attempt

/-- The part with a child's ready in place of an earlier one of the same child. -/
def State.heldReady (s : State) (p : Packet) : State :=
  { s with bell := { s.bell with
    childReady := (s.bell.childReady.filter fun e => e.1 != p.source) ++ [(p.source, readyFrom (payload16 p))] } }

theorem exec_bellReady_of_inBell {s : State} (p : Packet) (h : s.isMember = true ∨ s.bell.phase ≠ .idle) :
    (s.TakesReady p → exec (.bellReady p) s = .next (s.heldReady p).tryReady) ∧
    (¬s.TakesReady p → exec (.bellReady p) s = .next s) := by
  simp only [exec, execBellReady, State.rejoin_of_inBell h, ite_self]
  refine ⟨fun hk => ?_, fun hk => ?_⟩
  · rw [if_pos (by simpa [State.TakesReady, and_assoc] using hk)]
    rfl
  · rw [if_neg (by simpa [State.TakesReady, and_assoc] using hk)]

theorem exec_bellReady_of_other {s : State} {p : Packet} (h : p.kind ≠ 8) : exec (.bellReady p) s = .next s := by
  have hk : (p.kind == 8) = false := beq_eq_false_iff_ne.2 h
  simp only [exec, execBellReady, hk, Bool.false_and, Bool.false_eq_true, if_false]

/-- The last ready that a root waits for ends the job that was to stop at a dirty bell. -/
theorem State.tryReady_stops {s : State} {r : ReadyStatus} (hr : s.isRoot = true) (hs : s.inSession = true)
    (hd : s.bell.lastDirty = true) (hstop : s.job.stop ≠ none) (hh : s.held = false) (hw : s.bell.widthsDue = [])
    (hall : s.readyAll = some r) (hc : r.complete = true) : s.tryReady = s.endEverywhere .stopped 0 := by
  have hsome : s.job.stop.isSome = true := Option.isSome_iff_ne_none.2 hstop
  rw [State.tryReady, hall]
  simp only [hr, if_true]
  rw [State.stopDirty, if_pos]
  simp [hs, hr, hd, hsome, hh, hw, hc]

/-! ## DRAIN_QUIET -/

theorem State.partQuiet_eq (s : State) (a : FabricAddr) : ∃ awaiting waits mb,
    s.partQuiet a = { s with mb := mb, rt := { s.rt with drainAwaiting := awaiting, drainWaits := waits } } := by
  unfold State.partQuiet
  dsimp only
  split
  · obtain ⟨mb, h⟩ := State.answerAll_eq { s with rt := { s.rt with
      drainAwaiting := s.rt.drainAwaiting.filter fun b => b != a, drainWaits := [] } } s.rt.drainWaits stOk []
    exact ⟨_, _, mb, h⟩
  · exact ⟨_, s.rt.drainWaits, s.mb, rfl⟩

/-- The parts that wait for this one's quiet have heard of it. -/
def State.afterQuiet (s : State) (awaiting : List FabricAddr) (waits : List Waiting) (mb : Tab Mailbox) : State :=
  { s with
    mb := mb
    out := s.out ++ (s.rt.drainAskers.filter fun a => a != s.rc.address).map fun a =>
      .firmware a (.done s.rc.address 0x40 0 [])
    rt := { s.rt with drainAskers := [], drainAwaiting := awaiting, drainWaits := waits } }

theorem State.reportQuiet_eq (s : State) : ∃ awaiting waits mb, s.reportQuiet = s.afterQuiet awaiting waits mb := by
  unfold State.reportQuiet
  dsimp only
  split
  · obtain ⟨awaiting, waits, mb, h⟩ := (s.afterQuiet s.rt.drainAwaiting s.rt.drainWaits s.mb).partQuiet_eq s.rc.address
    exact ⟨awaiting, waits, mb, h⟩
  · exact ⟨s.rt.drainAwaiting, s.rt.drainWaits, s.mb, rfl⟩

/-- Every part that waits for this one's quiet is told. -/
def State.TellsQuiet (s s' : State) : Prop :=
  s.keeps s' ∧ s'.rt.drainAskers = [] ∧
    ∀ a ∈ s.rt.drainAskers, a ≠ s.rc.address → .firmware a (.done s.rc.address 0x40 0 []) ∈ s'.out

theorem State.tellsQuiet_afterQuiet (s : State) (awaiting : List FabricAddr) (waits : List Waiting) (mb : Tab Mailbox)
    (bell : Bell) (sent inbox : List Packet) (queue kept : List Queued) (cnt : Tab (BitVec 64)) :
    s.TellsQuiet (({ s.afterQuiet awaiting waits mb with bell := bell } : State).withSent sent inbox queue kept cnt) :=
  ⟨State.keeps_of_mem_tiles rfl rfl, rfl, fun a ha hne => List.mem_append_right _
    (List.mem_map.2 ⟨a, List.mem_filter.2 ⟨ha, bne_iff_ne.2 hne⟩, rfl⟩)⟩

theorem exec_drainQuiet_of_busy {s : State} (h : s.rt.drain = false ∨ s.quiet = false) :
    exec .drainQuiet s = .next s := by
  rcases h with h | h <;> simp [exec, execDrainQuiet, h]

theorem exec_drainQuiet_of_quiet {s : State} (hd : s.rt.drain = true) (hq : s.quiet = true) :
    (s.inSession = false → exec .drainQuiet s = .next s.reportQuiet) ∧
    (s.inSession = true → s.isMember = true → s.bell.ownReady = none → exec .drainQuiet s = .next s) ∧
    (∀ r, s.inSession = true → s.isMember = true → s.bell.ownReady = some r →
      exec .drainQuiet s = .next (if r.quiet then s.reportQuiet else
        State.tryReady { s.reportQuiet with bell := { s.reportQuiet.bell with ownReady := some { r with quiet := true } } })) ∧
    (s.inSession = true → s.isMember = false → s.reportQuiet.inSession = true →
      exec .drainQuiet s = .next s.reportQuiet.tryReady) := by
  obtain ⟨awaiting, waits, mb, h⟩ := s.reportQuiet_eq
  have hses : s.reportQuiet.inSession = s.inSession := by rw [h]; rfl
  refine ⟨fun hs => ?_, fun hs hm ho => ?_, fun r hs hm ho => ?_, fun hs hm hs' => ?_⟩
  · simp [exec, execDrainQuiet, hd, hq, hs, hses]
  · simp [exec, execDrainQuiet, hd, hq, hs, hm, ho]
  · simp [exec, execDrainQuiet, hd, hq, hs, hm, ho]
  · simp [exec, execDrainQuiet, hd, hq, hs, hm, hs']

/-! ## The settlement -/

/-- Settles O28: each ready by the part that holds it, each report of quiet by what waits for it. -/
theorem readyUpTheTree : Obligations.ReadyUpTheTree := by
  unfold Obligations.ReadyUpTheTree
  intro s p env parent
  refine ⟨fun hs hp hm hw => ?member, fun hs hp hm hplace hd ho hr => ?relay, fun h => exec_readySend_of_open env h,
    ⟨fun hk hb hgo => ?ready, fun hk hb hr hd hstop hh hw hfull r ho hc => ?stops, fun hk h => ?ignored⟩,
    exec_drainQuiet_of_busy, fun hd hq => ⟨fun hs => ?outside, fun hs hm ho => ?early, fun r hs hm ho hgo => ?again,
      fun hs hm ho hr => ?relayQuiet⟩⟩
  case member =>
    refine ⟨_, (s.recessEnd env).ownReadyNow, exec_readySend_of_done env hs hp hm hw, rfl, rfl, rfl,
      State.readiesOn_tryReady (s := (s.recessEnd env).withReady) (.inl rfl) parent, fun hgo => ?_⟩
    obtain ⟨sent, inbox, queue, kept, cnt, h⟩ := State.tryReady_eq (s := (s.recessEnd env).withReady) hgo
    rw [h]
    exact ⟨State.keeps_of_mem_tiles rfl rfl, rfl, rfl⟩
  case relay =>
    obtain ⟨sent, inbox, queue, kept, cnt, h⟩ := State.tryReady_eq (.inl hr)
    exact ⟨_, exec_readySend_of_relay env hs hp hm hplace hd, h ▸ s.keeps_withSent _ _ _ _ _,
      State.readiesOn_tryReady (.inr ⟨ho, hm, rfl⟩) parent⟩
  case ready =>
    obtain ⟨sent, inbox, queue, kept, cnt, h⟩ := State.tryReady_eq (s := s.heldReady p) hgo
    refine ⟨_, (exec_bellReady_of_inBell p hb).1 hk, h ▸ State.keeps_of_mem_tiles rfl rfl, by rw [h]; rfl,
      fun r ho => ?_, fun ho hm => ?_, fun ho hm => ?_⟩
    · exact State.readiesOn_tryReady (s := s.heldReady p) (.inl ho) parent
    · rw [State.tryReady, State.readyAll_of_no_own (s := s.heldReady p) ho hm]
      rfl
    · exact State.readiesOn_tryReady (s := s.heldReady p) (.inr ⟨ho, hm, rfl⟩) parent
  case stops =>
    have ⟨_, hs, _⟩ := hk
    have hall := State.readyAll_of_full (s := s.heldReady p) (.inl ho) hfull
    have hend := State.tryReady_stops (s := s.heldReady p) hr hs hd hstop hh hw hall hc
    exact ⟨_, (exec_bellReady_of_inBell p hb).1 hk, hend ▸ ((s.heldReady p).endEverywhere_hasEnded .stopped 0).1.phase_eq⟩
  case ignored =>
    rcases h with h | h
    · exact (exec_bellReady_of_inBell p h).2 hk
    · exact exec_bellReady_of_other h
  case outside =>
    obtain ⟨awaiting, waits, mb, h⟩ := s.reportQuiet_eq
    exact ⟨_, (exec_drainQuiet_of_quiet hd hq).1 hs,
      h ▸ s.tellsQuiet_afterQuiet awaiting waits mb s.bell s.bell.sent s.rt.inbox s.rt.queue s.rt.kept s.dg.cnt⟩
  case early => exact (exec_drainQuiet_of_quiet hd hq).2.1 hs hm ho
  case again =>
    obtain ⟨awaiting, waits, mb, h⟩ := s.reportQuiet_eq
    have hexec := (exec_drainQuiet_of_quiet hd hq).2.2.1 r hs hm ho
    rw [h] at hexec
    cases hrq : r.quiet with
    | true =>
      rw [hrq, if_pos rfl] at hexec
      refine ⟨_, hexec,
        s.tellsQuiet_afterQuiet awaiting waits mb s.bell s.bell.sent s.rt.inbox s.rt.queue s.rt.kept s.dg.cnt, ?_, nofun⟩
      rw [← hrq]
      exact ho
    | false =>
      rw [hrq, if_neg (by decide)] at hexec
      have hgoes := State.readiesOn_tryReady (s := { s.afterQuiet awaiting waits mb with
        bell := { s.bell with ownReady := some { r with quiet := true } } }) (.inl rfl) parent
      obtain ⟨sent, inbox, queue, kept, cnt, h'⟩ := State.tryReady_eq (s := { s.afterQuiet awaiting waits mb with
        bell := { s.bell with ownReady := some { r with quiet := true } } }) hgo
      refine ⟨_, hexec, ?_, ?_, fun _ => hgoes⟩
      · exact h' ▸ s.tellsQuiet_afterQuiet awaiting waits mb _ sent inbox queue kept cnt
      · exact h' ▸ rfl
  case relayQuiet =>
    obtain ⟨awaiting, waits, mb, h⟩ := s.reportQuiet_eq
    have hexec := (exec_drainQuiet_of_quiet hd hq).2.2.2 hs hm (h ▸ hs)
    rw [h] at hexec
    obtain ⟨sent, inbox, queue, kept, cnt, h'⟩ := State.tryReady_eq (s := s.afterQuiet awaiting waits mb) (.inl hr)
    exact ⟨_, hexec, h' ▸ s.tellsQuiet_afterQuiet awaiting waits mb s.bell sent inbox queue kept cnt,
      State.readiesOn_tryReady (s := s.afterQuiet awaiting waits mb) (.inr ⟨ho, hm, rfl⟩) parent⟩

end Sys2Proof.Machine
end

section
/-! PROOFS. The release: issued by the root, and on its way down the tree (R30, R41, R42, R45, R46, R252, R275, R279, R285,
Table 11-5). -/

namespace Sys2Proof.Machine

/-! ## Recess step 9 -/

theorem State.startCommit_eq (s : State) (type : Byte) (e : Effect) (a : After) :
    ∃ commits next, s.startCommit type e a = { s with nv := { s.nv with commits := commits, nextSequence := next } } := by
  unfold State.startCommit
  split
  · exact ⟨s.nv.commits, s.nv.nextSequence, rfl⟩
  · exact ⟨_, _, rfl⟩

/-- The state with other routing tables, record commits and mailboxes: what a ROUTE_SET may change. -/
def State.withRoutes (s : State) (slice : Byte) (role : BitVec 2) (epoch : BitVec 2) (routers : Tab Router)
    (commits : List Commit) (next : BitVec 64) (mb : Tab Mailbox) : State :=
  { s with
    rt := { s.rt with slice := slice, role := role, epoch := epoch, routers := routers }
    nv := { s.nv with commits := commits, nextSequence := next }
    mb := mb }

theorem State.modRouters_eq (s : State) (l : List Nat) (g : State → Nat → Router → Router) : ∃ routers,
    l.foldl (fun s k => s.modRouter k (g s k)) s = { s with rt := { s.rt with routers := routers } } := by
  induction l generalizing s with
  | nil => exact ⟨s.rt.routers, rfl⟩
  | cons k l ih =>
    obtain ⟨routers, h⟩ := ih (s.modRouter k (g s k))
    exact ⟨routers, by rw [List.foldl_cons, h]; rfl⟩

theorem State.routeSetNow_eq (s : State) (w : Waiting) (b : List Byte) :
    ∃ slice role epoch routers commits next mb,
      s.routeSetNow w b = s.withRoutes slice role epoch routers commits next mb := by
  unfold State.routeSetNow
  split
  · unfold State.loadRoutes
    obtain ⟨routers, h⟩ := s.modRouters_eq (List.range s.axes) fun s k r =>
      { r.load (bytesAt b (16 + 16 * k) 16) with linkmap := s.serveMap k (r.load (bytesAt b (16 + 16 * k) 16)).linkmap }
    dsimp only
    rw [h]
    obtain ⟨commits, next, h'⟩ := State.startCommit_eq _ _ _ _
    exact ⟨_, _, _, routers, commits, next, s.mb, h'⟩
  · obtain ⟨mb, h⟩ := s.answer_eq w stNotQuiet []
    exact ⟨s.rt.slice, s.rt.role, s.rt.epoch, s.rt.routers, s.nv.commits, s.nv.nextSequence, mb, h⟩

theorem State.routeSets_eq (s : State) (l : List (Waiting × List Byte)) : ∃ slice role epoch routers commits next mb,
    l.foldl (fun s e => s.routeSetNow e.1 e.2) s = s.withRoutes slice role epoch routers commits next mb := by
  induction l generalizing s with
  | nil => exact ⟨s.rt.slice, s.rt.role, s.rt.epoch, s.rt.routers, s.nv.commits, s.nv.nextSequence, s.mb, rfl⟩
  | cons e l ih =>
    obtain ⟨_, _, _, _, _, _, _, h⟩ := s.routeSetNow_eq e.1 e.2
    obtain ⟨slice, role, epoch, routers, commits, next, mb, h'⟩ := ih (s.routeSetNow e.1 e.2)
    exact ⟨slice, role, epoch, routers, commits, next, mb, by rw [List.foldl_cons, h', h]; rfl⟩

/-! ## A release goes down -/

/-- The part with a release, its bell and attempt in progress. -/
def State.withRelease (s : State) (r : Release) : State :=
  { s with bell := { s.bell with release := some r, relNumber := r.bell, relAttempt := r.attempt }
           rt := { s.rt with routeWaits := [] } }

/-- A release goes to every child; a ROUTE_SET that waits comes first. -/
theorem State.passRelease_eq (s : State) (r : Release) :
    ∃ slice role epoch routers commits next mb sent inbox queue kept cnt,
      s.passRelease r = ((s.withRelease r).withRoutes slice role epoch routers commits next mb).withSent sent inbox
        queue kept cnt ∧
      ∀ c ∈ s.children, ∃ k ∈ sent, k.kind = 9 ∧ k.dest = c ∧ payload16 k = releaseBytes r := by
  unfold State.passRelease State.routeStep
  obtain ⟨slice, role, epoch, routers, commits, next, mb, h⟩ :=
    State.routeSets_eq { s with rt := { s.rt with routeWaits := [] } } s.rt.routeWaits
  dsimp only
  rw [h]
  obtain ⟨sent, inbox, queue, kept, cnt, h', hto, -⟩ :=
    ((s.withRelease r).withRoutes slice role epoch routers commits next mb).sendChildren_eq 9 (releaseBytes r)
  exact ⟨slice, role, epoch, routers, commits, next, mb, sent, inbox, queue, kept, cnt, h', fun c hc =>
    ⟨_, hto c hc, rfl, rfl, State.payload16_bellPacket _ _ _ (length_releaseBytes _)⟩⟩

/-! ## RELEASE_ISSUE -/

/-- Nothing holds the root's release. -/
def State.MayRelease (s : State) (elapsed : Nat) (r : ReadyStatus) : Prop :=
  s.readyAll = some r ∧ r.complete = true ∧ s.bell.recessMin.toNat ≤ elapsed ∧
    s.bell.reverify = [] ∧ s.held = false ∧
    s.bell.widthsDue = [] ∧ s.lockstepAgrees = true ∧ (s.rt.drain = false ∨ r.quiet = true)

theorem State.reverify_of_not_held {s : State} (h : s.held = false) : s.bell.reverify = [] := by
  simp only [State.held, Bool.or_eq_false_iff] at h
  simpa using h.1

theorem exec_releaseIssue_of_ready {s : State} (elapsed : Nat) (hr : s.isRoot = true) (hs : s.inSession = true)
    (hp : s.bell.phase = .ready) (hn : s.bell.release = none) :
    (∀ r, s.MayRelease elapsed r → exec (.releaseIssue elapsed) s = .next (s.passRelease (s.nextRelease r.step))) ∧
    (∀ r, s.readyAll = some r → ¬s.MayRelease elapsed r → exec (.releaseIssue elapsed) s = .next s) ∧
    (s.readyAll = none → exec (.releaseIssue elapsed) s = .next s) := by
  have hexec : exec (.releaseIssue elapsed) s = .next (match s.readyAll with
      | some r => if r.complete && s.bell.recessMin.toNat ≤ elapsed && !s.held && s.lockstepAgrees &&
          s.bell.widthsDue.isEmpty && (!s.rt.drain || r.quiet) then s.issueRelease (s.nextRelease r.step) else s
      | none => s) := by
    simp only [exec, execReleaseIssue, hr, hs, hp, hn, Option.isNone_none, Bool.and_self, beq_self_eq_true, if_true]
    simp <;> rfl
  rw [hexec]
  refine ⟨fun r ⟨ha, hc, ht, _, hh, hw, hl, hd⟩ => ?_, fun r ha hno => ?_, fun ha => by rw [ha]⟩
  · rw [ha]
    simp only
    rw [if_pos, State.issueRelease]
    simpa [hc, ht, hh, hw, hl] using hd
  · rw [ha]
    simp only
    rw [if_neg]
    intro hgo
    simp only [Bool.and_eq_true, decide_eq_true_eq, Bool.not_eq_true', Bool.or_eq_true, List.isEmpty_iff] at hgo
    obtain ⟨⟨⟨⟨⟨hc, ht⟩, hh⟩, hl⟩, hw⟩, hd⟩ := hgo
    exact hno ⟨ha, hc, ht, State.reverify_of_not_held hh, hh, hw, hl, hd⟩

theorem exec_releaseIssue_of_not_root {s : State} (elapsed : Nat) (hr : s.isRoot = false) :
    exec (.releaseIssue elapsed) s = .next s := by
  simp [exec, execReleaseIssue, hr]

/-- The release after a verdict: the next bell after a clean one, the next attempt of the same bell after a dirty one. -/
theorem State.nextRelease_spec (s : State) (step : BitVec 3) :
    (s.nextRelease step).step = step ∧ (s.nextRelease step).index = BitVec.ofNat 32 s.bell.index ∧
    (s.nextRelease step).targetNs = s.bell.targetNs + (if step = s.pw.step then 0 else 4000) ∧
    (s.bell.lastDirty = false → (s.nextRelease step).bell = s.bell.number + 1 ∧ (s.nextRelease step).attempt = 0) ∧
    (s.bell.lastDirty = true → (s.nextRelease step).bell = s.bell.number ∧
      (s.nextRelease step).attempt = s.bell.attempt + 1) := by
  unfold State.nextRelease
  cases h : s.bell.lastDirty <;> simp [State.makeRelease]

/-! ## BELL_RELEASE -/

/-- A release that the part takes from its parent. -/
def State.TakesRelease (s : State) (p : Packet) : Prop :=
  p.kind = 9 ∧ s.inSession = true ∧ s.parentOf s.rc.address = some p.source ∧ s.bell.release = none ∧
    (s.bell.phase = .ready ∨ s.bell.phase = .recess ∨ s.bell.phase = .idle) ∧
    s.holdsRelease (releaseFrom (payload16 p)) = false

theorem State.passRelease_isMember (s : State) (r : Release) : (s.passRelease r).isMember = s.isMember := by
  obtain ⟨_, _, _, _, _, _, _, _, _, _, _, _, h, -⟩ := s.passRelease_eq r
  rw [h]; rfl

theorem exec_bellRelease_of_taken {s : State} {p : Packet} (hk : s.TakesRelease p) :
    (s.isMember = true → exec (.bellRelease p) s = .next (s.passRelease (releaseFrom (payload16 p)))) ∧
    (s.isMember = false → exec (.bellRelease p) s =
      .next ((s.passRelease (releaseFrom (payload16 p))).relayRelease (releaseFrom (payload16 p)))) := by
  simp only [exec, execBellRelease]
  rw [if_pos (by simpa [State.TakesRelease, and_assoc, or_assoc] using hk), State.passRelease_isMember]
  exact ⟨fun hm => by rw [if_pos hm], fun hm => by rw [hm]; rfl⟩

theorem exec_bellRelease_of_dropped {s : State} {p : Packet} (hk : ¬s.TakesRelease p) :
    exec (.bellRelease p) s = .next s := by
  simp only [exec, execBellRelease]
  rw [if_neg (by simpa [State.TakesRelease, and_assoc, or_assoc] using hk)]

/-! ## The settlement -/

/-- Settles O29: the root's release by what holds it, a release that arrives by the part that takes it. -/
theorem releaseTravels : Obligations.ReleaseTravels := by
  unfold Obligations.ReleaseTravels
  refine ⟨fun s elapsed r hr hs hp hn => ⟨fun hgo => ?issues, fun h => ?holds⟩,
    fun s elapsed hr => exec_releaseIssue_of_not_root elapsed hr,
    fun s p => ⟨fun hk => ?taken, fun hk => exec_bellRelease_of_dropped hk⟩⟩
  case issues =>
    obtain ⟨hstep, hindex, htarget, hclean, hdirty⟩ := s.nextRelease_spec r.step
    obtain ⟨_, _, _, _, _, _, _, _, _, _, _, _, hpass, hto⟩ := s.passRelease_eq (s.nextRelease r.step)
    refine ⟨_, s.nextRelease r.step, (exec_releaseIssue_of_ready elapsed hr hs hp hn).1 r hgo, ?_⟩
    rw [hpass]
    exact ⟨State.keeps_of_mem_tiles rfl rfl, rfl, hstep, hindex, by rw [htarget], hclean, hdirty, rfl, rfl, hto⟩
  case holds =>
    obtain ⟨-, hno, hnone⟩ := exec_releaseIssue_of_ready elapsed hr hs hp hn
    rcases h with h | ⟨ha, h⟩
    · exact hnone h
    · exact hno r ha h
  case taken =>
    obtain ⟨_, _, _, _, _, _, _, sent, _, _, _, _, hpass, hto⟩ := s.passRelease_eq (releaseFrom (payload16 p))
    obtain ⟨hmember, hrelay⟩ := exec_bellRelease_of_taken hk
    cases hm : s.isMember with
    | true =>
      refine ⟨_, hmember hm, ?_⟩
      rw [hpass]
      exact ⟨State.keeps_of_mem_tiles rfl rfl, hto, rfl, rfl, fun _ => ⟨rfl, rfl⟩, nofun⟩
    | false =>
      refine ⟨_, hrelay hm, ?_⟩
      rw [hpass, State.relayRelease]
      obtain ⟨_, _, _, hundrain⟩ := State.undrain_eq _
      rw [hundrain]
      refine ⟨State.keeps_of_mem_tiles rfl rfl, fun c hc => ?_, rfl, rfl, nofun,
        fun _ => ⟨rfl, rfl, rfl, rfl, rfl, rfl⟩⟩
      obtain ⟨k, hk, hkind, hdest, hpay⟩ := hto c hc
      exact ⟨k, List.mem_filter.2 ⟨hk, beq_iff_eq.2 hkind⟩, hkind, hdest, hpay⟩

end Sys2Proof.Machine
end

section
/-! PROOFS. What a release starts on the tiles, the slices, the groups and the regions of a member (R30, R35, R41, R79,
R102, R114, R130, R220, R449, R514). -/

namespace Sys2Proof.Machine

/-! ## Work that leaves the lesson alone -/

/-- The tile apart from its counters and whether its clock stands. -/
def Tile.uncounted (x : Tile) : Tile := { x with counters := [], totals := [], isle := { x.isle with stopped := false } }

/-- Memory, regions, fences and image, the step in force, the breakpoints, and of every tile all but its counters and
its clock are as before. -/
structure State.SameLesson (s s' : State) : Prop where
  mem : s'.mem = s.mem
  cq : s'.cq = s.cq
  fences : s'.ts.fences = s.ts.fences
  image : s'.job.image = s.job.image
  step : s'.pw.step = s.pw.step
  tripped : s'.pw.tripped = s.pw.tripped
  debugMode : s'.dg.debugMode = s.dg.debugMode
  breakpoints : s'.dg.breakpoints = s.dg.breakpoints
  tile : ∀ u, (s'.tile u).uncounted = (s.tile u).uncounted

theorem State.SameLesson.refl (s : State) : s.SameLesson s := ⟨rfl, rfl, rfl, rfl, rfl, rfl, rfl, rfl, fun _ => rfl⟩

theorem State.SameLesson.trans {s t u : State} (h : s.SameLesson t) (h' : t.SameLesson u) : s.SameLesson u :=
  ⟨h'.mem.trans h.mem, h'.cq.trans h.cq, h'.fences.trans h.fences, h'.image.trans h.image, h'.step.trans h.step,
    h'.tripped.trans h.tripped, h'.debugMode.trans h.debugMode, h'.breakpoints.trans h.breakpoints,
    fun k => (h'.tile k).trans (h.tile k)⟩

theorem State.sameLesson_holdLimit (s : State) : s.SameLesson s.holdLimit := by
  unfold State.holdLimit
  split
  · exact .refl s
  · dsimp only
    obtain ⟨_, h⟩ := State.answerAll_eq _ s.pw.limitWaits _ _
    rw [h]
    exact ⟨rfl, rfl, rfl, rfl, rfl, rfl, rfl, rfl, fun _ => rfl⟩

theorem State.sameLesson_holdStep (s : State) : s.SameLesson s.holdStep := by
  unfold State.holdStep
  dsimp only
  obtain ⟨_, h⟩ := State.answerAll_eq _ s.pw.stepWaits _ _
  rw [h]
  exact ⟨rfl, rfl, rfl, rfl, rfl, rfl, rfl, rfl, fun _ => rfl⟩

theorem State.sameLesson_releaseFabric (s : State) : s.SameLesson s.releaseFabric := by
  unfold State.releaseFabric
  dsimp only
  obtain ⟨_, _, _, h⟩ := State.undrain_eq _
  rw [h]
  exact ⟨rfl, rfl, rfl, rfl, rfl, rfl, rfl, rfl, fun _ => rfl⟩

theorem State.sameJob_releaseFabric (s : State) : s.SameJob s.releaseFabric := by
  unfold State.releaseFabric
  dsimp only
  obtain ⟨_, _, _, h⟩ := State.undrain_eq _
  rw [h]
  exact ⟨rfl, rfl, rfl, List.prefix_rfl, rfl⟩

/-- A change of what is counted, or of whether the clock stands, on every tile. -/
theorem tabGet_tabMap_uncounted {f : Nat → Tile → Tile} (hf : ∀ k x, (f k x).uncounted = x.uncounted) (t : Tab Tile)
    (u : Nat) : (tabGet .reset (tabMap f t) u).uncounted = (tabGet .reset t u).uncounted :=
  tabGet_tabMap_of .reset f Tile.uncounted hf t u

theorem State.sameLesson_applyCounters (s : State) (b : List Byte) : s.SameLesson (s.applyCounters b) := by
  unfold State.applyCounters
  dsimp only
  split
  · refine ⟨rfl, rfl, rfl, rfl, rfl, rfl, rfl, rfl, fun u => ?_⟩
    unfold State.tile
    dsimp only
    split
    · refine tabGet_tabMap_uncounted ?_ s.tiles u
      exact fun _ _ => rfl
    · rfl
  · exact ⟨rfl, rfl, rfl, rfl, rfl, rfl, rfl, rfl, fun _ => rfl⟩

theorem State.sameLesson_answer (s : State) (w : Waiting) (st : BitVec 16) (b : List Byte) :
    s.SameLesson (s.answer w st b) := by
  obtain ⟨_, h⟩ := s.answer_eq w st b
  rw [h]
  exact ⟨rfl, rfl, rfl, rfl, rfl, rfl, rfl, rfl, fun _ => rfl⟩

theorem State.SameLesson.foldl {β : Type} {f : State → β → State} (h : ∀ (s : State) (b : β), s.SameLesson (f s b))
    (l : List β) (s : State) : s.SameLesson (l.foldl f s) := by
  induction l generalizing s with
  | nil => exact .refl s
  | cons b l ih => exact (h s b).trans (ih (f s b))

theorem State.sameLesson_countersDue (s : State) : s.SameLesson s.countersDue := by
  unfold State.countersDue
  dsimp only
  refine .trans (t := { s with dg := { s.dg with cntWaits := [] } })
    ⟨rfl, rfl, rfl, rfl, rfl, rfl, rfl, rfl, fun _ => rfl⟩ ?_
  exact
    .foldl (fun s (e : Waiting × List Byte) => (s.sameLesson_applyCounters e.2).trans (State.sameLesson_answer _ _ _ _)) _ _

theorem State.probe_eq (s : State) (signal index : Nat) : ∃ out, s.probe signal index = { s with out := s.out ++ out } := by
  unfold State.probe
  split
  · generalize (pick 16 fun p => (tabGet 0 s.dg.probes p).toNat == 4096 * signal + index) = l
    induction l generalizing s with
    | nil => exact ⟨[], by rw [List.append_nil]; rfl⟩
    | cons p l ih =>
      obtain ⟨out, h⟩ := ih (s.emit (.probe p)) ‹_›
      exact ⟨.probe p :: out, by rw [List.foldl_cons, h, State.emit, List.append_assoc]; rfl⟩
  · exact ⟨[], by rw [List.append_nil]⟩

theorem State.sameLesson_probe (s : State) (signal index : Nat) : s.SameLesson (s.probe signal index) := by
  obtain ⟨_, h⟩ := s.probe_eq signal index
  rw [h]
  exact ⟨rfl, rfl, rfl, rfl, rfl, rfl, rfl, rfl, fun _ => rfl⟩

theorem State.sameJob_probe (s : State) (signal index : Nat) : s.SameJob (s.probe signal index) := by
  obtain ⟨out, h⟩ := s.probe_eq signal index
  rw [h]
  exact ⟨rfl, rfl, rfl, List.prefix_append _ _, rfl⟩

/-- The release shows on the probe pins only. -/
theorem State.releaseProbes_leaves (s : State) : s.SameLesson s.releaseProbes ∧ s.SameJob s.releaseProbes := by
  unfold State.releaseProbes
  dsimp only
  split_ifs
  · exact ⟨.foldl (fun s id => s.sameLesson_probe _ _) _ _, .foldl (fun s id => s.sameJob_probe _ _) _ _⟩
  · exact ⟨.refl s, .refl s⟩
  · exact ⟨.refl s, .refl s⟩

theorem State.sameLesson_answerJob (s : State) (st : BitVec 16) (b : List Byte) : s.SameLesson (s.answerJob st b) := by
  unfold State.answerJob
  dsimp only
  obtain ⟨_, h⟩ := State.answerAll_eq _ s.job.waits st b
  rw [h]
  exact ⟨rfl, rfl, rfl, rfl, rfl, rfl, rfl, rfl, fun _ => rfl⟩

/-! ## The tiles at a release -/

theorem Tile.staleEntries_eq (x : Tile) :
    x.staleEntries = (x.hinge.filter fun h => h.status == .held || h.status == .flight).length := by
  unfold Tile.staleEntries
  congr 2
  funext h
  cases h.status <;> rfl

theorem State.releaseTile_of_fenced {s : State} {t : Nat} (h : s.fenced t = true) (bell : BitVec 40)
    (before : Nat → Island) : s.releaseTile bell before t = s := by
  rw [State.releaseTile, if_pos h]

/-- A tile that is not fenced takes the release, and the counters of its discards. -/
theorem State.releaseTile_of_not_fenced {s : State} {t : Nat} (h : s.fenced t = false) (bell : BitVec 40)
    (before : Nat → Island) : ∃ tiles c, s.releaseTile bell before t = { s with tiles := tiles } ∧
      (s.releaseTile bell before t).tile t = ((s.tile t).release bell true (before t)).counting c ∧
      ∀ u, u ≠ t → (s.releaseTile bell before t).tile u = s.tile u := by
  unfold State.releaseTile
  rw [h, if_neg (by decide)]
  dsimp only
  split
  · exact ⟨_, _, rfl, State.modTile_tile_same _ _ _, fun u hu => State.modTile_tile_other _ _ hu⟩
  · obtain ⟨tiles, heq⟩ := State.countTile_eq
      (s.modTile t fun x => x.release bell true (before t)) t 0x000D (s.tile t).staleEntries
    obtain ⟨⟨c, hown⟩, hother⟩ := State.countTile_tile
      (s.modTile t fun x => x.release bell true (before t)) t 0x000D (s.tile t).staleEntries
    refine ⟨tiles, c, heq, ?_, fun u hu => ?_⟩
    · rw [hown, State.modTile_tile_same]
    · rw [hother u hu, State.modTile_tile_other _ _ hu]

/-- The release of several tiles: each that is not fenced takes it, the others stay. -/
theorem State.releaseTiles_spec (s : State) (bell : BitVec 40) (before : Nat → Island) (l : List Nat) (hl : l.Nodup) :
    ∃ tiles, l.foldl (fun s t => s.releaseTile bell before t) s = { s with tiles := tiles } ∧
      ∀ u, (u ∉ l ∨ s.fenced u = true → tabGet .reset tiles u = s.tile u) ∧
        (u ∈ l → s.fenced u = false →
          ∃ c, tabGet .reset tiles u = ((s.tile u).release bell true (before u)).counting c) := by
  induction l generalizing s with
  | nil => exact ⟨s.tiles, rfl, fun u => ⟨fun _ => rfl, nofun⟩⟩
  | cons t l ih =>
    obtain ⟨htl, hl⟩ := List.nodup_cons.1 hl
    obtain ⟨tiles, htail, hspec⟩ := ih (s.releaseTile bell before t) hl
    cases hf : s.fenced t with
    | true =>
      rw [State.releaseTile_of_fenced hf] at htail hspec
      refine ⟨tiles, by rw [List.foldl_cons, State.releaseTile_of_fenced hf]; exact htail,
        fun u => ⟨fun h => ?_, fun h hu => ?_⟩⟩
      · exact (hspec u).1 (h.imp_left fun hn hm => hn (List.mem_cons_of_mem _ hm))
      · refine (hspec u).2 ((List.mem_cons.1 h).resolve_left ?_) hu
        rintro rfl
        rw [hf] at hu
        exact absurd hu (by decide)
    | false =>
      obtain ⟨tiles', c, heq, hown, hother⟩ := State.releaseTile_of_not_fenced hf bell before
      have hfence : ∀ u, (s.releaseTile bell before t).fenced u = s.fenced u := fun u => by rw [heq]; rfl
      refine ⟨tiles, by rw [List.foldl_cons, htail, heq], fun u => ⟨fun h => ?_, fun h hu => ?_⟩⟩
      · have hut : u ≠ t := by
          rintro rfl
          rcases h with h | h
          · exact h List.mem_cons_self
          · rw [hf] at h; exact absurd h (by decide)
        rw [(hspec u).1 (h.imp (fun hn hm => hn (List.mem_cons_of_mem _ hm)) fun h => (hfence u).trans h), hother u hut]
      · by_cases hut : u = t
        · subst hut
          rw [(hspec u).1 (.inl htl)]
          exact ⟨c, hown⟩
        · obtain ⟨c', hc'⟩ := (hspec u).2 ((List.mem_cons.1 h).resolve_left hut) ((hfence u).trans hu)
          exact ⟨c', by rw [hc', hother u hut]⟩

/-! ## The islands, slices and regions at a release -/

theorem State.releaseIsles_tile (s : State) (bell : BitVec 40) (old : State) (u : Nat) :
    (s.fenced u = true → (s.releaseIsles bell old).tile u = s.tile u) ∧
    (u < 1024 → s.fenced u = false → ∃ before c,
      (s.releaseIsles bell old).tile u = ((s.tile u).release bell true before).counting c) := by
  obtain ⟨tiles, heq, hspec⟩ := s.releaseTiles_spec bell (fun t => old.stamped (old.tileIsle t)) (List.range 1024)
    List.nodup_range
  have htile : (s.releaseIsles bell old).tile u = tabGet .reset tiles u := by
    unfold State.releaseIsles
    rw [heq]
    rfl
  rw [htile]
  refine ⟨fun h => (hspec u).1 (.inr h), fun h hf => ?_⟩
  obtain ⟨c, hc⟩ := (hspec u).2 (List.mem_range.2 h) hf
  exact ⟨_, c, hc⟩

/-- What the release of the islands leaves, beside the tiles. -/
theorem State.releaseIsles_eq (s : State) (bell : BitVec 40) (old : State) : ∃ tiles, s.releaseIsles bell old =
    { s with
      tiles := tiles
      ts := { s.ts with now := s.ts.now.release bell, before := old.epochBefore }
      mem := { s.mem with slices := [], instances := [] }
      cq := { s.cq with
        table := tabMap (fun _ r => r.release) s.cq.table, pieces := s.cq.pieces.filter fun p => p.arrival.isNone } } := by
  obtain ⟨tiles, heq, -⟩ := s.releaseTiles_spec bell (fun t => old.stamped (old.tileIsle t)) (List.range 1024)
    List.nodup_range
  refine ⟨tiles, ?_⟩
  unfold State.releaseIsles
  rw [heq]

theorem State.releaseIsles_region (s : State) (bell : BitVec 40) (old : State) (n : Nat) :
    (s.releaseIsles bell old).region n = (s.region n).release := by
  obtain ⟨_, h⟩ := s.releaseIsles_eq bell old
  rw [h]
  exact tabGet_tabMap .reset (fun _ r => r.release) s.cq.table n rfl

/-! ## A breakpoint on the bell -/

/-- In debug mode a breakpoint names this bell. -/
def State.BreaksAt (s : State) (bell : BitVec 40) : Prop :=
  s.dg.debugMode = true ∧ ∃ b ∈ s.dg.breakpoints, b.kind = 0 ∧ b.value = bell.setWidth 64

/-- The report of a breakpoint that names the bell. -/
def State.breakReport (s : State) : Debug :=
  { s.dg with
    breakpoints := s.dg.breakpoints.filter fun b => !(b.kind == 0 && b.value == s.bell.number.setWidth 64)
    stopped := true, hazard := false, stopTile := 0, stopCode := 0, stopKind := 0, stopCycle := 0
    stopBell := s.bell.number, stopAttempt := s.bell.attempt, stopTag := 0, stopDetail := 0, stopAddr := 0 }

theorem State.bellBreak_eq (s : State) [Decidable (s.BreaksAt s.bell.number)] : s.bellBreak =
    if s.BreaksAt s.bell.number then
      (State.cause { s with dg := s.breakReport, bell := { s.bell with withheld := true } } cClockStop 0 0 0 3).stopClocks
    else s := by
  have hiff : s.BreaksAt s.bell.number ↔ (s.dg.debugMode &&
      s.dg.breakpoints.any fun b => b.kind == 0 && b.value == s.bell.number.setWidth 64) = true := by
    simp [State.BreaksAt]
  simp only [hiff]
  rfl

/-- A breakpoint stops the clocks and marks the lesson CLOCKSTOP. -/
theorem State.bellBreak_of_hit {s : State} (h : s.BreaksAt s.bell.number) (hopen : s.causeOpen = true) :
    s.bellBreak.dg.stopped = true ∧ ∃ first, s.bellBreak.bell = { s.bell with
      withheld := true, lessonCauses := s.bell.lessonCauses ||| 128, lessonFirst := first } := by
  classical
  have hopen' : State.causeOpen { s with dg := s.breakReport, bell := { s.bell with withheld := true } } = true := hopen
  rw [s.bellBreak_eq, if_pos h, State.cause, if_pos hopen']
  exact ⟨rfl, _, rfl⟩

theorem State.bellBreak_of_none {s : State} (h : ¬s.BreaksAt s.bell.number) : s.bellBreak = s := by
  classical
  rw [s.bellBreak_eq, if_neg h]

/-- Of the bell block a breakpoint changes the lesson's causes and the mark that withholds them. -/
theorem State.bellBreak_bell (s : State) :
    s.bellBreak.bell.number = s.bell.number ∧ s.bellBreak.bell.attempt = s.bell.attempt ∧
    s.bellBreak.bell.phase = s.bell.phase ∧ s.bellBreak.bell.index = s.bell.index ∧
    s.bellBreak.bell.lessonLength = s.bell.lessonLength ∧ s.bellBreak.bell.stretchBudget = s.bell.stretchBudget ∧
    s.bellBreak.bell.gathered = s.bell.gathered ∧ s.bellBreak.bell.release = s.bell.release := by
  classical
  rw [s.bellBreak_eq, State.cause]
  split_ifs <;> exact ⟨rfl, rfl, rfl, rfl, rfl, rfl, rfl, rfl⟩

/-! ## The release moment -/

/-- The part as a release finds it, its last attempt over. -/
def State.beginRelease (s : State) (r : Release) : State :=
  { s with
    pw := { s.pw with step := r.step, tripped := false, powerTrip := false }
    dg := { s.dg with stopped := false, terms := [], ownSlice := none, partnerSlice := none
                      partnerMembers := [], ownDigests := [] } }

/-- The release of bell 0 completes JOB_START. -/
def State.answerStart (s : State) : State :=
  if s.job.order != 0x8015 then s
  else if s.job.stop.isNone then s.answerJob stOk []
  else { s with job := { s.job with order := 0, awaiting := [], results := [] } }

theorem State.answerStart_leaves (s : State) : s.SameLesson s.answerStart ∧ s.SameJob s.answerStart := by
  unfold State.answerStart
  split_ifs
  · exact ⟨.refl s, .refl s⟩
  · exact ⟨s.sameLesson_answerJob _ _, s.sameJob_answerJob _ _⟩
  · exact ⟨⟨rfl, rfl, rfl, rfl, rfl, rfl, rfl, rfl, fun _ => rfl⟩, ⟨rfl, rfl, rfl, List.prefix_rfl, rfl⟩⟩

/-- The part before the clocks run: the bell block and the islands have taken the release. -/
def State.readied (s : State) (r : Release) : State :=
  (((s.beginRelease r).holdLimit.holdStep).releaseBell r).releaseIsles r.bell s

/-- The part with every command of the release moment done, but for a breakpoint. -/
def State.released (s : State) (r : Release) : State :=
  (s.readied r).releaseFabric.countersDue.releaseProbes.answerStart

theorem exec_tileRelease_of_release {s : State} {r : Release} (hr : s.bell.release = some r) (hs : s.inSession = true)
    (hm : s.isMember = true) : exec .tileRelease s =
      .next (s.released r).bellBreak := by
  have hrun : (s.inSession && s.isMember) = true := by rw [hs, hm]; rfl
  have hexec : exec .tileRelease s = execTileRelease s := rfl
  rw [hexec]
  unfold execTileRelease
  rw [hr]
  dsimp only
  rw [if_pos hrun]
  unfold State.released State.readied State.answerStart State.beginRelease
  congr 1

theorem exec_tileRelease_of_none {s : State} (h : s.bell.release = none ∨ s.inSession = false ∨ s.isMember = false) :
    exec .tileRelease s = .next s := by
  rcases h with h | h | h
  · simp [exec, execTileRelease, h]
  · cases hr : s.bell.release <;> simp [exec, execTileRelease, hr, h]
  · cases hr : s.bell.release <;> simp [exec, execTileRelease, hr, h]

/-! ## O30 -/

theorem State.released_leaves (s : State) (r : Release) :
    (s.readied r).SameLesson (s.released r) ∧ (s.readied r).SameJob (s.released r) := by
  obtain ⟨hprobe, hprobe'⟩ := (s.readied r).releaseFabric.countersDue.releaseProbes_leaves
  obtain ⟨hanswer, hanswer'⟩ := (s.readied r).releaseFabric.countersDue.releaseProbes.answerStart_leaves
  exact ⟨(((State.sameLesson_releaseFabric _).trans (State.sameLesson_countersDue _)).trans hprobe).trans hanswer,
    (((State.sameJob_releaseFabric _).trans (State.sameJob_countersDue _)).trans hprobe').trans hanswer'⟩

theorem State.holdLimit_holdStep_leaves (s : State) :
    s.SameLesson s.holdLimit.holdStep ∧ s.SameJob s.holdLimit.holdStep :=
  ⟨s.sameLesson_holdLimit.trans (State.sameLesson_holdStep _), s.sameJob_holdLimit.trans (State.sameJob_holdStep _)⟩

theorem State.stopClocks_tile_uncounted (s : State) (u : Nat) : (s.stopClocks.tile u).uncounted = (s.tile u).uncounted :=
  tabGet_tabMap_uncounted (f := fun _ x => { x with isle := { x.isle with stopped := true } }) (fun _ _ => rfl) s.tiles u

/-- A breakpoint changes the debug block, the bell block and which clocks stand. -/
theorem State.bellBreak_leaves (s : State) : s.bellBreak.mem = s.mem ∧ s.bellBreak.cq = s.cq ∧ s.bellBreak.pw = s.pw ∧
    ∀ u, (s.bellBreak.tile u).uncounted = (s.tile u).uncounted := by
  classical
  rw [s.bellBreak_eq]
  split_ifs
  · refine ⟨?_, ?_, ?_, fun u => (State.stopClocks_tile_uncounted _ u).trans ?_⟩
    all_goals
      unfold State.cause
      split_ifs <;> rfl
  · exact ⟨rfl, rfl, rfl, fun _ => rfl⟩

/-- The bell block at the end of the release moment, but for a breakpoint's marks. -/
theorem State.released_bell (s : State) (r : Release) :
    (s.released r).bell = ((s.beginRelease r).holdLimit.holdStep.releaseBell r).bell := by
  obtain ⟨_, h⟩ := State.releaseIsles_eq ((s.beginRelease r).holdLimit.holdStep.releaseBell r) r.bell s
  rw [(s.released_leaves r).2.bell, State.readied, h]

theorem Tile.eq_of_uncounted {x y : Tile} (h : y.uncounted = x.uncounted) :
    ∃ c n b, y = { x with counters := c, totals := n, isle := { x.isle with stopped := b } } := by
  refine ⟨y.counters, y.totals, y.isle.stopped, ?_⟩
  calc y = { y.uncounted with counters := y.counters, totals := y.totals
                              isle := { y.uncounted.isle with stopped := y.isle.stopped } } := rfl
    _ = _ := by rw [h]; rfl

/-- What the release moment leaves of a tile: a fenced one as it was, every other started anew. -/
theorem State.readied_tile (s : State) (r : Release) (u : Nat) :
    (s.fenced u = true → ((s.readied r).tile u).uncounted = (s.tile u).uncounted) ∧
    (u < 1024 → s.fenced u = false → ∃ (x : Tile) (before : Island), x.uncounted = (s.tile u).uncounted ∧
      ((s.readied r).tile u).uncounted = (x.release r.bell true before).uncounted) := by
  obtain ⟨hbegin, -⟩ := (s.beginRelease r).holdLimit_holdStep_leaves
  have hfence : ((s.beginRelease r).holdLimit.holdStep.releaseBell r).fenced u = s.fenced u := by
    show (tabGet _ ((s.beginRelease r).holdLimit.holdStep).ts.fences u != 0) = _
    rw [hbegin.fences]
    rfl
  obtain ⟨hstays, hstarts⟩ :=
    State.releaseIsles_tile ((s.beginRelease r).holdLimit.holdStep.releaseBell r) r.bell s u
  refine ⟨fun h => ?_, fun hu h => ?_⟩
  · rw [State.readied, hstays (hfence.trans h)]
    exact hbegin.tile u
  · obtain ⟨before, c, hstart⟩ := hstarts hu (hfence.trans h)
    refine ⟨_, before, hbegin.tile u, ?_⟩
    rw [State.readied, hstart]
    rfl

/-- What is left when a release starts the lesson, beside the bell block. -/
theorem State.released_region (s : State) (r : Release) (n : Nat) :
    (s.released r).region n = (s.region n).release := by
  obtain ⟨hbegin, -⟩ := (s.beginRelease r).holdLimit_holdStep_leaves
  have hcq : ((s.beginRelease r).holdLimit.holdStep.releaseBell r).region n = s.region n := by
    show tabGet _ ((s.beginRelease r).holdLimit.holdStep).cq.table n = _
    rw [hbegin.cq]
    rfl
  calc (s.released r).region n = (s.readied r).region n := by
        unfold State.region; rw [(s.released_leaves r).1.cq]
    _ = (s.region n).release := by rw [State.readied, State.releaseIsles_region, hcq]

/-- What of memory, the step and the breakpoints the release moment leaves. -/
theorem State.released_rest (s : State) (r : Release) :
    (s.released r).mem = { s.mem with slices := [], instances := [] } ∧ (s.released r).pw.step = r.step ∧
    (s.released r).pw.tripped = false ∧ ∀ b, (s.released r).BreaksAt b ↔ s.BreaksAt b := by
  obtain ⟨hlesson, -⟩ := s.released_leaves r
  obtain ⟨hbegin, -⟩ := (s.beginRelease r).holdLimit_holdStep_leaves
  obtain ⟨_, hisles⟩ := State.releaseIsles_eq ((s.beginRelease r).holdLimit.holdStep.releaseBell r) r.bell s
  have hmem : (s.readied r).mem = { (s.beginRelease r).holdLimit.holdStep.mem with slices := [], instances := [] } := by
    rw [State.readied, hisles]; rfl
  have hpw : (s.readied r).pw = (s.beginRelease r).holdLimit.holdStep.pw := by rw [State.readied, hisles]; rfl
  have hdg : (s.readied r).dg = (s.beginRelease r).holdLimit.holdStep.dg := by rw [State.readied, hisles]; rfl
  refine ⟨?_, ?_, ?_, fun b => ?_⟩
  · rw [hlesson.mem, hmem, hbegin.mem]; rfl
  · rw [hlesson.step, hpw, hbegin.step]; rfl
  · rw [hlesson.tripped, hpw, hbegin.tripped]; rfl
  · unfold State.BreaksAt
    rw [hlesson.debugMode, hlesson.breakpoints, hdg, hbegin.debugMode, hbegin.breakpoints]
    rfl

theorem State.released_lesson (s : State) (r : Release) :
    (s.released r).bell.number = r.bell ∧ (s.released r).bell.attempt = r.attempt ∧
    (s.released r).bell.phase = .lesson ∧ (s.released r).bell.index = r.index.toNat ∧
    (s.released r).bell.lessonCauses = 0 ∧ (s.released r).bell.gathered = false ∧ (s.released r).bell.release = none ∧
    ∀ im, s.job.image = some im → (s.released r).bell.lessonLength = lessonLength im r.index.toNat ∧
      (s.released r).bell.stretchBudget = lessonStretch im r.index.toNat := by
  rw [s.released_bell]
  refine ⟨rfl, rfl, rfl, rfl, rfl, rfl, rfl, fun im him => ?_⟩
  have himage : (s.beginRelease r).holdLimit.holdStep.job.image = some im :=
    (s.beginRelease r).holdLimit_holdStep_leaves.1.image.trans him
  unfold State.releaseBell
  rw [himage]
  exact ⟨rfl, rfl⟩

/-- A breakpoint gives the lesson that the release starts the cause CLOCKSTOP. -/
theorem State.released_bellBreak (s : State) (r : Release) :
    (¬s.BreaksAt r.bell → (s.released r).bellBreak.bell.lessonCauses = 0) ∧
    (s.BreaksAt r.bell → (s.released r).bellBreak.bell.lessonCauses = 128 ∧
      (s.released r).bellBreak.dg.stopped = true) := by
  obtain ⟨hnumber, -, hphase, -, hcauses, hgathered, -, -⟩ := s.released_lesson r
  obtain ⟨-, -, -, hbreaks⟩ := s.released_rest r
  refine ⟨fun h => ?_, fun h => ?_⟩
  · rw [State.bellBreak_of_none, hcauses]
    rwa [hbreaks, hnumber]
  · have hopen : (s.released r).causeOpen = true := by rw [State.causeOpen, hphase, hgathered]; rfl
    obtain ⟨hstopped, first, hbell⟩ := State.bellBreak_of_hit ((hbreaks _).2 (hnumber ▸ h)) hopen
    rw [hbell, hcauses]
    exact ⟨rfl, hstopped⟩

/-- What a started tile is like, whatever its counters and its clock. -/
theorem Tile.started_of_uncounted {x x' y : Tile} {bell : BitVec 40} {before : Island} (hx : x'.uncounted = x.uncounted)
    (hy : y.uncounted = (x'.release bell true before).uncounted) :
    y.s = [] ∧ y.a = [] ∧ y.v = [] ∧ y.m = [] ∧ y.acc = [] ∧ y.flags = 0 ∧ y.buf = [] ∧ y.cells = [] ∧
      y.pend = [] ∧ y.hinge = [] ∧ y.mx = [] ∧ y.streams = [] ∧ y.loops = [] ∧ y.pc = 0 ∧ y.isle.count = 0 ∧
      y.isle.bell = bell ∧ y.ended = false ∧ y.ib = x.ib ∧ y.ibValid = x.ibValid ∧ y.active = x.active ∧
      y.discards = x.discards + (x.hinge.filter fun h => h.status == .held || h.status == .flight).length := by
  obtain ⟨_, _, _, rfl⟩ := Tile.eq_of_uncounted hx
  obtain ⟨_, _, _, rfl⟩ := Tile.eq_of_uncounted hy
  rw [← x.staleEntries_eq]
  exact ⟨rfl, rfl, rfl, rfl, rfl, rfl, rfl, rfl, rfl, rfl, rfl, rfl, rfl, rfl, rfl, rfl, rfl, rfl, rfl, rfl, rfl⟩

theorem Tile.regs_of_uncounted {x y : Tile} (h : y.uncounted = x.uncounted) : y.regs = x.regs :=
  by obtain ⟨_, _, _, rfl⟩ := Tile.eq_of_uncounted h; rfl

/-- Settles O30, through what each command of the release moment leaves of the lesson and of the bell. -/
theorem releaseStartsLesson : Obligations.ReleaseStartsLesson := by
  unfold Obligations.ReleaseStartsLesson
  refine fun s => ⟨fun r hr hs hm => ?_, exec_tileRelease_of_none⟩
  intro breaks
  obtain ⟨hmem, hstep, htripped, -⟩ := s.released_rest r
  obtain ⟨hnumber, hattempt, hphase, hindex, hcauses, hgathered, hrelease, himage⟩ := s.released_lesson r
  obtain ⟨hquiet, hbreaks⟩ := s.released_bellBreak r
  obtain ⟨hmem', hcq', hpw', htile'⟩ := (s.released r).bellBreak_leaves
  have htile : ∀ u, ((s.released r).bellBreak.tile u).uncounted = ((s.readied r).tile u).uncounted := fun u =>
    (htile' u).trans ((s.released_leaves r).1.tile u)
  have hregion : ∀ n, (s.released r).bellBreak.region n = (s.region n).release := fun n => by
    rw [← s.released_region r n, State.region, State.region, hcq']
  obtain ⟨hnumber', hattempt', hphase', hindex', hlength', hstretch', hgathered', hrelease'⟩ :=
    (s.released r).bellBreak_bell
  refine ⟨_, exec_tileRelease_of_release hr hs hm, ?_⟩
  refine ⟨fun a => ?_, by rw [hpw', hstep], by rw [hpw', htripped], by rw [hnumber', hnumber],
    by rw [hattempt', hattempt], by rw [hphase', hphase], by rw [hindex', hindex], fun im him => ?_, hquiet, hbreaks,
    by rw [hgathered', hgathered], by rw [hrelease', hrelease], fun t ht hf => ?_, fun t hf => ?_,
    by rw [hmem', hmem], by rw [hmem', hmem], fun n => ?_⟩
  · rw [hmem', hmem]; rfl
  · rw [hlength', hstretch']
    exact himage im him
  · obtain ⟨x, before, hx, hy⟩ := (s.readied_tile r t).2 ht hf
    exact Tile.started_of_uncounted hx ((htile t).trans hy)
  · exact Tile.regs_of_uncounted ((htile t).trans ((s.readied_tile r t).1 hf))
  · rw [hregion]
    exact ⟨rfl, rfl, rfl, rfl, rfl, rfl⟩

end Sys2Proof.Machine
end

section
/-! PROOFS. Arrival at a receiving hinge and release from it (R36, R48, R76 to R79, R95, R198). -/

namespace Sys2Proof.Machine

/-! ## What counts and reports change of a tile -/

/-- Memory is as before, and of every tile all but the counts of its island and its lesson counters. -/
def State.CountsOnly (s s' : State) : Prop :=
  s'.mem = s.mem ∧ ∀ u, ∃ i c, s'.tile u = ((s.tile u).onIsle i).counting c

theorem State.CountsOnly.of_tiles {s s' : State} (hmem : s'.mem = s.mem) (htiles : s'.tiles = s.tiles) :
    s.CountsOnly s' :=
  ⟨hmem, fun u => ⟨(s.tile u).isle, (s.tile u).counters, by unfold State.tile; rw [htiles]; rfl⟩⟩

theorem State.CountsOnly.trans {s t u : State} (h : s.CountsOnly t) (h' : t.CountsOnly u) : s.CountsOnly u := by
  refine ⟨h'.1.trans h.1, fun k => ?_⟩
  obtain ⟨i, c, hst⟩ := h.2 k
  obtain ⟨i', c', htu⟩ := h'.2 k
  exact ⟨i', c', by rw [htu, hst]; rfl⟩

theorem State.CountsOnly.keeps {s s' : State} (h : s.CountsOnly s') : s.keeps s' := by
  refine ⟨fun a => by rw [h.1], fun u => ?_⟩
  obtain ⟨i, c, hu⟩ := h.2 u
  rw [hu]
  rfl

theorem State.CountsOnly.hinge {s s' : State} (h : s.CountsOnly s') (u : Nat) :
    (s'.tile u).hinge = (s.tile u).hinge ∧ (s'.tile u).pend = (s.tile u).pend ∧
      (s'.tile u).discards = (s.tile u).discards := by
  obtain ⟨i, c, hu⟩ := h.2 u
  rw [hu]
  exact ⟨rfl, rfl, rfl⟩

theorem State.countsOnly_probe (s : State) (signal index : Nat) : s.CountsOnly (s.probe signal index) := by
  obtain ⟨_, h⟩ := s.probe_eq signal index
  exact .of_tiles (by rw [h]) (by rw [h])

theorem State.probe_bell (s : State) (signal index : Nat) : (s.probe signal index).bell = s.bell := by
  obtain ⟨_, h⟩ := s.probe_eq signal index
  rw [h]

theorem State.countsOnly_cause (s : State) (b c d u k : Nat) : s.CountsOnly (s.cause b c d u k) :=
  .of_tiles (s.cause_mem ..) (s.cause_tiles ..)

theorem State.countsOnly_countTile (s : State) (t ev n : Nat) : s.CountsOnly (s.countTile t ev n) := by
  refine ⟨s.countTile_mem t ev n, fun u => ?_⟩
  obtain ⟨⟨c, hown⟩, hother⟩ := s.countTile_tile t ev n
  by_cases hu : u = t
  · exact ⟨(s.tile u).isle, c, by rw [hu, hown]; rfl⟩
  · exact ⟨(s.tile u).isle, (s.tile u).counters, by rw [hother u hu]; rfl⟩

theorem State.countsOnly_hazard (s : State) (t c cy d a : Nat) : s.CountsOnly (s.hazard t c cy d a) := by
  refine ⟨?_, fun u => ?_⟩
  · obtain ⟨_, _, _, _, _, h⟩ := s.hazard_eq t c cy d a
    rw [h]
  · obtain ⟨i, h⟩ := s.hazard_tile t c cy d a u
    exact ⟨i, (s.tile u).counters, by rw [h]; rfl⟩

/-! ## Changes of a hinge -/

/-- A change of one tile that leaves its registers keeps every register and every byte. -/
theorem State.keeps_modTile (s : State) (t : Nat) {f : Tile → Tile} (hf : (f (s.tile t)).regs = (s.tile t).regs) :
    s.keeps (s.modTile t f) := by
  refine ⟨fun _ => rfl, fun u => ?_⟩
  by_cases hu : u = t
  · rw [hu, State.modTile_tile_same, hf]
  · rw [State.modTile_tile_other _ _ hu]

/-- A change of one tile's hinge and discards, and what is counted and reported of it. -/
theorem State.keeps_modTile_counted {s s' : State} {t : Nat} {f : Tile → Tile}
    (hf : (f (s.tile t)).regs = (s.tile t).regs) (h : (s.modTile t f).CountsOnly s') :
    s.keeps s' ∧ (s'.tile t).hinge = (f (s.tile t)).hinge ∧ (s'.tile t).discards = (f (s.tile t)).discards := by
  obtain ⟨hhinge, -, hdiscards⟩ := h.hinge t
  rw [State.modTile_tile_same] at hhinge hdiscards
  exact ⟨(s.keeps_modTile t hf).trans h.keeps, hhinge, hdiscards⟩

/-! ## Arrival -/

theorem State.tagNow_iff (s : State) (b : BitVec 8) (a : BitVec 4) :
    s.tagNow b a = true ↔ b = s.bell.number.setWidth 8 ∧ a = s.bell.attempt := by
  simp [State.tagNow, State.tagBell]

theorem exec_hingeEntryArrival_of_absent {s : State} {t : BitVec 10} {id : Nat}
    (h : (s.tile t.toNat).hinge.find? (fun g => g.id == id) = none) :
    exec (.hingeEntryArrival t id) s = .next s := by
  have hexec : exec (.hingeEntryArrival t id) s = execHingeEntryArrival t id s := rfl
  rw [hexec]
  unfold execHingeEntryArrival
  dsimp only
  rw [h]

/-- What an entry that is found does, by how much of its data has come. -/
theorem exec_hingeEntryArrival_of_found {s : State} {t : BitVec 10} {id : Nat} {h : HingeItem}
    (hfound : (s.tile t.toNat).hinge.find? (fun g => g.id == id) = some h) :
    (arrivedData (s.tile t.toNat) h = none → exec (.hingeEntryArrival t id) s = .next s) ∧
    (arrivedData (s.tile t.toNat) h = some none → exec (.hingeEntryArrival t id) s =
      .next (s.modTile t.toNat (·.modEntry id fun h => { h with status := .lost }))) ∧
    ∀ d, arrivedData (s.tile t.toNat) h = some (some d) →
      (s.tagNow h.tagBell h.tagAttempt = false → exec (.hingeEntryArrival t id) s =
        .next ((s.modTile t.toNat fun x => (x.dropEntry id).discard).countTile t.toNat 0x000D 1)) ∧
      (s.tagNow h.tagBell h.tagAttempt = true → h.due ≤ (s.tile t.toNat).isle.count →
        exec (.hingeEntryArrival t id) s = .next (s.modTile t.toNat fun x => (x.dropEntry id).discard)) ∧
      (s.tagNow h.tagBell h.tagAttempt = true → (s.tile t.toNat).isle.count < h.due →
        exec (.hingeEntryArrival t id) s = .next (s.entryArrives t.toNat h d)) := by
  have hexec : exec (.hingeEntryArrival t id) s = execHingeEntryArrival t id s := rfl
  rw [hexec]
  unfold execHingeEntryArrival
  dsimp only
  rw [hfound]
  refine ⟨fun hd => ?_, fun hd => ?_, fun d hd => ⟨fun ht => ?_, fun ht hc => ?_, fun ht hc => ?_⟩⟩
  · simp only [hd]
  · simp only [hd]
  · simp [hd, ht]
  · simp [hd, ht, hc]
  · simp [hd, ht, Nat.not_le.2 hc]

/-- An entry that has come with its data: dropped and counted, held, or lost and counted. -/
theorem exec_hingeEntryArrival_arrives {s : State} {t : BitVec 10} {id : Nat} {h : HingeItem} {d : Vec}
    (hfound : (s.tile t.toNat).hinge.find? (fun g => g.id == id) = some h)
    (hdata : arrivedData (s.tile t.toNat) h = some (some d)) :
    let x := s.tile t.toNat
    let c := x.isle.count
    let held := (x.hinge.filter fun g => g.status == .held && g.slot == h.slot && g.source == h.source).length
    let now := h.tagBell = s.bell.number.setWidth 8 ∧ h.tagAttempt = s.bell.attempt
    (¬now ∨ h.due ≤ c → ∃ s', exec (.hingeEntryArrival t id) s = .next s' ∧ s.keeps s' ∧
      (s'.tile t.toNat).hinge = x.hinge.filter (fun g => g.id != id) ∧
      (s'.tile t.toNat).discards = x.discards + 1) ∧
    (now → c < h.due → held < 16 → ∃ s', exec (.hingeEntryArrival t id) s = .next s' ∧ s.keeps s' ∧
      (s'.tile t.toNat).hinge = (x.hinge.map fun g =>
        if g.id == id then { g with data := d, status := .held } else g) ∧
      (s'.tile t.toNat).discards = x.discards) ∧
    (now → c < h.due → 16 ≤ held → ∃ s', exec (.hingeEntryArrival t id) s = .next s' ∧ s.keeps s' ∧
      (s'.tile t.toNat).hinge = (x.hinge.map fun g => if g.id == id then { g with status := .lost } else g) ∧
      (s'.tile t.toNat).discards = x.discards + 1) := by
  intro x c held now
  have hid : h.id = id := by simpa using List.find?_some hfound
  obtain ⟨-, -, hcome⟩ := exec_hingeEntryArrival_of_found hfound
  obtain ⟨hother, hlate, hnow⟩ := hcome d hdata
  have htag : s.tagNow h.tagBell h.tagAttempt = true ↔ now := s.tagNow_iff _ _
  refine ⟨fun hdrop => ?_, fun ht hc hroom => ?_, fun ht hc hfull => ?_⟩
  · cases htn : s.tagNow h.tagBell h.tagAttempt with
    | false => exact ⟨_, hother htn, State.keeps_modTile_counted rfl (State.countsOnly_countTile _ _ _ _)⟩
    | true =>
      have hdue : h.due ≤ c := hdrop.resolve_left fun hn => hn (htag.1 htn)
      exact ⟨_, hlate htn hdue, State.keeps_modTile_counted rfl (.of_tiles rfl rfl)⟩
  · have harrive : s.entryArrives t.toNat h d =
        (s.modTile t.toNat (·.modEntry h.id fun h => { h with data := d, status := .held })).probe 2 t.toNat :=
      if_pos hroom
    rw [hid] at harrive
    exact ⟨_, hnow (htag.2 ht) hc, by
      rw [harrive]; exact State.keeps_modTile_counted rfl (State.countsOnly_probe _ _ _)⟩
  · have harrive : s.entryArrives t.toNat h d =
        (s.modTile t.toNat fun x => (x.modEntry h.id fun h => { h with status := .lost }).discard).hazard t.toNat 3
          x.isle.count (tileIsland h.source.toNat) 0 :=
      if_neg (Nat.not_lt.2 hfull)
    rw [hid] at harrive
    exact ⟨_, hnow (htag.2 ht) hc, by
      rw [harrive]; exact State.keeps_modTile_counted rfl (State.countsOnly_hazard _ _ _ _ _ _)⟩

theorem arrivedData_of_settled {x : Tile} {h : HingeItem} (hs : h.status = .held ∨ h.status = .lost) :
    arrivedData x h = none := by
  rcases hs with hs | hs <;> simp [arrivedData, hs]

theorem arrivedData_of_flight (x : Tile) {h : HingeItem} (hs : h.status = .flight) :
    arrivedData x h = some (some h.data) := by
  simp [arrivedData, hs]

theorem arrivedData_of_awaiting {x : Tile} {h : HingeItem} {n : Nat} (hs : h.status = .awaiting n)
    (hd : ∀ b r k w e, h.dest ≠ .transposed b r k w e) : arrivedData x h = none := by
  unfold arrivedData
  rw [hs]
  cases hk : h.dest with
  | transposed b r k w e => exact absurd hk (hd b r k w e)
  | s r => rfl
  | v r => rfl
  | buf b r m => rfl
  | ib e g => rfl

theorem arrivedData_of_transposed {x : Tile} {h : HingeItem} {n : Nat} (hs : h.status = .awaiting n) {b : BitVec 2}
    {r : BitVec 5} {k : Nat} {w : Bool} {e : BitVec 1} (hd : h.dest = .transposed b r k w e) :
    arrivedData x h = if (tabGet emptyFill x.fills k).missing then some none
      else if (tabGet emptyFill x.fills k).granules.length = 16 then
        some (some (transposedRow (tabGet emptyFill x.fills k) r.toNat w e.toNat))
      else none := by
  unfold arrivedData
  rw [hs, hd]
  simp [TransposeFill.complete]

/-! ## Release -/

/-- A cause bit that stands is not taken back by the release of a late entry. -/
theorem State.lateRelease_spec (s : State) (t : Nat) (h : HingeItem) :
    s.CountsOnly (s.lateRelease t h) ∧
      (bit s.bell.lessonCauses 0 = true → bit (s.lateRelease t h).bell.lessonCauses 0 = true) ∧
      (s.causeOpen = true → bit (s.lateRelease t h).bell.lessonCauses 0 = true) := by
  unfold State.lateRelease
  refine ⟨((s.countsOnly_cause _ _ _ _ _).trans (State.countsOnly_countTile _ _ _ _)).trans
    (State.countsOnly_hazard _ _ _ _ _ _), fun hb => ?_, fun hopen => ?_⟩
  · apply State.bit_hazard_of_bit
    rw [State.countTile_bell]
    exact State.bit_cause_of_bit hb _ _ _ _ _
  · apply State.bit_hazard_of_bit
    rw [State.countTile_bell]
    exact s.bit_cause (by decide) _ _ _ _ hopen

/-- Show one entry on the probe pins, or mark its lateness. -/
def State.releaseShown (t : Nat) (s : State) (h : HingeItem) : State := if h.ready then s.probe 3 t else s.lateRelease t h

/-- The entries that are released show on the probe pins; a late one marks the lesson. -/
theorem State.releaseShown_foldl (t : Nat) (l : List HingeItem) (s : State) :
    s.CountsOnly (l.foldl (State.releaseShown t) s) ∧
    ((∀ h ∈ l, h.ready = true) → (l.foldl (State.releaseShown t) s).bell = s.bell) ∧
    (bit s.bell.lessonCauses 0 = true → bit (l.foldl (State.releaseShown t) s).bell.lessonCauses 0 = true) ∧
    ((∃ h ∈ l, h.ready = false) → s.causeOpen = true →
      bit (l.foldl (State.releaseShown t) s).bell.lessonCauses 0 = true) := by
  induction l generalizing s with
  | nil => exact ⟨.of_tiles rfl rfl, fun _ => rfl, id, by simp⟩
  | cons h l ih =>
    obtain ⟨hcounts, hquiet, hbit, hlate⟩ := ih (s.releaseShown t h)
    rw [List.foldl_cons]
    cases hr : h.ready with
    | true =>
      have hshow : s.releaseShown t h = s.probe 3 t := if_pos hr
      rw [hshow] at hcounts hquiet hbit hlate ⊢
      have hbell := s.probe_bell 3 t
      have hopen : (s.probe 3 t).causeOpen = s.causeOpen := by rw [State.causeOpen, State.causeOpen, hbell]
      rw [hbell] at hquiet hbit
      rw [hopen] at hlate
      refine ⟨(s.countsOnly_probe _ _).trans hcounts, fun hall => hquiet fun k hk => hall k (List.mem_cons_of_mem _ hk),
        hbit, fun ⟨k, hk, hk'⟩ => hlate ⟨k, ?_, hk'⟩⟩
      refine (List.mem_cons.1 hk).resolve_left ?_
      rintro rfl
      rw [hr] at hk'
      exact absurd hk' (by decide)
    | false =>
      have hshow : s.releaseShown t h = s.lateRelease t h := if_neg (by rw [hr]; decide)
      rw [hshow] at hcounts hbit ⊢
      obtain ⟨hcounts', hkept, hmark⟩ := s.lateRelease_spec t h
      refine ⟨hcounts'.trans hcounts, fun hall => ?_, fun hb => hbit (hkept hb), fun _ hopen => hbit (hmark hopen)⟩
      rw [hall h List.mem_cons_self] at hr
      exact absurd hr (by decide)

/-- The entries that fall due in the next cycle. -/
def Tile.dueNext (x : Tile) : List HingeItem := x.hinge.filter fun h => h.due == x.isle.count + 1

/-- Hand over the entries due in cycle d, with their writes. -/
def Tile.handOver (d : Nat) (l : List PendWrite) (x : Tile) : Tile :=
  { x with hinge := x.hinge.filter fun h => h.due != d || h.coming, pend := x.pend ++ l }

theorem State.hingeRelease_eq (s : State) (t : Nat) :
    s.hingeRelease t = ((s.tile t).dueNext.foldl (State.releaseShown t) s).modTile t
      (Tile.handOver ((s.tile t).isle.count + 1) ((s.tile t).dueNext.map fun h => h.write t)) := rfl

/-- What a release makes of the hinge and of the posted writes. -/
theorem State.hingeRelease_spec (s : State) (t : Nat) :
    s.keeps (s.hingeRelease t) ∧
    ((s.hingeRelease t).tile t).hinge =
      (s.tile t).hinge.filter (fun h => h.due != (s.tile t).isle.count + 1 || h.coming) ∧
    ((s.hingeRelease t).tile t).pend = (s.tile t).pend ++ (s.tile t).dueNext.map fun h => h.write t := by
  obtain ⟨hcounts, -, -, -⟩ := State.releaseShown_foldl t (s.tile t).dueNext s
  obtain ⟨hhinge, hpend, -⟩ := hcounts.hinge t
  rw [s.hingeRelease_eq]
  refine ⟨hcounts.keeps.trans (State.keeps_modTile _ _ rfl), ?_, ?_⟩
  · rw [State.modTile_tile_same, ← hhinge]; rfl
  · rw [State.modTile_tile_same, ← hpend]; rfl

/-- A release marks the lesson LATE where an entry that falls due is not held, and nothing else of the bell block
changes where every one is. -/
theorem State.hingeRelease_bell (s : State) (t : Nat) :
    ((∀ h ∈ (s.tile t).dueNext, h.ready = true) → (s.hingeRelease t).bell = s.bell) ∧
    ((∃ h ∈ (s.tile t).dueNext, h.ready = false) → s.causeOpen = true →
      bit (s.hingeRelease t).bell.lessonCauses 0 = true) := by
  obtain ⟨-, hquiet, -, hlate⟩ := State.releaseShown_foldl t (s.tile t).dueNext s
  exact ⟨hquiet, hlate⟩

theorem HingeItem.coming_iff (h : HingeItem) : h.coming = true ↔ h.status = .flight ∨ ∃ n, h.status = .awaiting n := by
  unfold HingeItem.coming
  cases h.status <;> simp

theorem HingeItem.value_eq (h : HingeItem) : h.value = if h.status = .held then h.data else 0 := by
  unfold HingeItem.value
  cases h.status <;> rfl

/-- What an entry delivers, by its destination. -/
theorem deliverOp_spec (dest : HingeDest) (data : Vec) :
    (∀ r, dest = .s r → deliverOp dest data = .sreg r (data.setWidth 32)) ∧
    (∀ r, dest = .v r → deliverOp dest data = .vreg r data allBits) ∧
    (∀ b r m, dest = .buf b r m → deliverOp dest data = .buf b r data m) ∧
    (∀ b r k e, dest = .transposed b r k false e → deliverOp dest data = .buf b r data allBits) ∧
    (∀ b r k e, dest = .transposed b r k true e → ∃ m, deliverOp dest data = .buf b r data m ∧
      ∀ i, i < 256 → byteOf m i = if i / 64 % 2 = e.toNat then 0xFF else 0) ∧
    ∀ e g, dest = .ib e g → deliverOp dest data = .ib e g data := by
  refine ⟨?_, ?_, ?_, ?_, ?_, ?_⟩
  · rintro r rfl; rfl
  · rintro r rfl; rfl
  · rintro b r m rfl; rfl
  · rintro b r k e rfl; rfl
  · rintro b r k e rfl
    refine ⟨packFields 8 256 (fun i => if i / 64 % 2 = e.toNat then 0xFF else 0), rfl, fun i hi => ?_⟩
    exact extract_packFields 8 256 i (by decide) _ hi (Nat.le_refl _)
  · rintro e g rfl; rfl

theorem State.causeOpen_of_lesson {s : State} (hp : s.bell.phase = .lesson) (hg : s.bell.gathered = false) :
    s.causeOpen = true := by
  rw [State.causeOpen, hp, hg]
  rfl

theorem State.phase_of_tileRuns {s : State} {t : Nat} (h : s.tileRuns t = true) : s.bell.phase = .lesson := by
  simp only [State.tileRuns, Bool.and_eq_true, beq_iff_eq] at h
  exact h.1.1.1.1

/-- Settles O20: arrival by the state of the entry's data; release by what the hinge and the writes take. -/
theorem hinges : Obligations.Hinges := by
  unfold Obligations.Hinges
  refine ⟨fun s t id => ⟨exec_hingeEntryArrival_of_absent, fun h hfound =>
    ⟨fun hs => ?_, fun hs => ?_, fun n hs => ?_⟩⟩,
    fun s t => ⟨fun hr => ?_, fun hr => ?_⟩⟩
  case refine_1 => exact exec_hingeEntryArrival_arrives hfound (arrivedData_of_flight _ hs)
  case refine_2 => exact (exec_hingeEntryArrival_of_found hfound).1 (arrivedData_of_settled hs)
  case refine_3 =>
    obtain ⟨hnone, hlost, -⟩ := exec_hingeEntryArrival_of_found hfound
    refine ⟨fun hd => hnone (arrivedData_of_awaiting hs hd), fun b r k w e hd => ?_⟩
    have hdata := arrivedData_of_transposed (x := s.tile t.toNat) hs hd
    refine ⟨fun hm hl => ?_, fun hm hl => hnone ?_, fun hm => ?_⟩
    · refine exec_hingeEntryArrival_arrives hfound ?_
      rw [hdata, hm, if_neg (by decide), if_pos hl]
    · rw [hdata, hm, if_neg (by decide), if_neg hl]
    · obtain ⟨hkeeps, hhinge, -⟩ := State.keeps_modTile_counted
        (f := (·.modEntry id fun h => { h with status := .lost })) rfl
          (State.CountsOnly.of_tiles (s := s.modTile t.toNat _) rfl rfl)
      exact ⟨_, hlost (by rw [hdata, hm, if_pos rfl]), hkeeps, hhinge⟩
  case refine_4 => exact congrArg Host.Outcome.next (if_neg (by rw [hr]; decide))
  case refine_5 =>
    have hexec : exec (.hingeDueRelease t) s = .next (s.hingeRelease t.toNat) := congrArg Host.Outcome.next (if_pos hr)
    obtain ⟨hkeeps, hhinge, hpend⟩ := s.hingeRelease_spec t.toNat
    obtain ⟨hquiet, hlate⟩ := s.hingeRelease_bell t.toNat
    have hmem : ∀ h, h ∈ (s.tile t.toNat).dueNext ↔
        h ∈ (s.tile t.toNat).hinge ∧ h.due = (s.tile t.toNat).isle.count + 1 := fun h => by
      simp [Tile.dueNext]
    refine ⟨_, _, hexec, hkeeps, fun h => ?_, hpend, ?_, fun h hh hd => ?_, fun hn => hquiet fun h hh => ?_, ?_⟩
    · rw [hhinge, List.mem_filter, Bool.or_eq_true, bne_iff_ne, h.coming_iff]
    · rw [List.length_map]; rfl
    · refine ⟨h.write t.toNat, List.mem_map.2 ⟨h, (hmem h).2 ⟨hh, hd⟩, rfl⟩, ?_, rfl, rfl, rfl, ?_⟩
      · exact Nat.sub_eq_of_eq_add hd
      · rw [← h.value_eq]
        exact deliverOp_spec h.dest h.value
    · obtain ⟨hh, hd⟩ := (hmem h).1 hh
      by_contra hr
      exact hn ⟨h, hh, hd, fun hs => hr (by rw [HingeItem.ready, hs]; rfl)⟩
    · rintro ⟨h, hh, hd, hs⟩ hg
      refine hlate ⟨h, (hmem h).2 ⟨hh, hd⟩, beq_eq_false_iff_ne.2 hs⟩ ?_
      exact State.causeOpen_of_lesson (State.phase_of_tileRuns hr) hg

end Sys2Proof.Machine
end

section
/-! PROOFS. The end of a tile's lesson where its die's clocks stand (R33, R84, R108). -/

namespace Sys2Proof.Machine

/-- A part whose clocks have been halted in the last cycle of a lesson of one cycle, tile 0 not yet marked as stopped. -/
def haltedLesson : State :=
  { State.reset with
    bell := { State.reset.bell with phase := .lesson, lessonLength := 1 }
    tiles := [(0, { Tile.reset with ended := false })]
    ts := { State.reset.ts with now := { State.reset.ts.now with halted := some 0 } } }

/-- The tile has reached its last cycle. -/
theorem haltedLesson_lastCycle : haltedLesson.lastCycle 0 = true := by decide +kernel

/-- Its island has no clock: the end of the cycle does nothing. -/
theorem exec_resultWriteback_haltedLesson : exec (.resultWriteback 0) haltedLesson = .next haltedLesson := rfl

/-- Refutes O10: with the clocks of the part halted, a tile in its last cycle whose own stop has no cycle does not end
that cycle by RESULT_WRITEBACK, so no state with the lesson's length as its count follows. -/
theorem not_instructionRefill : ¬ Obligations.InstructionRefill := by
  unfold Obligations.InstructionRefill
  rintro ⟨-, -, hends⟩
  obtain ⟨s1, hwrite, hcount, -⟩ := (hends haltedLesson 0 rfl).2 haltedLesson_lastCycle rfl rfl
  rw [exec_resultWriteback_haltedLesson] at hwrite
  obtain rfl := Host.Outcome.next.inj hwrite
  exact absurd hcount (by decide)

end Sys2Proof.Machine
end

section
/-! PROOFS. Contributions and closing of a reduction group (R36, R200 to R202). -/

namespace Sys2Proof.Machine

/-! ## The sum in ascending tile number -/

theorem insertContribution_perm (c : Contribution) (l : List Contribution) : (insertContribution c l).Perm (c :: l) := by
  induction l with
  | nil => exact .refl _
  | cons e l ih =>
    unfold insertContribution
    split
    · exact .refl _
    · exact (ih.cons e).trans (.swap c e l)

/-- Part tile numbers ascend, equal ones allowed. -/
def TilesAscend (l : List Contribution) : Prop := l.Pairwise fun a b => a.tile.toNat ≤ b.tile.toNat

theorem insertContribution_ascends (c : Contribution) {l : List Contribution} (h : TilesAscend l) :
    TilesAscend (insertContribution c l) := by
  induction l with
  | nil => exact List.pairwise_singleton _ _
  | cons e l ih =>
    obtain ⟨hhead, htail⟩ := List.pairwise_cons.1 h
    unfold insertContribution
    split
    · next hlt =>
      refine List.pairwise_cons.2 ⟨fun a ha => ?_, h⟩
      rcases List.mem_cons.1 ha with rfl | ha
      · exact hlt.le
      · exact hlt.le.trans (hhead a ha)
    · next hge =>
      refine List.pairwise_cons.2 ⟨fun a ha => ?_, ih htail⟩
      rcases List.mem_cons.1 ((insertContribution_perm c l).mem_iff.1 ha) with rfl | ha
      · exact Nat.not_lt.1 hge
      · exact hhead a ha

theorem foldl_insertContribution (l a : List Contribution) (ha : TilesAscend a) :
    (l.foldl (fun a c => insertContribution c a) a).Perm (l ++ a) ∧
      TilesAscend (l.foldl (fun a c => insertContribution c a) a) := by
  induction l generalizing a with
  | nil => exact ⟨.refl _, ha⟩
  | cons c l ih =>
    obtain ⟨hperm, hasc⟩ := ih _ (insertContribution_ascends c ha)
    refine ⟨hperm.trans ?_, hasc⟩
    exact ((insertContribution_perm c a).append_left l).trans List.perm_middle

/-- Contributions in strictly ascending tile number are what sorting them makes of any order of theirs. -/
theorem sorted_of_ascending {l c : List Contribution} (hperm : l.Perm c)
    (h : l.Pairwise fun a b => a.tile.toNat < b.tile.toNat) :
    c.foldl (fun a c => insertContribution c a) [] = l := by
  obtain ⟨hsort, hasc⟩ := foldl_insertContribution c [] List.Pairwise.nil
  rw [List.append_nil] at hsort
  have hp := hsort.trans hperm.symm
  have hne : l.Pairwise fun a b => a.tile ≠ b.tile := h.imp fun hlt heq => by rw [heq] at hlt; exact lt_irrefl _ hlt
  have hinj : ∀ a ∈ l, ∀ b ∈ l, a.tile = b.tile → a = b := fun a ha b hb heq => by
    have : Std.Symm fun a b : Contribution => a.tile ≠ b.tile := ⟨fun _ _ h => h.symm⟩
    by_contra hab
    exact hne.forall ha hb hab heq
  refine List.Perm.eq_of_pairwise (fun a b ha hb hab hba => ?_) hasc (h.imp le_of_lt) hp
  exact hinj a (hp.mem_iff.1 ha) b hb (BitVec.eq_of_toNat_eq (le_antisymm hab hba))

theorem reduceLane_of_ascending (int : Bool) (base : Word) {l c : List Contribution} (hperm : l.Perm c)
    (h : l.Pairwise fun a b => a.tile.toNat < b.tile.toNat) (n : Nat) :
    reduceLane int base c n =
      l.foldl (fun x c => if int then x + lane c.data n else (mxSum false x (lane c.data n)).1) base := by
  rw [reduceLane, sorted_of_ascending hperm h]

/-! ## Crossbar registers and requests -/

theorem State.modDie_dieRegs_same (s : State) (d : Nat) (f : DieRegs → DieRegs) :
    (s.modDie d f).dieRegs d = f (s.dieRegs d) :=
  tabGet_tabMod_same DieRegs.reset s.mem.dies d f

/-- A change of the crossbar registers and of which requests, contributions and gathering sums are open keeps every byte. -/
theorem State.keeps.of_bytes {s s' : State} (hbytes : s'.mem.bytes = s.mem.bytes) (htiles : s'.tiles = s.tiles) :
    s.keeps s' :=
  ⟨fun a => by rw [Mem.byte, Mem.byte, hbytes], fun u => by rw [State.tile, State.tile, htiles]⟩

theorem State.queueRead_slice (s : State) (r : ReadReq) :
    (s.queueRead r).slice (dieOf r.addr) (sliceOf (offsetOf r.addr)) =
      { s.slice (dieOf r.addr) (sliceOf (offsetOf r.addr)) with
        reads := (s.slice (dieOf r.addr) (sliceOf (offsetOf r.addr))).reads ++ [r] } :=
  State.setSlice_slice_same _ _ _ _

theorem State.queueWrite_slice (s : State) (r : WriteReq) :
    (s.queueWrite r).slice (dieOf r.addr) (sliceOf (offsetOf r.addr)) =
      { s.slice (dieOf r.addr) (sliceOf (offsetOf r.addr)) with
        writes := (s.slice (dieOf r.addr) (sliceOf (offsetOf r.addr))).writes ++ [r] } :=
  State.setSlice_slice_same _ _ _ _

/-! ## Contributions -/

/-- The oldest contribution of a group is taken from those on their way. -/
def State.takeFlight (s : State) (k : Nat) (l : List Contribution) : State :=
  { s with mem := { s.mem with redFlight := tabSet [] s.mem.redFlight k l } }

/-- What a contribution of the lesson that is discarded leaves: a count, and MISSING. -/
theorem State.redDiscard_missing (s : State) (k cycle : Nat) :
    ((s.redDiscard k).groupMissing k cycle).mem = (s.redDiscard k).mem ∧
    ((s.redDiscard k).groupMissing k cycle).tiles = s.tiles ∧
    (s.causeOpen = true → bit ((s.redDiscard k).groupMissing k cycle).bell.lessonCauses 3 = true) :=
  ⟨State.cause_mem _ _ _ _ _ _, State.cause_tiles _ _ _ _ _ _,
    fun h => State.bit_cause (s := s.redDiscard k) (b := cMissing) (by decide) _ _ _ _ h⟩

/-- The group wants the contribution: not past due, and of the due cycle of the open gathering sum. -/
def State.Fits (s : State) (k : Nat) (c : Contribution) (now : Nat) : Prop :=
  now ≤ c.due ∧ groupCount (s.groupDesc k) ≠ 0 ∧ ∀ j, tabGet none s.mem.instances k = some j → j.due = c.due

/-- The open gathering sum holds a contribution of the same tile. -/
def State.HoldsTile (s : State) (k : Nat) (c : Contribution) : Prop :=
  ∃ j, tabGet none s.mem.instances k = some j ∧ ∃ a ∈ j.contributions, a.tile = c.tile

theorem State.contribute_of_stale {s : State} {c : Contribution} (h : s.tagNow c.tagBell c.tagAttempt = false)
    (k now : Nat) :
    s.contribute k c now = s.modDie (k / 256) fun r => { r with redStale := r.redStale + 1 } := by
  rw [State.contribute, h]
  rfl

/-- A contribution of the lesson that its group does not want, or that finds no place, is discarded with MISSING. -/
theorem State.contribute_of_unwanted {s : State} {k now : Nat} {c : Contribution}
    (ht : s.tagNow c.tagBell c.tagAttempt = true)
    (h : ¬s.Fits k c now ∨ (¬s.HoldsTile k c ∧ ¬s.redHeld (k / 256) < 4096)) :
    s.contribute k c now = (s.redDiscard k).groupMissing k now := by
  rw [State.contribute, ht, if_neg (by decide)]
  by_cases hdue : c.due < now ∨ groupCount (s.groupDesc k) = 0
  · rw [if_pos (by simpa using hdue)]
  · rw [if_neg (by simpa using hdue)]
    obtain ⟨hdue, hcount⟩ := not_or.1 hdue
    cases hi : tabGet none s.mem.instances k with
    | none =>
      have hfits : s.Fits k c now := ⟨Nat.not_lt.1 hdue, hcount, fun j hj => by rw [hi] at hj; exact nomatch hj⟩
      obtain ⟨-, hroom⟩ := h.resolve_left (not_not.2 hfits)
      exact if_pos (Nat.not_lt.1 hroom)
    | some i =>
      by_cases hsame : i.due = c.due
      · have hfits : s.Fits k c now :=
          ⟨Nat.not_lt.1 hdue, hcount, fun j hj => by rw [hi] at hj; rw [← Option.some.inj hj, hsame]⟩
        obtain ⟨htwice, hroom⟩ := h.resolve_left (not_not.2 hfits)
        have hany : ¬(i.contributions.any fun e => e.tile == c.tile) = true := fun hany => by
          obtain ⟨a, ha, htile⟩ := List.any_eq_true.1 hany
          exact htwice ⟨i, hi, a, ha, eq_of_beq htile⟩
        dsimp only
        rw [if_neg (by simpa using hsame), if_neg hany, if_pos (Nat.not_lt.1 hroom)]
      · exact if_pos (by simpa using hsame)

/-- The first contribution of a due cycle opens a gathering sum. -/
theorem State.contribute_of_first {s : State} {k now : Nat} {c : Contribution}
    (ht : s.tagNow c.tagBell c.tagAttempt = true) (hfits : s.Fits k c now) (hroom : s.redHeld (k / 256) < 4096)
    (hi : tabGet none s.mem.instances k = none) : s.contribute k c now = s.openInstance k c := by
  obtain ⟨hdue, hcount, -⟩ := hfits
  rw [State.contribute, ht, if_neg (by decide), if_neg (by simp [hcount, Nat.not_lt.2 hdue]), hi]
  exact if_neg (Nat.not_le.2 hroom)

/-- One that the open gathering sum wants: a second of its tile is discarded, another joins where there is a place. -/
theorem State.contribute_of_open {s : State} {k now : Nat} {c : Contribution}
    (ht : s.tagNow c.tagBell c.tagAttempt = true) (hfits : s.Fits k c now) {i : RedInstance}
    (hi : tabGet none s.mem.instances k = some i) :
    s.contribute k c now =
      if i.contributions.any fun e => e.tile == c.tile then s.redDiscard k
      else if 4096 ≤ s.redHeld (k / 256) then (s.redDiscard k).groupMissing k now
      else s.modInstance k fun i => { i with contributions := i.contributions ++ [c] } := by
  obtain ⟨hdue, hcount, hsame⟩ := hfits
  rw [State.contribute, ht, if_neg (by decide), if_neg (by simp [hcount, Nat.not_lt.2 hdue]), hi]
  exact if_neg (by simp [hsame i hi])

/-- A second contribution of a tile is discarded. -/
theorem State.contribute_of_twice {s : State} {k now : Nat} {c : Contribution}
    (ht : s.tagNow c.tagBell c.tagAttempt = true) (hfits : s.Fits k c now) (h : s.HoldsTile k c) :
    s.contribute k c now = s.redDiscard k := by
  obtain ⟨i, hi, a, ha, htile⟩ := h
  rw [State.contribute_of_open ht hfits hi]
  exact if_pos (List.any_eq_true.2 ⟨a, ha, by rw [htile]; exact beq_self_eq_true _⟩)

/-- Each further one joins it. -/
theorem State.contribute_of_further {s : State} {k now : Nat} {c : Contribution}
    (ht : s.tagNow c.tagBell c.tagAttempt = true) (hfits : s.Fits k c now) (hroom : s.redHeld (k / 256) < 4096)
    (hnew : ¬s.HoldsTile k c) {i : RedInstance} (hi : tabGet none s.mem.instances k = some i) :
    s.contribute k c now = s.modInstance k fun i => { i with contributions := i.contributions ++ [c] } := by
  have hany : ¬(i.contributions.any fun e => e.tile == c.tile) = true := fun hany => by
    obtain ⟨a, ha, htile⟩ := List.any_eq_true.1 hany
    exact hnew ⟨i, hi, a, ha, eq_of_beq htile⟩
  rw [State.contribute_of_open ht hfits hi, if_neg hany, if_neg (Nat.not_le.2 hroom)]

/-- The gathering sum that the first contribution of a due cycle opens. -/
def firstInstance (c : Contribution) : RedInstance := { due := c.due, contributions := [c], base := none, failed := false }

def State.putInstance (s : State) (k : Nat) (i : Option RedInstance) : State :=
  { s with mem := { s.mem with instances := tabSet none s.mem.instances k i } }

/-- What opening a gathering sum changes: the sum that the group holds, and in mode 1 the reads of its destination's slice. -/
theorem State.openInstance_spec (s : State) (k : Nat) (c : Contribution) :
    let d := s.groupDesc k
    let e := dieOf (groupDest d)
    let m := sliceOf (offsetOf (groupDest d))
    (s.openInstance k c).mem.bytes = s.mem.bytes ∧ (s.openInstance k c).tiles = s.tiles ∧
    (s.openInstance k c).bell = s.bell ∧ (s.openInstance k c).mem.redFlight = s.mem.redFlight ∧
    (s.openInstance k c).mem.dies = s.mem.dies ∧
    tabGet none (s.openInstance k c).mem.instances k =
      some { due := c.due, contributions := [c], base := none, failed := false } ∧
    ∃ q : List ReadReq, ((s.openInstance k c).slice e m).reads = (s.slice e m).reads ++ q ∧
      if groupMode d then q = [{ arrival := c.due, port := 263 + k % 256, tile := none, addr := groupDest d
                                 size := .granule, dest := .reduction (BitVec.ofNat 8 k) }]
      else q = [] := by
  intro d e m
  cases hm : groupMode d with
  | false =>
    have hopen : s.openInstance k c = s.putInstance k (some (firstInstance c)) := if_neg (by
      show ¬groupMode d = true; rw [hm]; decide)
    rw [hopen]
    exact ⟨rfl, rfl, rfl, rfl, rfl, tabGet_tabSet_same none s.mem.instances k (some (firstInstance c)), [],
      (List.append_nil _).symm, rfl⟩
  | true =>
    have hopen : s.openInstance k c =
        (s.putInstance k (some (firstInstance c))).queueRead
          { arrival := c.due, port := 263 + k % 256, tile := none, addr := groupDest d, size := .granule
            dest := .reduction (BitVec.ofNat 8 k) } := if_pos hm
    rw [hopen]
    exact ⟨rfl, rfl, rfl, rfl, rfl, tabGet_tabSet_same none s.mem.instances k (some (firstInstance c)), _,
      congrArg Slice.reads (State.queueRead_slice _ _), rfl⟩

/-- Whatever a contribution comes to, the registers, the bytes and what is still on its way stay. -/
theorem State.contribute_leaves (s : State) (k now : Nat) (c : Contribution) :
    s.keeps (s.contribute k c now) ∧ (s.contribute k c now).mem.redFlight = s.mem.redFlight := by
  cases ht : s.tagNow c.tagBell c.tagAttempt with
  | false =>
    rw [State.contribute_of_stale ht]
    exact ⟨.of_bytes rfl rfl, rfl⟩
  | true =>
    by_cases hun : ¬s.Fits k c now ∨ (¬s.HoldsTile k c ∧ ¬s.redHeld (k / 256) < 4096)
    · obtain ⟨hmem, htiles, -⟩ := s.redDiscard_missing k now
      rw [State.contribute_of_unwanted ht hun]
      exact ⟨.of_bytes (by rw [hmem]; rfl) htiles, by rw [hmem]; rfl⟩
    · obtain ⟨hfits, hplace⟩ := not_or.1 hun
      rw [not_not] at hfits
      by_cases htwice : s.HoldsTile k c
      · rw [State.contribute_of_twice ht hfits htwice]
        exact ⟨.of_bytes rfl rfl, rfl⟩
      · have hroom : s.redHeld (k / 256) < 4096 := by_contra fun hroom => hplace ⟨htwice, hroom⟩
        cases hi : tabGet none s.mem.instances k with
        | none =>
          obtain ⟨hbytes, htiles, -, hflight, -⟩ := s.openInstance_spec k c
          rw [State.contribute_of_first ht hfits hroom hi]
          exact ⟨.of_bytes hbytes htiles, hflight⟩
        | some i =>
          rw [State.contribute_of_further ht hfits hroom htwice hi]
          exact ⟨.of_bytes rfl rfl, rfl⟩

theorem exec_reductionContribution_of_none {s : State} {die : BitVec 2} {g : BitVec 8}
    (h : tabGet [] s.mem.redFlight (256 * die.toNat + g.toNat) = []) (now : Nat) :
    exec (.reductionContribution die g now) s = .next s := by
  have hexec : exec (.reductionContribution die g now) s = execReductionContribution die g now s := rfl
  rw [hexec, execReductionContribution, h]

theorem exec_reductionContribution_of_cons {s : State} {die : BitVec 2} {g : BitVec 8} {c : Contribution}
    {l : List Contribution} (h : tabGet [] s.mem.redFlight (256 * die.toNat + g.toNat) = c :: l) (now : Nat) :
    exec (.reductionContribution die g now) s = .next
      ((s.takeFlight (256 * die.toNat + g.toNat) l).contribute (256 * die.toNat + g.toNat) c now) := by
  have hexec : exec (.reductionContribution die g now) s = execReductionContribution die g now s := rfl
  rw [hexec, execReductionContribution, h]
  rfl

/-! ## Closing -/

/-- What closing a gathering sum without writing leaves. -/
theorem State.closeEmpty_spec (s : State) (k : Nat) : s.keeps (s.closeEmpty k) ∧ (s.closeEmpty k).bell = s.bell ∧
    (s.closeEmpty k).mem = (s.closeInstance k).mem := by
  obtain ⟨_, h⟩ := (s.closeInstance k).countEvent_eq 1 (k / 256) 0x0106 1
  rw [State.closeEmpty, h]
  exact ⟨.of_bytes rfl rfl, rfl, rfl⟩

theorem State.closeInstance_same (s : State) (k : Nat) : tabGet none (s.closeInstance k).mem.instances k = none :=
  tabGet_tabSet_same none s.mem.instances k none

/-- The write of a gathering sum's total, when it closes. -/
def State.sumWrite (s : State) (k : Nat) (i : RedInstance) (base : Vec) : WriteReq :=
  { arrival := i.due, port := 263 + k % 256, source := .group (BitVec.ofNat 8 k), addr := groupDest (s.groupDesc k)
    data := ofLanes fun n => reduceLane (groupInt (s.groupDesc k)) (lane base n) i.contributions n, bytes := fullBytes }

/-- The total of a closing sum goes to the slice of its destination. -/
theorem State.closeSum_spec (s : State) (k : Nat) (i : RedInstance) (base : Vec) :
    let e := dieOf (groupDest (s.groupDesc k))
    let m := sliceOf (offsetOf (groupDest (s.groupDesc k)))
    s.keeps (s.closeSum k i base) ∧ (s.closeSum k i base).bell = s.bell ∧
    tabGet none (s.closeSum k i base).mem.instances k = none ∧
    ((s.closeSum k i base).slice e m).writes = (s.slice e m).writes ++ [s.sumWrite k i base] := by
  intro e m
  obtain ⟨_, h⟩ := (s.closeInstance k).countEvent_eq 1 (k / 256) 0x0105 1
  have hsum : s.closeSum k i base =
      ((s.closeInstance k).countEvent 1 (k / 256) 0x0105 1).queueWrite (s.sumWrite k i base) := rfl
  rw [hsum, h]
  exact ⟨.of_bytes rfl rfl, rfl, s.closeInstance_same k, congrArg Slice.writes (State.queueWrite_slice _ _)⟩

/-- What a gathering sum that is held does when it is asked to close, by what it holds. -/
theorem exec_reductionClose_of_some {s : State} {die : BitVec 2} {g : BitVec 8} {i : RedInstance} {k : Nat}
    (hk : 256 * die.toNat + g.toNat = k) (h : tabGet none s.mem.instances k = some i) (now : Nat) :
    let full := i.contributions.length = groupCount (s.groupDesc k)
    (now < i.due → exec (.reductionClose die g now) s = .next s) ∧
    (i.due ≤ now → ¬full → exec (.reductionClose die g now) s =
      .next (((s.closeEmpty k).groupMissing k i.due).hazard 0 15 i.due g.toNat 0)) ∧
    (i.due ≤ now → full → groupMode (s.groupDesc k) = true → i.failed = true →
      exec (.reductionClose die g now) s = .next (s.closeEmpty k)) ∧
    (i.due ≤ now → full → groupMode (s.groupDesc k) = true → i.failed = false → i.base = none →
      exec (.reductionClose die g now) s = .next s) ∧
    ∀ base : Vec, i.due ≤ now → full → (groupMode (s.groupDesc k) = false ∧ base = 0) ∨
        (groupMode (s.groupDesc k) = true ∧ i.failed = false ∧ i.base = some base) →
      exec (.reductionClose die g now) s = .next (s.closeSum k i base) := by
  intro full
  have hexec : exec (.reductionClose die g now) s = execReductionClose die g now s := rfl
  rw [hexec, execReductionClose, hk, h]
  refine ⟨fun hnow => ?_, fun hdue hshort => ?_, fun hdue hfull hmode hfailed => ?_,
    fun hdue hfull hmode hfailed hbase => ?_, fun base hdue hfull hbase => ?_⟩
  · simp only [if_pos hnow]
  · simp only [if_neg (Nat.not_lt.2 hdue), if_pos (show i.contributions.length ≠ _ from hshort)]
  · simp [Nat.not_lt.2 hdue, show i.contributions.length = _ from hfull, hmode, hfailed]
  · simp [Nat.not_lt.2 hdue, show i.contributions.length = _ from hfull, hmode, hfailed, hbase]
  · rcases hbase with ⟨hmode, rfl⟩ | ⟨hmode, hfailed, hbase⟩
    · simp [Nat.not_lt.2 hdue, show i.contributions.length = _ from hfull, hmode]
    · simp [Nat.not_lt.2 hdue, show i.contributions.length = _ from hfull, hmode, hfailed, hbase]

theorem exec_reductionClose_of_none {s : State} {die : BitVec 2} {g : BitVec 8}
    (h : tabGet none s.mem.instances (256 * die.toNat + g.toNat) = none) (now : Nat) :
    exec (.reductionClose die g now) s = .next s := by
  have hexec : exec (.reductionClose die g now) s = execReductionClose die g now s := rfl
  rw [hexec, execReductionClose, h]

/-- A gathering sum that lacks a contribution closes without writing, and the lesson is MISSING. -/
theorem State.closeMissing_spec (s : State) (k due g : Nat) :
    let s' := ((s.closeEmpty k).groupMissing k due).hazard 0 15 due g 0
    s.keeps s' ∧ s'.mem = (s.closeInstance k).mem ∧ (s.causeOpen = true → bit s'.bell.lessonCauses 3 = true) := by
  intro s'
  obtain ⟨hkeeps, hbell, hmem⟩ := s.closeEmpty_spec k
  obtain ⟨_, _, _, _, _, hhazard⟩ := ((s.closeEmpty k).groupMissing k due).hazard_eq 0 15 due g 0
  refine ⟨(hkeeps.trans (State.keeps_cause _ _ _ _ _ _)).trans (State.keeps_hazard _ _ _ _ _ _), ?_, fun hopen => ?_⟩
  · show (State.hazard _ _ _ _ _ _).mem = _
    rw [hhazard, ← hmem]
    exact State.cause_mem _ _ _ _ _ _
  · have hopen' : (s.closeEmpty k).causeOpen = true := by rw [State.causeOpen, hbell]; exact hopen
    exact State.bit_hazard_of_bit (State.bit_cause _ (by decide) _ _ _ _ hopen') _ _ _ _ _

theorem groupIndex_div (die : BitVec 2) (g : BitVec 8) : (256 * die.toNat + g.toNat) / 256 = die.toNat := by
  have := g.isLt; omega

theorem groupIndex_mod (die : BitVec 2) (g : BitVec 8) : (256 * die.toNat + g.toNat) % 256 = g.toNat := by
  have := g.isLt; omega

theorem ofNat_groupIndex (die : BitVec 2) (g : BitVec 8) : BitVec.ofNat 8 (256 * die.toNat + g.toNat) = g := by
  apply BitVec.eq_of_toNat_eq
  rw [BitVec.toNat_ofNat]
  exact groupIndex_mod die g

/-- The crossbar registers, the bell block and the flight after a contribution that is not taken. -/
theorem State.redDiscard_dieRegs (s : State) (die : BitVec 2) (g : BitVec 8) :
    ((s.redDiscard (256 * die.toNat + g.toNat)).dieRegs die.toNat).red = (s.dieRegs die.toNat).red + 1 := by
  rw [State.redDiscard, groupIndex_div, State.modDie_dieRegs_same]

theorem State.redDiscard_missing_red (s : State) (die : BitVec 2) (g : BitVec 8) (cycle : Nat) :
    ((((s.redDiscard (256 * die.toNat + g.toNat)).groupMissing (256 * die.toNat + g.toNat) cycle).dieRegs
      die.toNat).red) = (s.dieRegs die.toNat).red + 1 := by
  rw [← s.redDiscard_dieRegs die g, State.dieRegs, (s.redDiscard_missing _ cycle).1]
  rfl

/-- Settles O23: a contribution by what its group wants, a close by what the gathering sum holds, and the sum by the order
that sorting gives. -/
theorem reductions : Obligations.Reductions := by
  unfold Obligations.Reductions
  intro s die g now k d e m red
  refine ⟨fun h => exec_reductionContribution_of_none h now, fun c l h => ?contribution, fun i h => ?close,
    fun h => exec_reductionClose_of_none h now⟩
  case contribution =>
    obtain ⟨hkeeps, hflight⟩ := (s.takeFlight k l).contribute_leaves k now c
    have hdie : k / 256 = die.toNat := groupIndex_div die g
    refine ⟨_, exec_reductionContribution_of_cons h now, ?_, ?_, fun hstale => ?stale, fun htag hun => ?unwanted,
      fun htag hfits htwice => ?twice, fun htag hfits hnew hroom => ?joins⟩
    · exact State.keeps.trans (.of_bytes rfl rfl) hkeeps
    · exact (congrArg (tabGet [] · k) hflight).trans (tabGet_tabSet_same [] s.mem.redFlight k l)
    case stale =>
      rw [State.contribute_of_stale (s := s.takeFlight k l) hstale, hdie]
      refine ⟨rfl, ?_, rfl, ?_⟩
      · show (State.dieRegs _ die.toNat).red = _
        rw [State.modDie_dieRegs_same]; rfl
      · rw [State.modDie_dieRegs_same]; rfl
    case unwanted =>
      obtain ⟨hmem, -, hmissing⟩ := (s.takeFlight k l).redDiscard_missing k now
      rw [← hdie] at hun
      rw [State.contribute_of_unwanted (s := s.takeFlight k l) htag hun]
      exact ⟨by rw [hmem]; rfl, (s.takeFlight k l).redDiscard_missing_red die g now, hmissing⟩
    case twice =>
      rw [State.contribute_of_twice (s := s.takeFlight k l) htag hfits htwice]
      exact ⟨rfl, (s.takeFlight k l).redDiscard_dieRegs die g, rfl⟩
    case joins =>
      have hroom' : (s.takeFlight k l).redHeld (k / 256) < 4096 := by rw [hdie]; exact hroom
      cases hi : tabGet none s.mem.instances k with
      | none =>
        obtain ⟨-, -, hbell, -, hdies, hfirst, q, hreads, hq⟩ := (s.takeFlight k l).openInstance_spec k c
        rw [State.contribute_of_first (s := s.takeFlight k l) htag hfits hroom' hi]
        refine ⟨?_, hbell, fun _ hj => absurd hj (by simp), fun _ => ⟨hfirst, q, hreads, ?_⟩⟩
        · exact congrArg (fun t => (tabGet DieRegs.reset t die.toNat).red) hdies
        · rwa [groupIndex_mod, ofNat_groupIndex] at hq
      | some i =>
        rw [State.contribute_of_further (s := s.takeFlight k l) htag hfits hroom' hnew hi]
        refine ⟨rfl, rfl, fun j hj => ?_, nofun⟩
        obtain rfl := Option.some.inj hj
        refine (tabGet_tabMod_same none s.mem.instances k _).trans ?_
        rw [hi]
        rfl
  case close =>
    intro full
    obtain ⟨hearly, hshort, hfailed, hwait, hsum⟩ := exec_reductionClose_of_some rfl h now
    refine ⟨hearly, hwait, fun base hdue hfull hbase => ?_, fun hdue hfull hmode hf => ?_, fun hdue hf => ?_⟩
    · obtain ⟨hkeeps, hbell, hnone, hwrites⟩ := s.closeSum_spec k i base
      refine ⟨_, s.sumWrite k i base, hsum base hdue hfull hbase, hkeeps, hbell, hnone, rfl, rfl, rfl, ?_, hwrites,
        fun l hperm hasc n hn => ?_⟩
      · rw [State.sumWrite, ofNat_groupIndex]
      · rw [State.sumWrite, lane_ofLanes _ hn, reduceLane_of_ascending _ _ hperm hasc]
    · obtain ⟨hkeeps, hbell, hmem⟩ := s.closeEmpty_spec k
      refine ⟨_, hfailed hdue hfull hmode hf, hkeeps, hbell, ?_, ?_⟩
      · rw [hmem]; exact s.closeInstance_same k
      · unfold State.slice; rw [hmem]; rfl
    · obtain ⟨hkeeps, hmem, hmissing⟩ := s.closeMissing_spec k i.due g.toNat
      refine ⟨_, hshort hdue hf, hkeeps, ?_, ?_, hmissing⟩
      · rw [hmem]; exact s.closeInstance_same k
      · unfold State.slice; rw [hmem]; rfl

end Sys2Proof.Machine
end

section
/-! PROOFS. What a lesson's read of memory leaves, and what it delivers (R203, R268). -/

namespace Sys2Proof.Machine

/-- What a read of memory leaves: the registers, memory and its open requests and gates, the fences, the fabric, the
links, the regions, the job and the part's identity. -/
structure State.OnlyRead (s s' : State) : Prop where
  keeps : s.keeps s'
  bytes : s'.mem.bytes = s.mem.bytes
  ue : s'.mem.ue = s.mem.ue
  slices : s'.mem.slices = s.mem.slices
  gate : s'.mem.gate = s.mem.gate
  fences : s'.ts.fences = s.ts.fences
  rt : s'.rt = s.rt
  rc : s'.rc = s.rc
  cq : s'.cq = s.cq
  fused : s'.fused = s.fused

theorem State.OnlyRead.refl (s : State) : s.OnlyRead s := ⟨.refl s, rfl, rfl, rfl, rfl, rfl, rfl, rfl, rfl, rfl⟩

theorem State.OnlyRead.trans {s t u : State} (h : s.OnlyRead t) (h' : t.OnlyRead u) : s.OnlyRead u :=
  ⟨h.keeps.trans h'.keeps, h'.bytes.trans h.bytes, h'.ue.trans h.ue, h'.slices.trans h.slices, h'.gate.trans h.gate,
    h'.fences.trans h.fences, h'.rt.trans h.rt, h'.rc.trans h.rc, h'.cq.trans h.cq, h'.fused.trans h.fused⟩

theorem State.OnlyRead.foldl {β : Type} {f : State → β → State} (h : ∀ (s : State) (b : β), s.OnlyRead (f s b))
    (l : List β) (s : State) : s.OnlyRead (l.foldl f s) := by
  induction l generalizing s with
  | nil => exact .refl s
  | cons b l ih => exact (h s b).trans (ih (f s b))

theorem State.OnlyRead.memOpen {s s' : State} (h : s.OnlyRead s') (k : Nat) : s'.memOpen k = s.memOpen k := by
  unfold State.memOpen State.gateOf State.fenced State.fenceOf
  rw [h.gate, h.fences, h.fused]

theorem State.OnlyRead.hasUe {s s' : State} (h : s.OnlyRead s') (k n : Nat) : s'.mem.hasUe k n = s.mem.hasUe k n := by
  unfold Mem.hasUe
  rw [h.ue]

theorem State.OnlyRead.vec {s s' : State} (h : s.OnlyRead s') {w : Nat} (k n : Nat) :
    (s'.mem.vec k n : BitVec w) = s.mem.vec k n := by
  unfold Mem.vec Mem.byte
  rw [h.bytes]

/-! ## The steps of a read -/

theorem State.onlyRead_of_mem_tiles {s s' : State} (hbytes : s'.mem.bytes = s.mem.bytes) (htiles : s'.tiles = s.tiles)
    (hue : s'.mem.ue = s.mem.ue) (hslices : s'.mem.slices = s.mem.slices) (hgate : s'.mem.gate = s.mem.gate)
    (hts : s'.ts = s.ts) (hrt : s'.rt = s.rt) (hrc : s'.rc = s.rc) (hcq : s'.cq = s.cq) (hfused : s'.fused = s.fused) :
    s.OnlyRead s' :=
  ⟨.of_bytes hbytes htiles, hbytes, hue, hslices, hgate, by rw [hts], hrt, hrc, hcq, hfused⟩

theorem State.onlyRead_cause (s : State) (b c d u k : Nat) : s.OnlyRead (s.cause b c d u k) := by
  obtain ⟨_, h⟩ := s.cause_eq b c d u k
  rw [h]
  exact State.onlyRead_of_mem_tiles rfl rfl rfl rfl rfl rfl rfl rfl rfl rfl

theorem State.onlyRead_memCause (s : State) (b key cycle : Nat) : s.OnlyRead (s.memCause b key cycle) := by
  unfold State.memCause
  split
  · exact s.onlyRead_cause _ _ _ _ _
  · exact s.onlyRead_cause _ _ _ _ _

theorem State.onlyRead_countTile (s : State) (t ev n : Nat) : s.OnlyRead (s.countTile t ev n) := by
  have hkeeps := (s.countsOnly_countTile t ev n).keeps
  obtain ⟨_, h⟩ := s.countTile_eq t ev n
  rw [h] at hkeeps ⊢
  exact ⟨hkeeps, rfl, rfl, rfl, rfl, rfl, rfl, rfl, rfl, rfl⟩

theorem State.onlyRead_ceHold (s : State) (k n : Nat) : s.OnlyRead (s.ceHold k n) := by
  unfold State.ceHold
  split
  · exact .refl s
  · obtain ⟨_, h⟩ := State.countEvent_eq
      (s.modDie (dieOf k) fun r => { r with ceCount := r.ceCount + BitVec.ofNat 32 n }) 1 (dieOf k) 0x0107 n
    rw [h]
    exact State.onlyRead_of_mem_tiles rfl rfl rfl rfl rfl rfl rfl rfl rfl rfl

theorem State.onlyRead_ueHold (s : State) (k n kind : Nat) : s.OnlyRead (s.ueHold k n kind) :=
  State.onlyRead_of_mem_tiles rfl rfl rfl rfl rfl rfl rfl rfl rfl rfl

theorem State.onlyRead_noteStoreUe (s : State) (t w : Nat) : s.OnlyRead (s.noteStoreUe t w) := by
  refine ⟨s.keeps_modTile t ?_, rfl, rfl, rfl, rfl, rfl, rfl, rfl, rfl, rfl⟩
  split <;> rfl

/-- A halt of the clocks, a stop's report and its cause are not seen by a read. -/
theorem State.hazard_fences (s : State) (t c cy d a : Nat) : (s.hazard t c cy d a).ts.fences = s.ts.fences := by
  unfold State.hazard
  split_ifs
  · show (State.cause _ _ _ _ _ _).ts.fences = _
    rw [State.cause_ts]
    rfl
  · rfl
  · rfl
  · rfl

theorem State.onlyRead_hazard (s : State) (t c cy d a : Nat) : s.OnlyRead (s.hazard t c cy d a) := by
  have hkeeps := s.keeps_hazard t c cy d a
  have hfences := s.hazard_fences t c cy d a
  obtain ⟨_, _, _, _, _, h⟩ := s.hazard_eq t c cy d a
  rw [h] at hkeeps hfences ⊢
  exact ⟨hkeeps, rfl, rfl, rfl, rfl, hfences, rfl, rfl, rfl, rfl⟩

theorem State.onlyRead_nearRead (s : State) (k cycle margin : Nat) : s.OnlyRead (s.nearRead k cycle margin) := by
  unfold State.nearRead
  split
  · exact s.onlyRead_hazard _ _ _ _ _
  · exact .refl s

/-! ## A read -/

/-- The part after the corrections of a read have been counted. -/
def State.readCounted (s : State) (k n : Nat) : State :=
  let c := s.mem.ceWords k n
  if inStores (offsetOf k) && c != 0 then (s.ceHold k c).countTile (storeTile k) 0x000E c else s.ceHold k c

theorem State.onlyRead_readCounted (s : State) (k n : Nat) : s.OnlyRead (s.readCounted k n) := by
  unfold State.readCounted
  dsimp only
  split
  · exact (s.onlyRead_ceHold _ _).trans (State.onlyRead_countTile _ _ _ _)
  · exact s.onlyRead_ceHold _ _

/-- The events of an uncorrectable word that a read meets. -/
def State.readBad (s : State) (k n cycle : Nat) : State :=
  let s := (s.ueHold k 1 0).memCause cUncorrectable k cycle
  let b := s.bell.ueBlocks
  let b := if b.contains (k / 65536) then b else b ++ [k / 65536]
  let s := { s with bell := { s.bell with ueBlocks := b } }
  if inStores (offsetOf k) then
    List.foldl (fun s w => s.noteStoreUe (storeTile k) w) s ((wordsOf k n).filter fun w => s.mem.ue.contains w)
  else s

theorem State.onlyRead_readBad (s : State) (k n cycle : Nat) : s.OnlyRead (s.readBad k n cycle) := by
  unfold State.readBad
  dsimp only
  have hcause : s.OnlyRead ((s.ueHold k 1 0).memCause cUncorrectable k cycle) :=
    (s.onlyRead_ueHold k 1 0).trans (State.onlyRead_memCause _ _ _ _)
  generalize (s.ueHold k 1 0).memCause cUncorrectable k cycle = s1 at hcause
  have hblocks (b : List Nat) : s.OnlyRead { s1 with bell := { s1.bell with ueBlocks := b } } :=
    hcause.trans (State.onlyRead_of_mem_tiles rfl rfl rfl rfl rfl rfl rfl rfl rfl rfl)
  split
  · exact (hblocks _).trans (.foldl (fun s w => s.onlyRead_noteStoreUe _ w) _ _)
  · exact hblocks _

theorem State.readMem_eq {w : Nat} (s : State) (k n cycle : Nat) : (s.readMem k n cycle : ReadResult w) =
    if s.memOpen k then
      if (s.readCounted k n).mem.hasUe k n then ⟨0, (s.readCounted k n).readBad k n cycle⟩
      else ⟨(s.readCounted k n).mem.vec k n, s.readCounted k n⟩
    else ⟨0, s⟩ := rfl

/-- A read delivers the bytes, or zeros from a place that is not open or has an uncorrectable word. -/
theorem State.readMem_spec {w : Nat} (s : State) (k n cycle : Nat) :
    s.OnlyRead (s.readMem k n cycle : ReadResult w).state ∧ (s.readMem k n cycle : ReadResult w).data =
      if s.memOpen k = true ∧ s.mem.hasUe k n = false then s.mem.vec k n else 0 := by
  have hcount := s.onlyRead_readCounted k n
  rw [State.readMem_eq, hcount.hasUe, hcount.vec]
  cases s.memOpen k with
  | false => exact ⟨.refl s, by simp⟩
  | true =>
    cases s.mem.hasUe k n with
    | false => exact ⟨hcount, by simp⟩
    | true => exact ⟨hcount.trans (State.onlyRead_readBad _ _ _ _), by simp⟩

/-! ## Bytes and lanes of what is read -/

theorem byteOf_vec (m : Mem) (k n i : Nat) (hi : i < n) {w : Nat} (hw : 8 * n ≤ w) :
    byteOf (m.vec k n : BitVec w) i = m.byte (k + i) :=
  extract_packFields 8 n i (by decide) _ hi hw

theorem lane_vec (m : Mem) (k n : Nat) (hn : n < 64) : lane (m.vec k 256) n = m.vec (k + 4 * n) 4 := by
  apply BitVec.eq_of_getLsbD_eq
  intro i hi
  unfold lane Mem.vec
  rw [BitVec.getLsbD_extractLsb', getLsbD_packFields 8 256 (by decide), getLsbD_packFields 8 4 (by decide)]
  have hdiv : (32 * n + i) / 8 = 4 * n + i / 8 := by omega
  have hmod : (32 * n + i) % 8 = i % 8 := by omega
  have hin : 32 * n + i < 2048 := by omega
  rw [hdiv, hmod, decide_eq_true hi, decide_eq_true hin, Nat.add_assoc]
  rfl

theorem lane_zero (n : Nat) : lane 0#2048 n = 0#32 := by
  simp [lane]

theorem byteOf_zero {w : Nat} (n : Nat) : byteOf (0 : BitVec w) n = 0 := by
  simp [byteOf]

end Sys2Proof.Machine
end

section
/-! PROOFS. Puts and gets that have reached their part, and the get list (R36, R203, R266 to R269). -/

namespace Sys2Proof.Machine

/-! ## Packets that a part holds -/

/-- The part holds this packet: in its inbox, at a router, or kept back while it drains. -/
def State.HoldsPacket (s : State) (q : Packet) : Prop :=
  q ∈ s.rt.inbox ∨ ∃ e, (e ∈ s.rt.queue ∨ e ∈ s.rt.kept) ∧ e.packet = q

theorem State.HoldsPacket.of_rt {s s' : State} {q : Packet} (h : s.HoldsPacket q) (hinbox : s'.rt.inbox = s.rt.inbox)
    (hqueue : s'.rt.queue = s.rt.queue) (hkept : s'.rt.kept = s.rt.kept) : s'.HoldsPacket q := by
  unfold State.HoldsPacket
  rw [hinbox, hqueue, hkept]
  exact h

/-- A packet handed over is held, and so is every other that was. -/
theorem State.holdsPacket_inject (s : State) (port : BitVec 4) (p : Packet) :
    (s.inject port p).HoldsPacket p ∧ ∀ q, s.HoldsPacket q → (s.inject port p).HoldsPacket q := by
  unfold State.inject
  split
  · exact ⟨.inl (List.mem_append_right _ List.mem_cons_self), fun q h => h.imp_left (List.mem_append_left _)⟩
  · next k _ =>
    dsimp only
    split
    · refine ⟨.inr ⟨_, .inr (List.mem_append_right _ List.mem_cons_self), rfl⟩, fun q h => h.imp_right ?_⟩
      exact fun ⟨e, he, hq⟩ => ⟨e, he.imp_right (List.mem_append_left _), hq⟩
    · obtain ⟨cnt, h⟩ := State.countEvent_eq { s with rt := { s.rt with queue := s.rt.queue ++
          [{ die := BitVec.ofNat 2 k, port := port, arrival := s.rt.now, packet := p }] } } 3 k 0x0307 1
      rw [h]
      refine ⟨.inr ⟨_, .inl (List.mem_append_right _ List.mem_cons_self), rfl⟩, fun q h => h.imp_right ?_⟩
      exact fun ⟨e, he, hq⟩ => ⟨e, he.imp_left (List.mem_append_left _), hq⟩

theorem State.keeps_inject (s : State) (port : BitVec 4) (p : Packet) : s.keeps (s.inject port p) := by
  obtain ⟨_, _, _, _, h⟩ := s.inject_eq port p
  rw [h]
  exact s.keeps_withSent _ _ _ _ _

theorem State.keeps_takePacket (s : State) (p : Packet) : s.keeps (s.takePacket p) := State.keeps_of_mem_tiles rfl rfl

/-! ## Puts -/

theorem exec_putPacket_of_put {p : Packet} (h : p.kind = 1) (s : State) : exec (.putPacket p) s = .next
    ((s.takePacket p).addPiece
      (s.pieceOf ((p.rest.extractLsb' 0 8).setWidth 11) (p.rest.extractLsb' 8 10) (bit p.rest 18) p.source p)) :=
  congrArg Host.Outcome.next (if_pos (beq_iff_eq.2 h))

theorem exec_putPacket_of_other {p : Packet} (h : p.kind ≠ 1) (s : State) : exec (.putPacket p) s = .next s :=
  congrArg Host.Outcome.next (if_neg (by rw [beq_eq_false_iff_ne.2 h]; decide))

/-! ## Get requests -/

/-- The local key of the granule that a GET_REQ names. -/
def getKey (p : Packet) : Nat := (p.rest.extractLsb' 0 2).toNat * 2 ^ 35 + 256 * (p.rest.extractLsb' 2 27).toNat

/-- The request is the oldest in the inbox. -/
def State.OldestGet (s : State) (p : Packet) : Prop :=
  p.kind = 2 ∧ ∀ q, s.rt.inbox.find? (fun q => q.kind == 2) = some q → q = p

theorem State.oldestGet_iff (s : State) (p : Packet) :
    (p.kind == 2 && (s.rt.inbox.find? fun q => q.kind == 2).all fun q => q == p) = true ↔ s.OldestGet p := by
  unfold State.OldestGet
  cases s.rt.inbox.find? fun q => q.kind == 2 <;> simp

/-- The part as a get's read finds it: the request taken, a write too near reported. -/
def State.getTaken (s : State) (p : Packet) (now : Nat) : State :=
  (s.takePacket p).nearRead (getKey p) now (s.takePacket p).getMargin

theorem State.onlyRead_getTaken (s : State) (p : Packet) (now : Nat) :
    (s.takePacket p).OnlyRead (s.getTaken p now) :=
  State.onlyRead_nearRead _ _ _ _

theorem exec_getReq_of_not_oldest {s : State} {p : Packet} (h : ¬s.OldestGet p) (now : Nat) :
    exec (.getReq p now) s = .next s :=
  congrArg Host.Outcome.next (if_neg (mt (s.oldestGet_iff p).1 h))

theorem exec_getReq_of_layer {s : State} {p : Packet} (h : s.OldestGet p) (hl : inLayers (offsetOf (getKey p)) = true)
    (now : Nat) : exec (.getReq p now) s = .next ((s.getTaken p now).queueRead
      { arrival := now, port := 259 + (s.getTaken p now).arrivalDie p, tile := none, addr := getKey p, size := .granule
        dest := .get p }) :=
  congrArg Host.Outcome.next ((if_pos ((s.oldestGet_iff p).2 h)).trans (if_pos hl))

/-- The response that a read's result makes. -/
def State.readResponse (s : State) (p : Packet) (now : Nat) : State :=
  let r : ReadResult 2048 := s.readMem (getKey p) 256 now
  r.state.getResponse p r.data (s.memOpen (getKey p) && s.mem.hasUe (getKey p) 256)

theorem exec_getReq_of_store {s : State} {p : Packet} (h : s.OldestGet p)
    (hl : inLayers (offsetOf (getKey p)) = false) (now : Nat) :
    exec (.getReq p now) s = .next ((s.getTaken p now).readResponse p now) :=
  congrArg Host.Outcome.next ((if_pos ((s.oldestGet_iff p).2 h)).trans (if_neg (by
    show ¬inLayers (offsetOf (getKey p)) = true
    rw [hl]; decide)))

/-- The fields of a GET_RESP stand apart. -/
theorem getResp_fields (a : BitVec 8) (b : BitVec 17) (e : Bool) :
    let r : BitVec 55 := a.setWidth 55 ||| (b.setWidth 55 <<< (8 : Nat)) ||| ((ofBit e).setWidth 55 <<< (25 : Nat))
    r.extractLsb' 0 8 = a ∧ r.extractLsb' 8 17 = b ∧ bit r 25 = e := by
  intro r
  refine ⟨?_, ?_, ?_⟩
  · apply BitVec.eq_of_getLsbD_eq
    intro i hi
    have h8 : i < 55 := by omega
    have h25 : i < 25 := by omega
    simp [r, hi, h8, h25]
  · apply BitVec.eq_of_getLsbD_eq
    intro i hi
    have h55 : 8 + i < 55 := by omega
    have h25 : 8 + i < 25 := by omega
    simp [r, hi, h55, h25]
  · simp [r, bit, ofBit]

/-- What a response carries, and that the part hands it over. -/
theorem State.getResponse_spec (s : State) (p : Packet) (data : Vec) (error : Bool) :
    s.keeps (s.getResponse p data error) ∧
    ∃ q, (s.getResponse p data error).HoldsPacket q ∧ q.kind = 3 ∧ q.cls = 2 ∧ q.dest = p.source ∧
      q.source = s.rc.address ∧ q.slice = s.rt.slice ∧ q.tagBell = p.tagBell ∧ q.tagAttempt = p.tagAttempt ∧
      q.rest.extractLsb' 0 8 = p.rest.extractLsb' 29 8 ∧ q.rest.extractLsb' 8 17 = p.rest.extractLsb' 37 17 ∧
      bit q.rest 25 = error ∧ q.payload = data := by
  obtain ⟨hregion, htag, herror⟩ := getResp_fields (getRegion p) (getTag p) error
  exact ⟨s.keeps_inject _ _, _, (s.holdsPacket_inject _ _).1, rfl, rfl, rfl, rfl, rfl, rfl, rfl, hregion, htag, herror,
    rfl⟩

/-- A request served from a tile store is answered at once with its bytes, or with zeros and the error bit. -/
theorem State.readResponse_spec (s : State) (p : Packet) (now : Nat) :
    s.keeps (s.readResponse p now) ∧ ∃ q, (q.kind = 3 ∧ q.cls = 2 ∧ q.dest = p.source ∧ q.tagBell = p.tagBell ∧
      q.tagAttempt = p.tagAttempt ∧ q.rest.extractLsb' 0 8 = p.rest.extractLsb' 29 8 ∧
      q.rest.extractLsb' 8 17 = p.rest.extractLsb' 37 17 ∧
      bit q.rest 25 = (s.memOpen (getKey p) && s.mem.hasUe (getKey p) 256) ∧
      ∀ n, n < 256 → byteOf q.payload n =
        if s.memOpen (getKey p) = true ∧ s.mem.hasUe (getKey p) 256 = false then s.mem.byte (getKey p + n) else 0) ∧
      q.source = s.rc.address ∧ q.slice = s.rt.slice ∧ (s.readResponse p now).HoldsPacket q := by
  unfold State.readResponse
  obtain ⟨hread, hdata⟩ := State.readMem_spec (w := 2048) s (getKey p) 256 now
  generalize (s.readMem (getKey p) 256 now : ReadResult 2048) = r at hread hdata ⊢
  obtain ⟨hkeeps, q, hheld, hkind, hcls, hdest, hsource, hslice, hbell, hattempt, hregion, htag, herror, hpayload⟩ :=
    r.state.getResponse_spec p r.data (s.memOpen (getKey p) && s.mem.hasUe (getKey p) 256)
  refine ⟨hread.keeps.trans hkeeps, q, ⟨hkind, hcls, hdest, hbell, hattempt, hregion, htag, herror, fun n hn => ?_⟩,
    by rw [hsource, hread.rc], by rw [hslice, hread.rt], hheld⟩
  rw [hpayload, hdata]
  split
  · exact byteOf_vec _ _ _ _ hn (by decide)
  · exact byteOf_zero n

/-! ## Get responses -/

/-- Transaction tag and region of a GET_RESP. -/
def respKey (p : Packet) : Nat × BitVec 8 := ((p.rest.extractLsb' 8 17).toNat, p.rest.extractLsb' 0 8)

/-- The get that a response answers is no longer outstanding. -/
def State.answered (s : State) (p : Packet) : State :=
  { s with rt := { s.rt with outstanding := s.rt.outstanding.erase (respKey p) } }

/-- UNCORRECTABLE at the I/O die on which a response came. -/
def State.respError (s : State) (p : Packet) : State :=
  s.cause cUncorrectable (s.ioCount (s.arrivalDie p)) 0 0 3

/-- What a response of the lesson marks before its piece goes to its region. -/
def State.respTaken (s : State) (p : Packet) : State :=
  let now := s.tagNow p.tagBell p.tagAttempt
  let s := if now then s.answered p else s
  if now && bit p.rest 25 then s.respError p else s

theorem exec_getResp_of_outstanding {s : State} {p : Packet} (h : p.kind = 3) (ho : respKey p ∈ s.rt.outstanding) :
    exec (.getResp p) s = .next (((s.takePacket p).respTaken p).addPiece (((s.takePacket p).respTaken p).pieceOf
      ((p.rest.extractLsb' 0 8).setWidth 11) 0 true p.source p)) :=
  congrArg Host.Outcome.next ((if_pos (beq_iff_eq.2 h)).trans (if_pos (List.contains_iff_mem.2 ho)))

theorem exec_getResp_of_unknown {s : State} {p : Packet} (h : p.kind = 3) (ho : respKey p ∉ s.rt.outstanding) :
    exec (.getResp p) s = .next ((s.takePacket p).otherDrop ((s.takePacket p).arrivalDie p)) :=
  congrArg Host.Outcome.next ((if_pos (beq_iff_eq.2 h)).trans (if_neg (mt List.contains_iff_mem.1 ho)))

theorem exec_getResp_of_other {p : Packet} (h : p.kind ≠ 3) (s : State) : exec (.getResp p) s = .next s :=
  congrArg Host.Outcome.next (if_neg (by rw [beq_eq_false_iff_ne.2 h]; decide))

/-- What a response leaves beside its piece. -/
theorem State.respTaken_spec (s : State) (p : Packet) :
    s.keeps (s.respTaken p) ∧ (s.respTaken p).rt.inbox = s.rt.inbox ∧ (s.respTaken p).cq = s.cq ∧
    (s.tagNow p.tagBell p.tagAttempt = true → (s.respTaken p).rt.outstanding = s.rt.outstanding.erase (respKey p) ∧
      (bit p.rest 25 = true → s.causeOpen = true → bit (s.respTaken p).bell.lessonCauses 6 = true)) ∧
    (s.tagNow p.tagBell p.tagAttempt = false → (s.respTaken p).rt.outstanding = s.rt.outstanding) := by
  unfold State.respTaken
  cases s.tagNow p.tagBell p.tagAttempt with
  | false => exact ⟨.refl s, rfl, rfl, nofun, fun _ => rfl⟩
  | true =>
    cases hbit : bit p.rest 25 with
    | false => exact ⟨State.keeps_of_mem_tiles rfl rfl, rfl, rfl, fun _ => ⟨rfl, nofun⟩, nofun⟩
    | true =>
      have hmark : s.causeOpen = true → bit ((s.answered p).respError p).bell.lessonCauses 6 = true := fun hopen =>
        State.bit_cause (s.answered p) (by decide) _ _ _ _ hopen
      have hread : (s.answered p).OnlyRead ((s.answered p).respError p) := State.onlyRead_cause _ _ _ _ _ _
      show s.keeps ((s.answered p).respError p) ∧ ((s.answered p).respError p).rt.inbox = _ ∧
        ((s.answered p).respError p).cq = _ ∧ (_ → ((s.answered p).respError p).rt.outstanding = _ ∧ _) ∧ _
      rw [hread.rt, hread.cq]
      exact ⟨State.keeps.trans (State.keeps_of_mem_tiles rfl rfl) hread.keeps, rfl, rfl,
        fun _ => ⟨rfl, fun _ => hmark⟩, nofun⟩

/-! ## The get list -/

/-- The get list of the lesson in progress. -/
def State.getList (s : State) (im : Image) : List Byte := sectionBytes im 0x07 s.member s.bell.index

theorem exec_getReqIssue_of_due {s : State} {im : Image} {i n : Nat} (him : s.job.image = some im)
    (hp : s.bell.phase = .lesson) (hm : s.isMember = true)
    (hnext : getEntry (s.getList im) s.rt.getIssued ((s.getList im).length / 16) 0 = some (i, n))
    (hdue : natAt (s.getList im) (16 * i) 3 ≤ s.ts.now.ticks) (now : Nat) :
    exec (.getReqIssue now) s = .next ((s.atCycle now).issueGet (s.getList im) i n) := by
  have hexec : exec (.getReqIssue now) s = execGetReqIssue now s := rfl
  unfold State.getList at *
  rw [hexec, execGetReqIssue, him]
  dsimp only
  rw [hp, hm, if_pos (by rfl), hnext]
  exact congrArg Host.Outcome.next (if_pos hdue)

theorem exec_getReqIssue_of_no_image {s : State} (him : s.job.image = none) (now : Nat) :
    exec (.getReqIssue now) s = .next s := by
  have hexec : exec (.getReqIssue now) s = execGetReqIssue now s := rfl
  rw [hexec, execGetReqIssue, him]

theorem exec_getReqIssue_of_not_due {s : State} {im : Image} (him : s.job.image = some im)
    (h : s.bell.phase ≠ .lesson ∨ s.isMember = false ∨
      getEntry (s.getList im) s.rt.getIssued ((s.getList im).length / 16) 0 = none ∨
      ∃ i n, getEntry (s.getList im) s.rt.getIssued ((s.getList im).length / 16) 0 = some (i, n) ∧
        s.ts.now.ticks < natAt (s.getList im) (16 * i) 3) (now : Nat) :
    exec (.getReqIssue now) s = .next s := by
  have hexec : exec (.getReqIssue now) s = execGetReqIssue now s := rfl
  unfold State.getList at *
  rw [hexec, execGetReqIssue, him]
  dsimp only
  split
  · next hrun =>
    obtain ⟨hp, hm⟩ := Bool.and_eq_true_iff.1 hrun
    rcases h with h | h | h | ⟨i, n, h, hlate⟩
    · exact absurd (eq_of_beq hp) h
    · exact absurd hm (by rw [h]; decide)
    · rw [h]
    · rw [h]
      exact congrArg Host.Outcome.next (if_neg (Nat.not_le.2 hlate))
  · rfl

/-- The part with the next granule of the get list outstanding. -/
def State.getNext (s : State) (b : List Byte) (i : Nat) : State :=
  { s with rt := { s.rt with
      getIssued := s.rt.getIssued + 1, nextTag := (s.rt.nextTag + 1) % 131072
      outstanding := s.rt.outstanding ++ [(s.rt.nextTag, BitVec.ofNat 8 (natAt b (16 * i + 10) 1))] } }

/-- The GET_REQ of a granule of the get list. -/
def State.getPacket (s : State) (b : List Byte) (i n : Nat) (q : FabricAddr) : Packet :=
  let a := natAt b (16 * i + 3) 5 + 256 * n
  { s.header 2 1 q with rest := getRest (dieOf a) (offsetOf a) (natAt b (16 * i + 10) 1) s.rt.nextTag }

/-- The request that goes out for the next granule of the get list. -/
theorem State.issueGet_spec (s : State) (b : List Byte) (i n : Nat) {q : FabricAddr}
    (hpart : s.partAt ((natAt b (16 * i + 3) 5 + 256 * n) / 2 ^ 37 % 8) = some q) :
    s.keeps (s.issueGet b i n) ∧ (s.issueGet b i n).rt.getIssued = s.rt.getIssued + 1 ∧
    (s.issueGet b i n).rt.nextTag = (s.rt.nextTag + 1) % 131072 ∧
    (s.issueGet b i n).rt.outstanding =
      s.rt.outstanding ++ [(s.rt.nextTag, BitVec.ofNat 8 (natAt b (16 * i + 10) 1))] ∧
    ∃ x : Packet, (x.kind = 2 ∧ x.cls = 1 ∧ x.dest = q ∧ x.tagBell = s.bell.number.setWidth 8 ∧
      x.tagAttempt = s.bell.attempt) ∧ x.source = s.rc.address ∧ x.slice = s.rt.slice ∧
      (s.issueGet b i n).HoldsPacket x := by
  have hissue : s.issueGet b i n = (s.getNext b i).inject 15 (s.getPacket b i n q) := by
    unfold State.issueGet
    dsimp only
    change (match s.partAt _ with | none => _ | some q => _) = _
    rw [hpart]
    rfl
  obtain ⟨_, _, _, _, heq⟩ := (s.getNext b i).inject_eq 15 (s.getPacket b i n q)
  have hheld := ((s.getNext b i).holdsPacket_inject 15 (s.getPacket b i n q)).1
  rw [hissue]
  refine ⟨State.keeps.trans (State.keeps_of_mem_tiles rfl rfl) (State.keeps_inject _ _ _), ?_, ?_, ?_, _,
    ⟨rfl, rfl, rfl, rfl, rfl⟩, rfl, rfl, hheld⟩
  · rw [heq]; rfl
  · rw [heq]; rfl
  · rw [heq]; rfl

end Sys2Proof.Machine
end

section
/-! PROOFS. Multicasts and rings at their part (R270 to R273, R277). -/

namespace Sys2Proof.Machine

/-! ## Multicasts -/

/-- Nothing leaves a link's queue, no link changes its phase, and no router another exit. -/
structure State.LinksGrow (s s' : State) : Prop where
  phase : ∀ k, (s'.link k).phase = (s.link k).phase
  queue : ∀ k, ∀ q ∈ (s.link k).txQueue, q ∈ (s'.link k).txQueue
  exit : ∀ d negative p, (s'.router d).exit d negative p = (s.router d).exit d negative p
  rc : s'.rc = s.rc

theorem State.LinksGrow.trans {s t u : State} (h : s.LinksGrow t) (h' : t.LinksGrow u) : s.LinksGrow u :=
  ⟨fun k => (h'.phase k).trans (h.phase k), fun k q hq => h'.queue k q (h.queue k q hq),
    fun d n p => (h'.exit d n p).trans (h.exit d n p), h'.rc.trans h.rc⟩

theorem State.linksGrow_otherDrop (s : State) (die : Nat) : s.LinksGrow (s.otherDrop die) := by
  refine ⟨fun _ => rfl, fun _ _ h => h, fun d negative p => ?_, rfl⟩
  by_cases hd : d = die
  · have hr : (s.otherDrop die).router d = { s.router d with otherDrops := (s.router d).otherDrops + 1 } := by
      simp [hd, State.otherDrop, State.router]
    rw [hr]
    rfl
  · have hr : (s.otherDrop die).router d = s.router d :=
      tabGet_tabMod_other Router.reset s.rt.routers (fun r => { r with otherDrops := r.otherDrops + 1 }) hd
    rw [hr]

theorem State.linksGrow_enqueue (s : State) (l : Nat) (p : Packet) :
    s.LinksGrow (s.setLink l { s.link l with txQueue := (s.link l).txQueue ++ [p] }) := by
  refine ⟨fun k => ?_, fun k q hq => ?_, fun _ _ _ => rfl, rfl⟩
  · by_cases hk : k = l
    · rw [hk, State.setLink_link_same]
    · rw [State.setLink_link_other _ _ hk]
  · by_cases hk : k = l
    · rw [hk, State.setLink_link_same]
      exact List.mem_append_left _ (hk ▸ hq)
    · rwa [State.setLink_link_other _ _ hk]

/-- A packet sent over an ACTIVE link joins its queue. -/
theorem State.sendLink_spec (s : State) (l : Nat) (p : Packet) :
    s.LinksGrow (s.sendLink l p) ∧ ((s.link l).phase = .active → p ∈ ((s.sendLink l p).link l).txQueue) := by
  unfold State.sendLink
  dsimp only
  split
  · next hdark =>
    refine ⟨s.linksGrow_otherDrop _, fun hactive => ?_⟩
    rw [hactive] at hdark
    simp at hdark
  · refine ⟨s.linksGrow_enqueue l p, fun _ => ?_⟩
    rw [State.setLink_link_same]
    exact List.mem_append_right _ List.mem_cons_self

/-- One hop of a multicast. -/
def mcastHop (p : Packet) (s : State) (h : Nat × Bool) : State :=
  s.hop h.1 h.2 (lastAxis p.source s.rc.address == some h.1) p

/-- The packet of a hop, on its virtual channel (R262). -/
def mcastSent (p : Packet) (s : State) (h : Nat × Bool) : Packet :=
  let vc : BitVec 1 := if crossesDateLine (s.router h.1) h.2 then 1
    else if lastAxis p.source s.rc.address == some h.1 then p.vc else 0
  { p with vc := vc }

theorem mcastHop_spec (p : Packet) (s : State) (h : Nat × Bool) :
    (∃ links routers, mcastHop p s h = { s with links := links, rt := { s.rt with routers := routers } }) ∧
    s.LinksGrow (mcastHop p s h) ∧
    let k := (s.router h.1).exit h.1 h.2 p
    ((s.link k).phase = .active → ∃ q ∈ ((mcastHop p s h).link k).txQueue, { q with vc := p.vc } = p) := by
  obtain ⟨hgrow, hqueued⟩ := s.sendLink_spec ((s.router h.1).exit h.1 h.2 p) (mcastSent p s h)
  exact ⟨s.sendLink_eq _ _, hgrow, fun hactive => ⟨_, hqueued hactive, rfl⟩⟩

/-- The hops of a multicast: each whose link is ACTIVE has the piece in its queue. -/
theorem mcastHops_spec (p : Packet) (l : List (Nat × Bool)) (s : State) :
    (∃ links routers, l.foldl (mcastHop p) s = { s with links := links, rt := { s.rt with routers := routers } }) ∧
    s.LinksGrow (l.foldl (mcastHop p) s) ∧
    ∀ h ∈ l, let k := (s.router h.1).exit h.1 h.2 p
      (s.link k).phase = .active → ∃ q ∈ ((l.foldl (mcastHop p) s).link k).txQueue, { q with vc := p.vc } = p := by
  induction l generalizing s with
  | nil => exact ⟨⟨s.links, s.rt.routers, rfl⟩, ⟨fun _ => rfl, fun _ _ h => h, fun _ _ _ => rfl, rfl⟩, nofun⟩
  | cons h l ih =>
    obtain ⟨⟨links, routers, heq⟩, hgrow, hqueued⟩ := mcastHop_spec p s h
    obtain ⟨⟨links', routers', heq'⟩, hgrow', hqueued'⟩ := ih (mcastHop p s h)
    refine ⟨⟨links', routers', ?_⟩, hgrow.trans hgrow', fun e he => ?_⟩
    · rw [List.foldl_cons, heq', heq]
    · intro k hactive
      rcases List.mem_cons.1 he with rfl | he
      · obtain ⟨q, hq, hp⟩ := hqueued hactive
        exact ⟨q, hgrow'.queue _ q hq, hp⟩
      · have hexit := hgrow.exit e.1 e.2 p
        have hlater := hqueued' e he
        dsimp only at hlater
        rw [hexit, hgrow.phase] at hlater
        exact hlater hactive

/-- Where a multicast goes on: a piece for the part, unless this is the root. -/
def State.mcastTaken (s : State) (p : Packet) : State :=
  if p.source == s.rc.address then s.takePacket p
  else (s.takePacket p).addPiece
    ((s.takePacket p).pieceOf ((p.rest.extractLsb' 0 8).setWidth 11) 0 true p.source p)

theorem exec_mcast_of_kept {s : State} {p : Packet} (hk : p.kind = 4) (hu : p.untagged = true)
    (ho : p.source = s.rc.address) (hd : s.rt.drain = true) : exec (.mcast p) s = .next
      { s.takePacket p with rt := { (s.takePacket p).rt with
          kept := s.rt.kept ++ [{ die := 0, port := 15, arrival := s.rt.now, packet := p }] } } :=
  congrArg Host.Outcome.next (if_pos (by simp [hk, hu, ho, hd]))

theorem exec_mcast_of_sent {s : State} {p : Packet} (hk : p.kind = 4) (hu : p.untagged = true)
    (hm : s.mayTransfer = true) (ho : p.source = s.rc.address → s.rt.drain = false) : exec (.mcast p) s =
      .next ((s.treeHops p.source (mcastLow p) (mcastHigh p)).foldl (mcastHop p) (s.mcastTaken p)) := by
  have hkeep : ¬(p.kind == 4 && p.untagged && (p.source == s.rc.address) && s.rt.drain) = true := by
    simp only [Bool.and_eq_true, beq_iff_eq]
    rintro ⟨⟨-, hown⟩, hdrain⟩
    rw [ho hown] at hdrain
    exact absurd hdrain (by decide)
  have hgo : (p.kind == 4 && p.untagged && s.mayTransfer) = true := by simp [hk, hu, hm]
  have hexec : exec (.mcast p) s = execMcast p s := rfl
  rw [hexec]
  unfold execMcast State.mcastTaken
  dsimp only
  rw [if_neg hkeep, if_pos hgo]
  cases p.source == s.rc.address <;> rfl

theorem exec_mcast_of_other {s : State} {p : Packet} (h : p.kind ≠ 4 ∨ p.untagged = false ∨
    (s.mayTransfer = false ∧ (p.source ≠ s.rc.address ∨ s.rt.drain = false))) : exec (.mcast p) s = .next s := by
  have hkeep : ¬(p.kind == 4 && p.untagged && (p.source == s.rc.address) && s.rt.drain) = true := by
    rcases h with h | h | ⟨-, h | h⟩ <;> simp_all
  have hgo : ¬(p.kind == 4 && p.untagged && s.mayTransfer) = true := by
    rcases h with h | h | ⟨h, -⟩ <;> simp_all
  exact congrArg Host.Outcome.next ((if_neg hkeep).trans (if_neg hgo))

/-- What a multicast that goes on leaves, and the piece that it brings. -/
theorem State.mcastTaken_spec (s : State) (p : Packet) :
    s.keeps (s.mcastTaken p) ∧ (s.mcastTaken p).rt = (s.takePacket p).rt ∧ (s.mcastTaken p).links = s.links ∧
    (p.source = s.rc.address → (s.mcastTaken p).cq = s.cq) ∧
    (p.source ≠ s.rc.address → (s.mcastTaken p).cq.pieces = s.cq.pieces ++
      [s.pieceOf ((p.rest.extractLsb' 0 8).setWidth 11) 0 true p.source p]) := by
  unfold State.mcastTaken
  split
  · next h => exact ⟨s.keeps_takePacket p, rfl, rfl, fun _ => rfl, fun hn => absurd (eq_of_beq h) hn⟩
  · next h => exact ⟨State.keeps_of_mem_tiles rfl rfl, rfl, rfl, fun ho => absurd (beq_iff_eq.2 ho) h, fun _ => rfl⟩

end Sys2Proof.Machine
end

section
/-! PROOFS. Rings, and the packets of the fabric at their part (R36, R203, R213, R218, R266 to R273, R277). -/

namespace Sys2Proof.Machine

/-! ## What a ring sends -/

/-- Ring and piece of an RF packet stand apart. -/
theorem rf_fields (r k : Nat) :
    ((BitVec.ofNat 55 (r % 64 + 64 * (k % 65536))).extractLsb' 0 6).toNat = r % 64 ∧
    ((BitVec.ofNat 55 (r % 64 + 64 * (k % 65536))).extractLsb' 6 16).toNat = k % 65536 := by
  have hr := Nat.mod_lt r (show 0 < 64 by decide)
  have hk := Nat.mod_lt k (show 0 < 65536 by decide)
  simp only [BitVec.extractLsb'_toNat, BitVec.toNat_ofNat, Nat.shiftRight_eq_div_pow]
  omega

/-- Progress of a ring. -/
def State.ringRun (s : State) (r : Nat) : RingRun := tabGet .reset s.rt.ringRuns r

theorem State.modRing_same (s : State) (r : Nat) (f : RingRun → RingRun) :
    (s.modRing r f).ringRun r = f (s.ringRun r) :=
  tabGet_tabMod_same RingRun.reset s.rt.ringRuns r f

/-- What sending a piece leaves: memory, fences, the regions, the part's place and its slice, and what it holds. -/
structure State.RingSent (s s' : State) : Prop where
  keeps : s.keeps s'
  bytes : s'.mem.bytes = s.mem.bytes
  ue : s'.mem.ue = s.mem.ue
  memOpen : ∀ k, s'.memOpen k = s.memOpen k
  rc : s'.rc = s.rc
  cq : s'.cq = s.cq
  slice : s'.rt.slice = s.rt.slice
  held : ∀ q, s.HoldsPacket q → s'.HoldsPacket q

theorem State.RingSent.trans {s t u : State} (h : s.RingSent t) (h' : t.RingSent u) : s.RingSent u :=
  ⟨h.keeps.trans h'.keeps, h'.bytes.trans h.bytes, h'.ue.trans h.ue, fun k => (h'.memOpen k).trans (h.memOpen k),
    h'.rc.trans h.rc, h'.cq.trans h.cq, h'.slice.trans h.slice, fun q hq => h'.held q (h.held q hq)⟩

theorem State.RingSent.refl (s : State) : s.RingSent s := ⟨.refl s, rfl, rfl, fun _ => rfl, rfl, rfl, rfl, fun _ h => h⟩

theorem State.OnlyRead.ringSent {s s' : State} (h : s.OnlyRead s') : s.RingSent s' :=
  ⟨h.keeps, h.bytes, h.ue, h.memOpen, h.rc, h.cq, by rw [h.rt],
    fun _ hq => hq.of_rt (by rw [h.rt]) (by rw [h.rt]) (by rw [h.rt])⟩

/-- The RF packet of a piece. -/
def State.rfPacket (s : State) (r k : Nat) (d : RingDesc) (v : Vec) : Packet :=
  { s.header 5 3 (s.neighbour s.rc.address d.axis d.negative) with
    length := 256, rest := BitVec.ofNat 55 (r % 64 + 64 * (k % 65536)), payload := v }

theorem State.sendRing_spec (s : State) (r k : Nat) (d : RingDesc) (v : Vec) :
    s.RingSent (s.sendRing r k d v) ∧ (s.sendRing r k d v).HoldsPacket (s.rfPacket r k d v) ∧
    (s.sendRing r k d v).ringRun r = { s.ringRun r with sentPieces := (s.ringRun r).sentPieces + 1 } := by
  have hsend : s.sendRing r k d v =
      (s.modRing r fun x => { x with sentPieces := x.sentPieces + 1 }).inject 15 (s.rfPacket r k d v) := rfl
  obtain ⟨hheld, hold⟩ := State.holdsPacket_inject
    (s.modRing r fun x => { x with sentPieces := x.sentPieces + 1 }) 15 (s.rfPacket r k d v)
  have hrun := s.modRing_same r fun x => { x with sentPieces := x.sentPieces + 1 }
  obtain ⟨_, _, _, _, heq⟩ := State.inject_eq
    (s.modRing r fun x => { x with sentPieces := x.sentPieces + 1 }) 15 (s.rfPacket r k d v)
  rw [hsend]
  refine ⟨?_, hheld, ?_⟩
  · have hold' : ∀ q, s.HoldsPacket q → ((s.modRing r fun x => { x with sentPieces := x.sentPieces + 1 }).inject 15
        (s.rfPacket r k d v)).HoldsPacket q := fun q hq => hold q (hq.of_rt rfl rfl rfl)
    rw [heq] at hold' ⊢
    exact ⟨State.keeps_of_mem_tiles rfl rfl, rfl, rfl, fun _ => rfl, rfl, rfl, rfl, hold'⟩
  · rw [← hrun, heq]
    rfl

/-! ## The local operand -/

theorem State.ringLocal_spec (s : State) (d : RingDesc) (k now : Nat) :
    s.OnlyRead (s.ringLocal d k now).state ∧ (s.ringLocal d k now).data =
      if s.memOpen (d.base + 256 * k) = true ∧ s.mem.hasUe (d.base + 256 * k) 256 = false then
        s.mem.vec (d.base + 256 * k) 256 else 0 := by
  have hnear := s.onlyRead_nearRead (d.base + 256 * k) now s.ringMargin
  obtain ⟨hread, hdata⟩ := State.readMem_spec (w := 2048) (s.nearRead (d.base + 256 * k) now s.ringMargin)
    (d.base + 256 * k) 256 now
  rw [hnear.memOpen, hnear.hasUe, hnear.vec] at hdata
  exact ⟨hnear.trans hread, hdata⟩

/-- The sum at a middle or last part, lane by lane. -/
theorem State.ringSum_spec (s : State) (d : RingDesc) (k now : Nat) (v : Vec) :
    s.OnlyRead (s.ringSum d k now v).state ∧ ∀ n, n < 64 → lane (s.ringSum d k now v).data n =
      if s.memOpen (d.base + 256 * k) = true ∧ s.mem.hasUe (d.base + 256 * k) 256 = true then 0
      else ringAdd d.op (lane v n)
        (if s.memOpen (d.base + 256 * k) = true then s.mem.vec (d.base + 256 * k + 4 * n) 4 else 0) := by
  obtain ⟨hread, hdata⟩ := s.ringLocal_spec d k now
  refine ⟨hread, fun n hn => ?_⟩
  have hsum : (s.ringSum d k now v).data =
      if (s.memOpen (d.base + 256 * k) && s.mem.hasUe (d.base + 256 * k) 256) = true then 0
      else ofLanes fun n => ringAdd d.op (lane v n) (lane (s.ringLocal d k now).data n) := rfl
  rw [hsum, hdata]
  cases s.memOpen (d.base + 256 * k) with
  | false => simp [lane_ofLanes _ hn, lane_zero]
  | true =>
    cases s.mem.hasUe (d.base + 256 * k) 256 with
    | false => simp [lane_ofLanes _ hn, lane_vec _ _ _ hn]
    | true => simp [lane_zero]

/-! ## The start of a ring -/

/-- The pieces that the first part of a ring sends, from piece k on. -/
theorem State.sendPieces_spec (r : Nat) (d : RingDesc) (now n : Nat) (s : State) (k : Nat) :
    s.RingSent (s.sendPieces r d now k n) ∧
    ((s.sendPieces r d now k n).ringRun r) = { s.ringRun r with sentPieces := (s.ringRun r).sentPieces + n } ∧
    ∀ j, k ≤ j → j < k + n → ∃ q : Packet, q.kind = 5 ∧ q.cls = 3 ∧
      q.source = s.rc.address ∧ q.slice = s.rt.slice ∧
      (s.sendPieces r d now k n).HoldsPacket q ∧ q.dest = s.neighbour s.rc.address d.axis d.negative ∧
      q.rest = BitVec.ofNat 55 (r % 64 + 64 * (j % 65536)) ∧
      (s.mem.ue = [] → s.memOpen (d.base + 256 * j) = true → q.payload = s.mem.vec (d.base + 256 * j) 256) := by
  induction n generalizing s k with
  | zero => exact ⟨.refl s, rfl, fun j hj hj' => absurd hj' (Nat.not_lt.2 hj)⟩
  | succ n ih =>
    obtain ⟨hread, hdata⟩ := s.ringLocal_spec d k now
    obtain ⟨hsent, hheld, hrun⟩ := (s.ringLocal d k now).state.sendRing_spec r k d (s.ringLocal d k now).data
    have hstep := hread.ringSent.trans hsent
    obtain ⟨hrest, hrestRun, hpieces⟩ :=
      ih ((s.ringLocal d k now).state.sendRing r k d (s.ringLocal d k now).data) (k + 1)
    have hrunRead : (s.ringLocal d k now).state.ringRun r = s.ringRun r := by
      unfold State.ringRun; rw [hread.rt]
    have hnext : ∀ a axis negative, ((s.ringLocal d k now).state.sendRing r k d (s.ringLocal d k now).data).neighbour
        a axis negative = s.neighbour a axis negative := fun a axis negative => by
      unfold State.neighbour State.campus
      rw [hstep.rc]
    have hsend : s.sendPieces r d now k (n + 1) =
        ((s.ringLocal d k now).state.sendRing r k d (s.ringLocal d k now).data).sendPieces r d now (k + 1) n := rfl
    rw [hsend]
    refine ⟨hstep.trans hrest, ?_, fun j hj hj' => ?_⟩
    · rw [hrestRun, hrun, hrunRead, Nat.add_assoc, Nat.add_comm 1 n]
    · rcases Nat.eq_or_lt_of_le hj with rfl | hlt
      · refine ⟨_, rfl, rfl, ?_, ?_, hrest.held _ hheld, ?_, rfl, fun hue hopen => ?_⟩
        · show (s.ringLocal d k now).state.rc.address = _
          rw [hread.rc]
        · show (s.ringLocal d k now).state.rt.slice = _
          rw [hread.rt]
        · show (s.ringLocal d k now).state.neighbour (s.ringLocal d k now).state.rc.address d.axis d.negative = _
          unfold State.neighbour State.campus
          rw [hread.rc]
        · show (s.ringLocal d k now).data = _
          rw [hdata, if_pos ⟨hopen, by unfold Mem.hasUe; rw [hue]; simp⟩]
      · obtain ⟨q, hkind, hcls, hsource, hslice, hq, hdest, hfields, hpayload⟩ := hpieces j hlt (by omega)
        refine ⟨q, hkind, hcls, by rw [hsource, hstep.rc], by rw [hslice, hstep.slice], hq, ?_, hfields,
          fun hue hopen => ?_⟩
        · rw [hdest, hnext, hstep.rc]
        · rw [hpayload (hstep.ue.trans hue) ((hstep.memOpen _).trans hopen)]
          unfold Mem.vec Mem.byte
          rw [hstep.bytes]

end Sys2Proof.Machine
end

section
/-! PROOFS. The start of a ring, a partial sum over a link, and the packets of the fabric at their part (R36, R203,
R213, R218, R266 to R273, R277). -/

namespace Sys2Proof.Machine

/-! ## RING_START -/

/-- The first part of a ring may begin. -/
def State.RingBegun (s : State) (d : RingDesc) : Prop :=
  s.bell.phase = .lesson ∧ s.isMember = true ∧ d.role = 1 ∧ d.start ≤ s.ts.now.ticks

theorem exec_ringStart {s : State} {ring : BitVec 6} (now : Nat) :
    (¬s.RingBegun (s.ring ring.toNat) ∨ (s.ring ring.toNat).count ≤ (s.ringRun ring.toNat).sentPieces →
      exec (.ringStart ring now) s = .next s) ∧
    (s.RingBegun (s.ring ring.toNat) → (s.ringRun ring.toNat).sentPieces < (s.ring ring.toNat).count →
      exec (.ringStart ring now) s = .next ((s.atCycle now).sendPieces ring.toNat (s.ring ring.toNat) s.ts.now.ticks
        (s.ringRun ring.toNat).sentPieces
        ((s.ring ring.toNat).count - (s.ringRun ring.toNat).sentPieces))) := by
  have hiff : (s.bell.phase == .lesson && s.isMember && (s.ring ring.toNat).role = 1 &&
      (s.ring ring.toNat).start ≤ s.ioCount (s.ring ring.toNat).axis &&
      (tabGet .reset s.rt.ringRuns ring.toNat).sentPieces < (s.ring ring.toNat).count) = true ↔
      s.RingBegun (s.ring ring.toNat) ∧ (s.ringRun ring.toNat).sentPieces < (s.ring ring.toNat).count := by
    simp only [State.RingBegun, State.ringRun, Bool.and_eq_true, beq_iff_eq, decide_eq_true_iff, and_assoc]
    rfl
  refine ⟨fun h => congrArg Host.Outcome.next (if_neg fun hgo => ?_),
    fun hb hlt => congrArg Host.Outcome.next (if_pos (hiff.2 ⟨hb, hlt⟩))⟩
  obtain ⟨hb, hlt⟩ := hiff.1 hgo
  exact h.elim (absurd hb) (Nat.not_le.2 hlt)

/-! ## RF -/

/-- The packet is of the lesson in progress. -/
def State.RfLive (s : State) (p : Packet) : Prop :=
  p.kind = 5 ∧ s.tagNow p.tagBell p.tagAttempt = true ∧ s.bell.phase = .lesson

/-- The ring takes piece k that comes over the link. -/
def RingTakes (d : RingDesc) (k : Nat) (x : Link) : Prop := k < d.count ∧ d.op ≠ 3 ∧ (d.op = 2 → x.minor ≠ 0)

/-- Ring and piece number of an RF packet. -/
def rfRing (p : Packet) : Nat := (p.rest.extractLsb' 0 6).toNat
def rfPiece (p : Packet) : Nat := (p.rest.extractLsb' 6 16).toNat

theorem exec_rf_of_other {p : Packet} (h : p.kind ≠ 5) (l : BitVec 5) (s : State) : exec (.rf l p) s = .next s :=
  congrArg Host.Outcome.next (if_neg (by rw [beq_eq_false_iff_ne.2 h]; decide))

theorem exec_rf_of_stale {s : State} {p : Packet} (hk : p.kind = 5) (h : ¬s.RfLive p) (l : BitVec 5) :
    exec (.rf l p) s = .next (s.takePacket p).cqDiscard := by
  refine congrArg Host.Outcome.next ((if_pos (beq_iff_eq.2 hk)).trans (if_pos ?_))
  show (!s.tagNow p.tagBell p.tagAttempt || s.bell.phase != .lesson) = true
  rw [Bool.or_eq_true, Bool.not_eq_true', bne_iff_ne]
  by_contra hno
  obtain ⟨ht, hp⟩ := not_or.1 hno
  exact h ⟨hk, Bool.not_eq_false _ ▸ ht, not_not.1 hp⟩

theorem rf_bad_iff (d : RingDesc) (k : Nat) (x : Link) :
    (d.role = 0 || d.count ≤ k || (d.op = 2 && x.minor = 0) || d.op = 3) = true ↔ d.role = 0 ∨ ¬RingTakes d k x := by
  simp only [RingTakes, Bool.or_eq_true, Bool.and_eq_true, decide_eq_true_eq]
  constructor
  · rintro (((h | h) | h) | h)
    · exact .inl h
    · exact .inr fun ⟨hk, _⟩ => absurd hk (Nat.not_lt.2 h)
    · exact .inr fun ⟨_, _, hm⟩ => hm h.1 h.2
    · exact .inr fun ⟨_, ho, _⟩ => ho h
  · rintro (h | h)
    · exact .inl (.inl (.inl h))
    · by_contra hno
      simp only [not_or, not_and] at hno
      obtain ⟨⟨⟨-, hk⟩, hm⟩, ho⟩ := hno
      exact h ⟨Nat.not_le.1 hk, ho, hm⟩

/-- What a packet of the lesson does at its ring. -/
theorem exec_rf_of_live {s : State} {p : Packet} (h : s.RfLive p) (l : BitVec 5) :
    let d := s.ring (rfRing p)
    let taken := RingTakes d (rfPiece p) (s.link l.toNat)
    let q := (s.takePacket p).ringSum d (rfPiece p) s.ts.now.ticks p.payload
    let s' := q.state.modRing (rfRing p) fun x => { x with received := x.received + 1 }
    (d.role = 0 ∨ ¬taken → exec (.rf l p) s = .next ((s.takePacket p).ringBad l.toNat)) ∧
    (taken → d.role = 1 → exec (.rf l p) s = .next (s.takePacket p)) ∧
    (taken → d.role = 2 → exec (.rf l p) s = .next (s'.sendRing (rfRing p) (rfPiece p) d q.data)) ∧
    (taken → d.role = 3 → exec (.rf l p) s = .next (s'.addPiece
      { region := d.region.setWidth 11, data := q.data, part := s'.rc.address, tile := 0
        engine := true, firmware := false, untagged := false, tagBell := p.tagBell
        tagAttempt := p.tagAttempt, port := 259 + d.axis, arrival := none })) := by
  intro d taken q s'
  obtain ⟨hk, ht, hp⟩ := h
  have hlive : ¬(!(s.takePacket p).tagNow p.tagBell p.tagAttempt || (s.takePacket p).bell.phase != .lesson) = true := by
    show ¬(!s.tagNow p.tagBell p.tagAttempt || s.bell.phase != .lesson) = true
    rw [ht, hp]
    decide
  have hbad := rf_bad_iff d (rfPiece p) (s.link l.toNat)
  have hexec : exec (.rf l p) s = .next (
      if (d.role = 0 || d.count ≤ rfPiece p || (d.op = 2 && (s.link l.toNat).minor = 0) || d.op = 3) = true then
        (s.takePacket p).ringBad l.toNat
      else if d.role = 1 then s.takePacket p
      else if d.role = 2 then s'.sendRing (rfRing p) (rfPiece p) d q.data
      else s'.addPiece
        { region := d.region.setWidth 11, data := q.data, part := s'.rc.address, tile := 0
          engine := true, firmware := false, untagged := false, tagBell := p.tagBell
          tagAttempt := p.tagAttempt, port := 259 + d.axis, arrival := none }) :=
    congrArg Host.Outcome.next ((if_pos (beq_iff_eq.2 hk)).trans (if_neg hlive))
  rw [hexec]
  refine ⟨fun h => by rw [if_pos (hbad.2 h)], fun htaken hr => ?_, fun htaken hr => ?_, fun htaken hr => ?_⟩
  all_goals
    have hgood := mt hbad.1 (not_or.2 ⟨by rw [hr]; decide, not_not.2 htaken⟩)
    rw [if_neg hgood, hr]
    rfl

/-- What a packet that its ring does not take leaves. -/
theorem State.ringBad_spec (s : State) (l : Nat) :
    s.keeps (s.ringBad l) ∧ (s.ringBad l).cq = s.cq ∧ (s.ringBad l).rt.ringRuns = s.rt.ringRuns ∧
    (s.causeOpen = true → bit (s.ringBad l).bell.lessonCauses 3 = true) := by
  have hread := State.onlyRead_cause (s.modRouter (l / 8) fun r => { r with rfDrops := r.rfDrops + 1 }) cMissing
    (State.ioCount (s.modRouter (l / 8) fun r => { r with rfDrops := r.rfDrops + 1 }) (l / 8)) (l / 8) l 2
  have hruns := congrArg Fabric.ringRuns hread.rt
  exact ⟨State.keeps.trans (State.keeps_of_mem_tiles rfl rfl) hread.keeps, hread.cq, hruns,
    fun hopen => State.bit_cause (s.modRouter (l / 8) fun r => { r with rfDrops := r.rfDrops + 1 }) (by decide)
      _ _ _ _ hopen⟩

/-! ## Each packet as it leaves the part -/

/-- A request for a granule of a layer waits at its slice. -/
theorem getReq_layer {s : State} {p : Packet} (h : s.OldestGet p) (hl : inLayers (offsetOf (getKey p)) = true)
    (now : Nat) : ∃ s', exec (.getReq p now) s = .next s' ∧ s.keeps s' ∧ s'.rt.inbox = s.rt.inbox.erase p ∧
      (s'.slice (dieOf (getKey p)) (sliceOf (offsetOf (getKey p)))).reads =
        (s.slice (dieOf (getKey p)) (sliceOf (offsetOf (getKey p)))).reads ++
        [{ arrival := now, port := 259 + (lastAxis p.source s.rc.address).getD 0, tile := none, addr := getKey p
           size := .granule, dest := .get p }] := by
  have htaken := s.onlyRead_getTaken p now
  have hslice : ∀ d m, (s.getTaken p now).slice d m = s.slice d m := fun d m => by
    unfold State.slice
    rw [htaken.slices]
    rfl
  refine ⟨_, exec_getReq_of_layer h hl now, ?_, ?_, ?_⟩
  · exact ((s.keeps_takePacket p).trans htaken.keeps).trans (.of_bytes rfl rfl)
  · exact congrArg Fabric.inbox htaken.rt
  · rw [State.queueRead_slice, hslice, State.arrivalDie, htaken.rc]
    rfl

/-- A request for a granule of a tile store is answered. -/
theorem getReq_store {s : State} {p : Packet} (h : s.OldestGet p) (hl : inLayers (offsetOf (getKey p)) = false)
    (now : Nat) : ∃ s', exec (.getReq p now) s = .next s' ∧ s.keeps s' ∧
      ∃ q, (q.kind = 3 ∧ q.cls = 2 ∧ q.dest = p.source ∧ q.tagBell = p.tagBell ∧
        q.tagAttempt = p.tagAttempt ∧ q.rest.extractLsb' 0 8 = p.rest.extractLsb' 29 8 ∧
        q.rest.extractLsb' 8 17 = p.rest.extractLsb' 37 17 ∧
        bit q.rest 25 = (s.memOpen (getKey p) && s.mem.hasUe (getKey p) 256) ∧
        ∀ n, n < 256 → byteOf q.payload n =
          if s.memOpen (getKey p) = true ∧ s.mem.hasUe (getKey p) 256 = false then s.mem.byte (getKey p + n) else 0) ∧
      q.source = s.rc.address ∧ q.slice = s.rt.slice ∧ s'.HoldsPacket q := by
  have htaken := s.onlyRead_getTaken p now
  have hopen : (s.getTaken p now).memOpen (getKey p) = s.memOpen (getKey p) := htaken.memOpen _
  have hue : (s.getTaken p now).mem.hasUe (getKey p) 256 = s.mem.hasUe (getKey p) 256 := htaken.hasUe _ _
  have hbyte : ∀ a, (s.getTaken p now).mem.byte a = s.mem.byte a := htaken.keeps.1
  have hrc : (s.getTaken p now).rc = s.rc := htaken.rc
  have hslice : (s.getTaken p now).rt.slice = s.rt.slice := by rw [htaken.rt]; rfl
  obtain ⟨hkeeps, q, hq, hsource, hslice', hheld⟩ := (s.getTaken p now).readResponse_spec p now
  simp only [hopen, hue, hbyte] at hq
  exact ⟨_, exec_getReq_of_store h hl now, ((s.keeps_takePacket p).trans htaken.keeps).trans hkeeps, q, hq,
    by rw [hsource, hrc], by rw [hslice', hslice], hheld⟩

/-- A response for an outstanding get brings its piece. -/
theorem getResp_outstanding {s : State} {p : Packet} (h : p.kind = 3) (ho : respKey p ∈ s.rt.outstanding) :
    ∃ s', exec (.getResp p) s = .next s' ∧ s.keeps s' ∧ s'.rt.inbox = s.rt.inbox.erase p ∧
      (∃ q, s'.cq.pieces = s.cq.pieces ++ [q] ∧ q.region = (p.rest.extractLsb' 0 8).setWidth 11 ∧
        q.data = p.payload ∧ q.part = p.source ∧ q.tile = 0 ∧ q.engine = true ∧ q.firmware = false ∧
        q.tagBell = p.tagBell ∧ q.tagAttempt = p.tagAttempt) ∧
      (s.tagNow p.tagBell p.tagAttempt = true → s'.rt.outstanding = s.rt.outstanding.erase (respKey p) ∧
        (bit p.rest 25 = true → s.causeOpen = true → bit s'.bell.lessonCauses 6 = true)) ∧
      (s.tagNow p.tagBell p.tagAttempt = false → s'.rt.outstanding = s.rt.outstanding) := by
  obtain ⟨hkeeps, hinbox, hcq, hnow, hother⟩ := (s.takePacket p).respTaken_spec p
  refine ⟨_, exec_getResp_of_outstanding h ho, ?_, hinbox,
    ⟨((s.takePacket p).respTaken p).pieceOf ((p.rest.extractLsb' 0 8).setWidth 11) 0 true p.source p, ?_, rfl, rfl, rfl,
      rfl, rfl, rfl, rfl, rfl⟩, hnow, hother⟩
  · exact ((s.keeps_takePacket p).trans hkeeps).trans (State.keeps_of_mem_tiles rfl rfl)
  · show ((s.takePacket p).respTaken p).cq.pieces ++ _ = _
    rw [hcq]
    rfl

/-- A response for no outstanding get is dropped and counted. -/
theorem getResp_unknown {s : State} {p : Packet} (h : p.kind = 3) (ho : respKey p ∉ s.rt.outstanding) :
    ∃ s', exec (.getResp p) s = .next s' ∧ s.keeps s' ∧ s'.rt.inbox = s.rt.inbox.erase p ∧
      s'.cq.pieces = s.cq.pieces ∧
      (s'.router ((lastAxis p.source s.rc.address).getD 0)).otherDrops =
        (s.router ((lastAxis p.source s.rc.address).getD 0)).otherDrops + 1 := by
  refine ⟨_, exec_getResp_of_unknown h ho, State.keeps_of_mem_tiles rfl rfl, rfl, rfl, ?_⟩
  show (State.router (State.otherDrop _ ((lastAxis p.source s.rc.address).getD 0)) _).otherDrops = _
  simp [State.otherDrop, State.router, State.takePacket]

/-- The next granule of the get list is asked for. -/
theorem getReqIssue_due {s : State} {im : Image} {i n : Nat} {q : FabricAddr} (him : s.job.image = some im)
    (hp : s.bell.phase = .lesson) (hm : s.isMember = true)
    (hnext : getEntry (s.getList im) s.rt.getIssued ((s.getList im).length / 16) 0 = some (i, n))
    (hdue : natAt (s.getList im) (16 * i) 3 ≤ s.ts.now.ticks)
    (hpart : s.partAt ((natAt (s.getList im) (16 * i + 3) 5 + 256 * n) / 2 ^ 37 % 8) = some q) (now : Nat) :
    ∃ s', exec (.getReqIssue now) s = .next s' ∧ s.keeps s' ∧ s'.rt.getIssued = s.rt.getIssued + 1 ∧
      s'.rt.nextTag = (s.rt.nextTag + 1) % 131072 ∧
      s'.rt.outstanding =
        s.rt.outstanding ++ [(s.rt.nextTag, BitVec.ofNat 8 (natAt (s.getList im) (16 * i + 10) 1))] ∧
      ∃ x : Packet, (x.kind = 2 ∧ x.cls = 1 ∧ x.dest = q ∧ x.tagBell = s.bell.number.setWidth 8 ∧
        x.tagAttempt = s.bell.attempt) ∧ x.source = s.rc.address ∧ x.slice = s.rt.slice ∧ s'.HoldsPacket x := by
  obtain ⟨hkeeps, hissued, htag, hout, hsent⟩ := (s.atCycle now).issueGet_spec (s.getList im) i n hpart
  exact ⟨_, exec_getReqIssue_of_due him hp hm hnext hdue now,
    State.keeps.trans (State.keeps_of_mem_tiles rfl rfl) hkeeps, hissued, htag, hout, hsent⟩

/-- A multicast goes on along the tree, and its piece lands at every part but its root. -/
theorem mcast_sent {s : State} {p : Packet} (hk : p.kind = 4) (hu : p.untagged = true) (hm : s.mayTransfer = true)
    (ho : p.source = s.rc.address → s.rt.drain = false) :
    ∃ s', exec (.mcast p) s = .next s' ∧ s.keeps s' ∧ s'.rt.inbox = s.rt.inbox.erase p ∧
      (p.source = s.rc.address → s'.cq.pieces = s.cq.pieces) ∧
      (p.source ≠ s.rc.address → ∃ q, s'.cq.pieces = s.cq.pieces ++ [q] ∧
        q.region = (p.rest.extractLsb' 0 8).setWidth 11 ∧ q.data = p.payload ∧ q.part = p.source ∧ q.tile = 0 ∧
        q.engine = true ∧ q.firmware = false ∧ q.tagBell = p.tagBell ∧ q.tagAttempt = p.tagAttempt) ∧
      ∀ h ∈ s.treeHops p.source (mcastLow p) (mcastHigh p),
        let k := (s.router h.1).exit h.1 h.2 p
        (s.link k).phase = .active → ∃ q ∈ (s'.link k).txQueue, { q with vc := p.vc } = p := by
  obtain ⟨hkeeps, hrt, hlinks, hown, hother⟩ := s.mcastTaken_spec p
  obtain ⟨⟨links, routers, heq⟩, hgrow, hqueued⟩ :=
    mcastHops_spec p (s.treeHops p.source (mcastLow p) (mcastHigh p)) (s.mcastTaken p)
  refine ⟨_, exec_mcast_of_sent hk hu hm ho, ?_, ?_, fun h => ?_, fun h => ?_, fun h hh => ?_⟩
  · rw [heq]
    exact hkeeps.trans (State.keeps_of_mem_tiles rfl rfl)
  · rw [heq]
    exact congrArg Fabric.inbox hrt
  · rw [heq]
    exact congrArg Regions.pieces (hown h)
  · rw [heq]
    exact ⟨_, hother h, rfl, rfl, rfl, rfl, rfl, rfl, rfl, rfl⟩
  · have hhop := hqueued h hh
    unfold State.router State.link at hhop
    rw [hrt, hlinks] at hhop
    exact hhop

/-- The first part of a ring sends its pieces in their order. -/
theorem ringStart_begun {s : State} {ring : BitVec 6} (hb : s.RingBegun (s.ring ring.toNat)) (now : Nat) :
    ∃ s', exec (.ringStart ring now) s = .next s' ∧ s.keeps s' ∧
      (s'.ringRun ring.toNat).sentPieces = max (s.ringRun ring.toNat).sentPieces (s.ring ring.toNat).count ∧
      (s'.ringRun ring.toNat).received = (s.ringRun ring.toNat).received ∧
      ∀ k, (s.ringRun ring.toNat).sentPieces ≤ k → k < (s.ring ring.toNat).count → k < 65536 →
        ∃ q : Packet, (q.kind = 5 ∧ q.cls = 3 ∧
          q.dest = s.neighbour s.rc.address (s.ring ring.toNat).axis (s.ring ring.toNat).negative ∧
          (q.rest.extractLsb' 0 6).toNat = ring.toNat ∧ (q.rest.extractLsb' 6 16).toNat = k ∧
          (s.mem.ue = [] → s.memOpen ((s.ring ring.toNat).base + 256 * k) = true →
            ∀ n, n < 256 → byteOf q.payload n = s.mem.byte ((s.ring ring.toNat).base + 256 * k + n))) ∧
          q.source = s.rc.address ∧ q.slice = s.rt.slice ∧ s'.HoldsPacket q := by
  generalize hd : s.ring ring.toNat = d at hb ⊢
  by_cases hlt : (s.ringRun ring.toNat).sentPieces < d.count
  · obtain ⟨hsent, hrun, hpieces⟩ := State.sendPieces_spec ring.toNat d s.ts.now.ticks
      (d.count - (s.ringRun ring.toNat).sentPieces) (s.atCycle now) (s.ringRun ring.toNat).sentPieces
    have hgo := (exec_ringStart (s := s) (ring := ring) now).2 (hd.symm ▸ hb) (by rw [hd]; exact hlt)
    rw [hd] at hgo
    refine ⟨_, hgo, State.keeps.trans (State.keeps_of_mem_tiles rfl rfl) hsent.keeps, ?_, ?_, fun k hk hk' hk'' => ?_⟩
    · rw [hrun, Nat.max_eq_right hlt.le]
      exact Nat.add_sub_cancel' hlt.le
    · rw [hrun]
      rfl
    · obtain ⟨q, hkind, hcls, hsource, hslice, hheld, hdest, hrest, hpayload⟩ := hpieces k hk (by omega)
      obtain ⟨hring, hpiece⟩ := rf_fields ring.toNat k
      refine ⟨q, ⟨hkind, hcls, hdest, ?_, ?_, fun hue hopen n hn => ?_⟩, hsource, hslice, hheld⟩
      · rw [hrest, hring, Nat.mod_eq_of_lt ring.isLt]
      · rw [hrest, hpiece, Nat.mod_eq_of_lt hk'']
      · rw [hpayload hue hopen]
        exact byteOf_vec _ _ _ _ hn (by decide)
  · have hge := Nat.not_lt.1 hlt
    refine ⟨s, (exec_ringStart now).1 (.inr (by rw [hd]; exact hge)), .refl s, ?_, rfl,
      fun k hk hk' => absurd (hk.trans_lt hk') hlt⟩
    rw [Nat.max_eq_left hge]

/-- The sum that a middle or last part makes of a partial sum and its local operand. -/
def State.IsRingSum (s : State) (d : RingDesc) (k : Nat) (x v : Vec) : Prop :=
  ∀ n, n < 64 → lane v n =
    if s.memOpen (d.base + 256 * k) = true ∧ s.mem.hasUe (d.base + 256 * k) 256 = true then 0
    else ringAdd d.op (lane x n)
      (if s.memOpen (d.base + 256 * k) = true then s.mem.vec (d.base + 256 * k + 4 * n) 4 else 0)

/-- The part after a partial sum has been added up and counted. -/
def State.rfSummed (s : State) (p : Packet) : State :=
  ((s.takePacket p).ringSum (s.ring (rfRing p)) (rfPiece p) s.ts.now.ticks p.payload).state.modRing (rfRing p)
    fun x => { x with received := x.received + 1 }

theorem State.rfSummed_spec (s : State) (p : Packet) :
    s.keeps (s.rfSummed p) ∧ (s.rfSummed p).cq = s.cq ∧ (s.rfSummed p).rc = s.rc ∧
    (s.rfSummed p).rt.slice = s.rt.slice ∧
    (s.rfSummed p).ringRun (rfRing p) =
      { s.ringRun (rfRing p) with received := (s.ringRun (rfRing p)).received + 1 } ∧
    s.IsRingSum (s.ring (rfRing p)) (rfPiece p) p.payload
      ((s.takePacket p).ringSum (s.ring (rfRing p)) (rfPiece p) s.ts.now.ticks p.payload).data := by
  obtain ⟨hread, hsum⟩ :=
    (s.takePacket p).ringSum_spec (s.ring (rfRing p)) (rfPiece p) s.ts.now.ticks p.payload
  have hrun := State.modRing_same
    ((s.takePacket p).ringSum (s.ring (rfRing p)) (rfPiece p) s.ts.now.ticks p.payload).state (rfRing p)
    fun x => { x with received := x.received + 1 }
  have hbefore : ((s.takePacket p).ringSum (s.ring (rfRing p)) (rfPiece p) s.ts.now.ticks p.payload).state.ringRun
      (rfRing p) = s.ringRun (rfRing p) := by
    unfold State.ringRun
    rw [hread.rt]
    rfl
  rw [hbefore] at hrun
  have hslice := congrArg Fabric.slice hread.rt
  exact ⟨((s.keeps_takePacket p).trans hread.keeps).trans (State.keeps_of_mem_tiles rfl rfl), hread.cq, hread.rc, hslice,
    hrun, hsum⟩

/-- At the last part of a ring the sum is a piece of its region. -/
theorem rf_last {s : State} {p : Packet} {l : BitVec 5} (hl : s.RfLive p)
    (ht : RingTakes (s.ring (rfRing p)) (rfPiece p) (s.link l.toNat)) (hr : (s.ring (rfRing p)).role = 3) :
    ∃ s' v, exec (.rf l p) s = .next s' ∧ s.keeps s' ∧
      (s'.ringRun (rfRing p)).received = (s.ringRun (rfRing p)).received + 1 ∧
      (∃ q, s'.cq.pieces = s.cq.pieces ++ [q] ∧ q.region = (s.ring (rfRing p)).region.setWidth 11 ∧ q.data = v ∧
        q.part = s.rc.address ∧ q.tile = 0 ∧ q.engine = true ∧ q.firmware = false ∧ q.tagBell = p.tagBell ∧
        q.tagAttempt = p.tagAttempt) ∧
      s.IsRingSum (s.ring (rfRing p)) (rfPiece p) p.payload v := by
  obtain ⟨hkeeps, hcq, hrc, -, hrun, hsum⟩ := s.rfSummed_spec p
  obtain ⟨-, -, -, hlast⟩ := exec_rf_of_live hl l
  refine ⟨_, _, hlast ht hr, hkeeps.trans (State.keeps_of_mem_tiles rfl rfl), congrArg RingRun.received hrun,
    ⟨_, congrArg (fun c : Regions => c.pieces ++ _) hcq, rfl, rfl, congrArg RollCall.address hrc, rfl, rfl, rfl, rfl,
      rfl⟩, hsum⟩

/-- At a middle part it goes on to the neighbour. -/
theorem rf_middle {s : State} {p : Packet} {l : BitVec 5} (hl : s.RfLive p)
    (ht : RingTakes (s.ring (rfRing p)) (rfPiece p) (s.link l.toNat)) (hr : (s.ring (rfRing p)).role = 2) :
    ∃ s', exec (.rf l p) s = .next s' ∧ s.keeps s' ∧
      (s'.ringRun (rfRing p)).received = (s.ringRun (rfRing p)).received + 1 ∧
      (s'.ringRun (rfRing p)).sentPieces = (s.ringRun (rfRing p)).sentPieces + 1 ∧
      s'.cq.pieces = s.cq.pieces ∧
      ∃ q : Packet, (q.kind = 5 ∧ q.cls = 3 ∧
        q.dest = s.neighbour s.rc.address (s.ring (rfRing p)).axis (s.ring (rfRing p)).negative ∧
        (q.rest.extractLsb' 6 16).toNat = rfPiece p ∧
        s.IsRingSum (s.ring (rfRing p)) (rfPiece p) p.payload q.payload) ∧
        q.source = s.rc.address ∧ q.slice = s.rt.slice ∧ s'.HoldsPacket q := by
  obtain ⟨hkeeps, hcq, hrc, hslice, hrun, hsum⟩ := s.rfSummed_spec p
  obtain ⟨-, -, hmiddle, -⟩ := exec_rf_of_live hl l
  obtain ⟨hsent, hheld, hrunSent⟩ := (s.rfSummed p).sendRing_spec (rfRing p) (rfPiece p) (s.ring (rfRing p))
    ((s.takePacket p).ringSum (s.ring (rfRing p)) (rfPiece p) s.ts.now.ticks p.payload).data
  rw [hrun] at hrunSent
  have hnext : ∀ a axis negative, (s.rfSummed p).neighbour a axis negative = s.neighbour a axis negative :=
    fun a axis negative => by
      unfold State.neighbour State.campus
      rw [hrc]
  refine ⟨_, hmiddle ht hr, hkeeps.trans hsent.keeps, congrArg RingRun.received hrunSent,
    congrArg RingRun.sentPieces hrunSent, congrArg Regions.pieces (hsent.cq.trans hcq), _,
    ⟨rfl, rfl, ?_, ?_, hsum⟩, congrArg RollCall.address hrc, hslice, hheld⟩
  · show (s.rfSummed p).neighbour (s.rfSummed p).rc.address _ _ = _
    rw [hnext, hrc]
  · refine (rf_fields (rfRing p) (rfPiece p)).2.trans (Nat.mod_eq_of_lt ?_)
    exact (p.rest.extractLsb' 6 16).isLt

/-- A packet that its ring does not take. -/
theorem rf_bad {s : State} {p : Packet} {l : BitVec 5} (hl : s.RfLive p) (h : (s.ring (rfRing p)).role = 0 ∨
      ¬RingTakes (s.ring (rfRing p)) (rfPiece p) (s.link l.toNat)) :
    ∃ s', exec (.rf l p) s = .next s' ∧ s.keeps s' ∧ s'.cq.pieces = s.cq.pieces ∧
      s'.ringRun (rfRing p) = s.ringRun (rfRing p) ∧ (s.causeOpen = true → bit s'.bell.lessonCauses 3 = true) := by
  obtain ⟨hbad, -, -, -⟩ := exec_rf_of_live hl l
  obtain ⟨hkeeps, hcq, hruns, hmissing⟩ := (s.takePacket p).ringBad_spec l.toNat
  refine ⟨_, hbad h, (s.keeps_takePacket p).trans hkeeps, congrArg Regions.pieces hcq, ?_, hmissing⟩
  unfold State.ringRun
  rw [hruns]
  rfl

/-! ## O43 -/

/-- Settles O43, packet by packet: puts, gets, the get list, multicasts, the start of a ring and partial sums. -/
theorem fabricPackets : Obligations.FabricPackets := by
  unfold Obligations.FabricPackets
  intro s p now ring l gone count stays adds sends
  refine ⟨fun hk => ?put, fun hk => exec_putPacket_of_other hk s, ?get, ?resp, fun hk => exec_getResp_of_other hk s,
    fun im him => ?list, fun him => exec_getReqIssue_of_no_image him now, fun hk hu ho hd => ?kept,
    fun hk hu hm ho => ?mcast, exec_mcast_of_other, ?start, ?rf⟩
  case put =>
    exact ⟨_, exec_putPacket_of_put hk s, State.keeps_of_mem_tiles rfl rfl, rfl, _, rfl, rfl, rfl, rfl, rfl, rfl, rfl,
      rfl, rfl⟩
  case get =>
    exact ⟨fun h => exec_getReq_of_not_oldest h now, fun h hl => getReq_layer h hl now, fun h hl => getReq_store h hl now⟩
  case resp => exact fun hk => ⟨fun ho => getResp_outstanding hk ho, fun ho => getResp_unknown hk ho⟩
  case list =>
    exact ⟨fun i n q hp hm hnext hdue hpart => getReqIssue_due him hp hm hnext hdue hpart now,
      fun h => exec_getReqIssue_of_not_due him h now⟩
  case kept =>
    exact ⟨_, exec_mcast_of_kept hk hu ho hd, State.keeps_of_mem_tiles rfl rfl, rfl, rfl, rfl⟩
  case mcast => exact mcast_sent hk hu hm ho
  case start => exact ⟨fun hb => ringStart_begun hb now, fun hb => (exec_ringStart now).1 (.inl hb)⟩
  case rf =>
    refine ⟨fun hk => exec_rf_of_other hk l s, fun hk hl => ?_, fun hl ht hr => rf_last hl ht hr,
      fun hl ht hr => rf_middle hl ht hr, fun hl h => rf_bad hl h, fun hl ht hr => (exec_rf_of_live hl l).2.1 ht hr,
      fun x y => rfl⟩
    exact ⟨_, exec_rf_of_stale hk hl l, State.keeps_of_mem_tiles rfl rfl, rfl, rfl, rfl, rfl⟩

end Sys2Proof.Machine
end

section
/-! PROOFS. Firmware and lock-step messages at the part they reach (R40, R59, R185, R283, R359, R410, R437 to R440). -/

namespace Sys2Proof.Machine

/-- The part takes firmware messages. -/
def State.TakesMessages (s : State) : Prop := s.pw.firmware = true ∧ s.nv.storeFault = false

theorem exec_firmwareMessage_of_taken {s : State} (h : s.TakesMessages) (a : FabricAddr) (m : FwMessage) :
    exec (.firmwareMessage a m) s = .next (s.takeFirmware a m) := by
  obtain ⟨hf, hs⟩ := h
  exact congrArg Host.Outcome.next (if_pos (by rw [hf, hs]; rfl))

theorem exec_firmwareMessage_of_deaf {s : State} (h : ¬s.TakesMessages) (a : FabricAddr) (m : FwMessage) :
    exec (.firmwareMessage a m) s = .next s := by
  refine congrArg Host.Outcome.next (if_neg fun hgo => h ?_)
  rw [Bool.and_eq_true, Bool.not_eq_true'] at hgo
  exact hgo

/-! ## Job records and assignments -/

theorem State.keeps_freshJob (s : State) (id : BitVec 16) (seed : BitVec 64) (limit : BitVec 4) (recess : Nat)
    (attach : BitVec 64) : s.keeps (s.freshJob id seed limit recess attach) :=
  ⟨fun _ => rfl, fun u => tabGet_tabMap_of Tile.reset (fun _ x => { x with totals := [], counters := [] }) Tile.regs
    (fun _ _ => rfl) s.tiles u⟩

theorem State.takeCreate_of_free {s : State} (hj : s.job.state = .none) (hs : s.rt.slice = 0) (root : FabricAddr)
    (job : BitVec 16) (seed : BitVec 64) (limit : Byte) (recess : Word) :
    let s' := s.takeCreate root job seed limit recess
    s.keeps s' ∧ s'.job.state = .created ∧ s'.job.id = job ∧ s'.job.seed = seed ∧ s'.job.root = root ∧
      s'.bell.phase = .idle ∧ s'.bell.number = 0 := by
  intro s'
  have hcreate : s' = { s.freshJob job seed (BitVec.ofNat 4 limit.toNat) recess.toNat 0 with
      job := { (s.freshJob job seed (BitVec.ofNat 4 limit.toNat) recess.toNat 0).job with root := root } } :=
    if_pos (by rw [hj, hs]; rfl)
  rw [hcreate]
  exact ⟨s.keeps_freshJob job seed (BitVec.ofNat 4 limit.toNat) recess.toNat 0, rfl, rfl, rfl, rfl, rfl, rfl⟩

theorem State.takeCreate_of_held {s : State} (hj : s.job.state ≠ .none) (root : FabricAddr) (job : BitVec 16)
    (seed : BitVec 64) (limit : Byte) (recess : Word) : s.takeCreate root job seed limit recess = s :=
  if_neg (by rw [beq_eq_false_iff_ne.2 hj, Bool.false_and]; decide)

theorem State.fillRoutes_eq (s : State) : ∃ routers, s.fillRoutes = { s with rt := { s.rt with routers := routers } } :=
  s.modRouters_eq _ _

/-- An assignment that is recorded. -/
theorem State.assignHere_of_recorded {s : State} {slice : BitVec 8} {low high : FabricAddr} {members : BitVec 4096}
    {root : FabricAddr} {epoch : BitVec 2} {us : Word} (h : (s.assignHere slice low high members root epoch us).1 = 0) :
    (s.assignHere slice low high members root epoch us).2.job.state = .assigned ∧
      (s.assignHere slice low high members root epoch us).2.rt.slice = slice := by
  unfold State.assignHere at h ⊢
  by_cases hslice : (s.rt.slice != 0) = true
  · rw [if_pos hslice] at h
    simp at h
  · rw [if_neg hslice] at h ⊢
    dsimp only at h ⊢
    split at h
    · simp at h
    · next hserves =>
      obtain ⟨_, hroutes⟩ := State.fillRoutes_eq { s with job := { s.job with
        low := low, high := high, members := members, root := root, state := .assigned } }
      rw [if_neg hserves, hroutes]
      unfold State.commitFabric
      dsimp only
      obtain ⟨_, _, hcommit⟩ := State.startCommit_eq _ _ _ _
      rw [hcommit]
      exact ⟨rfl, rfl⟩

theorem State.takeAssign_of_created {s : State} {job : BitVec 16} {root : FabricAddr} (hj : s.job.state = .created)
    (hid : s.job.id = job) (hr : s.job.root = root) (source : FabricAddr) (slice : BitVec 8) (low high : FabricAddr)
    (members : List Nat) (epoch : BitVec 2) (us : Word) :
    let z := s.assignHere slice low high
      (members.foldl (fun (m : BitVec 4096) i => m ||| BitVec.ofNat 4096 (2 ^ i)) 0) root epoch us
    s.takeAssign source job slice low high members root epoch us =
      if z.1 = 0 then z.2
      else { s with job := .reset, out := s.out ++ [.firmware source (.done s.rc.address 0x11 z.1 [])] } :=
  if_pos (by rw [hj, hid, hr]; simp)

/-! ## The end of a job -/

theorem State.takeEnd_of_root {s : State} (hr : s.isRoot = true) {a : FabricAddr} (ha : s.inSlice a = true) (code : Byte) :
    s.takeEnd a .faulted code = s.fault code := by
  unfold State.takeEnd
  rw [if_pos hr, ha]
  rfl

theorem State.takeEnd_of_member {s : State} (hr : s.isRoot = false) (hs : s.inSession = true) {a : FabricAddr}
    {code : Byte} (ha : s.job.root = a ∨ (code = 6 ∧ s.inSlice a = true)) :
    s.takeEnd a .faulted code = s.endJob .faulted code := by
  have hstate : s.job.state = .inSession := eq_of_beq hs
  have hfrom : (a == s.job.root || (code = 6 && s.inSlice a)) = true := by
    rcases ha with ha | ⟨hc, ha⟩
    · simp [ha]
    · simp [hc, ha]
  unfold State.takeEnd
  rw [if_neg (by rw [hr]; decide), hfrom, hstate]
  exact if_pos (by decide)

theorem State.takeEnd_of_stranger {s : State} (hr : s.isRoot = false) {a : FabricAddr} (ha : s.job.root ≠ a) {code : Byte}
    (hc : code ≠ 6 ∨ s.inSlice a = false) : s.takeEnd a .faulted code = s := by
  have hfrom : (a == s.job.root || (code = 6 && s.inSlice a)) = false := by
    rw [beq_eq_false_iff_ne.2 (Ne.symm ha)]
    rcases hc with hc | hc
    · rw [decide_eq_false hc]
      rfl
    · rw [hc, Bool.and_false]
      rfl
  unfold State.takeEnd
  rw [if_neg (by rw [hr]; decide), hfrom]
  rfl

/-- The job is faulted with a code on this part. -/
def State.Faulted (s : State) (code : Byte) : Prop :=
  s.job.state = .ended ∧ s.bell.phase = .faulted ∧ s.bell.faultCode = code

theorem State.endJob_faulted {s : State} (hstop : s.job.stop = none) (code : Byte) :
    (s.endJob .faulted code).Faulted code := by
  have hend := s.endJob_hasEnded .faulted code
  exact ⟨hend.state (by rw [hstop]; decide), hend.phase_eq, (hend.faulted rfl).2⟩

theorem State.fault_faulted {s : State} (hr : s.isRoot = true) (hs : s.inSession = true) (hstop : s.job.stop = none)
    (code : Byte) : (s.fault code).Faulted code := by
  obtain ⟨hphase, -, hcode, hstate, -⟩ := (State.fault_of_inSession hs code).1 hr
  exact ⟨hstate (by rw [hstop]; decide), hphase, hcode⟩

/-- A link of a relay part narrower than the image allows faults the job. -/
theorem State.takeWidthOf_of_narrow {s : State} (hr : s.isRoot = true) (hs : s.inSession = true)
    (hstop : s.job.stop = none) {im : Image} (him : s.job.image = some im) {lanes : Nat} (hl : lanes < im.minWidth)
    (ha : s.bell.attempt.toNat < s.bell.replayLimit.toNat) (part : FabricAddr) :
    (s.takeWidthOf part lanes).Faulted 4 := by
  have hwidth : s.takeWidthOf part lanes = State.fault { s with
      bell := { s.bell with widthsDue := s.bell.widthsDue.filter fun a => a != part } } 4 := by
    unfold State.takeWidthOf
    rw [if_pos (by rw [hr, hs]; rfl)]
    dsimp only
    rw [him]
    exact if_pos (by simp [hl, ha])
  rw [hwidth]
  exact State.fault_faulted (s := { s with
    bell := { s.bell with widthsDue := s.bell.widthsDue.filter fun a => a != part } }) hr hs hstop 4

theorem State.takeWidthOf_of_member {s : State} (hr : s.isRoot = false) (part : FabricAddr) (lanes : Nat) :
    s.takeWidthOf part lanes = s :=
  if_neg (by rw [hr, Bool.false_and]; decide)

/-! ## The release of a job -/

/-- A release of the slice is recorded by a commit, and keeps every register. -/
theorem State.clearSlice_commit (s : State) (a : After) :
    s.keeps (s.clearSlice.commitFabric a) ∧ (s.clearSlice.commitFabric a).job = s.job ∧
      (s.clearSlice.commitFabric a).rt.slice = 0 ∧ (s.clearSlice.commitFabric a).rt.role = 0 := by
  obtain ⟨_, _, _, hdrain⟩ := s.undrain_eq
  obtain ⟨_, _, hcommit⟩ := s.clearSlice.startCommit_eq 2 (.fabric s.clearSlice.fabricNow) a
  unfold State.commitFabric
  rw [hcommit]
  unfold State.clearSlice
  rw [hdrain]
  exact ⟨State.keeps_of_mem_tiles rfl rfl, rfl, rfl, rfl⟩

theorem State.releaseJob_spec (s : State) (a : After) :
    s.keeps (s.releaseJob a) ∧ (s.releaseJob a).job = .reset ∧ (s.releaseJob a).rt.slice = 0 ∧
      (s.releaseJob a).rt.role = 0 := by
  have hleave : s.keeps s.withoutJob.leavePair ∧ s.withoutJob.leavePair.job = .reset := by
    unfold State.leavePair
    split <;> exact ⟨State.keeps_of_mem_tiles rfl rfl, rfl⟩
  obtain ⟨hkeeps, hjob, hslice, hrole⟩ := s.withoutJob.leavePair.clearSlice_commit a
  rw [s.releaseJob_eq]
  exact ⟨hleave.1.trans hkeeps, hjob.trans hleave.2, hslice, hrole⟩

theorem State.takeRelease_of_session {s : State} {a : FabricAddr} {job : BitVec 16} (hs : s.inSession = true)
    (hr : s.job.root = a) (hid : s.job.id = job) (release : Bool) :
    s.takeRelease a job release = { s with job := { s.job with stop := some release } } := by
  have hstate : s.job.state = .inSession := eq_of_beq hs
  unfold State.takeRelease
  rw [if_pos (by rw [hstate, hid, hr]; simp), hs]
  cases release <;> rfl

theorem State.takeRelease_of_assigned {s : State} {a : FabricAddr} {job : BitVec 16} (hs : s.job.state = .assigned)
    (hr : s.job.root = a) (hid : s.job.id = job) : s.takeRelease a job true = s.releaseJob .nothing := by
  unfold State.takeRelease State.inSession
  rw [if_pos (by rw [hs, hid, hr]; simp), hs]
  rfl

theorem State.takeRelease_of_record {s : State} {a : FabricAddr} {job : BitVec 16} (hs : s.job.state = .none)
    (hslice : s.rt.slice ≠ 0) (hj : s.nv.fabric.job = job) (hr : s.nv.fabric.root = a) :
    s.takeRelease a job true = s.clearSlice.commitFabric .nothing := by
  unfold State.takeRelease
  rw [if_neg (by rw [hs]; simp), if_pos (by rw [hs, hj, hr, bne_iff_ne.2 hslice]; simp)]

/-! ## Orders, pages and flags -/

theorem State.takeOrder_of_stranger {s : State} {a : FabricAddr} {op : BitVec 16} (hop : op ≠ 0x40) (ha : s.job.root ≠ a)
    (b : List Byte) : s.takeOrder a op b = s := by
  unfold State.takeOrder
  rw [if_neg hop, if_neg (by rw [beq_eq_false_iff_ne.2 (Ne.symm ha), Bool.and_false]; decide)]

theorem State.takeOrder_delays {s : State} {a : FabricAddr} (hj : s.job.state ≠ .none) (ha : s.job.root = a)
    (b : List Byte) : s.takeOrder a 0x8011 b = s.setDelays b := by
  unfold State.takeOrder
  rw [if_neg (by decide), if_pos (by rw [bne_iff_ne.2 hj, ha]; simp)]
  rfl

/-- A damaged page: no cached page keeps it, and every context that uses it is damaged. -/
theorem State.takePage_of_registrar {s : State} (hr : s.isRegistrar = true) (page : Nat) :
    s.keeps (s.takePage page) ∧ (∀ e ∈ (s.takePage page).sv.prefixes, e.page ≠ page) ∧
      ∀ n, page ∈ (s.ctx n).pages → ((s.takePage page).ctx n).damaged = true := by
  unfold State.takePage
  rw [if_pos hr]
  refine ⟨State.keeps_of_mem_tiles rfl rfl, fun e he => ?_, fun n hn => ?_⟩
  · exact bne_iff_ne.1 (List.mem_filter.1 he).2
  · refine (congrArg Ctx.damaged (tabGet_tabMap Ctx.reset _ s.sv.contexts n rfl)).trans ?_
    exact congrArg Ctx.damaged (if_pos (List.contains_iff_mem.2 hn))

/-- Nothing known of a flag. -/
def noFlag : FlagSummary := { set := false, bell := 0, part := 0, tile := 0 }

/-- The first report of a flag stands. -/
theorem State.sumFlag_of_unset {s : State} {f : Nat} (h : (tabGet noFlag s.job.flagSummary f).set = false)
    (bell : BitVec 40) (part : FabricAddr) (tile : BitVec 10) :
    s.keeps (s.sumFlag f bell part tile) ∧ tabGet noFlag (s.sumFlag f bell part tile).job.flagSummary f =
      { set := true, bell := bell, part := part, tile := tile } := by
  have hsum : s.sumFlag f bell part tile = { s with job := { s.job with
      flagSummary := tabSet noFlag s.job.flagSummary f { set := true, bell := bell, part := part, tile := tile } } } :=
    if_pos (by
      show (!(tabGet noFlag s.job.flagSummary f).set || _ || _) = true
      rw [h]; rfl)
  rw [hsum]
  exact ⟨State.keeps_of_mem_tiles rfl rfl,
    tabGet_tabSet_same noFlag s.job.flagSummary f { set := true, bell := bell, part := part, tile := tile }⟩

theorem State.takeFlags_of_root {s : State} (hr : s.isRoot = true) (a : FabricAddr) (bell : BitVec 40) (f : Nat)
    (t : BitVec 10) : s.takeFlags a bell [(f, t)] = s.sumFlag f bell a t :=
  if_pos hr

/-! ## Lock-step -/

/-- The partner's offer is gone. -/
def State.withoutOffer (s : State) (p : FabricAddr) : State :=
  if s.dg.offer.any fun e => e.1 == p then { s with dg := { s.dg with offer := none } } else s

theorem State.withoutOffer_eq (s : State) (p : FabricAddr) : ∃ o, s.withoutOffer p = { s with dg := { s.dg with offer := o } } ∧
    ∀ x, o = some x → x.1 ≠ p := by
  unfold State.withoutOffer
  split
  · exact ⟨none, rfl, fun x hx => absurd hx (by simp)⟩
  · next h =>
    refine ⟨s.dg.offer, rfl, fun x hx hp => h ?_⟩
    rw [hx]
    exact beq_iff_eq.2 hp

theorem State.takeLock_withdraw (s : State) (p : FabricAddr) :
    (s.dg.partner ≠ some p ∨ s.inSession = false → s.takeLock p .withdraw = s.withoutOffer p) ∧
    (s.dg.partner = some p → s.inSession = true → s.takeLock p .withdraw =
      { s.withoutOffer p with dg := { (s.withoutOffer p).dg with paired := false, partner := none } }) := by
  obtain ⟨o, ho, -⟩ := s.withoutOffer_eq p
  have hpartner : (s.withoutOffer p).dg.partner = s.dg.partner := by rw [ho]
  have hsession : (s.withoutOffer p).inSession = s.inSession := by rw [ho]; rfl
  refine ⟨fun h => if_neg ?_, fun hp hs => if_pos ?_⟩
  · show ¬((s.withoutOffer p).dg.partner == some p && (s.withoutOffer p).inSession) = true
    rw [hpartner, hsession, Bool.and_eq_true, beq_iff_eq]
    rintro ⟨hp, hs⟩
    exact h.elim (absurd hp) fun h => by rw [h] at hs; exact absurd hs (by decide)
  · show ((s.withoutOffer p).dg.partner == some p && (s.withoutOffer p).inSession) = true
    rw [hpartner, hsession, hp, hs]
    simp

/-- The part with its partner's slice digest. -/
def State.withPartnerSlice (s : State) (bell : BitVec 40) (value : BitVec 64) (members : List (BitVec 64)) : State :=
  { s with dg := { s.dg with partnerSlice := some (bell, value), partnerMembers := members } }

theorem State.takeLock_digest_of_partner {s : State} {p : FabricAddr} (hr : s.isRoot = true) (hpair : s.dg.paired = true)
    (hp : s.dg.partner = some p) (bell : BitVec 40) (value : BitVec 64) (members : List (BitVec 64)) :
    s.takeLock p (.digest bell value members) = (s.withPartnerSlice bell value members).compareSlices :=
  if_pos (by rw [hr, hpair, hp]; simp)

theorem State.takeLock_digest_of_stranger {s : State} {p : FabricAddr} (hp : s.dg.partner ≠ some p) (bell : BitVec 40)
    (value : BitVec 64) (members : List (BitVec 64)) : s.takeLock p (.digest bell value members) = s :=
  if_neg (by rw [beq_eq_false_iff_ne.2 hp, Bool.and_false]; decide)

/-- The part with a mismatch of the bell in progress noted. -/
def State.withMismatch (s : State) (m : BitVec 12) : State :=
  { s with dg := { s.dg with lockMismatch := true, lockBell := s.bell.number, lockMember := m } }

/-- The digests agree, or a mismatch stops the job everywhere. -/
theorem State.compareSlices_of_both {s : State} {own value : BitVec 64} (hpair : s.dg.paired = true)
    (hown : s.dg.ownSlice = some (s.bell.number, own)) (hvalue : s.dg.partnerSlice = some (s.bell.number, value)) :
    (value = own → s.compareSlices = s) ∧
    (value ≠ own → ∃ m, s.compareSlices = (s.withMismatch m).endEverywhere .stopped 0) := by
  unfold State.compareSlices
  rw [hown, hvalue]
  refine ⟨fun h => if_neg (by simp [h]), fun h => ⟨_, if_pos (by simp [hpair, Ne.symm h])⟩⟩

theorem State.endEverywhere_withMismatch {s : State} (hstop : s.job.stop = none) (m : BitVec 12) :
    ((s.withMismatch m).endEverywhere .stopped 0).dg.lockMismatch = true ∧
      ((s.withMismatch m).endEverywhere .stopped 0).dg.lockBell = s.bell.number ∧
      ((s.withMismatch m).endEverywhere .stopped 0).bell.phase = .stopped ∧
      ((s.withMismatch m).endEverywhere .stopped 0).job.state = .ended := by
  obtain ⟨hend, -⟩ := (s.withMismatch m).endEverywhere_hasEnded .stopped 0
  have hnot : (s.withMismatch m).job.stop ≠ some true := by
    show s.job.stop ≠ some true
    rw [hstop]; decide
  obtain ⟨hmark, hbell⟩ := Prod.mk.inj hend.lock
  exact ⟨hmark, hbell, hend.phase_eq, hend.state hnot⟩

theorem exec_lockstepPlacement_of_stranger {s : State} {p : FabricAddr} (hp : s.dg.partner ≠ some p) (bell : BitVec 40)
    (places : List PlacementRec) : exec (.lockstepPlacement p bell places) s = .next s :=
  congrArg Host.Outcome.next (if_neg (by rw [beq_eq_false_iff_ne.2 hp, Bool.and_false, Bool.false_and]; decide))

/-- Outside a term recess the follower keeps the leader's records. -/
theorem exec_lockstepPlacement_kept {s : State} {p : FabricAddr} (hpair : s.dg.paired = true) (hp : s.dg.partner = some p)
    (hlow : p.toNat < s.rc.address.toNat) (hterm : s.termRecess = false)
    (hidle : s.dg.placed = false ∨ s.bell.phase ≠ .idle) (bell : BitVec 40) (places : List PlacementRec) :
    exec (.lockstepPlacement p bell places) s =
      .next { s with dg := { s.dg with placements := s.dg.placements ++ [(bell.toNat, places)] } } := by
  have hfollows : s.follows = true := by
    unfold State.follows
    rw [hpair, hp]
    exact decide_eq_true hlow
  have hkept : State.tryPlacement { s with dg := { s.dg with
      placements := s.dg.placements ++ [(bell.toNat, places)] } } =
      { s with dg := { s.dg with placements := s.dg.placements ++ [(bell.toNat, places)] } } := by
    refine if_neg ?_
    show ¬(s.termRecess && _ && _ && _) = true
    rw [hterm]
    simp
  refine congrArg Host.Outcome.next ((if_pos (by rw [hpair, hp, hfollows]; simp)).trans ?_)
  dsimp only
  rw [hkept]
  refine if_neg ?_
  show ¬(s.dg.placed && s.bell.phase == .idle) = true
  rw [Bool.and_eq_true, beq_iff_eq]
  rintro ⟨hplaced, hphase⟩
  exact hidle.elim (fun h => by rw [h] at hplaced; exact absurd hplaced (by decide)) (absurd hphase)

/-! ## O55 -/

/-- Settles O55, message by message, through what each does at the part that it reaches. -/
theorem firmwareMessages : Obligations.FirmwareMessages := by
  unfold Obligations.FirmwareMessages
  intro s a p job seed limit code recess page bell l release op b value members places m slice low high part map epoch us
    lanes msg taken
  have htakes (h : taken) (m : FwMessage) : exec (msg m) s = .next (s.takeFirmware a m) :=
    exec_firmwareMessage_of_taken h a m
  have hfaulted {m : FwMessage} {c : Byte} (h : taken) (hm : (s.takeFirmware a m).Faulted c) :
      ∃ s', exec (msg m) s = .next s' ∧ s'.job.state = .ended ∧ s'.bell.phase = .faulted ∧ s'.bell.faultCode = c :=
    ⟨_, htakes h m, hm⟩
  refine ⟨fun h => exec_firmwareMessage_of_deaf h a m, fun h hj hs => ⟨_, htakes h _, ?create⟩, fun h hj => ?held,
    fun h hj hid hr => ?assign, fun h hop ha => ?order, fun h hj ha => ?delays,
    fun h hr ha hs hstop => hfaulted h ?ended, fun h hr ha hc => ?stranger, fun h hr hs hstop ha => hfaulted h ?neighbour,
    fun h hr hs hstop ha => hfaulted h ?asked, fun h hr hs hstop im him hl ha => hfaulted h ?narrow,
    fun h hr => ?notRoot, fun h hs ha hid => ?stop, fun h hs ha hid hp => ⟨_, htakes h _, ?released⟩,
    fun h hj hs hid ha => ⟨_, htakes h _, ?record⟩, fun h hr => ⟨_, htakes h _, ?page⟩, fun h hr => ?notRegistrar,
    fun h hr => ?notRootFlags, fun f t h hr hf => ⟨_, htakes h _, ?flag⟩,
    fun h hr hs hstop ha x => hfaulted h ?input, fun d det r => rfl, fun hp => ?withdrawn, fun hp hs => ?unpaired,
    fun hr hs hpair hp own hown hstop => ?digest, fun hp => ?unknown,
    fun hpair hp hlow hterm hidle => exec_lockstepPlacement_kept hpair hp hlow hterm hidle bell places⟩
  case create => exact State.takeCreate_of_free hj hs a job seed limit recess
  case held => rw [htakes h]; exact congrArg Host.Outcome.next (State.takeCreate_of_held hj a job seed limit recess)
  case assign =>
    intro mask z
    have hassign := State.takeAssign_of_created hj hid hr a slice low high map epoch us
    refine ⟨fun hz => ⟨?_, State.assignHere_of_recorded hz⟩, fun hz => ?_⟩
    · rw [htakes h]
      exact congrArg Host.Outcome.next (hassign.trans (if_pos hz))
    · rw [htakes h]
      exact congrArg Host.Outcome.next (hassign.trans (if_neg hz))
  case order => rw [htakes h]; exact congrArg Host.Outcome.next (State.takeOrder_of_stranger hop ha b)
  case delays => rw [htakes h]; exact congrArg Host.Outcome.next (State.takeOrder_delays hj ha b)
  case ended =>
    show (s.takeEnd a .faulted code).Faulted code
    rw [State.takeEnd_of_member hr hs (.inl ha)]
    exact State.endJob_faulted hstop code
  case stranger => rw [htakes h]; exact congrArg Host.Outcome.next (State.takeEnd_of_stranger hr ha hc)
  case neighbour =>
    show (s.takeEnd a .faulted 6).Faulted 6
    rw [State.takeEnd_of_member hr hs (.inr ⟨rfl, ha⟩)]
    exact State.endJob_faulted hstop 6
  case asked =>
    show (s.takeEnd a .faulted code).Faulted code
    rw [State.takeEnd_of_root hr ha]
    exact State.fault_faulted hr hs hstop code
  case narrow => exact State.takeWidthOf_of_narrow hr hs hstop him hl ha part
  case notRoot => rw [htakes h]; exact congrArg Host.Outcome.next (State.takeWidthOf_of_member hr part lanes)
  case stop => rw [htakes h]; exact congrArg Host.Outcome.next (State.takeRelease_of_session hs ha hid release)
  case released =>
    show s.keeps (s.takeRelease a job true) ∧ (s.takeRelease a job true).job = _ ∧
      (s.takeRelease a job true).rt.slice = 0 ∧ (s.takeRelease a job true).rt.role = 0
    rw [State.takeRelease_of_assigned hs ha hid]
    exact s.releaseJob_spec .nothing
  case record =>
    obtain ⟨hkeeps, -, hslice, hrole⟩ := s.clearSlice_commit .nothing
    show s.keeps (s.takeRelease a job true) ∧ (s.takeRelease a job true).rt.slice = 0 ∧
      (s.takeRelease a job true).rt.role = 0
    rw [State.takeRelease_of_record hj hs hid ha]
    exact ⟨hkeeps, hslice, hrole⟩
  case page => exact State.takePage_of_registrar hr page
  case notRegistrar => rw [htakes h]; exact congrArg Host.Outcome.next (if_neg (by rw [hr]; decide))
  case notRootFlags => rw [htakes h]; exact congrArg Host.Outcome.next (if_neg (by rw [hr]; decide))
  case flag =>
    show s.keeps (s.takeFlags a bell [(f, t)]) ∧ tabGet noFlag (s.takeFlags a bell [(f, t)]).job.flagSummary f = _
    rw [State.takeFlags_of_root hr]
    exact State.sumFlag_of_unset hf bell a t
  case input =>
    have hinput : s.takeFirmware a (.inputFailure x) = s.fault 6 := if_pos (by rw [hr, ha]; rfl)
    rw [hinput]
    exact State.fault_faulted hr hs hstop 6
  case withdrawn =>
    obtain ⟨o, ho, hother⟩ := s.withoutOffer_eq p
    exact ⟨o, congrArg Host.Outcome.next (((s.takeLock_withdraw p).1 hp).trans ho), hother⟩
  case unpaired =>
    obtain ⟨o, ho, -⟩ := s.withoutOffer_eq p
    refine ⟨_, congrArg Host.Outcome.next ((s.takeLock_withdraw p).2 hp hs), ?_, rfl, rfl⟩
    rw [ho]
    exact State.keeps_of_mem_tiles rfl rfl
  case digest =>
    have htake : exec (.lockstepDigest p (.digest s.bell.number value members)) s =
        .next (s.withPartnerSlice s.bell.number value members).compareSlices :=
      congrArg Host.Outcome.next (State.takeLock_digest_of_partner hr hpair hp _ _ _)
    obtain ⟨hsame, hdiffer⟩ := State.compareSlices_of_both (s := s.withPartnerSlice s.bell.number value members)
      (own := own) (value := value) hpair hown rfl
    refine ⟨fun hv => ?_, fun hv => ?_⟩
    · rw [htake, hsame hv]
      rfl
    · obtain ⟨c, hc⟩ := hdiffer hv
      rw [htake, hc]
      exact ⟨_, rfl, State.endEverywhere_withMismatch (s := s.withPartnerSlice s.bell.number value members) hstop c⟩
  case unknown =>
    exact ⟨congrArg Host.Outcome.next (State.takeLock_digest_of_stranger hp bell value members),
      exec_lockstepPlacement_of_stranger hp bell places⟩

end Sys2Proof.Machine
end

section
/-! PROOFS. Stretched cycles and the recovery of their debt (R73 to R75). -/

namespace Sys2Proof.Machine

/-! ## What an island's counts are read from -/

/-- Every island's counts are read from what they were read from before. -/
structure State.SameIsles (s s' : State) : Prop where
  now : s'.ts.now = s.ts.now
  phase : s'.bell.phase = s.bell.phase
  tile : ∀ u, (s'.tile u).isle = (s.tile u).isle ∧ (s'.tile u).ended = (s.tile u).ended

theorem State.SameIsles.of_tiles {s s' : State} (hts : s'.ts = s.ts) (hphase : s'.bell.phase = s.bell.phase)
    (htiles : s'.tiles = s.tiles) : s.SameIsles s' :=
  ⟨congrArg Stamps.now hts, hphase, fun u => by simp only [State.tile, htiles, and_self]⟩

theorem State.SameIsles.trans {s t u : State} (h : s.SameIsles t) (h' : t.SameIsles u) : s.SameIsles u :=
  ⟨h'.now.trans h.now, h'.phase.trans h.phase,
    fun k => ⟨(h'.tile k).1.trans (h.tile k).1, (h'.tile k).2.trans (h.tile k).2⟩⟩

theorem State.SameIsles.isle {s s' : State} (h : s.SameIsles s') (id : Nat) : s'.isle id = s.isle id := by
  obtain ⟨hisle, hended⟩ := h.tile (islandTile id)
  simp only [State.isle, State.tileIsle, h.now, h.phase, hisle, hended]

theorem State.cause_phase (s : State) (b c d u k : Nat) : (s.cause b c d u k).bell.phase = s.bell.phase := by
  unfold State.cause
  split <;> rfl

theorem State.sameIsles_cause (s : State) (b c d u k : Nat) : s.SameIsles (s.cause b c d u k) :=
  .of_tiles (s.cause_ts ..) (s.cause_phase ..) (s.cause_tiles ..)

theorem State.sameIsles_probe (s : State) (signal index : Nat) : s.SameIsles (s.probe signal index) := by
  obtain ⟨_, h⟩ := s.probe_eq signal index
  rw [h]
  exact .of_tiles rfl rfl rfl

theorem State.sameIsles_countTile (s : State) (t ev n : Nat) : s.SameIsles (s.countTile t ev n) := by
  refine ⟨congrArg Stamps.now (s.countTile_ts t ev n), by rw [State.countTile_bell], fun u => ?_⟩
  obtain ⟨⟨c, hown⟩, hother⟩ := s.countTile_tile t ev n
  by_cases hu : u = t
  · rw [hu, hown]
    exact ⟨rfl, rfl⟩
  · rw [hother u hu]
    exact ⟨rfl, rfl⟩

/-! ## The stretching of one island -/

/-- Islands of tiles that exist have tiles of their own (Table 3-1). -/
theorem islandTile_ne {v : Variant} {k id : Nat} (hk : islandExists v k = true) (hid : islandExists v id = true)
    (hk8 : k < 8192) (hid8 : id < 8192) (h : k ≠ id) : islandTile k ≠ islandTile id := by
  have slot_lt : ∀ {n}, islandExists v n = true → n < 8192 → n % 2048 < 256 := by
    intro n hn hn8
    rw [islandExists, Nat.div_eq_of_lt hn8] at hn
    exact of_decide_eq_true hn
  have hkslot := slot_lt hk hk8
  have hidslot := slot_lt hid hid8
  unfold islandTile
  omega

section
variable (s : State) (id : Nat) (x : Stretch)

theorem State.setStretch_bell : (s.setStretch id x).bell = s.bell := by
  unfold State.setStretch
  split <;> rfl

theorem State.keeps_setStretch : s.keeps (s.setStretch id x) := by
  unfold State.setStretch
  split
  · exact s.keeps_modTile _ rfl
  · exact State.keeps_of_mem_tiles rfl rfl

theorem State.setStretch_isle_other {k : Nat} (h : k ≠ id) (hk : islandExists s.fused.variant k = true)
    (hid : islandExists s.fused.variant id = true) : (s.setStretch id x).isle k = s.isle k := by
  by_cases hid8 : id < 8192 <;> by_cases hk8 : k < 8192
  · have htile := s.modTile_tile_other (fun y => { y with isle := { y.isle with stretch := x } })
      (islandTile_ne hk hid hk8 hid8 h)
    simp only [State.setStretch, if_pos hid8, State.isle, if_pos hk8, State.tileIsle, htile]
    rfl
  · simp only [State.setStretch, if_pos hid8, State.isle, if_neg hk8, State.modTile_ts]
  · simp only [State.setStretch, if_neg hid8, State.isle, if_pos hk8]
    rfl
  · simp only [State.setStretch, if_neg hid8, State.isle, if_neg hk8, Epoch.isle, tabGet_tabSet_other _ _ _ h]
    rfl

/-- The counts that an island shows with this stretching: the reference's less the debt, and a tile's own in a lesson. -/
def State.isleWith : Island :=
  if id < 8192 then
    let y := s.tile (islandTile id)
    { s.tileIsle (islandTile id) with
      stretch := x
      count := if s.bell.phase == .lesson && !y.ended then y.isle.count else max y.isle.count (s.ts.now.count 0 x) }
  else { s.ts.now.isle id with stretch := x, count := s.ts.now.count (id / 8192) x }

theorem State.isle_eq_isleWith : s.isle id = s.isleWith id (s.isle id).stretch := by
  unfold State.isle State.isleWith
  split <;> rfl

theorem State.setStretch_isle_same : (s.setStretch id x).isle id = s.isleWith id x := by
  by_cases hid8 : id < 8192
  · simp only [State.setStretch, State.isle, State.isleWith, State.tileIsle, if_pos hid8, State.modTile_tile_same,
      State.modTile_bell, State.modTile_ts]
  · simp only [State.setStretch, State.isle, State.isleWith, Epoch.isle, if_neg hid8, tabGet_tabSet_same]
    rfl

theorem State.isleWith_stretch : (s.isleWith id x).stretch = x := by
  unfold State.isleWith
  split <;> rfl

/-- A reference count that falls behind by one more cycle of debt shows the cycle just stretched (R73, R74). -/
theorem Epoch.count_droop (e : Epoch) (kind c : Nat) (b : Bool) (h : e.count kind x ≤ c) :
    e.count kind (x.droop c b) = c := by
  unfold Epoch.count at h ⊢
  unfold Stretch.droop
  dsimp only
  omega

/-- A stretched cycle counts as one: the island's count stays where it is (R73). -/
theorem State.isleWith_droop_count (b : Bool) :
    (s.isleWith id ((s.isle id).stretch.droop (s.isle id).count b)).count = (s.isle id).count := by
  by_cases hid8 : id < 8192
  · simp only [State.isleWith, State.isle, State.tileIsle, if_pos hid8]
    split
    · rfl
    · rw [Epoch.count_droop _ _ _ _ _ (Nat.le_max_right _ _)]
      exact Nat.max_eq_right (Nat.le_max_left _ _)
  · simp only [State.isleWith, State.isle, Epoch.isle, if_neg hid8]
    exact Epoch.count_droop _ _ _ _ _ (Nat.le_refl _)
end

/-! ## A droop -/

/-- The island has stretched its cycle, which its tile counts and the probe pins show. -/
def State.drooped (s : State) (id : Nat) : State :=
  let i := s.isle id
  let x := s.setStretch id (i.stretch.droop i.count (s.isleInLesson id))
  (if id < 8192 then x.countTile (islandTile id) 0x000B 1 else x).probe 5 (probeIndex id)

/-- The counters and the probe pins leave the islands' counts, the bell's block, registers and memory as they are. -/
theorem State.drooped_leaves (s : State) (id : Nat) :
    let i := s.isle id
    s.keeps (s.drooped id) ∧ (s.drooped id).bell = s.bell ∧
      (s.setStretch id (i.stretch.droop i.count (s.isleInLesson id))).SameIsles (s.drooped id) := by
  unfold State.drooped
  dsimp only
  generalize (s.isle id).stretch.droop (s.isle id).count (s.isleInLesson id) = x
  have hkeeps := s.keeps_setStretch id x
  have hbell := s.setStretch_bell id x
  split
  · refine ⟨(hkeeps.trans (State.countsOnly_countTile _ _ _ _).keeps).trans (State.countsOnly_probe _ _ _).keeps, ?_,
      (State.sameIsles_countTile _ _ _ _).trans (State.sameIsles_probe _ _ _)⟩
    rw [State.probe_bell, State.countTile_bell, hbell]
  · exact ⟨hkeeps.trans (State.countsOnly_probe _ _ _).keeps, (State.probe_bell _ _ _).trans hbell,
      State.sameIsles_probe _ _ _⟩

theorem State.overstretch_eq_cause (s : State) (id : Nat) :
    ∃ d u k, s.overstretch id = s.cause cOverstretch (s.isle id).count d u k := by
  unfold State.overstretch State.tileCause
  dsimp only
  split_ifs
  · exact ⟨_, _, _, rfl⟩
  · exact ⟨_, _, _, rfl⟩
  · exact ⟨_, _, _, rfl⟩

/-- The lesson is in progress on the island, and its stretched cycles have used up the budget (R75). -/
def State.SpentBudget (s : State) (id : Nat) : Prop :=
  s.isleInLesson id = true ∧ (s.isle id).lessonStretch = s.bell.stretchBudget

theorem State.isleInLesson_iff (s : State) (id : Nat) :
    s.isleInLesson id = true ↔ s.bell.phase = .lesson ∧ (s.isle id).count < s.bell.lessonLength := by
  simp [State.isleInLesson]

/-- The island exists and has a clock. -/
def State.Clocked (s : State) (id : Nat) : Prop :=
  islandExists s.fused.variant id = true ∧ s.isleStopped id = false

/-- A droop where the budget is spent marks the lesson; any other leaves it unmarked. -/
theorem exec_droopDetect_of_clocked {s : State} {id : BitVec 16} (h : s.Clocked id.toNat) :
    (s.SpentBudget id.toNat →
      exec (.droopDetect id) s = .next ((s.drooped id.toNat).overstretch id.toNat)) ∧
    (¬s.SpentBudget id.toNat → exec (.droopDetect id) s = .next (s.drooped id.toNat)) := by
  obtain ⟨hexists, hruns⟩ := h
  have hclock : (islandExists s.fused.variant id.toNat && !s.isleStopped id.toNat) = true := by
    rw [hexists, hruns]; rfl
  have hexceeded : (s.isleInLesson id.toNat && ((s.isle id.toNat).stretch.droop (s.isle id.toNat).count
      (s.isleInLesson id.toNat)).lessonStretch == s.bell.stretchBudget + 1) = true ↔ s.SpentBudget id.toNat := by
    rw [Bool.and_eq_true, beq_iff_eq, State.SpentBudget]
    refine and_congr_right fun hin => ?_
    rw [hin]
    exact Nat.succ_inj
  have hexec : exec (.droopDetect id) s = execDroopDetect id s := rfl
  rw [hexec]
  unfold execDroopDetect
  dsimp only
  rw [if_pos hclock]
  exact ⟨fun hspent => congrArg Host.Outcome.next (if_pos (hexceeded.2 hspent)),
    fun hspent => congrArg Host.Outcome.next (if_neg (mt hexceeded.1 hspent))⟩

/-- What a droop comes to: the island's stretching, and the mark where the budget is spent. -/
theorem exec_droopDetect_spec {s : State} {id : BitVec 16} (h : s.Clocked id.toNat) :
    let i := s.isle id.toNat
    ∃ s', exec (.droopDetect id) s = .next s' ∧ s.keeps s' ∧
      (s.setStretch id.toNat (i.stretch.droop i.count (s.isleInLesson id.toNat))).SameIsles s' ∧
      (¬s.SpentBudget id.toNat → s'.bell = s.bell) ∧
      (s.SpentBudget id.toNat → s.causeOpen = true → bit s'.bell.lessonCauses 5 = true) := by
  obtain ⟨hmarks, hplain⟩ := exec_droopDetect_of_clocked h
  obtain ⟨hkeeps, hbell, hisles⟩ := s.drooped_leaves id.toNat
  by_cases hspent : s.SpentBudget id.toNat
  · obtain ⟨d, u, k, hcause⟩ := (s.drooped id.toNat).overstretch_eq_cause id.toNat
    refine ⟨_, hmarks hspent, ?_, ?_, fun hn => absurd hspent hn, fun _ hopen => ?_⟩
    · exact hcause ▸ hkeeps.trans (State.keeps_cause _ _ _ _ _ _)
    · exact hcause ▸ hisles.trans (State.sameIsles_cause _ _ _ _ _ _)
    · rw [hcause]
      exact State.bit_cause _ (by decide) _ _ _ _ (by rw [State.causeOpen, hbell]; exact hopen)
  · exact ⟨_, hplain hspent, hkeeps, hisles, fun _ => hbell, fun hs => absurd hs hspent⟩

/-! ## Recovery -/

theorem Stretch.recover_of_calm {x : Stretch} {c : Nat} (hdebt : x.debt ≠ 0) (hcalm : x.calm + 32 ≤ c) :
    x.recover c = { x with debt := x.debt - 1, calm := c } :=
  if_pos ⟨hdebt, hcalm⟩

theorem Stretch.recover_of_early {x : Stretch} {c : Nat} (h : x.debt = 0 ∨ c < x.calm + 32) : x.recover c = x :=
  if_neg fun ⟨hdebt, hcalm⟩ => h.elim hdebt (Nat.not_lt.2 hcalm)

/-- A recovery changes the debt and the run of calm cycles only. -/
theorem Stretch.recover_counts (x : Stretch) (c : Nat) :
    (x.recover c).stretched = x.stretched ∧ (x.recover c).lessonStretch = x.lessonStretch := by
  unfold Stretch.recover
  split <;> exact ⟨rfl, rfl⟩

theorem exec_stretchDebtRecovery_of_clocked {s : State} {id : BitVec 16} (h : s.Clocked id.toNat) :
    exec (.stretchDebtRecovery id) s =
      .next (s.setStretch id.toNat ((s.isle id.toNat).stretch.recover (s.isle id.toNat).count)) := by
  obtain ⟨hexists, hruns⟩ := h
  exact congrArg Host.Outcome.next (if_pos (by rw [hexists, hruns]; rfl))

/-- An island that does not exist, or has no clock, neither stretches nor recovers. -/
theorem exec_stretching_of_not_clocked {s : State} {id : BitVec 16} (h : ¬s.Clocked id.toNat) :
    exec (.droopDetect id) s = .next s ∧ exec (.stretchDebtRecovery id) s = .next s := by
  have hclock : ¬(islandExists s.fused.variant id.toNat && !s.isleStopped id.toNat) = true := fun hc => by
    obtain ⟨hexists, hruns⟩ := (Bool.and_eq_true _ _).mp hc
    exact h ⟨hexists, Bool.not_eq_true' _ ▸ hruns⟩
  exact ⟨congrArg Host.Outcome.next (if_neg hclock), congrArg Host.Outcome.next (if_neg hclock)⟩

/-- Settles O21: a droop and a recovery through the island's new stretching, which no other island reads. -/
theorem stretching : Obligations.Stretching := by
  unfold Obligations.Stretching
  refine fun s id => ⟨fun hclocked => ?droop, fun hclocked => ?recovery, exec_stretching_of_not_clocked⟩
  case droop =>
    obtain ⟨s', hexec, hkeeps, hisles, hplain, hmarks⟩ := exec_droopDetect_spec hclocked
    have hown := (hisles.isle id.toNat).trans (s.setStretch_isle_same id.toNat _)
    have hstretch := (congrArg Island.stretch hown).trans (s.isleWith_stretch id.toNat _)
    have hcount := (congrArg Island.count hown).trans (s.isleWith_droop_count id.toNat _)
    refine ⟨s', hexec, hkeeps, fun k hk hexists => (hisles.isle k).trans
      (s.setStretch_isle_other id.toNat _ hk hexists hclocked.1), ?_⟩
    dsimp only [Island.stretched, Island.debt, Island.lessonStretch]
    rw [hstretch]
    refine ⟨rfl, rfl, hcount, rfl, fun hin => if_pos ((s.isleInLesson_iff _).2 hin), fun hin => ?_,
      fun hin hopen hspent => ?_⟩
    · have hout := mt (s.isleInLesson_iff id.toNat).1 hin
      exact ⟨if_neg hout, hplain fun hspent => hout hspent.1⟩
    · exact hmarks ⟨(s.isleInLesson_iff _).2 hin, hspent⟩ (State.causeOpen_of_lesson hin.1 hopen)
  case recovery =>
    have hown := s.setStretch_isle_same id.toNat ((s.isle id.toNat).stretch.recover (s.isle id.toNat).count)
    have hstretch := (congrArg Island.stretch hown).trans (s.isleWith_stretch id.toNat _)
    obtain ⟨hstretched, hlesson⟩ := (s.isle id.toNat).stretch.recover_counts (s.isle id.toNat).count
    refine ⟨_, exec_stretchDebtRecovery_of_clocked hclocked, s.keeps_setStretch _ _,
      fun k hk hexists => s.setStretch_isle_other id.toNat _ hk hexists hclocked.1, s.setStretch_bell _ _, ?_⟩
    dsimp only [Island.stretched, Island.debt, Island.lessonStretch]
    refine ⟨by rw [hstretch, hstretched], by rw [hstretch, hlesson], fun hdebt hcalm => ?_, fun hearly => ?_⟩
    · rw [hstretch, Stretch.recover_of_calm hdebt hcalm]
      exact ⟨rfl, rfl⟩
    · rw [hown, Stretch.recover_of_early hearly]
      exact (s.isle_eq_isleWith id.toNat).symm

end Sys2Proof.Machine
end

section
/-! PROOFS. Power and temperature samples, the thermal step and P1 (R80, R477, R480, R483, R485 to R487, R493, Table
20-4). -/

namespace Sys2Proof.Machine

/-! ## The trip (R80) -/

/-- An island of kinds 0 to 2 stands once the clocks are stopped. -/
theorem State.stopClocks_isleStopped (s : State) {id : Nat} (h : id < 24576) : s.stopClocks.isleStopped id = true := by
  suffices hstopped : (s.stopClocks.isle id).stopped = true by rw [State.isleStopped, hstopped, Bool.true_or]
  unfold State.isle
  split
  · have htile : (s.stopClocks.tile (islandTile id)).isle.stopped = true ∨
        (s.stopClocks.tile (islandTile id)).isle.stopAt = none := by
      refine tabGet_of_forall (P := fun x : Tile => x.isle.stopped = true ∨ x.isle.stopAt = none) (Or.inr rfl) ?_ _
      intro e he
      obtain ⟨x, -, hx⟩ := mem_tabMap he
      rw [hx]
      exact Or.inl rfl
    rcases htile with htile | htile
    · simp only [State.tileIsle, htile, Bool.true_or]
    · simp only [State.tileIsle, htile]
      exact Bool.or_true _
  · have hkind : id / 8192 ≤ 2 := by omega
    exact (Bool.and_eq_true _ _).mpr ⟨decide_eq_true hkind, rfl⟩

theorem State.keeps_stopClocks (s : State) : s.keeps s.stopClocks :=
  State.keeps_of_isle rfl fun u => tabGet_tabMap_isle _ (fun _ _ => ⟨_, rfl⟩) s.tiles u

theorem State.cause_index (s : State) (b c d u k : Nat) : (s.cause b c d u k).bell.index = s.bell.index := by
  unfold State.cause
  split <;> rfl

/-- A member's lesson takes CLOCKSTOP before the trip stops its clocks. -/
def State.beforeTrip (s : State) : State :=
  if s.inSession && s.isMember && !s.clocksStopped then s.cause cClockStop (s.isle 0x2000).count 0 0 3 else s

theorem State.beforeTrip_eq (s : State) : ∃ bell, bell.index = s.bell.index ∧ s.beforeTrip = { s with bell := bell } := by
  unfold State.beforeTrip
  split
  · obtain ⟨bell, h⟩ := s.cause_eq cClockStop (s.isle 0x2000).count 0 0 3
    refine ⟨bell, ?_, h⟩
    rw [← s.cause_index cClockStop (s.isle 0x2000).count 0 0 3, h]
  · exact ⟨s.bell, rfl, rfl⟩

/-- A trip touches the clocks, the lesson's causes and PW_STATE.tripped only. -/
theorem State.trip_leaves (s : State) : s.keeps s.trip ∧ s.trip.pw = { s.pw with tripped := true } ∧
    s.trip.bell.index = s.bell.index ∧ s.trip.job = s.job := by
  obtain ⟨bell, hindex, h⟩ := s.beforeTrip_eq
  have htrip : s.trip = { s.beforeTrip.stopClocks with pw := { s.beforeTrip.pw with tripped := true } } := rfl
  rw [htrip, h]
  exact ⟨State.keeps_stopClocks { s with bell := bell }, rfl, hindex, rfl⟩

theorem State.trip_isleStopped (s : State) {id : Nat} (h : id < 24576) : s.trip.isleStopped id = true :=
  s.beforeTrip.stopClocks_isleStopped h

/-- A trip in a member's lesson leaves it marked CLOCKSTOP (R80). -/
theorem State.trip_clockStop {s : State} (hsession : s.inSession = true) (hmember : s.isMember = true)
    (hopen : s.causeOpen = true) : bit s.trip.bell.lessonCauses 7 = true := by
  show bit s.beforeTrip.bell.lessonCauses 7 = true
  by_cases hstopped : s.clocksStopped = true
  · rw [State.beforeTrip, hstopped, if_neg (by simp)]
    exact hstopped
  · rw [State.beforeTrip, if_pos (by rw [hsession, hmember, Bool.eq_false_of_not_eq_true hstopped]; rfl)]
    exact s.bit_cause (by decide) _ _ _ _ hopen

/-! ## Temperature readings -/

/-- Settling the step in force touches that step only (R480). -/
theorem State.settleStep_eq (s : State) :
    ∃ step, s.settleStep = { s with pw := { s.pw with step := step } } := by
  unfold State.settleStep
  split
  · exact ⟨s.pw.step, rfl⟩
  · exact ⟨_, rfl⟩

/-- A table filled entry by entry from a function. -/
theorem tabGet_foldl_tabSet_range {α : Type} [DecidableEq α] (d : α) (f : Nat → α) (n k : Nat) :
    tabGet d ((List.range n).foldl (fun t i => tabSet d t i (f i)) []) k = if k < n then f k else d := by
  induction n with
  | zero => rfl
  | succ n ih =>
    rw [List.range_succ, List.foldl_append, List.foldl_cons, List.foldl_nil]
    by_cases hk : k = n
    · rw [hk, tabGet_tabSet_same, if_pos n.lt_succ_self]
    · rw [tabGet_tabSet_other _ _ _ hk, ih]
      exact if_congr (by omega) rfl rfl

/-- The reading of a sensor that the part has; 0x8000 stands for none (R485). -/
def readingAt (v : Variant) (readings : List (BitVec 16)) (i : Nat) : BitVec 16 :=
  if sensorThere v i then readings.getD i 0x8000 else 0x8000

/-- Among these sensors one of the part reads this bound, in eighths of a degree, or more. -/
def ReadsHot (v : Variant) (readings : List (BitVec 16)) (lo n : Nat) (bound : Int) : Prop :=
  ∃ i, lo ≤ i ∧ i < lo + n ∧ sensorThere v i = true ∧
    readings.getD i 0x8000 ≠ 0x8000 ∧ bound ≤ (readings.getD i 0x8000).toInt

theorem readingAt_iff (v : Variant) (readings : List (BitVec 16)) (i : Nat) (bound : Int) :
    (readingAt v readings i != 0x8000 && bound ≤ (readingAt v readings i).toInt) = true ↔
      sensorThere v i = true ∧ readings.getD i 0x8000 ≠ 0x8000 ∧ bound ≤ (readings.getD i 0x8000).toInt := by
  unfold readingAt
  by_cases h : sensorThere v i = true
  · rw [if_pos h, Bool.and_eq_true, bne_iff_ne, decide_eq_true_iff]
    exact ⟨fun hread => ⟨h, hread⟩, fun hread => hread.2⟩
  · rw [if_neg h]
    exact ⟨fun hread => absurd hread (by simp), fun hread => absurd hread.1 h⟩

/-- The readings are in place. -/
def State.measured (s : State) (readings : List (BitVec 16)) : State :=
  { s with pw := { s.pw with
      temps := (List.range 80).foldl (fun t i => tabSet 0x8000 t i (readingAt s.fused.variant readings i)) [] } }

/-- The readings are in place, and what follows from them at once: the throttle that is due, and whether the stacks hold
programming back (Table 20-4). -/
def State.sampledTemps (s : State) (readings : List (BitVec 16)) : State :=
  let t := s.measured readings
  { t with pw := { t.pw with
      stacksHot := t.sensorAt 72 8 680 || (s.pw.stacksHot && t.sensorAt 72 8 641), throttleDue := t.sensorAt 0 64 760 } }

theorem State.sensorAt_measured (s : State) (readings : List (BitVec 16)) {lo n : Nat} (h : lo + n ≤ 80) (bound : Int) :
    (s.measured readings).sensorAt lo n bound = true ↔ ReadsHot s.fused.variant readings lo n bound := by
  have hread : ∀ j < n, tabGet 0x8000 (s.measured readings).pw.temps (lo + j) =
      readingAt s.fused.variant readings (lo + j) := fun j hj => by
    unfold State.measured
    rw [tabGet_foldl_tabSet_range, if_pos (by omega)]
  unfold State.sensorAt ReadsHot
  rw [List.any_eq_true]
  constructor
  · rintro ⟨j, hj, hot⟩
    have hj := List.mem_range.1 hj
    rw [hread j hj, readingAt_iff] at hot
    exact ⟨lo + j, by omega, by omega, hot⟩
  · rintro ⟨i, hlo, hhi, hot⟩
    obtain ⟨j, rfl⟩ := Nat.exists_eq_add_of_le hlo
    have hj : j < n := by omega
    refine ⟨j, List.mem_range.2 hj, ?_⟩
    rw [hread j hj, readingAt_iff]
    exact hot

section
variable (s : State) (readings : List (BitVec 16))

/-- A reading of an I/O die or of a stack that cuts the part to P3 (Table 20-4). -/
def State.CutsHot : Prop :=
  s.cutting = false ∧ (ReadsHot s.fused.variant readings 64 8 880 ∨ ReadsHot s.fused.variant readings 72 8 760)

/-- A reading of a compute die that shuts the part down to P2. -/
def State.ShutsHot : Prop :=
  s.cutting = false ∧ ¬s.CutsHot readings ∧ s.pw.domainA = true ∧ ReadsHot s.fused.variant readings 0 64 920

/-- A reading of a compute die that trips the clocks and shuts nothing down. -/
def State.TripsHot : Prop :=
  s.cutting = false ∧ ¬s.CutsHot readings ∧ s.pw.domainA = true ∧ ReadsHot s.fused.variant readings 0 64 840 ∧
    ¬ReadsHot s.fused.variant readings 0 64 920
end

/-- What a sample does beyond its registers, by the hottest reading. -/
theorem exec_temperatureSample_spec {s : State} (hf : s.pw.firmware = true) (readings : List (BitVec 16)) :
    let u := s.sampledTemps readings
    (s.CutsHot readings → exec (.temperatureSample readings) s = .next u.hotCut) ∧
    (s.ShutsHot readings → exec (.temperatureSample readings) s = .next u.thermalShutdown) ∧
    (s.TripsHot readings → exec (.temperatureSample readings) s = .next u.thermalTrip) ∧
    (¬s.CutsHot readings → ¬s.ShutsHot readings → ¬s.TripsHot readings →
      exec (.temperatureSample readings) s = .next u) := by
  let t := s.measured readings
  have hdies := s.sensorAt_measured readings (lo := 64) (n := 8) (by decide) 880
  have hstacks := s.sensorAt_measured readings (lo := 72) (n := 8) (by decide) 760
  have hcuts : (t.sensorAt 64 8 880 || t.sensorAt 72 8 760) = true ↔
      ReadsHot s.fused.variant readings 64 8 880 ∨ ReadsHot s.fused.variant readings 72 8 760 := by
    rw [Bool.or_eq_true, hdies, hstacks]
  have hcompute (bound : Int) : (s.pw.domainA && t.sensorAt 0 64 bound) = true ↔
      s.pw.domainA = true ∧ ReadsHot s.fused.variant readings 0 64 bound := by
    rw [Bool.and_eq_true, s.sensorAt_measured readings (by decide)]
  have hexec : exec (.temperatureSample readings) s = .next (
      if s.cutting then s.sampledTemps readings
      else if t.sensorAt 64 8 880 || t.sensorAt 72 8 760 then (s.sampledTemps readings).hotCut
      else if s.pw.domainA && t.sensorAt 0 64 920 then (s.sampledTemps readings).thermalShutdown
      else if s.pw.domainA && t.sensorAt 0 64 840 then (s.sampledTemps readings).thermalTrip
      else s.sampledTemps readings) := congrArg Host.Outcome.next (if_pos hf)
  rw [hexec]
  refine ⟨fun ⟨hcut, hot⟩ => ?cuts, fun ⟨hcut, hcool, hshut⟩ => ?shuts, fun ⟨hcut, hcool, hon, hot, hless⟩ => ?trips,
    fun hncut hnshut hntrip => ?plain⟩
  case cuts => rw [hcut, if_neg (by decide), if_pos (hcuts.2 hot)]
  case shuts =>
    rw [hcut, if_neg (by decide), if_neg fun h => hcool ⟨hcut, hcuts.1 h⟩, if_pos ((hcompute 920).2 hshut)]
  case trips =>
    rw [hcut, if_neg (by decide), if_neg fun h => hcool ⟨hcut, hcuts.1 h⟩,
      if_neg fun h => hless ((hcompute 920).1 h).2, if_pos ((hcompute 840).2 ⟨hon, hot⟩)]
  case plain =>
    cases hcut : s.cutting with
    | true => rfl
    | false =>
      have hncuts := fun h => hncut ⟨hcut, hcuts.1 h⟩
      have hnshuts := fun h => hnshut ⟨hcut, hncut, (hcompute 920).1 h⟩
      rw [if_neg (by decide), if_neg hncuts, if_neg hnshuts, if_neg fun h => ?_]
      obtain ⟨hon, hot⟩ := (hcompute 840).1 h
      exact hntrip ⟨hcut, hncut, hon, hot, fun hhigh => hnshuts ((hcompute 920).2 ⟨hon, hhigh⟩)⟩

/-- The registers that every sample sets: the throttle due, and the stacks' hysteresis between 85 and 80 °C. -/
theorem State.sampledTemps_spec (s : State) (readings : List (BitVec 16)) :
    ((s.sampledTemps readings).pw.throttleDue = true ↔ ReadsHot s.fused.variant readings 0 64 760) ∧
    ((s.sampledTemps readings).pw.stacksHot = true ↔ ReadsHot s.fused.variant readings 72 8 680 ∨
      (s.pw.stacksHot = true ∧ ReadsHot s.fused.variant readings 72 8 641)) := by
  have hstacks (bound : Int) := s.sensorAt_measured readings (lo := 72) (n := 8) (by decide) bound
  refine ⟨s.sensorAt_measured readings (by decide) 760, ?_⟩
  show ((s.measured readings).sensorAt 72 8 680 || (s.pw.stacksHot && (s.measured readings).sensorAt 72 8 641)) = true ↔ _
  rw [Bool.or_eq_true, Bool.and_eq_true, hstacks, hstacks]

/-! ## Trip and shutdown on temperature -/

theorem State.thermalTrip_of_tripped {s : State} (h : s.pw.thermalTrip = true) : s.thermalTrip = s := if_pos h

/-- The first reading of a thermal trip: the trip of R80, THERM_TRIP_N, and a thermal step two below the one in force. -/
theorem State.thermalTrip_spec {s : State} (h : s.pw.thermalTrip = false) :
    s.keeps s.thermalTrip ∧ s.thermalTrip.pins.thermTrip = true ∧ s.thermalTrip.pw.thermalTrip = true ∧
      s.thermalTrip.pw.tripped = true ∧ s.thermalTrip.pw.thermalTrips = s.pw.thermalTrips + 1 ∧
      s.thermalTrip.pw.thermalStep = (if s.pw.step.toNat < 2 then 0 else s.pw.step - 2) ∧
      (∀ id, id < 24576 → s.thermalTrip.isleStopped id = true) ∧ s.thermalTrip.bell = s.trip.bell := by
  obtain ⟨hkeeps, hpw, -, -⟩ := s.trip_leaves
  have heq : ∃ step, s.thermalTrip = { s.trip with
      pw := { s.trip.pw with
        thermalTrip := true, thermalTrips := s.trip.pw.thermalTrips + 1
        thermalStep := if s.pw.step.toNat < 2 then 0 else s.pw.step - 2
        step := step }
      pins := { s.trip.pins with thermTrip := true } } := by
    unfold State.thermalTrip
    rw [if_neg (by rw [h]; decide)]
    exact State.settleStep_eq _
  obtain ⟨step, heq⟩ := heq
  rw [heq]
  exact ⟨hkeeps, rfl, rfl, congrArg Power.tripped hpw, congrArg (·.thermalTrips + 1) hpw, rfl,
    fun id hid => s.trip_isleStopped hid, rfl⟩

theorem State.thermalShutdown_spec (s : State) : s.thermalShutdown.pw.state = .p2 ∧
    s.thermalShutdown.pw.domainA = false ∧ s.thermalShutdown.pw.lastReset = 6 ∧
    s.thermalShutdown.pins.thermTrip = true :=
  ⟨rfl, rfl, rfl, rfl⟩

theorem State.hotCut_spec (s : State) : s.hotCut.pw.state = .p3 ∧ s.hotCut.pw.domainA = false ∧
    s.hotCut.pw.firmware = false ∧ s.hotCut.pw.lastReset = 8 ∧ s.hotCut.pins.hotTrip = true ∧
    s.hotCut.pins.inputGood = s.pins.inputGood :=
  ⟨rfl, rfl, rfl, rfl, rfl, rfl⟩

/-! ## The thermal step and the trip's ready -/

theorem exec_thermalStepRise_of_cool {s : State} (hf : s.pw.firmware = true) (hcool : s.cool = true) :
    exec .thermalStepRise s = .next (
      if s.inSession && s.isMember then { s with pw := { s.pw with riseDue := true } }
      else State.settleStep
        { s with pw := { s.pw with thermalStep := if s.pw.thermalStep = 7 then 7 else s.pw.thermalStep + 1 } }) :=
  congrArg Host.Outcome.next (if_pos (by rw [hf, hcool]; rfl))

theorem exec_cooldownReady_of_cool {s : State} (hf : s.pw.firmware = true) (hcool : s.cool = true)
    (htrip : s.pins.thermTrip = true) : exec .cooldownReady s =
      .next { s with pins := { s.pins with thermTrip := false }, pw := { s.pw with thermalTrip := false } } :=
  congrArg Host.Outcome.next (if_pos (by rw [hf, hcool, htrip]; rfl))

theorem exec_cooldownReady_of_not_tripped {s : State} (htrip : s.pins.thermTrip = false) :
    exec .cooldownReady s = .next s :=
  congrArg Host.Outcome.next (if_neg (by simp [htrip]))

/-- Warm dies, or no firmware, give nothing back. -/
theorem exec_cooling_of_warm {s : State} (h : s.cool = false ∨ s.pw.firmware = false) :
    exec .cooldownReady s = .next s ∧ exec .thermalStepRise s = .next s := by
  rcases h with h | h <;>
    exact ⟨congrArg Host.Outcome.next (if_neg (by simp [h])), congrArg Host.Outcome.next (if_neg (by simp [h]))⟩

/-! ## Power samples -/

/-- The last 100 samples with this one. -/
def State.samplesWith (s : State) (watts : Nat) : List Nat :=
  (s.pw.samples ++ [watts]).drop ((s.pw.samples ++ [watts]).length - 100)

/-- A power sample is in place. -/
def State.sampledPower (s : State) (watts : Nat) (v : BitVec 16) : State :=
  { s with pw := { s.pw with samples := s.samplesWith watts, voltage := v, energy := s.pw.energy + watts } }

/-- The mean over a full window is 97 % of the limit or more, and no power trip holds. -/
def State.PowerTrips (s : State) (watts : Nat) : Prop :=
  let l := s.samplesWith watts
  let last := l.drop (l.length - 20)
  last.length = 20 ∧ 97 * limitWatts s.pw.limit * 20 ≤ 100 * last.sum ∧ s.pw.domainA = true ∧ s.pw.powerTrip = false

/-- What a power trip adds to the trip of the clocks. -/
def State.powerTripped (s : State) : State :=
  { s with pw := { s.pw with
      powerTrip := true, powerTrips := s.pw.powerTrips + 1
      measured := if s.inSession then tabSet (0, 0) s.pw.measured s.bell.index (0, 0) else s.pw.measured } }

theorem exec_powerSample_of_firmware {s : State} (hf : s.pw.firmware = true) (watts : Nat) (v : BitVec 16) :
    let t := s.sampledPower watts v
    (¬s.PowerTrips watts → exec (.powerSample watts v) s = .next t) ∧
    (s.PowerTrips watts →
      exec (.powerSample watts v) s = .next (if s.pw.tripped then t else t.trip).powerTripped) := by
  have htrips : (windowTrips (s.samplesWith watts) (limitWatts s.pw.limit) && s.pw.domainA && !s.pw.powerTrip) = true ↔
      s.PowerTrips watts := by
    simp only [windowTrips, State.PowerTrips, Bool.and_eq_true, beq_iff_eq, decide_eq_true_iff, Bool.not_eq_true',
      and_assoc]
  have hexec : exec (.powerSample watts v) s = execPowerSample watts v s := rfl
  rw [hexec]
  unfold execPowerSample
  rw [if_pos hf]
  exact ⟨fun h => congrArg Host.Outcome.next (if_neg (mt htrips.1 h)),
    fun h => congrArg Host.Outcome.next (if_pos (htrips.2 h))⟩

/-- The clocks of a part that a power trip has met stand, by this trip or by one before it. -/
theorem State.tripOnce_leaves (s : State) : let t := if s.pw.tripped then s else s.trip
    s.keeps t ∧ t.pw = { s.pw with tripped := true } ∧ t.bell.index = s.bell.index ∧ t.job = s.job := by
  dsimp only
  split
  next htripped => exact ⟨.refl s, by rw [← htripped], rfl, rfl⟩
  next => exact s.trip_leaves

/-- The measured power of the lesson in progress is forgotten. -/
theorem State.powerTripped_measured {s : State} (h : s.inSession = true) :
    tabGet (0, 0) s.powerTripped.pw.measured s.bell.index = (0, 0) := by
  unfold State.powerTripped
  dsimp only
  rw [if_pos h, tabGet_tabSet_same]

/-! ## P1 -/

theorem exec_p1IdleEntry (s : State) : exec .p1IdleEntry s = .next (
    if s.pw.state = .p0 ∧ s.pw.startup = 7 ∧ s.pw.domainA = true ∧ s.inSession = false ∧ s.working = false then
      { s with pw := { s.pw with state := .p1 }, ts := { s.ts with now := s.ts.now.gate } }
    else s) := by
  simp [exec, execP1IdleEntry, and_assoc]

/-- The sampled registers touch neither memory nor tiles. -/
theorem State.keeps_sampledTemps (s : State) (readings : List (BitVec 16)) : s.keeps (s.sampledTemps readings) :=
  State.keeps_of_mem_tiles rfl rfl

/-- Settles O31: a temperature sample by what it reads, the other commands by their conditions. -/
theorem temperature : Obligations.Temperature := by
  unfold Obligations.Temperature
  refine ⟨fun s readings => ⟨?off, ?registers, ?trip, ?shutdown, ?cut⟩,
    fun s watts v => ⟨?rise, ?riseMember, exec_cooldownReady_of_cool, exec_cooldownReady_of_not_tripped,
      exec_cooling_of_warm, ⟨?powerOff, ?powerPlain, ?powerTrip⟩, ?p1, ?noP1⟩⟩
  case off => exact fun hf => congrArg Host.Outcome.next (if_neg (by rw [hf]; decide))
  case registers =>
    intro hf hncut hnshut htripped
    obtain ⟨-, -, htrip, hplain⟩ := exec_temperatureSample_spec hf readings
    refine ⟨s.sampledTemps readings, ?_, s.keeps_sampledTemps readings, rfl, rfl, rfl, s.sampledTemps_spec readings⟩
    by_cases htrips : s.TripsHot readings
    · rw [htrip htrips, State.thermalTrip_of_tripped (s := s.sampledTemps readings) (htripped htrips)]
    · exact hplain hncut hnshut htrips
  case trip =>
    intro hf htrips hfirst
    obtain ⟨-, -, htrip, -⟩ := exec_temperatureSample_spec hf readings
    obtain ⟨hkeeps, hpin, hheld, htripped, hcount, hstep, hstopped, hbell⟩ :=
      State.thermalTrip_spec (s := s.sampledTemps readings) hfirst
    refine ⟨_, htrip htrips, (s.keeps_sampledTemps readings).trans hkeeps, hpin, hheld, htripped, hcount, hstep,
      fun id hid _ => hstopped id hid, fun hsession hmember hopen => ?_⟩
    rw [hbell]
    exact State.trip_clockStop (s := s.sampledTemps readings) hsession hmember hopen
  case shutdown =>
    intro hf hshut
    obtain ⟨-, hshuts, -, -⟩ := exec_temperatureSample_spec hf readings
    exact ⟨_, hshuts hshut, State.thermalShutdown_spec _⟩
  case cut =>
    intro hf hcut
    obtain ⟨hcuts, -, -, -⟩ := exec_temperatureSample_spec hf readings
    exact ⟨_, hcuts hcut, (s.sampledTemps readings).hotCut_spec⟩
  case rise =>
    intro hf hcool hout
    have hcond : ¬(s.inSession && s.isMember) = true := by rcases hout with h | h <;> simp [h]
    have hexec := (exec_thermalStepRise_of_cool hf hcool).trans (congrArg Host.Outcome.next (if_neg hcond))
    exact ⟨_, hexec.trans (congrArg Host.Outcome.next (if_neg hcond)), State.keeps_of_mem_tiles rfl rfl, rfl, rfl⟩
  case riseMember =>
    intro hf hcool hsession hmember
    rw [exec_thermalStepRise_of_cool hf hcool, hsession, hmember]
    rfl
  case powerOff => exact fun hf => congrArg Host.Outcome.next (if_neg (by rw [hf]; decide))
  case powerPlain => exact fun hf => (exec_powerSample_of_firmware hf watts v).1
  case powerTrip =>
    intro hf htrips
    obtain ⟨hkeeps, hpw, hindex, hjob⟩ := (s.sampledPower watts v).tripOnce_leaves
    refine ⟨_, (exec_powerSample_of_firmware hf watts v).2 htrips, hkeeps, congrArg Power.tripped hpw, rfl,
      congrArg (·.powerTrips + 1) hpw, congrArg Power.samples hpw, congrArg Power.voltage hpw,
      congrArg Power.energy hpw, fun hsession => ?_, fun hfirst hsession hmember hopen => ?_⟩
    · have hsession' : (if s.pw.tripped then s.sampledPower watts v else (s.sampledPower watts v).trip).inSession =
          true := (congrArg (·.state == .inSession) hjob).trans hsession
      exact hindex ▸ State.powerTripped_measured hsession'
    · rw [hfirst]
      exact State.trip_clockStop (s := s.sampledPower watts v) hsession hmember hopen
  case p1 => exact fun h => (exec_p1IdleEntry s).trans (congrArg Host.Outcome.next (if_pos h))
  case noP1 => exact fun h => (exec_p1IdleEntry s).trans (congrArg Host.Outcome.next (if_neg h))

end Sys2Proof.Machine
end

section
/-! PROOFS. What an instruction meets in its cycle after reports and counts, and what it leaves where it posts a write
(R90, R92, R93, R100, R448). -/

namespace Sys2Proof.Machine

/-! ## Counts, reports and logs -/

/-- What counts, reports and the log of accesses leave: all that a read leaves, and of every tile the writes it owes,
the entries of its hinge and the number of the next one. -/
structure State.Notes (s s' : State) : Prop extends State.OnlyRead s s' where
  queues : ∀ u, (s'.tile u).pend = (s.tile u).pend ∧ (s'.tile u).hinge = (s.tile u).hinge ∧
    (s'.tile u).nextId = (s.tile u).nextId

theorem State.Notes.refl (s : State) : s.Notes s := ⟨.refl s, fun _ => ⟨rfl, rfl, rfl⟩⟩

theorem State.Notes.trans {s t u : State} (h : s.Notes t) (h' : t.Notes u) : s.Notes u := by
  refine ⟨h.toOnlyRead.trans h'.toOnlyRead, fun k => ?_⟩
  obtain ⟨hpend, hhinge, hnext⟩ := h.queues k
  obtain ⟨hpend', hhinge', hnext'⟩ := h'.queues k
  exact ⟨hpend'.trans hpend, hhinge'.trans hhinge, hnext'.trans hnext⟩

theorem State.OnlyRead.notes {s s' : State} (h : s.OnlyRead s') (hc : s.CountsOnly s') : s.Notes s' := by
  refine ⟨h, fun u => ?_⟩
  obtain ⟨i, c, hu⟩ := hc.2 u
  rw [hu]
  exact ⟨rfl, rfl, rfl⟩

theorem State.notes_countTile (s : State) (t ev n : Nat) : s.Notes (s.countTile t ev n) :=
  (s.onlyRead_countTile t ev n).notes (s.countsOnly_countTile t ev n)

theorem State.notes_report (s : State) (t : Nat) (l : List Hazard) : s.Notes (s.report t l) := by
  unfold State.report
  split
  · exact .refl s
  · exact (s.onlyRead_hazard _ _ _ _ _).notes (s.countsOnly_hazard _ _ _ _ _)

theorem State.notes_logAccess (s : State) (t : Nat) (a : Access) : s.Notes (s.logAccess t a) := by
  unfold State.logAccess
  split
  · refine ⟨⟨s.keeps_modTile t rfl, rfl, rfl, rfl, rfl, rfl, rfl, rfl, rfl, rfl⟩, fun u => ?_⟩
    by_cases hu : u = t
    · rw [hu, State.modTile_tile_same]
      exact ⟨rfl, rfl, rfl⟩
    · rw [State.modTile_tile_other _ _ hu]
      exact ⟨rfl, rfl, rfl⟩
  · exact .refl s

theorem State.ceHold_tiles (s : State) (k n : Nat) : (s.ceHold k n).tiles = s.tiles := by
  unfold State.ceHold
  split
  · rfl
  · obtain ⟨_, h⟩ := State.countEvent_eq
      (s.modDie (dieOf k) fun r => { r with ceCount := r.ceCount + BitVec.ofNat 32 n }) 1 (dieOf k) 0x0107 n
    rw [h]
    rfl

theorem State.ceHold_tile (s : State) (k n u : Nat) : (s.ceHold k n).tile u = s.tile u := by
  rw [State.tile, s.ceHold_tiles]
  rfl

theorem State.notes_ceHold (s : State) (k n : Nat) : s.Notes (s.ceHold k n) :=
  ⟨s.onlyRead_ceHold k n, fun u => by rw [s.ceHold_tile]; exact ⟨rfl, rfl, rfl⟩⟩

/-- The corrections that a read counts. -/
theorem State.notes_readCounted (s : State) (k n : Nat) : s.Notes (s.readCounted k n) := by
  unfold State.readCounted
  dsimp only
  split
  · exact (s.notes_ceHold _ _).trans (State.notes_countTile _ _ _ _)
  · exact s.notes_ceHold _ _

theorem State.notes_addTerm (s : State) (tensor : BitVec 16) (x : BitVec 64) : s.Notes (s.addTerm tensor x) :=
  ⟨State.onlyRead_of_mem_tiles rfl rfl rfl rfl rfl rfl rfl rfl rfl rfl, fun _ => ⟨rfl, rfl, rfl⟩⟩

/-! ## What stays with the registers -/

theorem State.OnlyRead.reg {s s' : State} (h : s.OnlyRead s') (u : Nat) :
    (s'.tile u).rs = (s.tile u).rs ∧ (s'.tile u).ra = (s.tile u).ra ∧ (s'.tile u).rv = (s.tile u).rv ∧
      (s'.tile u).rm = (s.tile u).rm := by
  have hregs := h.keeps.2 u
  simp only [Tile.regs, Prod.mk.injEq] at hregs
  obtain ⟨hs, ha, hv, hm, -⟩ := hregs
  exact ⟨funext fun r => by rw [Tile.rs, hs]; rfl, funext fun r => by rw [Tile.ra, ha]; rfl,
    funext fun r => by rw [Tile.rv, hv]; rfl, funext fun r => by rw [Tile.rm, hm]; rfl⟩

theorem State.OnlyRead.reachKey {s s' : State} (h : s.OnlyRead s') (t reach : Nat) (a : HouseAddr) :
    s'.reachKey t reach a = s.reachKey t reach a := by
  unfold State.reachKey State.position
  rw [h.fused, h.rc]

theorem State.OnlyRead.messageRegion {s s' : State} (h : s.OnlyRead s') (k : Nat) :
    s'.messageRegion k = s.messageRegion k := by
  unfold State.messageRegion
  rw [h.cq]

theorem State.OnlyRead.slice {s s' : State} (h : s.OnlyRead s') (d n : Nat) : s'.slice d n = s.slice d n := by
  unfold State.slice
  rw [h.slices]

theorem State.OnlyRead.slotAddress {s s' : State} (h : s.OnlyRead s') (t : Nat) (base : BitVec 4) (offset : BitVec 16) :
    slotAddress (s'.tile t) base offset = slotAddress (s.tile t) base offset := by
  unfold Machine.slotAddress
  rw [(h.reg t).2.1]

/-! ## The cycle in which a tile issues -/

/-- A change of every tile in place reads as the change of the tile, where the table lists it. -/
theorem tabGet_tabMap_cases {α : Type} (d : α) (f : Nat → α → α) (l : Tab α) (k : Nat) :
    tabGet d (tabMap f l) k = f k (tabGet d l k) ∨ tabGet d (tabMap f l) k = tabGet d l k := by
  induction l with
  | nil => exact .inr rfl
  | cons e l ih =>
    obtain ⟨j, x⟩ := e
    simp only [tabMap, tabGet_cons]
    split
    · subst k
      exact .inl rfl
    · exact ih

/-- The tile is in its lesson. -/
def State.InLesson (s : State) (t : Nat) : Prop := s.bell.phase = .lesson ∧ (s.tile t).ended = false

theorem State.inLesson_of_tileRuns {s : State} {t : Nat} (h : s.tileRuns t = true) : s.InLesson t := by
  simp only [State.tileRuns, Bool.and_eq_true, beq_iff_eq, Bool.not_eq_true'] at h
  obtain ⟨⟨⟨⟨hphase, -⟩, -⟩, hended⟩, -⟩ := h
  exact ⟨hphase, hended⟩

theorem State.not_fenced_of_tileRuns {s : State} {t : Nat} (h : s.tileRuns t = true) : s.fenced t = false := by
  simp only [State.tileRuns, Bool.and_eq_true, beq_iff_eq, Bool.not_eq_true'] at h
  exact h.1.1.1.2

/-- A stop that spreads leaves the count of a tile in its lesson where it is. -/
theorem State.spreadStop_count {s : State} {t : Nat} (h : s.InLesson t) (fire : Option Nat) :
    ((s.spreadStop fire).tile t).isle.count = (s.tile t).isle.count := by
  have hcount : (s.tileIsle t).count = (s.tile t).isle.count := by
    unfold State.tileIsle
    dsimp only
    rw [h.1, h.2]
    rfl
  unfold State.spreadStop State.tile
  dsimp only
  rcases tabGet_tabMap_cases Tile.reset _ s.tiles t with hmap | hmap
  · rw [hmap]
    exact hcount
  · rw [hmap]

theorem State.hazard_count {s : State} {t : Nat} (h : s.InLesson t) (t' c cy d a : Nat) :
    ((s.hazard t' c cy d a).tile t).isle.count = (s.tile t).isle.count := by
  unfold State.hazard
  split_ifs
  · unfold State.debugStop
    dsimp only
    rw [State.spreadStop_count ⟨by rw [State.cause_phase]; exact h.1, by
      rw [State.tile, State.cause_tiles]; exact h.2⟩, State.tile, State.cause_tiles]
    rfl
  · unfold State.takeStop
    by_cases ht : t = t'
    · rw [ht, State.modTile_tile_same]
      rfl
    · rw [State.modTile_tile_other _ _ ht]
      rfl
  · rfl
  · rfl

theorem State.hazard_discards (s : State) (t c cy d a : Nat) :
    (s.hazard t c cy d a).ts.discards = s.ts.discards := by
  unfold State.hazard
  split_ifs
  · show (State.cause _ _ _ _ _ _).ts.discards = _
    rw [State.cause_ts]
    rfl
  · rfl
  · rfl
  · rfl

theorem State.report_discards (s : State) (t : Nat) (l : List Hazard) :
    (s.report t l).ts.discards = s.ts.discards := by
  unfold State.report
  split
  · rfl
  · exact s.hazard_discards _ _ _ _ _

/-- The state as an instruction of a tile meets it: noted only, in the same cycle, with nothing discarded since. -/
structure State.Meets (t : Nat) (s s' : State) : Prop extends State.Notes s s' where
  cycle : (s'.tile t).isle.count = (s.tile t).isle.count
  discards : s'.ts.discards = s.ts.discards

theorem State.Meets.trans {n : Nat} {s t u : State} (h : State.Meets n s t) (h' : State.Meets n t u) :
    State.Meets n s u :=
  ⟨h.toNotes.trans h'.toNotes, h'.cycle.trans h.cycle, h'.discards.trans h.discards⟩

theorem State.meets_report {s : State} {t : Nat} (h : s.InLesson t) (l : List Hazard) :
    State.Meets t s (s.report t l) := by
  refine ⟨s.notes_report t l, ?_, s.report_discards t l⟩
  unfold State.report
  split
  · rfl
  · exact s.hazard_count h _ _ _ _ _

theorem State.meets_countTile (s : State) (t t' ev n : Nat) : State.Meets t s (s.countTile t' ev n) :=
  ⟨s.notes_countTile t' ev n, congrArg Island.count ((s.sameIsles_countTile t' ev n).tile t).1,
    congrArg Stamps.discards (s.countTile_ts t' ev n)⟩

theorem State.readCounted_cycle (s : State) (t k n : Nat) :
    ((s.readCounted k n).tile t).isle.count = (s.tile t).isle.count := by
  unfold State.readCounted
  dsimp only
  split
  · rw [(State.meets_countTile _ _ _ _ _).cycle, s.ceHold_tile]
  · rw [s.ceHold_tile]

/-- An instruction of a running tile runs on a state that its reports have noted, and is followed by reports. -/
theorem State.issueOne_meets {s : State} {t : Nat} (h : s.tileRuns t = true) (w : SlotWork) :
    ∃ s1, State.Meets t s s1 ∧ (w.run s1).Notes (s.issueOne t w) ∧
      (s.issueOne t w).ts.discards = (w.run s1).ts.discards := by
  rw [s.issueOne_eq t w h]
  exact ⟨_, State.meets_report (State.inLesson_of_tileRuns h) _, State.notes_report _ _ _, State.report_discards _ _ _⟩

/-! ## Posted writes -/

/-- The write that an instruction of latency l posts in the tile's cycle. -/
def Tile.newWrite (x : Tile) (l : Nat) (slot : Slot) (op : WriteOp) (fl : BitVec 4) : PendWrite :=
  { due := x.isle.count + l - 1, slot := slot, issue := x.isle.count, rank := x.isle.count, op := op, flags := fl }

theorem Tile.owes_newWrite (x : Tile) (l : Nat) (slot : Slot) (op : WriteOp) (fl : BitVec 4) :
    x.owes slot l (x.newWrite l slot op fl) := ⟨rfl, rfl, rfl⟩

/-- What is posted on a noted state is posted. -/
theorem State.notes_posted {s s1 s' : State} {t : Nat} (h : s.Notes s1)
    (hcycle : (s1.tile t).isle.count = (s.tile t).isle.count) {l : Nat} {slot : Slot} {op : WriteOp} {fl : BitVec 4}
    (h' : (s1.modTile t fun x => x.postNow l slot op fl).Notes s') :
    s.keeps s' ∧ (s'.tile t).pend = (s.tile t).pend ++ [(s.tile t).newWrite l slot op fl] ∧
      ∀ u, u ≠ t → (s'.tile u).pend = (s.tile u).pend := by
  refine ⟨(h.keeps.trans (s1.keeps_modTile t rfl)).trans h'.keeps, ?_, fun u hu => ?_⟩
  · rw [(h'.queues t).1, State.modTile_tile_same, ← (h.queues t).1, Tile.newWrite, ← hcycle]
    rfl
  · rw [(h'.queues u).1, State.modTile_tile_other _ _ hu, (h.queues u).1]

end Sys2Proof.Machine
end
section
/-! PROOFS. Loads from the own store, from a layer, and outside reach (R92, R187, R191, R195, Table 4-12). -/

namespace Sys2Proof.Machine

/-! ## The own store -/

/-- A local key of the tile's own store. -/
def OwnKey (t k : Nat) : Prop := k / 0x80000 = storeBase t / 0x80000

theorem ownKey_of_reachKey {s : State} {t k : Nat} {a : HouseAddr} (h : s.reachKey t 0 a = some k) : OwnKey t k := by
  simp only [State.reachKey] at h
  unfold OwnKey
  split_ifs at h with hlow hown
  · obtain rfl := Option.some.inj h
    unfold storeBase
    omega
  · obtain rfl := Option.some.inj h
    simp only [Bool.and_eq_true, beq_iff_eq] at hown
    exact hown.2

/-- The word, half-granule or granule of a key of the own store. -/
theorem OwnKey.aligned {t k : Nat} (h : OwnKey t k) {n : Nat} (hn : n ∣ 0x80000) : OwnKey t (k / n * n) := by
  obtain ⟨m, hm⟩ := hn
  have hpos : 0 < n := Nat.pos_of_ne_zero fun h0 => by subst h0; omega
  unfold OwnKey at h ⊢
  rw [← h, hm, ← Nat.div_div_eq_div_mul, ← Nat.div_div_eq_div_mul, Nat.mul_div_cancel _ hpos]

theorem OwnKey.place {t k : Nat} (h : OwnKey t k) (ht : t < 1024) :
    inLayers (offsetOf k) = false ∧ inStores (offsetOf k) = true ∧ storeTile k = t := by
  unfold OwnKey storeBase at h
  unfold inLayers inStores storeTile dieOf offsetOf
  refine ⟨decide_eq_false ?_, ?_, ?_⟩
  · omega
  · rw [Bool.and_eq_true]
    exact ⟨decide_eq_true (by omega), decide_eq_true (by omega)⟩
  · omega

theorem State.memOpen_of_ownKey {s : State} {t k : Nat} (h : OwnKey t k) (ht : t < 1024) (hf : s.fenced t = false) :
    s.memOpen k = true := by
  obtain ⟨hlayer, hstore, htile⟩ := h.place ht
  unfold State.memOpen
  dsimp only
  rw [hlayer, hstore, htile, hf]
  rfl

theorem Mem.hasUe_of_clean {m : Mem} (h : m.ue = []) (k n : Nat) : m.hasUe k n = false := by
  simp [Mem.hasUe, h]

/-- What a tile may read of its own store: no region, no fence, no uncorrectable word. -/
structure State.ReadsOwn (s : State) (t : Nat) : Prop where
  exist : t < 1024
  unfenced : s.fenced t = false
  clean : s.mem.ue = []
  plain : ∀ k, s.messageRegion k = none

theorem State.ReadsOwn.of_onlyRead {s s' : State} {t : Nat} (h : s.ReadsOwn t) (h' : s.OnlyRead s') : s'.ReadsOwn t :=
  ⟨h.exist, by rw [State.fenced, State.fenceOf, h'.fences]; exact h.unfenced, by rw [h'.ue, h.clean],
    fun k => by rw [h'.messageRegion, h.plain]⟩

theorem State.tileRead_own {w : Nat} {s : State} {t k : Nat} (h : s.ReadsOwn t) (hk : OwnKey t k) (reader n : Nat)
    (move : Bool) (cycle : Nat) :
    (s.tileRead reader k n move cycle : ReadResult w) = ⟨s.mem.vec k n, s.readCounted k n⟩ := by
  unfold State.tileRead
  rw [h.plain]
  dsimp only
  rw [State.readMem_eq, if_pos (State.memOpen_of_ownKey hk h.exist h.unfenced), (s.onlyRead_readCounted k n).hasUe,
    Mem.hasUe_of_clean h.clean, if_neg Bool.false_ne_true, (s.onlyRead_readCounted k n).vec]

/-! ## What each load instruction comes to -/

/-- The load on the state in which its issue has been counted. -/
def State.loadStart (s : State) (t : Nat) (f : LdFields) : State := s.countTile t (0x0005 + f.reach.toNat) 1

/-- The command is a plain load of n bytes to a destination. -/
def PlainLoad (c : Instr) (t : BitVec 10) (f : LdFields) (n : Nat) (size : ReadSize) (dest : HingeDest) : Prop :=
  ∃ w : SlotWork, (∀ s, exec c s = .next (s.issueOne t.toNat w)) ∧ ∀ s, w.run s =
    (s.loadStart t.toNat f).loadPlain t.toNat f.reach.toNat
      (slotAddress ((s.loadStart t.toNat f).tile t.toNat) f.base f.offset) n size dest

section
variable (t : BitVec 10) {f : LdFields}

theorem ldLegal_of_reach {op : LdOp} (hop : op ≠ .ldi) (hr : f.reach ≠ 3) : ldLegal op f = true := by
  cases op with
  | ldi => exact absurd rfl hop
  | lds => exact bne_iff_ne.2 hr
  | ldv => exact bne_iff_ne.2 hr
  | ldo => exact bne_iff_ne.2 hr

theorem plainLoad_lds (hr : f.reach ≠ 3) : PlainLoad (.lds t f) t f 4 .word (.s f.dst) :=
  ⟨_, fun _ => rfl, fun s => if_pos (ldLegal_of_reach (by decide) hr)⟩

theorem plainLoad_ldv (hr : f.reach ≠ 3) : PlainLoad (.ldv t f) t f 256 .granule (.v f.dst) :=
  ⟨_, fun _ => rfl, fun s => if_pos (ldLegal_of_reach (by decide) hr)⟩

theorem plainLoad_ldo (hr : f.reach ≠ 3) (hform : f.aux.extractLsb' 2 2 = (0 : BitVec 2)) :
    PlainLoad (.ldo t f) t f 256 .granule (ldoDest f) := by
  refine ⟨_, fun _ => rfl, fun s => (if_pos (ldLegal_of_reach (by decide) hr)).trans ?_⟩
  rw [hform]
  rfl

/-- LDO of form 1 is the strided load. -/
theorem ldWork_ldo_strided (hr : f.reach ≠ 3) (hform : f.aux.extractLsb' 2 2 = (1 : BitVec 2)) (s : State) :
    (ldWork .ldo f t.toNat).run s = (s.loadStart t.toNat f).loadStrided t.toNat f.reach.toNat
      (slotAddress ((s.loadStart t.toNat f).tile t.toNat) f.base f.offset)
      (((s.loadStart t.toNat f).tile t.toNat).ra (f.aux.extractLsb' 4 4)) (ldoDest f) := by
  refine (if_pos (ldLegal_of_reach (by decide) hr)).trans ?_
  rw [hform]
  rfl

end

/-- A load meets its tile in the cycle of its issue. -/
theorem State.loadStart_meets {s s1 : State} {t : Nat} (h : State.Meets t s s1) (f : LdFields) :
    State.Meets t s (s1.loadStart t f) :=
  h.trans (s1.meets_countTile _ _ _ _)

/-! ## From the own store -/

theorem State.notes_logLoad (s : State) (t reach k n : Nat) : s.Notes (s.logLoad t reach k n) := s.notes_logAccess _ _

/-- What a load posts. -/
theorem State.posts_of_loadNow {s s1 s' : State} {t : Nat} {c : Instr} (hexec : exec c s = .next s') (h : s.Notes s1)
    (hcycle : (s1.tile t).isle.count = (s.tile t).isle.count) {dest : HingeDest} {v : Vec}
    (h' : (s1.loadNow t 0 dest v).Notes s') :
    ∃ w, s.posts c t [w] ∧ (s.tile t).owes .ld 2 w ∧ w.op = deliverOp dest v := by
  obtain ⟨hkeeps, hpend, hother⟩ := State.notes_posted h hcycle h'
  exact ⟨_, ⟨s', hexec, hkeeps, hpend, hother⟩, Tile.owes_newWrite _ _ _ _ _, rfl⟩

theorem PlainLoad.own {c : Instr} {t : BitVec 10} {f : LdFields} {n : Nat} {size : ReadSize} {dest : HingeDest}
    (hc : PlainLoad c t f n size dest) (hn : n ∣ 0x80000) {s : State} {k : Nat} (hr : s.tileRuns t.toNat = true)
    (hreach : f.reach = 0) (hown : s.ReadsOwn t.toNat)
    (hk : s.reachKey t.toNat 0 (slotAddress (s.tile t.toNat) f.base f.offset) = some k) :
    ∃ w, s.posts c t.toNat [w] ∧ (s.tile t.toNat).owes .ld 2 w ∧ w.op = deliverOp dest (s.mem.vec (k / n * n) n) := by
  obtain ⟨w, hexec, hrun⟩ := hc
  obtain ⟨s1, hmeets, hafter, -⟩ := State.issueOne_meets hr w
  have hstart := State.loadStart_meets hmeets f
  rw [hrun s1] at hafter
  generalize s1.loadStart t.toNat f = s2 at hstart hafter
  rw [hstart.slotAddress, hreach] at hafter
  unfold State.loadPlain at hafter
  rw [hstart.reachKey, show (0 : BitVec 2).toNat = 0 from rfl, hk] at hafter
  dsimp only at hafter
  rw [if_pos rfl, State.tileRead_own (hown.of_onlyRead hstart.toOnlyRead) ((ownKey_of_reachKey hk).aligned hn),
    hstart.vec] at hafter
  exact State.posts_of_loadNow (hexec s) (hstart.toNotes.trans (s2.notes_readCounted _ _))
    ((s2.readCounted_cycle _ _ _).trans hstart.cycle) ((State.notes_logLoad _ _ _ _ _).trans hafter)

/-- Two half-granules side by side. -/
def halves (x y : BitVec 1024) : Vec := x.setWidth 2048 ||| (y.setWidth 2048 <<< 1024)

theorem byteOf_halves (x y : BitVec 1024) {i : Nat} (hi : i < 128) :
    byteOf (halves x y) i = byteOf x i ∧ byteOf (halves x y) (128 + i) = byteOf y i := by
  unfold byteOf halves
  refine ⟨BitVec.eq_of_getLsbD_eq fun j hj => ?_, BitVec.eq_of_getLsbD_eq fun j hj => ?_⟩
  · have hlow : 8 * i + j < 1024 := by omega
    simp [hj, hlow, Nat.lt_of_lt_of_le hlow (show 1024 ≤ 2048 by decide)]
  · have hhigh : 8 * (128 + i) + j < 2048 := by omega
    have hback : 8 * (128 + i) + j - 1024 = 8 * i + j := by omega
    have hlow : x.getLsbD (8 * (128 + i) + j) = false := BitVec.getLsbD_of_ge _ _ (by omega)
    have hpast : ¬8 * (128 + i) + j < 1024 := by omega
    simp [hj, hhigh, hback, hlow, hpast]

theorem State.strided_own {t : BitVec 10} {f : LdFields} (hform : f.aux.extractLsb' 2 2 = (1 : BitVec 2)) {s : State}
    {k0 k1 : Nat} (hr : s.tileRuns t.toNat = true) (hreach : f.reach = 0) (hown : s.ReadsOwn t.toNat)
    (addrs : HouseAddr × HouseAddr) (haddrs : addrs = stridedAddrs (slotAddress (s.tile t.toNat) f.base f.offset)
      ((s.tile t.toNat).ra (f.aux.extractLsb' 4 4)))
    (hk0 : s.reachKey t.toNat 0 addrs.1 = some k0) (hk1 : s.reachKey t.toNat 0 addrs.2 = some k1) :
    ∃ w, s.posts (.ldo t f) t.toNat [w] ∧ (s.tile t.toNat).owes .ld 2 w ∧
      w.op = deliverOp (ldoDest f) (halves (s.mem.vec k0 128) (s.mem.vec k1 128)) := by
  obtain ⟨s1, hmeets, hafter, -⟩ := State.issueOne_meets hr (ldWork .ldo f t.toNat)
  have hstart := State.loadStart_meets hmeets f
  rw [ldWork_ldo_strided t (by rw [hreach]; decide) hform] at hafter
  generalize s1.loadStart t.toNat f = s2 at hstart hafter
  rw [hstart.slotAddress, (hstart.reg _).2.1, hreach] at hafter
  unfold State.loadStrided at hafter
  rw [← haddrs] at hafter
  dsimp only at hafter
  rw [hstart.reachKey, hstart.reachKey, show (0 : BitVec 2).toNat = 0 from rfl, hk0, hk1] at hafter
  have hfirst := s2.notes_readCounted k0 128
  have hown2 := hown.of_onlyRead hstart.toOnlyRead
  simp only [Option.isNone_some, Bool.false_eq_true, if_false, if_true,
    State.tileRead_own hown2 (ownKey_of_reachKey hk0),
    State.tileRead_own (hown2.of_onlyRead hfirst.toOnlyRead) (ownKey_of_reachKey hk1), hfirst.vec, hstart.vec] at hafter
  exact State.posts_of_loadNow rfl ((hstart.toNotes.trans hfirst).trans (State.notes_readCounted _ _ _))
    ((State.readCounted_cycle _ _ _ _).trans ((State.readCounted_cycle _ _ _ _).trans hstart.cycle)) hafter

/-! ## From a layer -/

/-- The load waits in its tile's hinge. -/
def State.waits (s : State) (t reach : Nat) (dest : HingeDest) (parts : Nat) : State :=
  s.modTile t (·.expect (loadItem s t reach dest parts))

/-- The entry of a load of this tile. -/
def State.loadEntry (s : State) (t reach : Nat) (dest : HingeDest) (parts : Nat) : HingeItem :=
  { loadItem s t reach dest parts with id := (s.tile t).nextId }

theorem State.waits_tile (s : State) (t reach : Nat) (dest : HingeDest) (parts : Nat) :
    (s.waits t reach dest parts).tile t = (s.tile t).expect (loadItem s t reach dest parts) :=
  s.modTile_tile_same _ _

theorem State.keeps_waits (s : State) (t reach : Nat) (dest : HingeDest) (parts : Nat) :
    s.keeps (s.waits t reach dest parts) := s.keeps_modTile t rfl

theorem State.keeps_loadRequest (s : State) (t reach k : Nat) (size : ReadSize) (dest : ReadDest) :
    s.keeps (s.loadRequest t reach k size dest) := .of_bytes rfl rfl

theorem State.loadRequest_tile (s : State) (t reach k : Nat) (size : ReadSize) (dest : ReadDest) (u : Nat) :
    (s.loadRequest t reach k size dest).tile u = s.tile u := rfl

/-- A load from a layer leaves its entry and its request. -/
theorem PlainLoad.layer {c : Instr} {t : BitVec 10} {f : LdFields} {n : Nat} {size : ReadSize} {dest : HingeDest}
    (hc : PlainLoad c t f n size dest) {s : State} {k : Nat} (hr : s.tileRuns t.toNat = true)
    (hreach : f.reach.toNat ≠ 0)
    (hk : s.reachKey t.toNat f.reach.toNat (slotAddress (s.tile t.toNat) f.base f.offset) = some k) :
    ∃ s' h, exec c s = .next s' ∧ s.keeps s' ∧ (s'.tile t.toNat).hinge = (s.tile t.toNat).hinge ++ [h] ∧
      h.due = (s.tile t.toNat).isle.count + loadLatency f.reach.toNat ∧ h.issue = (s.tile t.toNat).isle.count ∧
      h.slot = .ld ∧ h.dest = dest ∧ h.status = .awaiting 1 ∧ h.source = t ∧
      (s'.slice (dieOf (k / n * n)) (sliceOf (offsetOf (k / n * n)))).reads =
        (s.slice (dieOf (k / n * n)) (sliceOf (offsetOf (k / n * n)))).reads ++
          [{ arrival := (s.tile t.toNat).isle.count + sliceDelay f.reach.toNat
             port := portOf t.toNat (dieOf (k / n * n)), tile := some t, addr := k / n * n, size := size
             dest := .hinge t h.id 0 }] := by
  obtain ⟨w, hexec, hrun⟩ := hc
  obtain ⟨s1, hmeets, hafter, -⟩ := State.issueOne_meets hr w
  have hstart := State.loadStart_meets hmeets f
  rw [hrun s1] at hafter
  generalize s1.loadStart t.toNat f = s2 at hstart hafter
  rw [hstart.slotAddress] at hafter
  unfold State.loadPlain at hafter
  rw [hstart.reachKey, hk] at hafter
  dsimp only at hafter
  rw [if_neg hreach] at hafter
  have htile : tileNum t.toNat = t := by simp [tileNum]
  have hlast := (State.notes_logLoad _ _ _ _ _).trans hafter
  change ((s2.waits t.toNat f.reach.toNat dest 1).loadRequest _ _ _ _ _).Notes _ at hlast
  refine ⟨_, s2.loadEntry t.toNat f.reach.toNat dest 1, hexec s,
    ((hstart.keeps.trans (s2.keeps_waits _ _ _ _)).trans (State.keeps_loadRequest _ _ _ _ _ _)).trans hlast.keeps,
    ?_, congrArg (· + _) hstart.cycle, hstart.cycle, rfl, rfl, rfl, htile, ?_⟩
  · rw [(hlast.queues _).2.1, State.loadRequest_tile, State.waits_tile, ← (hstart.queues _).2.1]
    rfl
  · rw [hlast.slice]
    refine (congrArg Slice.reads (State.queueRead_slice _ _)).trans ?_
    rw [State.waits_tile, htile, ← hstart.slice, ← hstart.cycle]
    rfl

/-- A strided load from a layer waits for its two half-granules. -/
theorem State.strided_layer {t : BitVec 10} {f : LdFields} (hform : f.aux.extractLsb' 2 2 = (1 : BitVec 2)) {s : State}
    (hr : s.tileRuns t.toNat = true) (hreach : f.reach.toNat ≠ 0) (hne : f.reach ≠ 3) (addrs : HouseAddr × HouseAddr)
    (haddrs : addrs = stridedAddrs (slotAddress (s.tile t.toNat) f.base f.offset)
      ((s.tile t.toNat).ra (f.aux.extractLsb' 4 4)))
    (hk0 : s.reachKey t.toNat f.reach.toNat addrs.1 ≠ none) (hk1 : s.reachKey t.toNat f.reach.toNat addrs.2 ≠ none) :
    ∃ s' h, exec (.ldo t f) s = .next s' ∧ s.keeps s' ∧ (s'.tile t.toNat).hinge = (s.tile t.toNat).hinge ++ [h] ∧
      h.due = (s.tile t.toNat).isle.count + loadLatency f.reach.toNat ∧ h.dest = ldoDest f ∧ h.status = .awaiting 2 := by
  obtain ⟨k0, hk0⟩ := Option.ne_none_iff_exists'.1 hk0
  obtain ⟨k1, hk1⟩ := Option.ne_none_iff_exists'.1 hk1
  obtain ⟨s1, hmeets, hafter, -⟩ := State.issueOne_meets hr (ldWork .ldo f t.toNat)
  have hstart := State.loadStart_meets hmeets f
  rw [ldWork_ldo_strided t hne hform] at hafter
  generalize s1.loadStart t.toNat f = s2 at hstart hafter
  rw [hstart.slotAddress, (hstart.reg _).2.1] at hafter
  unfold State.loadStrided at hafter
  rw [← haddrs] at hafter
  dsimp only at hafter
  rw [hstart.reachKey, hstart.reachKey, hk0, hk1] at hafter
  simp only [Option.isNone_some, Option.isSome_some, Bool.false_eq_true, if_false, if_true, hreach,
    Nat.reduceAdd, OfNat.ofNat_ne_zero] at hafter
  have hlast := (State.notes_logLoad _ _ _ _ _).trans hafter
  have hmid := State.notes_logLoad ((s2.waits t.toNat f.reach.toNat (ldoDest f) 2).loadRequest t.toNat f.reach.toNat k0
    .half (.hinge (tileNum t.toNat) (s2.tile t.toNat).nextId 0)) t.toNat f.reach.toNat k0 128
  change (State.loadRequest (State.logLoad (State.loadRequest (s2.waits t.toNat f.reach.toNat (ldoDest f) 2) _ _ _ _ _)
    _ _ _ _) _ _ _ _ _).Notes _ at hlast
  refine ⟨_, s2.loadEntry t.toNat f.reach.toNat (ldoDest f) 2, rfl, ?_, ?_, congrArg (· + _) hstart.cycle, rfl, rfl⟩
  · exact ((((hstart.keeps.trans (s2.keeps_waits _ _ _ _)).trans (State.keeps_loadRequest _ _ _ _ _ _)).trans
      hmid.keeps).trans (State.keeps_loadRequest _ _ _ _ _ _)).trans hlast.keeps
  · rw [(hlast.queues _).2.1, State.loadRequest_tile, (hmid.queues _).2.1, State.loadRequest_tile, State.waits_tile,
      ← (hstart.queues _).2.1]
    rfl

/-! ## Outside reach -/

theorem State.notes_tcDiscard (s : State) : s.Notes s.tcDiscard :=
  ⟨⟨.of_bytes rfl rfl, rfl, rfl, rfl, rfl, rfl, rfl, rfl, rfl, rfl⟩, fun _ => ⟨rfl, rfl, rfl⟩⟩

/-- A load outside its reach posts zeros and is counted. -/
theorem PlainLoad.outside {c : Instr} {t : BitVec 10} {f : LdFields} {n : Nat} {size : ReadSize} {dest : HingeDest}
    (hc : PlainLoad c t f n size dest) {s : State} (hr : s.tileRuns t.toNat = true)
    (hk : s.reachKey t.toNat f.reach.toNat (slotAddress (s.tile t.toNat) f.base f.offset) = none) :
    ∃ s' w, exec c s = .next s' ∧ s.keeps s' ∧ (s'.tile t.toNat).pend = (s.tile t.toNat).pend ++ [w] ∧
      (s.tile t.toNat).owes .ld (loadLatency f.reach.toNat) w ∧ w.op = deliverOp dest 0 ∧
      s'.ts.discards = s.ts.discards + 1 := by
  obtain ⟨w, hexec, hrun⟩ := hc
  obtain ⟨s1, hmeets, hafter, hcounted⟩ := State.issueOne_meets hr w
  have hstart := State.loadStart_meets hmeets f
  rw [hrun s1] at hafter hcounted
  generalize s1.loadStart t.toNat f = s2 at hstart hafter hcounted
  rw [hstart.slotAddress] at hafter hcounted
  unfold State.loadPlain at hafter hcounted
  rw [hstart.reachKey, hk] at hafter hcounted
  obtain ⟨hkeeps, hpend, -⟩ := State.notes_posted (hstart.toNotes.trans s2.notes_tcDiscard) hstart.cycle
    (l := loadLatency f.reach.toNat) (slot := .ld) (op := deliverOp dest 0) (fl := 0) hafter
  exact ⟨_, _, hexec s, hkeeps, hpend, Tile.owes_newWrite _ _ _ _ _, rfl,
    hcounted.trans (congrArg (· + 1) hstart.discards)⟩

/-! ## The settlement -/

/-- The lowest bytes of what is read. -/
theorem byteOf_setWidth_vec (m : Mem) (k i : Nat) (hi : i < 4) :
    byteOf ((m.vec k 4 : Vec).setWidth 32) i = m.byte (k + i) := by
  rw [← byteOf_vec m k 4 i hi (w := 2048) (by decide)]
  unfold byteOf
  refine BitVec.eq_of_getLsbD_eq fun j hj => ?_
  have hlow : 8 * i + j < 32 := by omega
  simp [hj, hlow]

/-- Settles O9: each plain load by where its key lies, and the strided LDO by its two half-granules. -/
theorem loads : Obligations.Loads := by
  unfold Obligations.Loads
  refine ⟨fun s t f k hr hreach hue hplain => ?_, fun s t f k hr hreach => ?_, fun s t f hr hne => ?_⟩
  case refine_1 =>
    intro x addr stride base row hk
    have hne : f.reach ≠ 3 := by rw [hreach]; decide
    have hown : s.ReadsOwn t.toNat := ⟨t.isLt, State.not_fenced_of_tileRuns hr, hue, hplain⟩
    refine ⟨?_, ?_, fun hform => ?_, fun hform k0 k1 hk0 hk1 => ?_, fun hlow => ?_⟩
    · obtain ⟨w, hposts, howes, hop⟩ := (plainLoad_lds t hne).own (by decide) hr hreach hown hk
      exact ⟨w, _, hposts, howes, hop, fun i hi => byteOf_setWidth_vec _ _ _ hi⟩
    · obtain ⟨w, hposts, howes, hop⟩ := (plainLoad_ldv t hne).own (by decide) hr hreach hown hk
      exact ⟨w, _, hposts, howes, hop, fun i hi => byteOf_vec _ _ _ _ hi (by decide)⟩
    · obtain ⟨w, hposts, howes, hop⟩ := (plainLoad_ldo t hne hform).own (by decide) hr hreach hown hk
      exact ⟨w, _, hposts, howes, hop, fun i hi => byteOf_vec _ _ _ _ hi (by decide)⟩
    · obtain ⟨w, hposts, howes, hop⟩ := State.strided_own hform hr hreach hown _ rfl hk0 hk1
      refine ⟨w, _, hposts, howes, hop, fun i hi => ?_⟩
      obtain ⟨hlow, hhigh⟩ := byteOf_halves (s.mem.vec k0 128) (s.mem.vec k1 128) hi
      exact ⟨hlow.trans (byteOf_vec _ _ _ _ hi (by decide)), hhigh.trans (byteOf_vec _ _ _ _ hi (by decide))⟩
    · exact (Option.some.inj ((if_pos hlow).symm.trans hk)).symm
  case refine_2 =>
    intro x c late away asks hk
    have hne : f.reach ≠ 3 := by rintro h; rw [h] at hreach; revert hreach; decide
    have hpos : f.reach.toNat ≠ 0 := by omega
    have hlate : loadLatency f.reach.toNat = late := by rcases hreach with h | h <;> simp only [late, h] <;> rfl
    have haway : sliceDelay f.reach.toNat = away := rfl
    have plain {i : Instr} {n : Nat} {size : ReadSize} {dest : HingeDest} (hc : PlainLoad i t f n size dest) :
        asks i n size dest := by
      have := hc.layer hr hpos hk
      rwa [hlate, haway] at this
    refine ⟨plain (plainLoad_lds t hne), plain (plainLoad_ldv t hne), fun hform => plain (plainLoad_ldo t hne hform),
      fun hform => ?_⟩
    intro a0 a1 hk0 hk1
    have := State.strided_layer hform hr hpos hne _ rfl hk0 hk1
    rwa [hlate] at this
  case refine_3 =>
    intro x late hk zeros
    have hlate : loadLatency f.reach.toNat = late := rfl
    have plain {i : Instr} {n : Nat} {size : ReadSize} {dest : HingeDest} {op : WriteOp}
        (hc : PlainLoad i t f n size dest) (hop : deliverOp dest 0 = op) : zeros i op := by
      have := hc.outside hr hk
      rwa [hlate, hop] at this
    exact ⟨plain (plainLoad_lds t hne) (by simp [deliverOp]), plain (plainLoad_ldv t hne) rfl,
      fun hform => plain (plainLoad_ldo t hne hform) rfl⟩

end Sys2Proof.Machine
end
section
/-! PROOFS. Stores to the own store, to a layer, and outside reach (R93, R187, R191). -/

namespace Sys2Proof.Machine

/-! ## What a store presents -/

/-- The lanes of a vector store, and the four bytes of each. -/
theorem storeData_vec (x : Tile) (f : StFields) (k n : Nat) (hn : n < 64) :
    ((storeData x true f k).2.extractLsb' (4 * n) 4 = if bit (x.rm f.mask) n then 0xF else 0) ∧
      (bit (x.rm f.mask) n = true → lane (storeData x true f k).1 n = lane (x.rv f.src) n) := by
  unfold storeData
  refine ⟨extract_packFields 4 64 n (by decide) _ hn (Nat.le_refl _), fun hlive => ?_⟩
  exact (lane_ofLanes _ hn).trans (if_pos hlive)

theorem bit_nibble_shift {o : Nat} (ho : o + 4 ≤ 256) (i : Nat) :
    bit ((0xF : BitVec 256) <<< o) i = decide (o ≤ i ∧ i < o + 4) := by
  have hnibble : (0xF : BitVec 256) = BitVec.setWidth 256 (BitVec.allOnes 4) := by decide
  unfold bit
  rw [hnibble, BitVec.getLsbD_shiftLeft, BitVec.getLsbD_setWidth, BitVec.getLsbD_allOnes, Bool.eq_iff_iff]
  simp only [Bool.and_eq_true, Bool.not_eq_true', decide_eq_true_eq, decide_eq_false_iff_not]
  omega

theorem extract_word_shift (x : Word) {o : Nat} (ho : o + 4 ≤ 256) :
    (x.setWidth 2048 <<< (8 * o)).extractLsb' (8 * o) 32 = x := by
  refine BitVec.eq_of_getLsbD_eq fun i hi => ?_
  have hin : 8 * o + i < 2048 := by omega
  simp [hi, hin]

/-- The four bytes of a scalar store. -/
theorem storeData_scalar (x : Tile) (f : StFields) (k : Nat) :
    (∀ i, bit (storeData x false f k).2 i = decide (k % 256 / 4 * 4 ≤ i ∧ i < k % 256 / 4 * 4 + 4)) ∧
      (storeData x false f k).1.extractLsb' (8 * (k % 256 / 4 * 4)) 32 = x.rs f.src := by
  have ho : k % 256 / 4 * 4 + 4 ≤ 256 := by omega
  exact ⟨bit_nibble_shift ho, extract_word_shift _ ho⟩

theorem State.OnlyRead.storeData {s s' : State} (h : s.OnlyRead s') (t : Nat) (vec : Bool) (f : StFields) (k : Nat) :
    storeData (s'.tile t) vec f k = storeData (s.tile t) vec f k := by
  obtain ⟨hs, -, hv, hm⟩ := h.reg t
  unfold Machine.storeData
  rw [hs, hv, hm]

/-! ## Issue -/

/-- The digest term and the log of a store. -/
def State.storeNoted (s : State) (t : Nat) (vec : Bool) (f : StFields) (k : Nat) : State :=
  (if f.digest then s.addTerm (s.tile t).tensor (digestTerm (k / 256 * 256) (storeData (s.tile t) vec f k).1) else s).logAccess
    t (storeAccess (s.tile t) vec f k)

theorem State.logAccess_cycle (s : State) (t : Nat) (a : Access) :
    ((s.logAccess t a).tile t).isle.count = (s.tile t).isle.count := by
  unfold State.logAccess
  split
  · rw [State.modTile_tile_same]
  · rfl

theorem State.storeNoted_spec (s : State) (t : Nat) (vec : Bool) (f : StFields) (k : Nat) :
    s.Notes (s.storeNoted t vec f k) ∧ ((s.storeNoted t vec f k).tile t).isle.count = (s.tile t).isle.count := by
  unfold State.storeNoted
  rw [State.logAccess_cycle]
  split
  · exact ⟨(s.notes_addTerm _ _).trans (State.notes_logAccess _ _ _), rfl⟩
  · exact ⟨s.notes_logAccess _ _, rfl⟩

/-- The write that a store asks of its slice. -/
def Tile.storeRequest (x : Tile) (t : Nat) (vec : Bool) (f : StFields) (k : Nat) : WriteReq :=
  { arrival := storeCycle x f, port := portOf t (dieOf k), source := .tile (tileNum t), addr := k / 256 * 256
    data := (storeData x vec f k).1, bytes := (storeData x vec f k).2 }

/-- A legal store by where its key lies. -/
theorem stIssue_cases {vec : Bool} {f : StFields} (hl : stLegal vec f = true) (t : Nat) (s : State) :
    let s1 := s.countTile t 0x0008 1
    let x := s1.tile t
    (s1.storeKey t f = none → stIssue vec f t s = s1.tcDiscard) ∧
    ∀ k, s1.storeKey t f = some k →
      (f.reach = 0 → stIssue vec f t s = (s1.storeNoted t vec f k).modTile t fun y => y.postNow 1 .st
        (.store ((k / 256 * 256 - storeBase t) / 256) (storeData x vec f k).1 (storeData x vec f k).2) 0) ∧
      (f.reach ≠ 0 → stIssue vec f t s = (s1.storeNoted t vec f k).queueWrite (x.storeRequest t vec f k)) := by
  intro s1 x
  unfold stIssue
  rw [if_pos hl]
  dsimp only
  refine ⟨fun hk => by rw [hk], fun k hk => ⟨fun hr => ?_, fun hr => ?_⟩⟩
  · rw [hk]
    exact if_pos hr
  · rw [hk]
    exact if_neg hr

/-! ## The settlement -/

/-- What a store does, on a state that its reports have noted. -/
theorem State.store_spec {s : State} {t : BitVec 10} {f : StFields} {vec : Bool} (hr : s.tileRuns t.toNat = true)
    (hl : stLegal vec f = true) {c : Instr}
    (hexec : exec c s = .next (s.issueOne t.toNat (stWork vec f t.toNat))) :
    let x := s.tile t.toNat
    let key := s.reachKey t.toNat f.reach.toNat (slotAddress x f.base f.offset)
    (∀ k, key = some k → f.reach = 0 → ∃ w, s.posts c t.toNat [w] ∧ x.owes .st 1 w ∧
      w.op = .store ((k / 256 * 256 - storeBase t.toNat) / 256) (storeData x vec f k).1 (storeData x vec f k).2) ∧
    (∀ k, key = some k → f.reach ≠ 0 → ∃ s', exec c s = .next s' ∧ s.keeps s' ∧
      (s'.slice (dieOf (k / 256 * 256)) (sliceOf (offsetOf (k / 256 * 256)))).writes =
        (s.slice (dieOf (k / 256 * 256)) (sliceOf (offsetOf (k / 256 * 256)))).writes ++
          [x.storeRequest t.toNat vec f k]) ∧
    (key = none → ∃ s', exec c s = .next s' ∧ s.keeps s' ∧ (s'.tile t.toNat).pend = x.pend ∧
      s'.ts.discards = s.ts.discards + 1) := by
  intro x key
  obtain ⟨s1, hmeets, hafter, hcounted⟩ := State.issueOne_meets hr (stWork vec f t.toNat)
  obtain ⟨hnone, hsome⟩ := stIssue_cases hl t.toNat s1
  have hstart := hmeets.trans (s1.meets_countTile t.toNat t.toNat 0x0008 1)
  change (stIssue vec f t.toNat s1).Notes _ at hafter
  change _ = (stIssue vec f t.toNat s1).ts.discards at hcounted
  generalize s1.countTile t.toNat 0x0008 1 = s2 at hnone hsome hstart
  have hkey : s2.storeKey t.toNat f = key := by
    unfold State.storeKey
    rw [hstart.reachKey, hstart.slotAddress]
  rw [hkey] at hnone hsome
  refine ⟨fun k hk hreach => ?_, fun k hk hreach => ?_, fun hk => ?_⟩
  · obtain ⟨hnoted, hcycle⟩ := s2.storeNoted_spec t.toNat vec f k
    rw [(hsome k hk).1 hreach, hstart.storeData] at hafter
    obtain ⟨hkeeps, hpend, hother⟩ := State.notes_posted (hstart.toNotes.trans hnoted) (hcycle.trans hstart.cycle) hafter
    exact ⟨_, ⟨_, hexec, hkeeps, hpend, hother⟩, Tile.owes_newWrite _ _ _ _ _, rfl⟩
  · obtain ⟨hnoted, -⟩ := s2.storeNoted_spec t.toNat vec f k
    have hbefore := hstart.toNotes.trans hnoted
    have hrequest : (s2.tile t.toNat).storeRequest t.toNat vec f k = x.storeRequest t.toNat vec f k := by
      unfold Tile.storeRequest storeCycle
      rw [hstart.storeData, hstart.cycle]
    rw [(hsome k hk).2 hreach, hrequest] at hafter
    refine ⟨_, hexec, (hbefore.keeps.trans (.of_bytes rfl rfl)).trans hafter.keeps, ?_⟩
    rw [hafter.slice]
    refine (congrArg Slice.writes (State.queueWrite_slice _ _)).trans ?_
    rw [hbefore.slice]
    rfl
  · rw [hnone hk] at hafter hcounted
    have hall := (hstart.toNotes.trans s2.notes_tcDiscard).trans hafter
    exact ⟨_, hexec, hall.keeps, (hall.queues _).1, hcounted.trans (congrArg (· + 1) hstart.discards)⟩

/-- Settles O11: STV and STS are one store, which presents its lanes or its word. -/
theorem stores : Obligations.Stores := by
  unfold Obligations.Stores
  intro s t f hr hne x key stored
  have hnum : tileNum t.toNat = t := by simp [tileNum]
  have hcycle : ∀ n : Nat, f.reach ≠ 0 → (if f.reach = 0 then n else sliceDelay f.reach.toNat) =
      if f.reach = 1 then 6 else 24 := by
    intro n hreach
    rw [if_neg hreach, sliceDelay]
    congr 1
    exact propext ⟨fun h => BitVec.eq_of_toNat_eq h, fun h => by rw [h]; rfl⟩
  have store {vec : Bool} {c : Instr} {ok : Nat → Vec → BitVec 256 → Prop} (hl : stLegal vec f = true)
      (hexec : exec c s = .next (s.issueOne t.toNat (stWork vec f t.toNat)))
      (hok : ∀ k, ok k (storeData x vec f k).1 (storeData x vec f k).2) : stored c ok := by
    obtain ⟨hown, hlayer, hout⟩ := State.store_spec hr hl hexec
    refine ⟨fun k hk hreach => ?_, fun k hk hreach => ?_, hout⟩
    · obtain ⟨w, hposts, howes, hop⟩ := hown k hk hreach
      exact ⟨w, _, _, hposts, howes, hok k, hop⟩
    · obtain ⟨s', hnext, hkeeps, hwrites⟩ := hlayer k hk hreach
      rw [Tile.storeRequest, storeCycle, hcycle 0 hreach, hnum] at hwrites
      exact ⟨s', _, _, hnext, hkeeps, hok k, hwrites⟩
  have hreach : (f.reach != 3) = true := bne_iff_ne.2 hne
  refine ⟨store (vec := true) (by rw [stLegal, hreach]; rfl) rfl fun k n hn => storeData_vec _ _ _ _ hn, fun hmask =>
    store (vec := false) (by rw [stLegal, hreach, hmask]; rfl) rfl fun k => storeData_scalar _ _ _⟩

end Sys2Proof.Machine
end
section
/-! PROOFS. Sends between tiles (R95, R112, Table 4-12). -/

namespace Sys2Proof.Machine

/-- Outside debug mode an instruction of a running tile comes to what its slot runs, where that keeps the mode. -/
theorem State.issueOne_of_not_debug {s : State} {t : Nat} (hr : s.tileRuns t = true) (hd : s.dg.debugMode = false)
    {w : SlotWork} (hw : (w.run s).dg.debugMode = false) : s.issueOne t w = w.run s := by
  rw [s.issueOne_eq t w hr, s.report_of_not_debug _ _ hd, State.report_of_not_debug _ _ _ hw]

/-- What a send carries. -/
def sentData (vec : Bool) (x : Tile) (src : BitVec 5) : Vec := if vec then x.rv src else (x.rs src).setWidth 2048

/-- The register that a send is for. -/
def sentDest (vec : Bool) (reg : BitVec 5) : HingeDest := if vec then .v reg else .s reg

/-- The entry that a send of tile t puts on its way. -/
def State.sendEntry (s : State) (vec : Bool) (src due reg : BitVec 5) (t : Nat) : HingeItem :=
  { id := 0, issue := (s.tile t).isle.count, due := ((s.tile t).rs due).toNat, slot := .tx, dest := sentDest vec reg
    source := tileNum t, tagBell := s.tagBell, tagAttempt := s.bell.attempt, data := sentData vec (s.tile t) src
    status := .flight }

theorem Tile.rs_eq_of_meets {s s' : State} {t : Nat} (h : State.Meets t s s') (r : BitVec 5) :
    (s'.tile t).rs r = (s.tile t).rs r := congrFun (h.reg t).1 r

section
variable {s : State} {t : Nat} (vec : Bool) (src due reg : BitVec 5) (dst : BitVec 10)

/-- A send that is due too soon. -/
theorem sendIssue_of_soon (h : ((s.tile t).rs due).toNat < (s.tile t).isle.count + sendMin t dst.toNat) :
    sendIssue vec src due dst reg t s =
      (s.countTile t 0x0009 1).tcDiscard.tileCause cLate t (s.tile t).isle.count := by
  have hmeets := s.meets_countTile t t 0x0009 1
  unfold sendIssue
  dsimp only
  rw [Tile.rs_eq_of_meets hmeets, hmeets.cycle, if_pos h]

/-- A send to a fenced tile. -/
theorem sendIssue_of_fenced (h : (s.tile t).isle.count + sendMin t dst.toNat ≤ ((s.tile t).rs due).toNat)
    (hf : s.fenced dst.toNat = true) :
    sendIssue vec src due dst reg t s = (s.countTile t 0x0009 1).tcDiscard := by
  have hmeets := s.meets_countTile t t 0x0009 1
  have hfence : (s.countTile t 0x0009 1).fenced dst.toNat = true := by
    rw [State.fenced, State.fenceOf, hmeets.fences]; exact hf
  unfold sendIssue
  dsimp only
  rw [Tile.rs_eq_of_meets hmeets, hmeets.cycle, if_neg (Nat.not_lt.2 h), if_pos hfence]

/-- A send that is on its way, outside debug mode. -/
theorem sendIssue_of_sent (h : (s.tile t).isle.count + sendMin t dst.toNat ≤ ((s.tile t).rs due).toNat)
    (hf : s.fenced dst.toNat = false) (hd : s.dg.debugMode = false) :
    sendIssue vec src due dst reg t s =
      (s.countTile t 0x0009 1).modTile dst.toNat (·.expect (s.sendEntry vec src due reg t)) := by
  have hmeets := s.meets_countTile t t 0x0009 1
  have hfence : (s.countTile t 0x0009 1).fenced dst.toNat = false := by
    rw [State.fenced, State.fenceOf, hmeets.fences]; exact hf
  have hentry : (s.countTile t 0x0009 1).sendEntry vec src due reg t = s.sendEntry vec src due reg t := by
    unfold State.sendEntry sentData State.tagBell
    rw [hmeets.cycle, (hmeets.reg t).1, (hmeets.reg t).2.2.1, State.countTile_bell]
  rw [← hentry]
  unfold sendIssue
  dsimp only
  rw [if_neg (Nat.not_lt.2 (by rw [Tile.rs_eq_of_meets hmeets, hmeets.cycle]; exact h)),
    if_neg (by rw [hfence]; exact Bool.false_ne_true), State.hazard_of_not_debug (by
      rw [State.modTile_dg, State.countTile_dg]; exact hd), ite_self]
  rfl

theorem sendIssue_debugMode (hd : s.dg.debugMode = false) :
    (sendIssue vec src due dst reg t s).dg.debugMode = false := by
  rcases Nat.lt_or_ge ((s.tile t).rs due).toNat ((s.tile t).isle.count + sendMin t dst.toNat) with h | h
  · obtain ⟨_, hcause⟩ := State.cause_eq (s.countTile t 0x0009 1).tcDiscard cLate (s.tile t).isle.count (t / 256)
      (t % 256) 0
    rw [sendIssue_of_soon _ _ _ _ _ h, State.tileCause, hcause]
    exact (congrArg Debug.debugMode (s.countTile_dg t 0x0009 1)).trans hd
  · cases hf : s.fenced dst.toNat with
    | true =>
      rw [sendIssue_of_fenced _ _ _ _ _ h hf]
      exact (congrArg Debug.debugMode (s.countTile_dg t 0x0009 1)).trans hd
    | false =>
      rw [sendIssue_of_sent _ _ _ _ _ h hf hd]
      exact (congrArg Debug.debugMode (s.countTile_dg t 0x0009 1)).trans hd

end

/-- Settles O12: SENDV and SENDS are one send, by when it is due and by whether its destination is fenced. -/
theorem sends : Obligations.Sends := by
  unfold Obligations.Sends
  intro s t u src due reg hr hd x d far sends
  have hnum : tileNum t.toNat = t := by simp [tileNum]
  have hmeets := s.meets_countTile t.toNat t.toNat 0x0009 1
  have hdiscard := hmeets.toNotes.trans (State.notes_tcDiscard _)
  have send {vec : Bool} {c : Instr} {w : SlotWork} (hexec : exec c s = .next (s.issueOne t.toNat w))
      (hw : w.run s = sendIssue vec src due u reg t.toNat s) : sends c (sentData vec x src) (sentDest vec reg) := by
    rw [State.issueOne_of_not_debug hr hd (hw ▸ sendIssue_debugMode _ _ _ _ _ hd), hw] at hexec
    refine ⟨fun hdue hf => ?_, fun hdue => ?_, fun hdue hf => ?_⟩
    · rw [sendIssue_of_sent _ _ _ _ _ hdue hf hd] at hexec
      refine ⟨_, { s.sendEntry vec src due reg t.toNat with id := (s.tile u.toNat).nextId }, hexec,
        hmeets.keeps.trans (State.keeps_modTile _ _ rfl), ?_, rfl, rfl, hnum, rfl, rfl, rfl, rfl, hmeets.discards⟩
      obtain ⟨-, hhinge, hnext⟩ := hmeets.queues u.toNat
      rw [State.modTile_tile_same, ← hhinge, ← hnext]
      rfl
    · rw [sendIssue_of_soon _ _ _ _ _ hdue] at hexec
      refine ⟨_, hexec, hdiscard.keeps.trans (State.keeps_cause _ _ _ _ _ _), ?_, fun hg => ?_⟩
      · rw [State.tileCause, State.cause_ts]
        exact congrArg (· + 1) hmeets.discards
      · refine State.bit_cause _ (by decide) _ _ _ _ (State.causeOpen_of_lesson ?_ ?_)
        · exact (congrArg Bell.phase (s.countTile_bell _ _ _)).trans (State.phase_of_tileRuns hr)
        · exact (congrArg Bell.gathered (s.countTile_bell _ _ _)).trans hg
    · rw [sendIssue_of_fenced _ _ _ _ _ hdue hf] at hexec
      exact ⟨_, hexec, hdiscard.keeps, congrArg (· + 1) hmeets.discards⟩
  exact ⟨send (vec := true) rfl rfl, send (vec := false) rfl rfl⟩

end Sys2Proof.Machine
end

section
/-! PROOFS. The control slot: LOOP, BRC and ENDL (R97 to R99). -/

namespace Sys2Proof.Machine

/-- A control instruction that changes its own tile only. -/
theorem exec_of_modTile {s : State} {t : BitVec 10} {c : Instr} {w : SlotWork} {f g : Tile → Tile}
    (hr : s.tileRuns t.toNat = true) (hd : s.dg.debugMode = false) (hexec : exec c s = .next (s.issueOne t.toNat w))
    (hw : w.run s = s.modTile t.toNat f) (hfg : f (s.tile t.toNat) = g (s.tile t.toNat)) :
    exec c s = .next (s.modTile t.toNat g) := by
  rw [hexec, State.issueOne_of_not_debug hr hd (by rw [hw]; exact hd), hw, State.modTile, hfg]
  rfl

theorem loopLegal_iff (x : Tile) (e : Nat) :
    loopLegal x e = true ↔ x.pc < e ∧ x.loops.length < 4 ∧ ∀ l ∈ x.loops, e ≤ l.endIndex := by
  simp only [loopLegal, Bool.and_eq_true, decide_eq_true_eq, List.all_eq_true, and_assoc]

theorem brcTaken_iff (x : Tile) (level : BitVec 2) (value : BitVec 15) (target : BitVec 10) :
    (brcLegal x level target && loopIndex x level.toNat == value.toNat) = true ↔
      (∃ l, x.loops[level.toNat]? = some l ∧ l.index = value.toNat) ∧ x.pc < target.toNat ∧
        target.toNat ≤ innerEnd x := by
  simp only [brcLegal, loopIndex, Bool.and_eq_true, decide_eq_true_eq, beq_iff_eq]
  cases hl : x.loops[level.toNat]? with
  | none =>
    have := List.getElem?_eq_none_iff.1 hl
    simp only [reduceCtorEq, false_and, exists_false, iff_false]
    omega
  | some l =>
    obtain ⟨hlt, -⟩ := List.getElem?_eq_some_iff.1 hl
    simp only [Option.some.injEq, exists_eq_left']
    tauto

/-- Settles O16: each of LOOP, BRC and ENDL changes its own tile, by the rules of R99. -/
theorem controlFlow : Obligations.ControlFlow := by
  unfold Obligations.ControlFlow
  intro s t trips e target level value hr hd x active inner
  have hinner : innerEnd x = inner := by
    show innerEnd x = match x.loops.getLast? with | some l => l.endIndex | none => 1023
    unfold innerEnd
    cases x.loops.getLast? <;> rfl
  refine ⟨fun hpc hlen hend => ?_, fun hbad => ?_, fun l hl hindex hpc hend => ?_, fun hbad => ?_, ?_⟩
  · exact exec_of_modTile hr hd rfl rfl (if_pos ((loopLegal_iff x e.toNat).2 ⟨hpc, hlen, hend⟩))
  · refine exec_of_modTile hr hd rfl rfl (if_neg fun hlegal => ?_)
    obtain ⟨hpc, hlen, hend⟩ := (loopLegal_iff x e.toNat).1 hlegal
    rcases hbad with h | h | ⟨l, hl, h⟩
    · omega
    · omega
    · exact absurd (hend l hl) (Nat.not_le.2 h)
  · exact exec_of_modTile hr hd rfl rfl
      (if_pos ((brcTaken_iff x level value target).2 ⟨⟨l, hl, hindex⟩, hpc, hinner ▸ hend⟩))
  · refine exec_of_modTile hr hd rfl rfl (if_neg fun htaken => ?_)
    obtain ⟨⟨l, hl, hindex⟩, hpc, hend⟩ := (brcTaken_iff x level value target).1 htaken
    rw [hinner] at hend
    rcases hbad with h | ⟨m, hm, h⟩ | h | h
    · exact absurd (h.symm.trans hl) (by simp)
    · exact h ((Option.some.inj (hm.symm.trans hl)) ▸ hindex)
    · omega
    · omega
  · exact exec_of_modTile hr hd rfl rfl rfl

end Sys2Proof.Machine
end

section
/-! PROOFS. Two statements that fail: the reserved mode of SETS on a tile table that is not in rising order (R90, R96), and
the end of a cycle where the clocks of the part stand (R84, R98). -/

namespace Sys2Proof.Machine

/-- A lesson of two cycles whose table lists tile 1 before tile 0, which runs. -/
def unsortedLesson : State :=
  { State.reset with
    bell := { State.reset.bell with phase := .lesson, lessonLength := 2 }
    tiles := [(1, { Tile.reset with ended := false }), (0, { Tile.reset with ended := false })] }

/-- SETS of the reserved mode writes the unchanged tile back, to a place of its own in that table. -/
theorem exec_sets_reserved_unsortedLesson :
    exec (.sets 0 0 0 3) unsortedLesson = .next (unsortedLesson.setTile 0 (unsortedLesson.tile 0)) := rfl

/-- Refutes O14: in a state whose tile table is not in rising order (the canonical form of a table, which the statement
does not ask for), SETS of the reserved mode 3 keeps what every tile holds but not the table, so the next state is not
the state before. -/
theorem not_controlScalars : ¬ Obligations.ControlScalars := by
  unfold Obligations.ControlScalars
  intro h
  obtain ⟨-, -, -, -, hnop, -⟩ := h unsortedLesson 0 0 0 0 0 (by decide +kernel)
  rw [exec_sets_reserved_unsortedLesson] at hnop
  have htiles := congrArg (fun s : State => s.tiles.length) (Host.Outcome.next.inj hnop)
  exact absurd htiles (by decide +kernel)

/-- The halted lesson with its tile past ENDL. -/
def haltedDrained : State :=
  { haltedLesson with tiles := [(0, { Tile.reset with ended := false, drained := true })] }

/-- Its island has no clock, so the end of the cycle does nothing. -/
theorem exec_resultWriteback_haltedDrained : exec (.resultWriteback 0) haltedDrained = .next haltedDrained := rfl

/-- Refutes O17: with the clocks of the part halted, a tile past ENDL whose own stop has no cycle does not end its cycle
by RESULT_WRITEBACK, so its fetch index stays 0. -/
theorem not_nextBundle : ¬ Obligations.NextBundle := by
  unfold Obligations.NextBundle
  intro h
  obtain ⟨-, -, -, -, -, hdrained⟩ :=
    h haltedDrained 0 0 0 { start := 0, endIndex := 0, trips := 0, index := 0 } [] [] 0 (by decide +kernel)
  obtain ⟨s', hexec, hpc, -⟩ := hdrained rfl
  rw [exec_resultWriteback_haltedDrained] at hexec
  obtain rfl := Host.Outcome.next.inj hexec
  exact absurd hpc (by decide +kernel)

end Sys2Proof.Machine
end
section
/-! PROOFS. What leaves the debug mode as it is: counts, causes, reports, reads, and the issue of a slot (R448, R449). -/

namespace Sys2Proof.Machine

/-! ## Shared operations -/

@[simp] theorem State.countTile_debugMode (s : State) (t ev n : Nat) :
    (s.countTile t ev n).dg.debugMode = s.dg.debugMode := by rw [State.countTile_dg]

@[simp] theorem State.countEvent_debugMode (s : State) (scope inst ev n : Nat) :
    (s.countEvent scope inst ev n).dg.debugMode = s.dg.debugMode := by
  obtain ⟨_, h⟩ := s.countEvent_eq scope inst ev n
  rw [h]

@[simp] theorem State.cause_dg (s : State) (b c d u k : Nat) : (s.cause b c d u k).dg = s.dg := by
  obtain ⟨_, h⟩ := s.cause_eq b c d u k
  rw [h]

@[simp] theorem State.tileCause_dg (s : State) (b t c : Nat) : (s.tileCause b t c).dg = s.dg := s.cause_dg _ _ _ _ _

@[simp] theorem State.memCause_dg (s : State) (b key c : Nat) : (s.memCause b key c).dg = s.dg := by
  unfold State.memCause
  split <;> simp

@[simp] theorem State.hazard_debugMode (s : State) (t c cy d a : Nat) :
    (s.hazard t c cy d a).dg.debugMode = s.dg.debugMode := by
  unfold State.hazard
  split_ifs
  · show (State.cause _ _ _ _ _ _).dg.debugMode = _
    rw [State.cause_dg]
    rfl
  · rfl
  · rfl
  · rfl

@[simp] theorem State.logAccess_debugMode (s : State) (t : Nat) (a : Access) :
    (s.logAccess t a).dg.debugMode = s.dg.debugMode := by
  unfold State.logAccess
  split <;> rfl

/-! ## Reads -/

@[simp] theorem State.ceHold_debugMode (s : State) (k n : Nat) : (s.ceHold k n).dg.debugMode = s.dg.debugMode := by
  unfold State.ceHold
  split <;> simp

@[simp] theorem State.readCounted_debugMode (s : State) (k n : Nat) :
    (s.readCounted k n).dg.debugMode = s.dg.debugMode := by
  unfold State.readCounted
  dsimp only
  split <;> simp

theorem State.foldl_debugMode {β : Type} {f : State → β → State}
    (h : ∀ s b, (f s b).dg.debugMode = s.dg.debugMode) (l : List β) (s : State) :
    (l.foldl f s).dg.debugMode = s.dg.debugMode := by
  induction l generalizing s with
  | nil => rfl
  | cons b l ih => exact (ih _).trans (h s b)

@[simp] theorem State.readBad_debugMode (s : State) (k n cycle : Nat) :
    (s.readBad k n cycle).dg.debugMode = s.dg.debugMode := by
  have hcause : ((s.ueHold k 1 0).memCause cUncorrectable k cycle).dg.debugMode = s.dg.debugMode := by
    rw [State.memCause_dg]
    rfl
  unfold State.readBad
  dsimp only
  split
  · exact (State.foldl_debugMode (f := fun s w => s.noteStoreUe (storeTile k) w) (fun _ _ => rfl) _ _).trans hcause
  · exact hcause

@[simp] theorem State.readMem_debugMode {w : Nat} (s : State) (k n cycle : Nat) :
    (s.readMem k n cycle : ReadResult w).state.dg.debugMode = s.dg.debugMode := by
  rw [State.readMem_eq]
  split_ifs <;> simp

@[simp] theorem State.regionRead_debugMode (s : State) (num off n reader : Nat) (move : Bool) (key cycle : Nat) :
    (s.regionRead num off n reader move key cycle).2.dg.debugMode = s.dg.debugMode := by
  unfold State.regionRead
  dsimp only
  split_ifs
  · rfl
  · rfl
  · simp

@[simp] theorem State.tileRead_debugMode {w : Nat} (s : State) (reader k n : Nat) (move : Bool) (cycle : Nat) :
    (s.tileRead reader k n move cycle : ReadResult w).state.dg.debugMode = s.dg.debugMode := by
  unfold State.tileRead
  split
  · simp
  · dsimp only
    split <;> simp

/-! ## Loads -/

@[simp] theorem State.loadNow_debugMode (s : State) (t reach : Nat) (dest : HingeDest) (v : Vec) :
    (s.loadNow t reach dest v).dg.debugMode = s.dg.debugMode := rfl

@[simp] theorem State.loadOutside_debugMode (s : State) (t reach : Nat) (dest : HingeDest) :
    (s.loadOutside t reach dest).dg.debugMode = s.dg.debugMode := rfl

@[simp] theorem State.logLoad_debugMode (s : State) (t reach k n : Nat) :
    (s.logLoad t reach k n).dg.debugMode = s.dg.debugMode := s.logAccess_debugMode _ _

@[simp] theorem State.loadRequest_debugMode (s : State) (t reach k : Nat) (size : ReadSize) (dest : ReadDest) :
    (s.loadRequest t reach k size dest).dg.debugMode = s.dg.debugMode := rfl

theorem State.loadPlain_debugMode (s : State) (t reach : Nat) (a : HouseAddr) (n : Nat) (size : ReadSize)
    (dest : HingeDest) : (s.loadPlain t reach a n size dest).dg.debugMode = s.dg.debugMode := by
  unfold State.loadPlain
  split
  · simp
  · dsimp only
    split <;> simp

theorem State.loadStrided_debugMode (s : State) (t reach : Nat) (a : HouseAddr) (stride : BitVec 40)
    (dest : HingeDest) : (s.loadStrided t reach a stride dest).dg.debugMode = s.dg.debugMode := by
  unfold State.loadStrided
  generalize stridedAddrs a stride = addrs
  dsimp only
  by_cases hr : reach = 0
  · rw [if_pos hr, State.loadNow_debugMode]
    cases s.reachKey t reach addrs.1 <;> cases s.reachKey t reach addrs.2 <;> simp [State.tcDiscard]
  · rw [if_neg hr]
    cases s.reachKey t reach addrs.1 <;> cases s.reachKey t reach addrs.2 <;> simp [State.tcDiscard]

theorem State.loadTransposed_debugMode (s : State) (t reach : Nat) (a : HouseAddr) (b : BitVec 2) (row : BitVec 5)
    (wide : Bool) (half : BitVec 1) :
    (s.loadTransposed t reach a b row wide half).dg.debugMode = s.dg.debugMode := by
  unfold State.loadTransposed
  dsimp only
  split
  · simp
  · split
    · simp
    · exact State.foldl_debugMode (fun s i => by simp) _ _

/-! ## Slots -/

/-- A slot whose run leaves the debug mode as it is. -/
def SlotWork.KeepsMode (w : SlotWork) : Prop := ∀ s, (w.run s).dg.debugMode = s.dg.debugMode

theorem keepsMode_mxWork (conv : Bool) (f : MxFields) (t : Nat) : (mxWork conv f t).KeepsMode := by
  intro s
  show (mxIssue conv f t s).dg.debugMode = _
  unfold mxIssue
  dsimp only
  split <;> simp

theorem keepsMode_vxWork {op : VxOp} (h1 : op ≠ .vgath) (h2 : op ≠ .vscat) (f : VxFields) (t : Nat) :
    (vxWork op f t).KeepsMode := by
  intro s
  show (vxIssue op f t s).dg.debugMode = _
  cases hl : vxLegal op f with
  | false => rw [vxIssue, hl]; rfl
  | true => rw [vxIssue_eq op f t s hl h1 h2]; simp

theorem keepsMode_ldoWork (f : LdFields) (t : Nat) : (ldWork .ldo f t).KeepsMode := by
  intro s
  show (ldIssue .ldo f t s).dg.debugMode = _
  unfold ldIssue
  split
  · dsimp only
    split
    · rw [State.loadPlain_debugMode, State.countTile_debugMode]
    · rw [State.loadStrided_debugMode, State.countTile_debugMode]
    · rw [State.loadTransposed_debugMode, State.countTile_debugMode]
    · rw [State.loadTransposed_debugMode, State.countTile_debugMode]
  · rfl

theorem State.storeNoted_debugMode (s : State) (t : Nat) (vec : Bool) (f : StFields) (k : Nat) :
    (s.storeNoted t vec f k).dg.debugMode = s.dg.debugMode := by
  unfold State.storeNoted
  rw [State.logAccess_debugMode]
  split <;> rfl

theorem keepsMode_stWork (vec : Bool) (f : StFields) (t : Nat) : (stWork vec f t).KeepsMode := by
  intro s
  show (stIssue vec f t s).dg.debugMode = _
  cases hl : stLegal vec f with
  | false => rw [stIssue, hl]; rfl
  | true =>
    obtain ⟨hnone, hsome⟩ := stIssue_cases hl t s
    rw [← s.countTile_debugMode t 0x0008 1]
    cases hk : (s.countTile t 0x0008 1).storeKey t f with
    | none => rw [hnone hk]; rfl
    | some k =>
      by_cases hr : f.reach = 0
      · rw [(hsome k hk).1 hr]
        exact State.storeNoted_debugMode _ _ _ _ _
      · rw [(hsome k hk).2 hr]
        exact State.storeNoted_debugMode _ _ _ _ _

theorem keepsMode_redWork (src due : BitVec 5) (group : BitVec 8) (t : Nat) :
    (redWork src due group t).KeepsMode := by
  intro s
  show (redIssue src due group t s).dg.debugMode = _
  unfold redIssue
  dsimp only
  split <;> simp

theorem keepsMode_setsWork (sd : BitVec 5) (imm : BitVec 20) (mode : BitVec 2) (t : Nat) :
    (setsWork sd imm mode t).KeepsMode := fun _ => rfl

end Sys2Proof.Machine
end
section
/-! PROOFS. Bundle fetch (R89, R90, R97, R98, R113, Table 4-3). -/

namespace Sys2Proof.Machine

/-! ## Bundles with one slot in use -/

/-- Where a slot stands in a bundle (Table 4-3). -/
def Slot.low : Slot → Nat
  | .mx => 0
  | .vx => 48
  | .ld => 112
  | .st => 152
  | .tx => 192
  | .ct => 224

/-- The bits of a slot (Table 4-3). -/
def Slot.bits : Slot → Nat
  | .mx => 48
  | .vx => 64
  | .ld => 40
  | .st => 40
  | .tx => 32
  | .ct => 32

/-- The work of one slot of a bundle. -/
def slotWork (b : Bundle) (t : Nat) : Slot → SlotWork
  | .mx => mxSlot b t
  | .vx => vxSlot b t
  | .ld => ldSlot b t
  | .st => stSlot b t
  | .tx => txSlot b t
  | .ct => ctSlot b t

/-- The slots in their order. -/
def slotOrder : List Slot := [.mx, .vx, .ld, .st, .tx, .ct]

theorem bundleWork_eq (b : Bundle) (t : Nat) : bundleWork b t = slotOrder.map (slotWork b t) := rfl

theorem Slot.apart {p q : Slot} (h : q ≠ p) : q.low + q.bits ≤ p.low ∨ p.low + p.bits ≤ q.low := by
  cases p <;> cases q <;> simp_all [Slot.low, Slot.bits]

/-- A slot of zeros is the NOP (R90). -/
theorem slotWork_of_zero {b : Bundle} (t : Nat) (p : Slot) (h : (slotBits b p.low p.bits : BitVec p.bits) = 0) :
    slotWork b t p = .nop := by
  cases p with
  | mx => change (slotBits b 0 48 : BitVec 48) = 0 at h; unfold slotWork mxSlot; rw [h]; rfl
  | vx => change (slotBits b 48 64 : BitVec 64) = 0 at h; unfold slotWork vxSlot; rw [h]; rfl
  | ld => change (slotBits b 112 40 : BitVec 40) = 0 at h; unfold slotWork ldSlot; rw [h]; rfl
  | st => change (slotBits b 152 40 : BitVec 40) = 0 at h; unfold slotWork stSlot; rw [h]; rfl
  | tx => change (slotBits b 192 32 : BitVec 32) = 0 at h; unfold slotWork txSlot; rw [h]; rfl
  | ct => change (slotBits b 224 32 : BitVec 32) = 0 at h; unfold slotWork ctSlot; rw [h]; rfl

/-- Every bit of the bundle outside this field is zero. -/
def AloneAt (b : Bundle) (lo n : Nat) : Prop := ∀ i, i < lo ∨ lo + n ≤ i → bit b i = false

/-- The other slots of such a bundle are zero. -/
theorem AloneAt.slot_zero {b : Bundle} {p q : Slot} (h : AloneAt b p.low p.bits) (hq : q ≠ p) :
    (slotBits b q.low q.bits : BitVec q.bits) = 0 := by
  have hapart := Slot.apart hq
  refine BitVec.eq_of_getLsbD_eq fun i hi => ?_
  have hout : b.getLsbD (q.low + i) = false := h (q.low + i) (by omega)
  rw [slotBits, BitVec.getLsbD_extractLsb', hout]
  simp

/-- The bundle does what one slot's work does, and nothing else. -/
def DoesOnly (b : Bundle) (t : Nat) (w : SlotWork) : Prop :=
  ∀ s, (bundleWork b t).foldl (fun s v => v.run s) s = w.run s

/-- A bundle with one slot in use does what that slot says. -/
theorem AloneAt.doesOnly {b : Bundle} (t : Nat) {p : Slot} (h : AloneAt b p.low p.bits) :
    DoesOnly b t (slotWork b t p) := by
  intro s
  have hother : ∀ (s : State) (q : Slot), (slotWork b t q).run s = if q == p then (slotWork b t q).run s else s := by
    intro s q
    by_cases hq : q = p
    · rw [if_pos (beq_iff_eq.2 hq)]
    · rw [if_neg (mt beq_iff_eq.1 hq), slotWork_of_zero t q (h.slot_zero hq)]
      rfl
  have hone : slotOrder.filter (· == p) = [p] := by cases p <;> rfl
  calc (bundleWork b t).foldl (fun s v => v.run s) s
      = slotOrder.foldl (fun s q => (slotWork b t q).run s) s := by rw [bundleWork_eq, List.foldl_map]
    _ = slotOrder.foldl (fun s q => if q == p then (slotWork b t q).run s else s) s := by
        congr 1
        exact funext fun s => funext fun q => hother s q
    _ = (slotOrder.filter (· == p)).foldl (fun s q => (slotWork b t q).run s) s := (List.foldl_filter ..).symm
    _ = (slotWork b t p).run s := by rw [hone]; rfl

/-- A bundle of zeros does nothing. -/
theorem doesOnly_zero (t : Nat) : DoesOnly 0 t .nop := by
  have h : AloneAt 0 Slot.mx.low Slot.mx.bits := fun i _ => by simp [bit]
  rw [← slotWork_of_zero (b := 0) t .mx (by simp [slotBits])]
  exact h.doesOnly t

/-! ## The code of a slot -/

section
variable {b : Bundle} (t : Nat)

theorem slotWork_mxb (h : (slotBits b 0 48 : BitVec 48).extractLsb' 0 6 = (1 : BitVec 6)) :
    slotWork b t .mx = mxWork false (mxFields (slotBits b 0 48)) t := by
  unfold slotWork mxSlot
  dsimp only
  rw [slotBits, h]
  rfl

theorem slotWork_ffma (h : (slotBits b 48 64 : BitVec 64).extractLsb' 0 8 = (0x23 : BitVec 8)) :
    slotWork b t .vx = vxWork .ffma (vxFields (slotBits b 48 64)) t := by
  unfold slotWork vxSlot
  dsimp only
  rw [slotBits, h]
  rfl

theorem slotWork_vsel (h : (slotBits b 48 64 : BitVec 64).extractLsb' 0 8 = (0x0F : BitVec 8)) :
    slotWork b t .vx = vxWork .vsel (vxFields (slotBits b 48 64)) t := by
  unfold slotWork vxSlot
  dsimp only
  rw [slotBits, h]
  rfl

theorem slotWork_ldo (h : (slotBits b 112 40 : BitVec 40).extractLsb' 0 5 = (3 : BitVec 5)) :
    slotWork b t .ld = ldWork .ldo (ldFields (slotBits b 112 40)) t := by
  unfold slotWork ldSlot
  dsimp only
  rw [slotBits, h]
  rfl

theorem slotWork_stv (h : (slotBits b 152 40 : BitVec 40).extractLsb' 0 5 = (2 : BitVec 5)) :
    slotWork b t .st = stWork true (stFields (slotBits b 152 40)) t := by
  unfold slotWork stSlot
  dsimp only
  rw [slotBits, h]
  rfl

theorem slotWork_red (h : (slotBits b 192 32 : BitVec 32).extractLsb' 0 5 = (3 : BitVec 5)) :
    slotWork b t .tx =
    redWork ((slotBits b 192 32 : BitVec 32).extractLsb' 5 5) ((slotBits b 192 32 : BitVec 32).extractLsb' 10 5)
      ((slotBits b 192 32 : BitVec 32).extractLsb' 15 8) t := by
  unfold slotWork txSlot
  dsimp only
  rw [slotBits, h]
  rfl

theorem slotWork_sets (h : (slotBits b 224 32 : BitVec 32).extractLsb' 0 5 = (4 : BitVec 5)) :
    slotWork b t .ct =
    setsWork ((slotBits b 224 32 : BitVec 32).extractLsb' 5 5) ((slotBits b 224 32 : BitVec 32).extractLsb' 10 20)
      ((slotBits b 224 32 : BitVec 32).extractLsb' 30 2) t := by
  unfold slotWork ctSlot
  dsimp only
  rw [slotBits, h]
  rfl

end

/-! ## The fetch -/

/-- The tile has issued the bundle of its cycle. -/
def State.bundleIssued (s : State) (t : Nat) : State :=
  s.modTile t fun x => { x with issued := true, bundles := x.bundles + 1 }

theorem State.bundleIssued_tileRuns {s : State} {t : Nat} (h : s.tileRuns t = true) :
    (s.bundleIssued t).tileRuns t = true := by
  rw [← h]
  unfold State.tileRuns State.bundleIssued
  rw [State.modTile_tile_same]
  rfl

theorem State.countTile_of_off {s : State} (h : s.dg.cntOn = 0) (t ev n : Nat) : s.countTile t ev n = s := by
  unfold State.countTile
  rw [h]
  rfl

theorem State.breakpoints_of_not_debug {s : State} (h : s.dg.debugMode = false) (t : Nat) (tag : BitVec 64) :
    s.breakpoints t tag = s := by
  unfold State.breakpoints
  rw [h]
  rfl

/-- Outside debug mode a bundle in which only one slot does something runs that slot. -/
theorem State.issue_of_doesOnly {s : State} (hd : s.dg.debugMode = false) {b : Bundle} {t : Nat} {w : SlotWork}
    (hw : DoesOnly b t w) (hmode : w.KeepsMode) : s.issue t (bundleWork b t) = w.run s := by
  unfold State.issue
  dsimp only
  rw [s.report_of_not_debug _ _ hd, hw s, State.report_of_not_debug _ _ _ ((hmode s).trans hd)]

/-- Outside debug mode and with no counter on, a fetch marks its bundle as issued and runs its slots. -/
theorem State.fetchIssue_eq {s : State} {t : Nat} (hd : s.dg.debugMode = false) (hcnt : s.dg.cntOn = 0)
    (hf : s.fetches t = true) {w : SlotWork} (hw : DoesOnly (s.fetch t).1 t w) (hmode : w.KeepsMode) :
    s.fetchIssue t = w.run ((s.fetch t).2.bundleIssued t) := by
  have hdg : (s.fetch t).2.dg = s.dg := by
    unfold State.fetch
    dsimp only
    split
    · rfl
    · exact State.tileCause_dg _ _ _ _
  have hissued : ((s.fetch t).2.bundleIssued t).dg = s.dg := hdg
  unfold State.fetchIssue
  rw [if_pos hf]
  change State.breakpoints (State.issue (State.countTile ((s.fetch t).2.bundleIssued t) t 0x0001 1) t
    (bundleWork (s.fetch t).1 t)) t (s.bundleTag t) = _
  rw [State.countTile_of_off (by rw [hissued, hcnt]), State.issue_of_doesOnly (by rw [hissued, hd]) hw hmode,
    State.breakpoints_of_not_debug (by rw [hmode, hissued, hd])]

theorem exec_bundleFetch_of_fresh {s : State} {t : BitVec 10} (hr : s.tileRuns t.toNat = true)
    (hi : (s.tile t.toNat).issued = false) : exec (.bundleFetch t) s = .next (s.fetchIssue t.toNat) := by
  show execBundleFetch t s = _
  unfold execBundleFetch
  simp only [hr, hi, if_true, Bool.false_eq_true, if_false]

/-- A fetched bundle that does only what one slot's work does comes to the command of that work. -/
theorem exec_bundleFetch_of_doesOnly {s : State} {t : BitVec 10} (hr : s.tileRuns t.toNat = true)
    (hd : s.dg.debugMode = false) (hcnt : s.dg.cntOn = 0) (hi : (s.tile t.toNat).issued = false)
    (hf : s.fetches t.toNat = true) (hue : fetchUe (s.tile t.toNat) = []) {w : SlotWork}
    (hw : DoesOnly (tabGet 0 (s.tile t.toNat).ib (fetchKey (s.tile t.toNat))) t.toNat w) (hmode : w.KeepsMode) :
    exec (.bundleFetch t) s = .next (w.run (s.bundleIssued t.toNat)) ∧
      (s.bundleIssued t.toNat).issueOne t.toNat w = w.run (s.bundleIssued t.toNat) := by
  have hfetch : s.fetch t.toNat = (tabGet 0 (s.tile t.toNat).ib (fetchKey (s.tile t.toNat)), s) := if_pos hue
  refine ⟨?_, State.issueOne_of_not_debug (State.bundleIssued_tileRuns hr) hd ((hmode _).trans hd)⟩
  rw [exec_bundleFetch_of_fresh hr hi, State.fetchIssue_eq hd hcnt hf (by rw [hfetch]; exact hw) hmode, hfetch]

/-! ## An uncorrectable word -/

/-- Noting the words of a fetch changes which have been met, and whether a fence is due. -/
theorem Tile.noteIbUe_leaves (l : List Nat) (x : Tile) :
    (l.foldl Tile.noteIbUe x).regs = x.regs ∧ (l.foldl Tile.noteIbUe x).pend = x.pend := by
  induction l generalizing x with
  | nil => exact ⟨rfl, rfl⟩
  | cons w l ih =>
    have hone : (x.noteIbUe w).regs = x.regs ∧ (x.noteIbUe w).pend = x.pend := by
      unfold Tile.noteIbUe
      split <;> exact ⟨rfl, rfl⟩
    obtain ⟨hregs, hpend⟩ := ih (x.noteIbUe w)
    exact ⟨hregs.trans hone.1, hpend.trans hone.2⟩

/-- A bundle with an uncorrectable word issues as no operation, and the lesson is UNCORRECTABLE. -/
theorem exec_bundleFetch_of_bad {s : State} {t : BitVec 10} (hr : s.tileRuns t.toNat = true)
    (hd : s.dg.debugMode = false) (hcnt : s.dg.cntOn = 0) (hi : (s.tile t.toNat).issued = false)
    (hf : s.fetches t.toNat = true) (hue : fetchUe (s.tile t.toNat) ≠ []) :
    ∃ s', exec (.bundleFetch t) s = .next s' ∧ s.keeps s' ∧
      (s'.tile t.toNat).pend = (s.tile t.toNat).pend ∧ (s'.tile t.toNat).issued = true ∧
      (s.bell.gathered = false → bit s'.bell.lessonCauses 6 = true) := by
  obtain ⟨hregs, hpend⟩ := Tile.noteIbUe_leaves (fetchUe (s.tile t.toNat)) (s.tile t.toNat)
  have hfetch : s.fetch t.toNat = (0, (s.modTile t.toNat fun x =>
      (fetchUe (s.tile t.toNat)).foldl Tile.noteIbUe x).tileCause cUncorrectable t.toNat
        (s.tile t.toNat).isle.count) := if_neg hue
  have hkeeps : s.keeps (s.fetch t.toNat).2 := by
    rw [hfetch]
    exact (s.keeps_modTile _ hregs).trans (State.keeps_cause _ _ _ _ _ _)
  have htile : (s.fetch t.toNat).2.tile t.toNat = (fetchUe (s.tile t.toNat)).foldl Tile.noteIbUe (s.tile t.toNat) := by
    rw [hfetch]
    show (State.cause _ _ _ _ _ _).tile _ = _
    rw [State.tile, State.cause_tiles]
    exact s.modTile_tile_same _ _
  refine ⟨(s.fetch t.toNat).2.bundleIssued t.toNat, ?_, hkeeps.trans (State.keeps_modTile _ _ rfl), ?_, ?_, fun hg => ?_⟩
  · rw [exec_bundleFetch_of_fresh hr hi, State.fetchIssue_eq hd hcnt hf (w := .nop) ?_ fun _ => rfl]
    · rfl
    · rw [hfetch]
      exact doesOnly_zero _
  · rw [State.bundleIssued, State.modTile_tile_same, htile]
    exact hpend
  · rw [State.bundleIssued, State.modTile_tile_same]
  · rw [State.bundleIssued, State.modTile_bell, hfetch]
    have hphase : s.bell.phase = .lesson := State.phase_of_tileRuns hr
    exact State.bit_cause _ (by decide) _ _ _ _ (State.causeOpen_of_lesson hphase hg)

/-! ## A cycle whose bundle has issued -/

theorem State.endCycle_issued (s : State) (t : Nat) : ((s.endCycle t).tile t).issued = false := by
  unfold State.endCycle
  dsimp only
  rw [State.modTile_tile_same]
  rfl

theorem exec_bundleFetch_of_idle {s : State} {t : BitVec 10} (hr : s.tileRuns t.toNat = false) :
    exec (.bundleFetch t) s = .next s := by
  show execBundleFetch t s = _
  unfold execBundleFetch
  simp only [hr, Bool.false_eq_true, if_false]

/-- A fetch after the bundle of the cycle has issued is the end of the cycle and the fetch of the next. -/
theorem exec_bundleFetch_of_issued {s : State} {t : BitVec 10} (hr : s.tileRuns t.toNat = true)
    (hi : (s.tile t.toNat).issued = true) :
    exec (.bundleFetch t) s = exec (.bundleFetch t) (s.endCycle t.toNat) := by
  have hfresh := s.endCycle_issued t.toNat
  have hfetch : exec (.bundleFetch t) s = .next (if (s.endCycle t.toNat).tileRuns t.toNat then
      (s.endCycle t.toNat).fetchIssue t.toNat else s.endCycle t.toNat) := by
    show execBundleFetch t s = _
    unfold execBundleFetch
    simp only [hr, hi, if_true]
  rw [hfetch]
  generalize s.endCycle t.toNat = s1 at hfresh
  cases hr1 : s1.tileRuns t.toNat with
  | true => rw [exec_bundleFetch_of_fresh hr1 hfresh, if_pos rfl]
  | false => rw [exec_bundleFetch_of_idle hr1, if_neg Bool.false_ne_true]

/-- RESULT_WRITEBACK ends the cycle of a running tile, unless the clock of its island stands. -/
theorem exec_resultWriteback_of_runs {s : State} {t : BitVec 10} (hr : s.tileRuns t.toNat = true) :
    exec (.resultWriteback t) s = .next (if (s.tileIsle t.toNat).stopped then s else s.endCycle t.toNat) := by
  show execResultWriteback t s = _
  unfold execResultWriteback
  simp only [State.not_fenced_of_tileRuns hr, hr, Bool.false_or, if_true]

/-! ## The settlement -/

/-- Settles O18: a bundle with one slot in use runs that slot's work alone, which is what the slot's command runs. -/
theorem bundleFetch : Obligations.BundleFetch := by
  unfold Obligations.BundleFetch
  refine ⟨fun s t hr hd hcnt => ?_, fun s t hr hd hcnt => ⟨fun hi hf => ?_, exec_bundleFetch_of_bad hr hd hcnt,
    fun hi => ?_⟩⟩
  case refine_2 =>
    rw [exec_bundleFetch_of_fresh hr hi, State.fetchIssue, hf]
    rfl
  case refine_3 =>
    refine ⟨_, exec_resultWriteback_of_runs hr, ?_⟩
    split
    · rfl
    · exact exec_bundleFetch_of_issued hr hi
  case refine_1 =>
    intro x hi hf hue b at1 does alone mx vx ld st tx ct
    have slot {w : SlotWork} {c : Instr} (p : Slot) (halone : alone p.low p.bits) (hp : slotWork b t.toNat p = w)
        (hmode : w.KeepsMode) (hc : exec c at1 = .next (at1.issueOne t.toNat w)) : does c := by
      obtain ⟨hfetch, hone⟩ := exec_bundleFetch_of_doesOnly hr hd hcnt hi hf hue (hp ▸ AloneAt.doesOnly t.toNat halone) hmode
      show exec (.bundleFetch t) s = exec c at1
      rw [hfetch, hc]
      exact congrArg _ hone.symm
    exact ⟨fun ha hop => slot .mx ha (slotWork_mxb _ hop) (keepsMode_mxWork _ _ _) rfl,
      fun ha hop => slot .vx ha (slotWork_ffma _ hop) (keepsMode_vxWork (by decide) (by decide) _ _) rfl,
      fun ha hop => slot .vx ha (slotWork_vsel _ hop) (keepsMode_vxWork (by decide) (by decide) _ _) rfl,
      fun ha hop => slot .ld ha (slotWork_ldo _ hop) (keepsMode_ldoWork _ _) rfl,
      fun ha hop => slot .st ha (slotWork_stv _ hop) (keepsMode_stWork _ _ _) rfl,
      fun ha hop => slot .tx ha (slotWork_red _ hop) (keepsMode_redWork _ _ _ _) rfl,
      fun ha hop => slot .ct ha (slotWork_sets _ hop) (keepsMode_setsWork _ _ _ _) rfl,
      fun hb => (exec_bundleFetch_of_doesOnly hr hd hcnt hi hf hue (hb ▸ doesOnly_zero t.toNat : DoesOnly b _ _)
        fun _ => rfl).1⟩

end Sys2Proof.Machine
end
section
/-! PROOFS. The choice among the writes of one cycle (R100, R101). -/

namespace Sys2Proof.Machine

/-! ## Ascending priority -/

theorem PendWrite.before_iff (p q : PendWrite) : p.before q = true ↔
    p.slot.number < q.slot.number ∨ (p.slot.number = q.slot.number ∧ p.rank < q.rank) := by
  simp [PendWrite.before]

/-- The first of two writes does not have the higher priority. -/
def PendWrite.atMost (p q : PendWrite) : Prop := q.before p = false

theorem PendWrite.atMost_of_before {p q r : PendWrite} (h : p.before q = true) (h' : q.atMost r) : p.atMost r := by
  have hrq := (mt (r.before_iff q).2) (by rw [show r.before q = false from h']; decide)
  have hpq := (p.before_iff q).1 h
  refine Bool.eq_false_iff.2 fun hrp => ?_
  have hrp := (r.before_iff p).1 hrp
  omega

theorem mem_insertWrite {p q : PendWrite} {l : List PendWrite} : q ∈ insertWrite p l ↔ q = p ∨ q ∈ l := by
  induction l with
  | nil => simp [insertWrite]
  | cons r l ih =>
    unfold insertWrite
    split
    · simp
    · rw [List.mem_cons, ih, List.mem_cons]
      tauto

theorem pairwise_insertWrite (p : PendWrite) {l : List PendWrite} (h : l.Pairwise PendWrite.atMost) :
    (insertWrite p l).Pairwise PendWrite.atMost := by
  induction l with
  | nil => simp [insertWrite]
  | cons q l ih =>
    obtain ⟨hq, hl⟩ := List.pairwise_cons.1 h
    unfold insertWrite
    split
    · rename_i hpq
      have hself : q.atMost q := Bool.eq_false_iff.2 fun hqq => by have := (q.before_iff q).1 hqq; omega
      refine List.pairwise_cons.2 ⟨fun r hr => ?_, h⟩
      rcases List.mem_cons.1 hr with rfl | hr
      · exact PendWrite.atMost_of_before hpq hself
      · exact PendWrite.atMost_of_before hpq (hq r hr)
    · rename_i hpq
      refine List.pairwise_cons.2 ⟨fun r hr => ?_, ih hl⟩
      rcases mem_insertWrite.1 hr with rfl | hr
      · exact Bool.eq_false_iff.2 hpq
      · exact hq r hr

theorem foldl_insertWrite_spec (l a : List PendWrite) (ha : a.Pairwise PendWrite.atMost) :
    (l.foldl (fun a p => insertWrite p a) a).Pairwise PendWrite.atMost ∧
      ∀ p, p ∈ l.foldl (fun a p => insertWrite p a) a ↔ p ∈ l ∨ p ∈ a := by
  induction l generalizing a with
  | nil => exact ⟨ha, fun p => by simp⟩
  | cons q l ih =>
    obtain ⟨hsorted, hmem⟩ := ih (insertWrite q a) (pairwise_insertWrite q ha)
    refine ⟨hsorted, fun p => ?_⟩
    rw [List.foldl_cons, hmem, mem_insertWrite, List.mem_cons]
    tauto

theorem sortWrites_spec (l : List PendWrite) :
    (sortWrites l).Pairwise PendWrite.atMost ∧ ∀ p, p ∈ sortWrites l ↔ p ∈ l := by
  obtain ⟨hsorted, hmem⟩ := foldl_insertWrite_spec l [] .nil
  exact ⟨hsorted, fun p => (hmem p).trans (by simp)⟩

/-! ## The write that is kept -/

/-- The writes to one place. -/
def writesTo (k : Nat × Nat) (l : List PendWrite) : List PendWrite := l.filter fun p => p.op.place == some k

theorem mem_writesTo {k : Nat × Nat} {l : List PendWrite} {p : PendWrite} :
    p ∈ writesTo k l ↔ p ∈ l ∧ p.op.place = some k := by
  simp [writesTo]

/-- Of the writes to one place the last is kept. -/
theorem writesTo_keepWrites (k : Nat × Nat) (l : List PendWrite) :
    writesTo k (keepWrites l) = (writesTo k l).getLast?.toList := by
  induction l with
  | nil => rfl
  | cons p l ih =>
    by_cases hp : p.op.place = some k
    · have hfirst : ∀ t, writesTo k (p :: t) = p :: writesTo k t := fun t => List.filter_cons_of_pos (by simp [hp])
      simp only [keepWrites, hp]
      cases hany : l.any fun q => q.op.place == some k with
      | true =>
        obtain ⟨q, hq, hqk⟩ := List.any_eq_true.1 hany
        obtain ⟨a, t, hat⟩ := List.exists_cons_of_ne_nil
          (List.ne_nil_of_mem (mem_writesTo.2 ⟨hq, beq_iff_eq.1 hqk⟩))
        rw [if_pos rfl, ih, hfirst, hat, List.getLast?_cons_cons]
      | false =>
        have hnone : writesTo k l = [] := List.filter_eq_nil_iff.2 fun q hq hqk =>
          absurd (List.any_eq_true.2 ⟨q, hq, hqk⟩) (by rw [hany]; decide)
        rw [if_neg Bool.false_ne_true, hfirst, hfirst, ih, hnone]
        rfl
    · have hskip : ∀ t, writesTo k (p :: t) = writesTo k t := fun t => List.filter_cons_of_neg (by simp [hp])
      rw [hskip, ← ih]
      cases hplace : p.op.place with
      | none =>
        simp only [keepWrites, hplace]
        exact hskip _
      | some j =>
        simp only [keepWrites, hplace]
        split
        · rfl
        · exact hskip _

/-- A write that has the highest priority of all to its place is the one that is kept. -/
theorem writesTo_keepWrites_of_wins {k : Nat × Nat} {l : List PendWrite} {p : PendWrite} (hp : p ∈ l)
    (hk : p.op.place = some k) (hwins : ∀ q ∈ l, q.op.place = some k → q = p ∨ q.before p = true) :
    writesTo k (keepWrites (sortWrites l)) = [p] := by
  obtain ⟨hsorted, hmem⟩ := sortWrites_spec l
  have hin : p ∈ writesTo k (sortWrites l) := mem_writesTo.2 ⟨(hmem p).2 hp, hk⟩
  have hwrites : (writesTo k (sortWrites l)).Pairwise PendWrite.atMost := hsorted.filter _
  have hall : ∀ q ∈ writesTo k (sortWrites l), q = p ∨ q.before p = true := fun q hq =>
    hwins q ((hmem q).1 (mem_writesTo.1 hq).1) (mem_writesTo.1 hq).2
  rw [writesTo_keepWrites]
  rcases List.eq_nil_or_concat' (writesTo k (sortWrites l)) with hnil | ⟨before, last, hlast⟩
  · rw [hnil] at hin
    exact absurd hin (by simp)
  · rw [hlast] at hin hwrites hall ⊢
    have heq : last = p := by
      rcases hall last (by simp) with h | h
      · exact h
      · refine (List.mem_append.1 hin).elim (fun hbefore => ?_) fun hl => (List.mem_singleton.1 hl).symm
        have hatMost := (List.pairwise_append.1 hwrites).2.2 p hbefore last (by simp)
        exact absurd h (by rw [show last.before p = false from hatMost]; decide)
    simp [heq]

/-- Where no write goes to a place, none is kept. -/
theorem writesTo_keepWrites_of_none {k : Nat × Nat} {l : List PendWrite} (h : ∀ p ∈ l, p.op.place ≠ some k) :
    writesTo k (keepWrites (sortWrites l)) = [] := by
  have hnone : writesTo k (sortWrites l) = [] := List.filter_eq_nil_iff.2 fun p hp hpk =>
    h p (((sortWrites_spec l).2 p).1 hp) (beq_iff_eq.1 hpk)
  rw [writesTo_keepWrites, hnone]
  rfl

end Sys2Proof.Machine
end

section
/-! PROOFS. The end of a tile's cycle: what its writes make of its registers, and the step to the next cycle (R84, R98,
R100, R101, R450). -/

namespace Sys2Proof.Machine

/-! ## One write -/

theorem State.applyGranule_tiles (s : State) (g : Nat) (x : Vec) (mask : BitVec 256) :
    (s.applyGranule g x mask).tiles = s.tiles := by
  unfold State.applyGranule
  dsimp only
  split_ifs
  · rw [State.ceHold_tiles]
  · show (State.ceHold _ _ _).tiles = _
    rw [State.ceHold_tiles]
  · rfl

/-- What a write makes of its tile, apart from the instruction buffer. -/
theorem State.performWrite_tile (s : State) (t : Nat) (p : PendWrite) :
    (s.performWrite t p).tile t = s.tile t ∧ (∀ r v, p.op ≠ .sreg r v) ∧ (∀ r v m, p.op ≠ .vreg r v m) ∨
      (s.performWrite t p).tile t = (s.tile t).writeReg p.op := by
  unfold State.performWrite
  cases hop : p.op with
  | store g v b => exact .inl ⟨by rw [State.tile, State.applyGranule_tiles]; rfl, by simp, by simp⟩
  | ib h g v =>
    dsimp only
    split
    · exact .inl ⟨rfl, by simp, by simp⟩
    · exact .inr (s.modTile_tile_same _ _)
  | sreg r v => exact .inr (s.modTile_tile_same _ _)
  | areg r v => exact .inr (s.modTile_tile_same _ _)
  | vreg r v m => exact .inr (s.modTile_tile_same _ _)
  | mreg r v m => exact .inr (s.modTile_tile_same _ _)
  | acc b r v m => exact .inr (s.modTile_tile_same _ _)
  | buf b r v m => exact .inr (s.modTile_tile_same _ _)

/-- What a write makes of a scalar register. -/
def WriteOp.onScalar (r : BitVec 5) (op : WriteOp) (old : Word) : Word :=
  match op with
  | .sreg q v => if q = r then v else old
  | _ => old

/-- What a write makes of a vector register. -/
def WriteOp.onVector (r : BitVec 5) (op : WriteOp) (old : Vec) : Vec :=
  match op with
  | .vreg q v m => if q = r then blend m v old else old
  | _ => old

theorem Tile.writeReg_rs (x : Tile) (op : WriteOp) (r : BitVec 5) :
    (x.writeReg op).rs r = op.onScalar r (x.rs r) := by
  cases op with
  | sreg q v =>
    show tabGet 0 (tabSet 0 x.s q.toNat v) r.toNat = if q = r then v else x.rs r
    rw [tabGet_tabSet]
    simp only [Tile.rs, eq_comm, BitVec.toNat_inj]
  | mreg q v m =>
    show ((if q = 0 then x else _ : Tile)).rs r = x.rs r
    split <;> rfl
  | _ => rfl

theorem Tile.writeReg_rv (x : Tile) (op : WriteOp) (r : BitVec 5) :
    (x.writeReg op).rv r = op.onVector r (x.rv r) := by
  cases op with
  | vreg q v m =>
    show tabGet 0 (tabMod 0 x.v q.toNat (blend m v)) r.toNat = if q = r then blend m v (x.rv r) else x.rv r
    by_cases hq : q = r
    · rw [if_pos hq, hq, tabGet_tabMod_same]
      rfl
    · rw [if_neg hq, tabGet_tabMod_other _ _ _ fun h => hq (BitVec.eq_of_toNat_eq h.symm)]
      rfl
  | mreg q v m =>
    show ((if q = 0 then x else _ : Tile)).rv r = x.rv r
    split <;> rfl
  | _ => rfl

/-- What of a tile no write changes. -/
def Tile.control (x : Tile) : List PendWrite × BitVec 4 × Island × Bool := (x.pend, x.flags, x.isle, x.issued)

theorem Tile.writeReg_control (x : Tile) (op : WriteOp) : (x.writeReg op).control = x.control := by
  cases op with
  | mreg q v m =>
    show ((if q = 0 then x else _ : Tile)).control = x.control
    split <;> rfl
  | _ => rfl

section
variable (s : State) (t : Nat) (p : PendWrite)

theorem State.performWrite_rs (r : BitVec 5) :
    ((s.performWrite t p).tile t).rs r = p.op.onScalar r ((s.tile t).rs r) := by
  rcases s.performWrite_tile t p with ⟨hsame, hs, -⟩ | hwrite
  · rw [hsame]
    unfold WriteOp.onScalar
    split
    · exact absurd ‹p.op = _› (hs _ _)
    · rfl
  · rw [hwrite, Tile.writeReg_rs]

theorem State.performWrite_rv (r : BitVec 5) :
    ((s.performWrite t p).tile t).rv r = p.op.onVector r ((s.tile t).rv r) := by
  rcases s.performWrite_tile t p with ⟨hsame, -, hv⟩ | hwrite
  · rw [hsame]
    unfold WriteOp.onVector
    split
    · exact absurd ‹p.op = _› (hv _ _ _)
    · rfl
  · rw [hwrite, Tile.writeReg_rv]

theorem State.performWrite_control : ((s.performWrite t p).tile t).control = (s.tile t).control := by
  rcases s.performWrite_tile t p with ⟨hsame, -, -⟩ | hwrite
  · rw [hsame]
  · rw [hwrite, Tile.writeReg_control]

end

/-! ## All of them -/

/-- What each write makes of a part of the tile, the writes make of it together. -/
theorem performWrites_foldl {α : Type} (g : Tile → α) (f : WriteOp → α → α) (t : Nat)
    (h : ∀ s p, g ((State.performWrite s t p).tile t) = f p.op (g (s.tile t))) (l : List PendWrite) (s : State) :
    g ((l.foldl (fun s p => s.performWrite t p) s).tile t) = l.foldl (fun a p => f p.op a) (g (s.tile t)) := by
  induction l generalizing s with
  | nil => rfl
  | cons p l ih => rw [List.foldl_cons, List.foldl_cons, ih, h]

/-- Only the writes to a place matter to what is held there. -/
theorem foldl_writesTo {α : Type} (f : WriteOp → α → α) (k : Nat × Nat)
    (hf : ∀ op a, op.place ≠ some k → f op a = a) (l : List PendWrite) (a : α) :
    l.foldl (fun a p => f p.op a) a = (writesTo k l).foldl (fun a p => f p.op a) a := by
  rw [writesTo, List.foldl_filter]
  congr 1
  funext a p
  by_cases hp : p.op.place = some k
  · rw [if_pos (beq_iff_eq.2 hp)]
  · rw [if_neg (mt beq_iff_eq.1 hp), hf _ _ hp]

theorem WriteOp.place_scalar (op : WriteOp) (r : BitVec 5) : op.place = some (0, r.toNat) ↔ ∃ v, op = .sreg r v := by
  cases op <;> simp [WriteOp.place, BitVec.toNat_inj]

theorem WriteOp.place_vector (op : WriteOp) (r : BitVec 5) :
    op.place = some (2, r.toNat) ↔ ∃ v m, op = .vreg r v m := by
  cases op <;> simp [WriteOp.place, BitVec.toNat_inj]

theorem WriteOp.onScalar_other {op : WriteOp} {r : BitVec 5} (h : op.place ≠ some (0, r.toNat)) (old : Word) :
    op.onScalar r old = old := by
  rw [Ne, WriteOp.place_scalar] at h
  unfold WriteOp.onScalar
  split
  · exact if_neg fun hq => h ⟨_, by rw [← hq]⟩
  · rfl

theorem WriteOp.onVector_other {op : WriteOp} {r : BitVec 5} (h : op.place ≠ some (2, r.toNat)) (old : Vec) :
    op.onVector r old = old := by
  rw [Ne, WriteOp.place_vector] at h
  unfold WriteOp.onVector
  split
  · exact if_neg fun hq => h ⟨_, _, by rw [← hq]⟩
  · rfl

/-- The writes of a tile that fall due at the end of a cycle. -/
def Tile.dueAt (x : Tile) (c : Nat) : List PendWrite := x.pend.filter fun p => p.due == c

theorem Tile.mem_dueAt {x : Tile} {c : Nat} {p : PendWrite} : p ∈ x.dueAt c ↔ p ∈ x.pend ∧ p.due = c := by
  simp [Tile.dueAt]

/-- Of these, the write to a place that takes effect. -/
def Tile.keptAt (x : Tile) (c : Nat) (k : Nat × Nat) : List PendWrite := writesTo k (keepWrites (sortWrites (x.dueAt c)))

theorem Tile.keptAt_of_wins {x : Tile} {c : Nat} {k : Nat × Nat} {p : PendWrite} (hp : p ∈ x.pend ∧ p.due = c)
    (hk : p.op.place = some k) (hwins : ∀ q, (q ∈ x.pend ∧ q.due = c) → q.op.place = some k →
      q = p ∨ q.slot.number < p.slot.number ∨ (q.slot = p.slot ∧ q.rank < p.rank)) : x.keptAt c k = [p] := by
  refine writesTo_keepWrites_of_wins (Tile.mem_dueAt.2 hp) hk fun q hq hqk => ?_
  refine (hwins q (Tile.mem_dueAt.1 hq) hqk).imp id fun h => (q.before_iff p).2 ?_
  exact h.imp id fun ⟨hslot, hrank⟩ => ⟨congrArg Slot.number hslot, hrank⟩

theorem Tile.keptAt_of_none {x : Tile} {c : Nat} {k : Nat × Nat}
    (h : ∀ p, (p ∈ x.pend ∧ p.due = c) → p.op.place ≠ some k) : x.keptAt c k = [] :=
  writesTo_keepWrites_of_none fun p hp => h p (Tile.mem_dueAt.1 hp)

section
variable (s : State) (t c : Nat)

theorem State.performWrites_rs (r : BitVec 5) : ((s.performWrites t c).tile t).rs r =
    ((s.tile t).keptAt c (0, r.toNat)).foldl (fun a p => p.op.onScalar r a)
      ((s.tile t).rs r) := by
  unfold State.performWrites
  rw [performWrites_foldl (Tile.rs · r) (WriteOp.onScalar r) t (fun s p => s.performWrite_rs t p r),
    foldl_writesTo _ (0, r.toNat) fun op a h => WriteOp.onScalar_other h a, State.modTile_tile_same]
  rfl

theorem State.performWrites_rv (r : BitVec 5) : ((s.performWrites t c).tile t).rv r =
    ((s.tile t).keptAt c (2, r.toNat)).foldl (fun a p => p.op.onVector r a)
      ((s.tile t).rv r) := by
  unfold State.performWrites
  rw [performWrites_foldl (Tile.rv · r) (WriteOp.onVector r) t (fun s p => s.performWrite_rv t p r),
    foldl_writesTo _ (2, r.toNat) fun op a h => WriteOp.onVector_other h a, State.modTile_tile_same]
  rfl

/-- The writes leave their list, and their flags are gathered. -/
theorem State.performWrites_control : ((s.performWrites t c).tile t).control =
    ((s.tile t).pend.filter (fun p => p.due != c),
      (((s.tile t).dueAt c).map PendWrite.flags).foldl (· ||| ·) (s.tile t).flags, (s.tile t).isle,
      (s.tile t).issued) := by
  unfold State.performWrites
  rw [performWrites_foldl Tile.control (fun _ a => a) t (fun s p => s.performWrite_control t p),
    State.modTile_tile_same, List.foldl_map]
  generalize keepWrites (sortWrites ((s.tile t).pend.filter fun p => p.due == c)) = l
  induction l with
  | nil => rfl
  | cons p l ih => exact ih

end

/-! ## The step to the next cycle -/

theorem Tile.advance_leaves (x : Tile) : x.advance.regs = x.regs ∧ x.advance.control = x.control := by
  unfold Tile.advance
  split_ifs
  · exact ⟨rfl, rfl⟩
  · split <;> exact ⟨rfl, rfl⟩

theorem Tile.nextCycle_leaves (x : Tile) : x.nextCycle.regs = x.regs ∧
    x.nextCycle.control = (x.pend, x.flags, x.isle.tick, false) := by
  obtain ⟨hregs, hcontrol⟩ := x.advance_leaves
  simp only [Tile.control, Prod.mk.injEq] at hcontrol
  obtain ⟨hpend, hflags, hisle, -⟩ := hcontrol
  refine ⟨hregs, ?_⟩
  rw [← hpend, ← hflags, ← hisle]
  rfl

theorem Tile.reads_of_regs {x y : Tile} (h : y.regs = x.regs) : y.rs = x.rs ∧ y.rv = x.rv := by
  simp only [Tile.regs, Prod.mk.injEq] at h
  obtain ⟨hs, -, hv, -⟩ := h
  exact ⟨funext fun r => by rw [Tile.rs, hs]; rfl, funext fun r => by rw [Tile.rv, hv]; rfl⟩

theorem Island.tick_spec (i : Island) :
    (i.stopAt ≠ some i.count → i.tick.count = i.count + 1 ∧ i.tick.stopped = i.stopped) ∧
    (i.stopAt = some i.count → i.tick.count = i.count ∧ i.tick.stopped = true) := by
  unfold Island.tick
  refine ⟨fun h => ?_, fun h => ?_⟩
  · have hstop : (i.stopAt == some i.count) = false := beq_eq_false_iff_ne.2 h
    simp [hstop]
  · simp [h]

/-- A tile with no matrix instruction, stream or entry in progress. -/
structure Tile.Settled (x : Tile) : Prop where
  mx : x.mx = []
  streams : x.streams = []
  hinge : x.hinge = []

/-- On such a tile the end of a cycle comes to its writes and the step. -/
theorem State.endCycle_of_settled {s : State} {t : Nat} (hd : s.dg.debugMode = false) (h : (s.tile t).Settled) :
    ∃ s1 : State, s1.tile t = s.tile t ∧
      s.endCycle t = (s1.performWrites t (s.tile t).isle.count).modTile t Tile.nextCycle := by
  obtain ⟨hmx, hstreams, hhinge⟩ := h
  have hcapture : (s.tile t).capture = s.tile t := by
    generalize s.tile t = x at hmx hstreams
    obtain ⟨⟩ := x
    subst hmx hstreams
    rfl
  have hrelease : ((s.modTile t Tile.capture).hingeRelease t).tile t = s.tile t := by
    have htile : (s.modTile t Tile.capture).tile t = s.tile t := (s.modTile_tile_same _ _).trans hcapture
    have hdue : (s.tile t).dueNext = [] := by rw [Tile.dueNext, hhinge]; rfl
    rw [State.hingeRelease_eq, State.modTile_tile_same, htile, hdue, List.foldl_nil, htile]
    generalize s.tile t = x at hhinge
    obtain ⟨⟩ := x
    subst hhinge
    simp [Tile.handOver]
  refine ⟨((s.modTile t Tile.capture).hingeRelease t).modTile t postRows, ?_, ?_⟩
  · rw [State.modTile_tile_same, hrelease, postRows, hmx]
    rfl
  · unfold State.endCycle
    rw [s.report_of_not_debug _ _ hd]

/-! ## The settlement -/

/-- What the end of a cycle makes of a tile with nothing in progress. -/
theorem State.endCycle_spec {s : State} {t : Nat} (hd : s.dg.debugMode = false) (h : (s.tile t).Settled) :
    let x := s.tile t
    let y := (s.endCycle t).tile t
    (∀ r, y.rs r = (x.keptAt x.isle.count (0, r.toNat)).foldl (fun a p => p.op.onScalar r a) (x.rs r)) ∧
    (∀ r, y.rv r = (x.keptAt x.isle.count (2, r.toNat)).foldl (fun a p => p.op.onVector r a) (x.rv r)) ∧
    y.control = (x.pend.filter (fun p => p.due != x.isle.count),
      ((x.dueAt x.isle.count).map PendWrite.flags).foldl (· ||| ·) x.flags, x.isle.tick, false) := by
  intro x y
  obtain ⟨s1, htile, hend⟩ := State.endCycle_of_settled hd h
  have hy : y = ((s1.performWrites t x.isle.count).tile t).nextCycle := by
    show (s.endCycle t).tile t = _
    rw [hend, State.modTile_tile_same]
  obtain ⟨hregs, hstep⟩ := ((s1.performWrites t x.isle.count).tile t).nextCycle_leaves
  obtain ⟨hs, hv⟩ := Tile.reads_of_regs hregs
  have hcontrol := s1.performWrites_control t x.isle.count
  simp only [Tile.control, Prod.mk.injEq] at hcontrol
  obtain ⟨hpend, hflags, hisle, -⟩ := hcontrol
  rw [hy]
  refine ⟨fun r => ?_, fun r => ?_, ?_⟩
  · rw [hs, State.performWrites_rs, htile]
  · rw [hv, State.performWrites_rv, htile]
  · rw [hstep, hpend, hflags, hisle, htile]

/-- Settles O19: of the writes to a register the last in ascending priority is kept, and a write that wins is that one. -/
theorem writeArbitration : Obligations.WriteArbitration := by
  unfold Obligations.WriteArbitration
  intro s t x c isDue wins
  refine ⟨fun hr hclock hd hmx hstreams hhinge => ?_, fun hr hf hclock => ?_, fun h => ?_⟩
  case refine_2 =>
    show execResultWriteback t s = _
    unfold execResultWriteback
    simp only [hf, hclock, hr, Bool.or_self, Bool.false_eq_true, if_false]
  case refine_3 =>
    have hstands : (s.fenced t.toNat || (s.tileIsle t.toNat).stopped) = true := Bool.or_eq_true_iff.2 h
    show execResultWriteback t s = _
    unfold execResultWriteback
    simp only [hstands, if_true]
  case refine_1 =>
    obtain ⟨hscalar, hvector, hcontrol⟩ := State.endCycle_spec hd ⟨hmx, hstreams, hhinge⟩
    change ∀ r, _ = (x.keptAt c (0, r.toNat)).foldl _ (x.rs r) at hscalar
    change ∀ r, _ = (x.keptAt c (2, r.toNat)).foldl _ (x.rv r) at hvector
    simp only [Tile.control, Prod.mk.injEq] at hcontrol
    obtain ⟨hpend, hflags, hisle, hissued⟩ := hcontrol
    have hstopped : x.isle.stopped = false := by
      simp only [State.tileRuns, Bool.and_eq_true, Bool.not_eq_true'] at hr
      exact hr.1.1.2
    obtain ⟨hgoes, hstops⟩ := x.isle.tick_spec
    refine ⟨_, (exec_resultWriteback_of_runs hr).trans (by rw [hclock, if_neg Bool.false_ne_true]),
      fun p r v hp hop => ?_, fun p r v m hp hop => ?_, fun r hnone => ?_, fun r hnone => ?_, hflags, hpend, hissued,
      fun h => ?_, fun h => ?_⟩
    · obtain ⟨hdue, -, hmost⟩ := hp
      have hkept : x.keptAt c (0, r.toNat) = [p] := by
        refine Tile.keptAt_of_wins hdue ((p.op.place_scalar r).2 ⟨v, hop⟩) fun q hq hqk => hmost q hq ?_
        obtain ⟨v', hv'⟩ := (q.op.place_scalar r).1 hqk
        simp [hv']
      rw [hscalar, hkept]
      simp [hop, WriteOp.onScalar]
    · obtain ⟨hdue, -, hmost⟩ := hp
      have hkept : x.keptAt c (2, r.toNat) = [p] := by
        refine Tile.keptAt_of_wins hdue ((p.op.place_vector r).2 ⟨v, m, hop⟩) fun q hq hqk => hmost q hq ?_
        obtain ⟨v', m', hv'⟩ := (q.op.place_vector r).1 hqk
        simp [hv']
      rw [hvector, hkept]
      simp [hop, WriteOp.onVector]
    · have hkept : x.keptAt c (0, r.toNat) = [] := Tile.keptAt_of_none fun p hp hpk => by
        obtain ⟨v, hv⟩ := (p.op.place_scalar r).1 hpk
        exact hnone p v hp hv
      rw [hscalar, hkept]
      rfl
    · have hkept : x.keptAt c (2, r.toNat) = [] := Tile.keptAt_of_none fun p hp hpk => by
        obtain ⟨v, m, hv⟩ := (p.op.place_vector r).1 hpk
        exact hnone p v m hp hv
      rw [hvector, hkept]
      rfl
    · rw [hisle]
      exact ⟨(hgoes h).1, (hgoes h).2.trans hstopped⟩
    · rw [hisle]
      exact hstops h

end Sys2Proof.Machine
end

section
/-! PROOFS. Issue of a matrix instruction (R122, R126, R128). -/

namespace Sys2Proof.Machine

/-! ## The state as a slot meets it, and what follows its issue -/

theorem State.countsOnly_report (s : State) (t : Nat) (l : List Hazard) : s.CountsOnly (s.report t l) := by
  unfold State.report
  split
  · exact .of_tiles rfl rfl
  · exact s.countsOnly_hazard _ _ _ _ _

/-- Reports and counts only, and the tile still in its cycle: as `State.Meets`, with the engines' progress kept too. -/
structure State.CountsOnlyInCycle (t : Nat) (s s' : State) : Prop where
  counts : s.CountsOnly s'
  cycle : (s'.tile t).isle.count = (s.tile t).isle.count

theorem State.CountsOnlyInCycle.countTile {s s' : State} {t : Nat} (h : State.CountsOnlyInCycle t s s') (ev n : Nat) :
    State.CountsOnlyInCycle t s (s'.countTile t ev n) :=
  ⟨h.counts.trans (s'.countsOnly_countTile t ev n), (s'.meets_countTile t t ev n).cycle.trans h.cycle⟩

/-- An instruction of a running tile runs between reports, which change counts only and stay in its cycle. -/
theorem State.issueOne_countsOnly {s : State} {t : Nat} (h : s.tileRuns t = true) (w : SlotWork) :
    ∃ s1, State.CountsOnlyInCycle t s s1 ∧ (w.run s1).CountsOnly (s.issueOne t w) := by
  rw [s.issueOne_eq t w h]
  exact ⟨_, ⟨s.countsOnly_report t _, (State.meets_report (State.inLesson_of_tileRuns h) _).cycle⟩,
    State.countsOnly_report _ _ _⟩

/-! ## Spacing (R128) -/

/-- 64 or more cycles have passed since the last matrix instruction that executed. -/
def Tile.MxSpaced (x : Tile) : Prop := ∀ l, x.lastMx = some l → l.cycle + 64 ≤ x.isle.count

theorem mxTooSoon_eq_false_iff (x : Tile) : mxTooSoon x = false ↔ x.MxSpaced := by
  unfold mxTooSoon Tile.MxSpaced
  cases x.lastMx with
  | none => simp
  | some l => simp

theorem State.CountsOnlyInCycle.mxSpaced {s s' : State} {t : Nat} (h : State.CountsOnlyInCycle t s s') :
    (s'.tile t).MxSpaced ↔ (s.tile t).MxSpaced := by
  obtain ⟨i, c, htile⟩ := h.counts.2 t
  unfold Tile.MxSpaced
  rw [h.cycle, htile]
  rfl

/-! ## The start (R126, Table 5-3) -/

/-- The matrix instruction that a tile starts in its cycle: mask and scales are read, the operands are not. -/
def Tile.newMxRun (x : Tile) (f : MxFields) : MxRun :=
  { issue := x.isle.count, f := f, mask := x.rm f.mask
    scaleA0 := x.rv f.scaleA, scaleA1 := x.rv (f.scaleA + 1)
    scaleB0 := x.rv f.scaleB, scaleB1 := x.rv (f.scaleB + 1)
    held := [], heldLo := [], str := [], strLo := [], snaps := [] }

theorem mxStart_spec (conv : Bool) (f : MxFields) (x : Tile) :
    (mxStart conv f x).mx = x.mx ++ [x.newMxRun f] ∧
      (mxStart conv f x).lastMx = some ⟨x.isle.count, conv, f.held, f.shift⟩ ∧
      (mxStart conv f x).regs = x.regs ∧ (mxStart conv f x).pend = x.pend := ⟨rfl, rfl, rfl, rfl⟩

/-- What would start stays with the registers and the cycle. -/
theorem State.CountsOnlyInCycle.newMxRun {s s' : State} {t : Nat} (h : State.CountsOnlyInCycle t s s') (f : MxFields) :
    (s'.tile t).newMxRun f = (s.tile t).newMxRun f := by
  obtain ⟨i, c, htile⟩ := h.counts.2 t
  unfold Tile.newMxRun
  rw [h.cycle, htile]
  rfl

/-- What of the matrix engine no report and no count changes. -/
theorem State.CountsOnly.mx {s s' : State} (h : s.CountsOnly s') (u : Nat) :
    (s'.tile u).mx = (s.tile u).mx ∧ (s'.tile u).lastMx = (s.tile u).lastMx := by
  obtain ⟨i, c, htile⟩ := h.2 u
  rw [htile]
  exact ⟨rfl, rfl⟩

section
variable {conv : Bool} {f : MxFields}

/-- A legal matrix instruction that comes late enough is counted and starts. -/
theorem mxIssue_of_spaced (hl : mxLegal conv f = true) (t : Nat) {s : State} (h : (s.tile t).MxSpaced) :
    mxIssue conv f t s = ((s.countTile t 0x0002 1).countTile t 0x0003
      (popcount ((s.tile t).rm f.mask) 64)).modTile t (mxStart conv f) := by
  unfold mxIssue
  dsimp only
  rw [hl, (mxTooSoon_eq_false_iff _).2 h]
  rfl

/-- Any other is the MX NOP. -/
theorem mxIssue_of_nop (t : Nat) {s : State} (h : ¬(mxLegal conv f = true ∧ (s.tile t).MxSpaced)) :
    mxIssue conv f t s = s := by
  unfold mxIssue
  dsimp only
  refine if_neg fun hstarts => h ?_
  rwa [Bool.and_eq_true, Bool.not_eq_true', mxTooSoon_eq_false_iff] at hstarts

variable {s : State} {t : Nat} {c : Instr} (hr : s.tileRuns t = true)
  (hexec : exec c s = .next (s.issueOne t (mxWork conv f t)))
include hr hexec

theorem State.mx_starts (hl : mxLegal conv f = true) (hspaced : (s.tile t).MxSpaced) :
    s.starts c t Tile.mx ((s.tile t).newMxRun f)
      (fun y => y.lastMx = some ⟨(s.tile t).isle.count, conv, f.held, f.shift⟩) := by
  obtain ⟨s1, hmeets, hafter⟩ := State.issueOne_countsOnly hr (mxWork conv f t)
  change (mxIssue conv f t s1).CountsOnly _ at hafter
  rw [mxIssue_of_spaced hl t (hmeets.mxSpaced.2 hspaced)] at hafter
  have hcounted := (hmeets.countTile 0x0002 1).countTile 0x0003 (popcount ((s1.tile t).rm f.mask) 64)
  generalize (s1.countTile t 0x0002 1).countTile t 0x0003 (popcount ((s1.tile t).rm f.mask) 64) = s2 at hafter hcounted
  obtain ⟨hmx, hlast, hregs, hpend⟩ := mxStart_spec conv f (s2.tile t)
  obtain ⟨hmx', hlast'⟩ := hafter.mx t
  rw [State.modTile_tile_same] at hmx' hlast'
  refine ⟨_, hexec, (hcounted.counts.keeps.trans (s2.keeps_modTile t hregs)).trans hafter.keeps, ?_, ?_, fun u => ?_⟩
  · rw [hmx', hmx, (hcounted.counts.mx t).1, hcounted.newMxRun]
  · exact hlast'.trans (hlast.trans (by rw [hcounted.cycle]))
  · obtain ⟨-, hpend1, -⟩ := hcounted.counts.hinge u
    obtain ⟨-, hpend2, -⟩ := hafter.hinge u
    rw [hpend2, ← hpend1]
    by_cases hu : u = t
    · rw [hu, State.modTile_tile_same, hpend]
    · rw [State.modTile_tile_other _ _ hu]

theorem State.mx_idles (h : ¬(mxLegal conv f = true ∧ (s.tile t).MxSpaced)) : s.idles c t := by
  obtain ⟨s1, hmeets, hafter⟩ := State.issueOne_countsOnly hr (mxWork conv f t)
  change (mxIssue conv f t s1).CountsOnly _ at hafter
  rw [mxIssue_of_nop t (by rwa [hmeets.mxSpaced])] at hafter
  have hall := hmeets.counts.trans hafter
  refine ⟨_, hexec, hall.keeps, ?_, fun u _ => (hall.hinge u).2.1⟩
  rw [(hall.hinge t).2.1, List.append_nil]

end

/-- Settles O7: MXB and MXC issue alike, by whether the slot is legal and late enough. -/
theorem matrixIssue : Obligations.MatrixIssue := by
  unfold Obligations.MatrixIssue
  intro s t f hr x c spaced starts
  have issue {conv : Bool} {i : Instr} (hexec : exec i s = .next (s.issueOne t.toNat (mxWork conv f t.toNat))) :
      starts i conv := by
    by_cases h : mxLegal conv f = true ∧ spaced
    · refine (if_pos h).mpr ⟨x.newMxRun f, State.mx_starts hr hexec h.1 h.2, ?_⟩
      exact ⟨rfl, rfl, rfl, rfl, rfl, rfl, rfl, rfl, rfl, rfl⟩
    · exact (if_neg h).mpr (State.mx_idles hr hexec h)
  exact ⟨issue rfl, issue rfl⟩

end Sys2Proof.Machine
end

section
/-! PROOFS. The row write of a matrix instruction (R123 to R125, R127, R141 to R147, Table 6-5). -/

namespace Sys2Proof.Machine

/-! ## Sums and flags (R123, R124, R184) -/

/-- One product taken into the sum of its column. -/
def mxAccumulate (q : MxRun) (p m n : Nat) (z : Word × Flags) (k : Nat) : Word × Flags :=
  ((mxAdd q.f z.1 (mxTerm q p m n k).1).1, z.2 ||| (mxTerm q p m n k).2 ||| (mxAdd q.f z.1 (mxTerm q p m n k).1).2)

/-- A column takes its products in ascending k. -/
theorem mxColumn_eq_foldl (q : MxRun) (p m n j k : Nat) (z : Word × Flags) :
    mxColumn q p m n j k z = (List.range' k j).foldl (mxAccumulate q p m n) z := by
  induction j generalizing k z with
  | zero => rfl
  | succ j ih => rw [mxColumn, ih, List.range'_succ, List.foldl_cons]; rfl

theorem mxElement_eq (q : MxRun) (m n : Nat) :
    let p := mxPacking q.f
    let sum := (List.range (64 * p)).foldl (mxAccumulate q p m n) (0, 0)
    let total := mxAdd q.f (lane (tabGet 0 q.snaps m) n) sum.1
    mxElement q m n = if q.f.accumulate then (total.1, sum.2 ||| total.2) else sum := by
  intro p sum total
  unfold mxElement
  dsimp only
  rw [mxColumn_eq_foldl, ← List.range_eq_range']

/-- A gathered flag is one that some live lane sets. -/
theorem bit_gatherFlags (live : Nat → Bool) (g : Nat → Flags) (k b : Nat) :
    bit (gatherFlags live g k) b = (List.range k).any fun n => live n && bit (g n) b := by
  induction k with
  | zero => simp [gatherFlags, bit]
  | succ k ih =>
    rw [List.range_succ, List.any_append, ← ih, gatherFlags, bit, BitVec.getLsbD_or]
    cases hk : live k <;> simp [bit, hk]

/-! ## The row that is due (R125, R127) -/

theorem writeRow_of_due {issue c m : Nat} (hm : m < 64) (h : c = issue + m + (if m < 32 then 71 else 72)) :
    writeRow issue c = some m := by
  unfold writeRow
  by_cases hlow : m < 32
  · rw [if_pos hlow] at h
    rw [if_pos (by simp; omega)]
    congr 1
    omega
  · rw [if_neg hlow] at h
    rw [if_neg (by simp; omega), if_pos (by simp; omega)]
    congr 1
    omega

theorem rowPosted_of_none {x : Tile} (h : ∀ p ∈ x.pend, p.slot ≠ .mx) (q : MxRun) (m : Nat) :
    rowPosted x q m = false := by
  unfold rowPosted
  refine List.any_eq_false.2 fun p hp => ?_
  simp [h p hp]

/-- The write of row m of a matrix instruction at the end of a cycle. -/
def MxRun.rowWrite (q : MxRun) (m c : Nat) : PendWrite :=
  { due := c, slot := .mx, issue := q.issue, rank := q.issue
    op := .acc q.f.acc (BitVec.ofNat 6 m) (ofLanes fun n => (mxElement q m n).1) allBits
    flags := gatherFlags (fun _ => true) (fun n => (mxElement q m n).2) 64 }

/-- A live row that is due and not yet posted is posted. -/
theorem postRow_of_live {x : Tile} {q : MxRun} {m : Nat} (hdue : writeRow q.issue x.isle.count = some m)
    (hlive : bit q.mask m = true) (hnew : rowPosted x q m = false) :
    postRow x q = { x with pend := x.pend ++ [q.rowWrite m x.isle.count] } := by
  unfold postRow
  rw [hdue]
  dsimp only
  rw [hlive, hnew]
  rfl

theorem exec_mxRowWrite_of_runs {s : State} {t : BitVec 10} (hr : s.tileRuns t.toNat = true) :
    exec (.mxRowWrite t) s = .next (s.modTile t.toNat postRows) :=
  congrArg Host.Outcome.next (if_pos hr)

/-- MX_ROW_WRITE hands the live row of the only instruction in progress to the writes of the cycle. -/
theorem State.mxRowWrite_posts {s : State} {t : BitVec 10} (hr : s.tileRuns t.toNat = true) {q : MxRun} {m : Nat}
    (hmx : (s.tile t.toNat).mx = [q]) (hdue : writeRow q.issue (s.tile t.toNat).isle.count = some m)
    (hlive : bit q.mask m = true) (hnew : rowPosted (s.tile t.toNat) q m = false) :
    s.posts (.mxRowWrite t) t.toNat [q.rowWrite m (s.tile t.toNat).isle.count] := by
  have hrows : postRows (s.tile t.toNat) = { s.tile t.toNat with
      pend := (s.tile t.toNat).pend ++ [q.rowWrite m (s.tile t.toNat).isle.count] } := by
    unfold postRows
    rw [hmx, List.foldl_cons, List.foldl_nil, postRow_of_live hdue hlive hnew]
  refine ⟨_, exec_mxRowWrite_of_runs hr, s.keeps_modTile _ (by rw [hrows]; rfl), ?_, fun u hu => ?_⟩
  · rw [State.modTile_tile_same, hrows]
  · rw [State.modTile_tile_other _ _ hu]

/-! ## Products with a zero (R145, Table 6-5) -/

theorem enc32_zero (neg : Bool) : enc32 neg 0 0 = if neg then 0x80000000 else 0 := by
  cases neg <;> decide

theorem flushEnter_zero (sat neg : Bool) (e : Int) : flushEnter sat neg 0 e = (enc32 neg 0 0, 0) := if_pos rfl

/-- Settles O8: the row due is the instruction's own, element by element; the products by Table 6-5. -/
theorem matrixRowWrite : Obligations.MatrixRowWrite := by
  unfold Obligations.MatrixRowWrite
  refine ⟨fun s t q m hr => ?row, fun sat s t x y e f => ?products⟩
  case row =>
    intro x hmx hpend hm hlive hdue p sum old elem
    have helem (n : Nat) : mxElement q m n = elem n := mxElement_eq q m n
    refine ⟨q.rowWrite m x.isle.count, _, State.mxRowWrite_posts hr hmx (writeRow_of_due hm hdue) hlive
      (rowPosted_of_none hpend q m), rfl, rfl, rfl, fun n hn => ?_, fun b => ?_⟩
    · rw [lane_ofLanes _ hn, helem]
    · rw [MxRun.rowWrite, bit_gatherFlags, funext helem]
  case products =>
    have hzero : mxProduct sat (.fin s 0 e) (.fin t y f) = (enc32 (s != t) 0 0, 0) := by
      rw [mxProduct, Nat.zero_mul, flushEnter_zero]
    refine ⟨rfl, rfl, rfl, rfl, rfl, ?_, ?_⟩
    · rw [mxProduct, enc32_zero]
    · rw [hzero, enc32_zero]

end Sys2Proof.Machine
end

section
/-! PROOFS. Issue of a vector instruction: what it meets and what it posts (R90, R100, R157, R160). -/

namespace Sys2Proof.Machine

/-! ## What a vector instruction meets -/

/-- A legal vector instruction of a running tile, other than VGATH and VSCAT, acts on its tile with other counts only,
in the same cycle. -/
theorem State.vx_meets {s : State} {t : Nat} {op : VxOp} {f : VxFields} (hr : s.tileRuns t = true)
    (hl : vxLegal op f = true) (hop : op ≠ .vgath ∧ op ≠ .vscat) :
    ∃ s1, State.CountsOnlyInCycle t s s1 ∧
      (s1.modTile t (vxTile s.ts.profileB1 op f)).CountsOnly (s.issueOne t (vxWork op f t)) := by
  rw [s.issueOne_eq t _ hr]
  have hmeets : State.CountsOnlyInCycle t s (s.report t (((vxWork op f t).hazards s).filter fun h => h.code < 5)) :=
    ⟨s.countsOnly_report t _, (State.meets_report (State.inLesson_of_tileRuns hr) _).cycle⟩
  refine ⟨_, hmeets.countTile 0x0004 1, ?_⟩
  have hrun := vxIssue_eq op f t (s.report t (((vxWork op f t).hazards s).filter fun h => h.code < 5)) hl hop.1 hop.2
  rw [State.report_profileB1] at hrun
  rw [← hrun]
  exact State.countsOnly_report _ _ _

theorem State.CountsOnly.pend {s s' : State} (h : s.CountsOnly s') (u : Nat) : (s'.tile u).pend = (s.tile u).pend := by
  obtain ⟨-, hpend, -⟩ := h.hinge u
  exact hpend

/-- What is posted on a tile with other counts is posted. -/
theorem State.posts_of_countsOnly {s s1 s' : State} {t : Nat} {c : Instr} (hexec : exec c s = .next s')
    (h : State.CountsOnlyInCycle t s s1) {l : Nat} {slot : Slot} {op : WriteOp} {fl : Flags}
    (h' : (s1.modTile t (·.postNow l slot op fl)).CountsOnly s') :
    s.posts c t [(s.tile t).newWrite l slot op fl] := by
  refine ⟨s', hexec, (h.counts.keeps.trans (s1.keeps_modTile t rfl)).trans h'.keeps, ?_, fun u hu => ?_⟩
  · rw [h'.pend, State.modTile_tile_same, ← h.counts.pend, Tile.newWrite, ← h.cycle]
    rfl
  · rw [h'.pend, State.modTile_tile_other _ _ hu, h.counts.pend]

/-- An illegal vector instruction is the NOP (R90, R160). -/
theorem State.vx_illegal {s : State} {t : Nat} {c : Instr} {op : VxOp} {f : VxFields}
    (hexec : exec c s = .next (s.issueOne t (vxWork op f t))) (hl : vxLegal op f = false) : exec c s = .next s := by
  rw [hexec, vxWork_illegal op f t s hl]

/-! ## What it posts -/

section
variable {s : State} {t : Nat} {c : Instr} {op : VxOp} {f : VxFields} (hr : s.tileRuns t = true)
  (hexec : exec c s = .next (s.issueOne t (vxWork op f t)))
include hr hexec

/-- A legal vector instruction that posts a write on its tile, whatever the tile's counts, posts it. -/
theorem State.vx_posts (hl : vxLegal op f = true) (hop : op ≠ .vgath ∧ op ≠ .vscat) {l : Nat} {w : WriteOp} {fl : Flags}
    (hpost : ∀ i k, vxTile s.ts.profileB1 op f (((s.tile t).onIsle i).counting k) =
      (((s.tile t).onIsle i).counting k).postNow l .vx w fl) :
    s.posts c t [(s.tile t).newWrite l .vx w fl] := by
  obtain ⟨s1, hmeets, hafter⟩ := State.vx_meets hr hl hop
  obtain ⟨i, k, htile⟩ := hmeets.counts.2 t
  have hsame : s1.modTile t (vxTile s.ts.profileB1 op f) = s1.modTile t (·.postNow l .vx w fl) := by
    unfold State.modTile
    rw [htile, hpost]
  rw [hsame] at hafter
  exact State.posts_of_countsOnly hexec hmeets hafter

end

/-! ## The aux byte (Table 7-3) -/

theorem auxBit_eq (f : VxFields) (k : Nat) : auxBit f (56 + k) = f.aux.getLsbD k := by
  unfold auxBit auxBits
  rw [Nat.add_sub_cancel_left, Nat.pow_one, BitVec.getLsbD, Nat.testBit_eq_decide_div_mod_eq]
  rfl

theorem auxBits_low (f : VxFields) (w : Nat) : auxBits f 56 w = f.aux.toNat % 2 ^ w := by
  unfold auxBits
  rw [Nat.sub_self, Nat.pow_zero, Nat.div_one]

/-! ## Writes of vector registers under a mask (R157) -/

theorem lane_vregMask {live : BitVec 64} (zeroing : Bool) {n : Nat} (hn : n < 64) :
    lane (if zeroing then allBits else laneMask live) n = if bit live n || zeroing then 0xFFFFFFFF else 0 := by
  cases zeroing with
  | true => simp [lane_allBits hn]
  | false => simp [lane_laneMask _ hn]

/-- A write under the mask and policy whose live lanes carry these words and whose flags are theirs. -/
theorem Tile.owesLanes_vregWrite (x : Tile) (f : VxFields) (l : Nat) {g : Nat → Word × Flags} {data : Nat → Word}
    {fl : Flags} (hdata : ∀ n, n < 64 → bit (x.rm f.mask) n = true → data n = (g n).1)
    (hfl : flagsOf (bit (x.rm f.mask)) (fun n => (g n).2) fl) :
    x.owesLanes f l g (x.newWrite l .vx (vregWrite f.vd (x.rm f.mask) f.zeroing data) fl) := by
  refine ⟨x.owes_newWrite l .vx _ fl, hfl, _, _, rfl, fun n hn => ?_⟩
  rw [lane_vregMask _ hn, lane_ofLanes _ hn]
  cases hlive : bit (x.rm f.mask) n with
  | true => exact ⟨rfl, hdata n hn hlive⟩
  | false => exact ⟨rfl, rfl⟩

section
variable {s : State} {t : Nat} {c : Instr} {op : VxOp} {f : VxFields} (hr : s.tileRuns t = true)
  (hexec : exec c s = .next (s.issueOne t (vxWork op f t)))
include hr hexec

/-- A legal instruction that posts a write under the mask and policy runs its lanes. -/
theorem State.vx_runsLanes (hl : vxLegal op f = true) (hop : op ≠ .vgath ∧ op ≠ .vscat) {l : Nat}
    {g : Nat → Word × Flags} (data : Nat → Word) (fl : Flags)
    (hpost : ∀ i k, vxTile s.ts.profileB1 op f (((s.tile t).onIsle i).counting k) =
      (((s.tile t).onIsle i).counting k).postNow l .vx (vregWrite f.vd ((s.tile t).rm f.mask) f.zeroing data) fl)
    (hdata : ∀ n, n < 64 → bit ((s.tile t).rm f.mask) n = true → data n = (g n).1)
    (hfl : flagsOf (bit ((s.tile t).rm f.mask)) (fun n => (g n).2) fl) : s.runsLanes c t f l g :=
  ⟨_, State.vx_posts hr hexec hl hop hpost, Tile.owesLanes_vregWrite _ _ _ hdata hfl⟩

/-- A legal instruction that posts a whole register writes all its lanes. -/
theorem State.vx_runsAll (hl : vxLegal op f = true) (hop : op ≠ .vgath ∧ op ≠ .vscat) {l : Nat} {g : Nat → Word}
    (data : Nat → Word) (fl : Flags)
    (hpost : ∀ i k, vxTile s.ts.profileB1 op f (((s.tile t).onIsle i).counting k) =
      (((s.tile t).onIsle i).counting k).postNow l .vx (.vreg f.vd (ofLanes data) allBits) fl)
    (hdata : ∀ n, n < 64 → data n = g n) : s.runsAll c t f l g fl :=
  ⟨_, _, State.vx_posts hr hexec hl hop hpost, Tile.owes_newWrite _ _ _ _ _, rfl, rfl, fun n hn => by
    rw [lane_ofLanes _ hn, hdata n hn]⟩

/-- A legal lane-by-lane instruction of a class runs its lanes; one that is not legal is the NOP. -/
theorem State.vx_lanes (cls : VxClass) (hop : op ≠ .vgath ∧ op ≠ .vscat) {g : Tile → Nat → Word × Flags}
    {g' : Nat → Word × Flags} (hpost : ∀ y, vxTile s.ts.profileB1 op f y = vxLanes cls s.ts.profileB1 y f (g y))
    (hg : ∀ i k n, g (((s.tile t).onIsle i).counting k) n = g' n) :
    if vxLegal op f = true then s.runsLanes c t f (cls.latency s.ts.profileB1) g' else exec c s = .next s := by
  split
  · next hl =>
    refine State.vx_runsLanes hr hexec hl hop (fun n => (g' n).1)
      (gatherFlags (bit ((s.tile t).rm f.mask)) (fun n => (g' n).2) 64) (fun i k => ?_) (fun _ _ _ => rfl)
      (bit_gatherFlags _ _ 64)
    rw [hpost, funext (hg i k)]
    rfl
  · next hl => exact State.vx_illegal hexec (Bool.eq_false_iff.2 hl)

end

end Sys2Proof.Machine
end

section
/-! PROOFS. Lane-by-lane instructions of the vector slot (R159, R161 to R165, R174 to R178, Tables 4-12, 7-1 and
7-2). -/

namespace Sys2Proof.Machine

/-! ## INT32 results, shifts and order (R164, R165) -/

theorem toInt32_eq_narrow32 (sat : Bool) (z : Int) : toInt32 sat z = narrow32 sat z := by
  unfold toInt32 narrow32
  by_cases hlow : z < -2147483648
  · have hneg : z < 0 := by omega
    rw [if_neg (by omega), if_pos hlow, if_pos hneg]
    cases sat <;> rfl
  · by_cases hhigh : 2147483647 < z
    · have hpos : ¬z < 0 := by omega
      rw [if_neg (by omega), if_neg hlow, if_pos hhigh, if_neg hpos]
      cases sat <;> rfl
    · rw [if_pos (by omega), if_neg hlow, if_neg hhigh]

theorem mul_eq_ofNat (a b : Word) : a * b = BitVec.ofNat 32 (a.toNat * b.toNat) :=
  BitVec.eq_of_toNat_eq (by rw [BitVec.toNat_mul, BitVec.toNat_ofNat])

theorem shiftLeft_eq_ofNat (a : Word) (k : Nat) : a <<< k = BitVec.ofNat 32 (a.toNat * 2 ^ k) :=
  BitVec.eq_of_toNat_eq (by rw [BitVec.toNat_shiftLeft, Nat.shiftLeft_eq, BitVec.toNat_ofNat])

theorem ushiftRight_eq_ofNat (a : Word) (k : Nat) : a >>> k = BitVec.ofNat 32 (a.toNat / 2 ^ k) := by
  refine BitVec.eq_of_toNat_eq ?_
  rw [BitVec.toNat_ushiftRight, Nat.shiftRight_eq_div_pow, BitVec.toNat_ofNat,
    Nat.mod_eq_of_lt (Nat.lt_of_le_of_lt (Nat.div_le_self _ _) a.isLt)]

theorem sshiftRight_eq_ofInt (a : Word) (k : Nat) : a.sshiftRight k = BitVec.ofInt 32 (a.toInt / 2 ^ k) := by
  rw [BitVec.sshiftRight, Int.shiftRight_eq_div_pow]
  rfl

/-- The lesser of two, the second only where it is less. -/
theorem ite_lt_eq_ite_le {α : Type} (x y : Int) (a b : α) : (if y < x then b else a) = if x ≤ y then a else b := by
  by_cases h : y < x
  · rw [if_pos h, if_neg (by omega)]
  · rw [if_neg h, if_pos (by omega)]

/-- Settles O1: each instruction runs its lanes with the latency of its class, and its lane is the table's. -/
theorem vxIntegerLanes : Obligations.VxIntegerLanes := by
  unfold Obligations.VxIntegerLanes
  intro s t f hr x a b runs
  have lanes {op : VxOp} {c : Instr} {g : Tile → Nat → Word × Flags} {g' : Nat → Word × Flags}
      (hexec : exec c s = .next (s.issueOne t.toNat (vxWork op f t.toNat))) (hop : op ≠ .vgath ∧ op ≠ .vscat)
      (hpost : ∀ y, vxTile s.ts.profileB1 op f y = vxLanes .simple s.ts.profileB1 y f (g y))
      (hg : ∀ i k n, g ((x.onIsle i).counting k) n = g' n) : runs op c g' :=
    State.vx_lanes hr hexec .simple hop hpost hg
  refine ⟨?vmov, ?iadd, ?isub, ?imul, ?imin, ?imax, ?band, ?bor, ?bxor, ?shl, ?shr, ?sar, ?key, ?vperm⟩
  case vmov => exact lanes rfl (by decide) (fun _ => rfl) fun _ _ n => rfl
  case iadd => exact lanes rfl (by decide) (fun _ => rfl) fun _ _ n => toInt32_eq_narrow32 _ _
  case isub => exact lanes rfl (by decide) (fun _ => rfl) fun _ _ n => toInt32_eq_narrow32 _ _
  case imul => exact lanes rfl (by decide) (fun _ => rfl) fun _ _ n => congrArg plain (mul_eq_ofNat _ _)
  case imin => exact lanes rfl (by decide) (fun _ => rfl) fun _ _ n => congrArg plain (ite_lt_eq_ite_le _ _ _ _)
  case imax => exact lanes rfl (by decide) (fun _ => rfl) fun _ _ n => congrArg plain (ite_lt_eq_ite_le _ _ _ _)
  case band => exact lanes rfl (by decide) (fun _ => rfl) fun _ _ n => rfl
  case bor => exact lanes rfl (by decide) (fun _ => rfl) fun _ _ n => rfl
  case bxor => exact lanes rfl (by decide) (fun _ => rfl) fun _ _ n => rfl
  case shl => exact lanes rfl (by decide) (fun _ => rfl) fun _ _ n => congrArg plain (shiftLeft_eq_ofNat _ _)
  case shr => exact lanes rfl (by decide) (fun _ => rfl) fun _ _ n => congrArg plain (ushiftRight_eq_ofNat _ _)
  case sar => exact lanes rfl (by decide) (fun _ => rfl) fun _ _ n => congrArg plain (sshiftRight_eq_ofInt _ _)
  case key => exact lanes rfl (by decide) (fun _ => rfl) fun _ _ n => rfl
  case vperm => exact lanes rfl (by decide) (fun _ => rfl) fun _ _ n => rfl

/-! ## Rounding (R163, Table 7-1) -/

/-- The mode that rnd names. -/
theorem vxRnd_eq (x : Tile) (f : VxFields) (n : Nat) :
    vxRnd x f n = if f.rnd = 0 then .rne else if f.rnd = 1 then .rtz else .sr (vxC x f n) := by
  have hmode (r : BitVec 2) (w : Word) : (match r.toNat with | 0 => Rnd.rne | 1 => Rnd.rtz | _ => Rnd.sr w) =
      if r = 0 then .rne else if r = 1 then .rtz else .sr w := by
    obtain rfl | rfl | rfl | rfl : r = 0 ∨ r = 1 ∨ r = 2 ∨ r = 3 := by
      revert r
      decide
    · rfl
    · rfl
    · rfl
    · rfl
  exact hmode f.rnd (vxC x f n)

/-- Settles O2: the float instructions run their lanes in the mode that rnd names, the special functions with the
latency of the profile. -/
theorem vxFloatLanes : Obligations.VxFloatLanes := by
  unfold Obligations.VxFloatLanes
  intro s t f hr x a b c r runs
  have hround (n : Nat) : vxRnd x f n = r n := vxRnd_eq x f n
  have lanes {op : VxOp} {i : Instr} {g : Tile → Nat → Word × Flags} {g' : Nat → Word × Flags}
      (hexec : exec i s = .next (s.issueOne t.toNat (vxWork op f t.toNat))) (hop : op ≠ .vgath ∧ op ≠ .vscat)
      (hpost : ∀ y, vxTile s.ts.profileB1 op f y = vxLanes .fma s.ts.profileB1 y f (g y))
      (hg : ∀ i k n, g ((x.onIsle i).counting k) n = g' n) : runs op i g' :=
    State.vx_lanes hr hexec .fma hop hpost hg
  refine ⟨?fadd, ?fsub, ?fmul, ?ffma, ?fmax, ?fmin, ?special⟩
  case fadd => exact lanes rfl (by decide) (fun _ => rfl) fun _ _ n => congrArg (fadd32 · _ _ _ _) (hround n)
  case fsub => exact lanes rfl (by decide) (fun _ => rfl) fun _ _ n => congrArg (fsub32 · _ _ _ _) (hround n)
  case fmul => exact lanes rfl (by decide) (fun _ => rfl) fun _ _ n => congrArg (fmul32 · _ _ _ _) (hround n)
  case ffma => exact lanes rfl (by decide) (fun _ => rfl) fun _ _ n => congrArg (ffma32 · _ _ _ _ _) (hround n)
  case fmax => exact lanes rfl (by decide) (fun _ => rfl) fun _ _ n => rfl
  case fmin => exact lanes rfl (by decide) (fun _ => rfl) fun _ _ n => rfl
  case special =>
    intro sfu
    have special {op : VxOp} {i : Instr} {k : Special}
        (hexec : exec i s = .next (s.issueOne t.toNat (vxWork op f t.toNat))) (hop : op ≠ .vgath ∧ op ≠ .vscat)
        (hpost : ∀ y, vxTile s.ts.profileB1 op f y = vxLanes .special s.ts.profileB1 y f fun n =>
          special k f.ftz f.sat (lane (y.rv f.va) n)) : sfu op i k :=
      State.vx_lanes hr hexec .special hop hpost fun _ _ _ => rfl
    exact ⟨special rfl (by decide) fun _ => rfl, special rfl (by decide) fun _ => rfl,
      special rfl (by decide) fun _ => rfl, special rfl (by decide) fun _ => rfl,
      special rfl (by decide) fun _ => rfl, special rfl (by decide) fun _ => rfl⟩

end Sys2Proof.Machine
end

section
/-! PROOFS. Scans, reductions, selection and histograms across lanes (R159, R166, R167, R182, R183, Table 7-2). -/

namespace Sys2Proof.Machine

/-! ## Scans (R166, R167) -/

section
variable (op : Nat) (ftz sat : Bool) (live seg : Nat → Bool) (a : Nat → Word)

/-- The update of a scan in lane n. -/
def scanStep (n : Nat) : Word × Flags := scanOp op ftz sat (scanBefore op ftz sat live seg a n) (a n)

/-- What a scan delivers in lane n. -/
def scanOut (excl : Bool) (n : Nat) : Word :=
  if live n then (if excl then scanBefore op ftz sat live seg a n else (scanStep op ftz sat live seg a n).1) else 0

/-- The running value that lane n leaves, before a segment start above it. -/
theorem scanBefore_succ (n : Nat) : scanBefore op ftz sat live seg a (n + 1) = if seg (n + 1) then scanId op else
    if live n then (scanStep op ftz sat live seg a n).1 else scanBefore op ftz sat live seg a n := rfl

/-- The progress of a scan after lane n. -/
def scanNext (excl : Bool) (n : Nat) (q : ScanRun) : ScanRun :=
  { r := if live n then (scanStep op ftz sat live seg a n).1 else scanBefore op ftz sat live seg a n
    out := q.out ++ [scanOut op ftz sat live seg a excl n]
    flags := if live n then q.flags ||| (scanStep op ftz sat live seg a n).2 else q.flags }

/-- A scan that has come to lane n delivers the words of the lanes from there on, and gathers the flags of the live
ones. -/
theorem scanLanes_spec (excl : Bool) (k n : Nat) (q : ScanRun)
    (hq : (if n = 0 || seg n then scanId op else q.r) = scanBefore op ftz sat live seg a n) :
    let z := scanLanes op ftz sat excl live seg a k n q
    z.out = q.out ++ (List.range' n k).map (scanOut op ftz sat live seg a excl) ∧
      ∀ b, bit z.flags b =
        (bit q.flags b || (List.range' n k).any fun m => live m && bit (scanStep op ftz sat live seg a m).2 b) := by
  induction k generalizing n q with
  | zero => exact ⟨(List.append_nil _).symm, fun b => (Bool.or_false _).symm⟩
  | succ k ih =>
    intro z
    have hz : z = scanLanes op ftz sat excl live seg a k (n + 1) (scanNext op ftz sat live seg a excl n q) := by
      unfold z scanNext scanOut scanStep
      rw [scanLanes, hq]
      cases live n <;> rfl
    obtain ⟨hout, hflags⟩ := ih (n + 1) (scanNext op ftz sat live seg a excl n q) (by
      rw [scanBefore_succ]
      simp [scanNext])
    rw [hz, List.range'_succ]
    refine ⟨hout.trans (by simp [scanNext]), fun b => (hflags b).trans ?_⟩
    cases hlive : live n with
    | false => simp [scanNext, hlive]
    | true => simp [scanNext, hlive, bit, Bool.or_assoc]

/-- One lane taken into a reduction. -/
def scanTake (q : Word × Flags) (n : Nat) : Word × Flags :=
  if live n then ((scanOp op ftz sat q.1 (a n)).1, q.2 ||| (scanOp op ftz sat q.1 (a n)).2) else q

/-- Without segments a scan takes its live lanes in order into one running value. -/
theorem scanLanes_reduce (excl : Bool) (k n : Nat) (q : ScanRun) (hq : n = 0 → q.r = scanId op) :
    let z := scanLanes op ftz sat excl live (fun _ => false) a k n q
    (z.r, z.flags) = (List.range' n k).foldl (scanTake op ftz sat live a) (q.r, q.flags) := by
  induction k generalizing n q with
  | zero => rfl
  | succ k ih =>
    have hr : (if n = 0 || false then scanId op else q.r) = q.r := by
      by_cases hn : n = 0
      · simp [hn, hq hn]
      · simp [hn]
    intro z
    unfold z
    rw [scanLanes, hr, List.range'_succ, List.foldl_cons]
    cases hlive : live n with
    | true => exact (ih (n + 1) _ fun h => absurd h n.succ_ne_zero).trans (by rw [scanTake, hlive]; rfl)
    | false => exact (ih (n + 1) _ fun h => absurd h n.succ_ne_zero).trans (by rw [scanTake, hlive]; rfl)

/-- The first lane of a scan does not see the value it starts from. -/
theorem scanLanes_start (excl : Bool) (k : Nat) (q : ScanRun) : scanLanes op ftz sat excl live seg a (k + 1) 0 q =
    scanLanes op ftz sat excl live seg a (k + 1) 0 { q with r := scanId op } := rfl

end

/-- The progress of VSCAN or VSCANX at its end. -/
def scanRun (excl : Bool) (x : Tile) (f : VxFields) : ScanRun :=
  scanLanes (auxBits f 56 2) f.ftz f.sat excl (bit (x.rm f.mask))
    (fun n => auxBit f 58 && bit (x.rm (f.vc.setWidth 3)) n) (lane (x.rv f.va)) 64 0 ⟨0, [], 0⟩

/-- The segment starts that an instruction reads. -/
def segStart (x : Tile) (f : VxFields) (n : Nat) : Bool := f.aux.getLsbD 2 && bit (x.rm (f.vc.setWidth 3)) n

theorem scanRun_spec (excl : Bool) (x : Tile) (f : VxFields) :
    (∀ n, n < 64 → (scanRun excl x f).out.getD n 0 = scanOut (f.aux.toNat % 4) f.ftz f.sat (bit (x.rm f.mask))
      (segStart x f) (lane (x.rv f.va)) excl n) ∧
    flagsOf (bit (x.rm f.mask)) (fun n => (scanStep (f.aux.toNat % 4) f.ftz f.sat (bit (x.rm f.mask))
      (segStart x f) (lane (x.rv f.va)) n).2) (scanRun excl x f).flags := by
  have hseg : (fun n => auxBit f 58 && bit (x.rm (f.vc.setWidth 3)) n) = segStart x f :=
    funext fun n => congrArg (· && _) (auxBit_eq f 2)
  have hop : auxBits f 56 2 = f.aux.toNat % 4 := auxBits_low f 2
  unfold scanRun
  rw [hseg, hop]
  obtain ⟨hout, hflags⟩ := scanLanes_spec (f.aux.toNat % 4) f.ftz f.sat (bit (x.rm f.mask)) (segStart x f)
    (lane (x.rv f.va)) excl 64 0 ⟨0, [], 0⟩ rfl
  refine ⟨fun n hn => ?_, fun b => (hflags b).trans ?_⟩
  · rw [hout, ← List.range_eq_range', List.nil_append]
    simp [List.getD_eq_getElem?_getD, hn]
  · rw [← List.range_eq_range']
    simp [bit]

/-- The running value and flags of VRED at its end. -/
def redRun (x : Tile) (f : VxFields) : Word × Flags :=
  let q := scanLanes (auxBits f 56 2) f.ftz f.sat false (bit (x.rm f.mask)) (fun _ => false) (lane (x.rv f.va)) 64 0
    ⟨0, [], 0⟩
  (q.r, q.flags)

theorem redRun_eq (x : Tile) (f : VxFields) : redRun x f = (List.range 64).foldl
    (scanTake (f.aux.toNat % 4) f.ftz f.sat (bit (x.rm f.mask)) (lane (x.rv f.va))) (scanId (f.aux.toNat % 4), 0) := by
  have hop : auxBits f 56 2 = f.aux.toNat % 4 := auxBits_low f 2
  unfold redRun
  rw [hop, scanLanes_start, scanLanes_reduce _ _ _ _ _ _ _ _ _ fun _ => rfl, ← List.range_eq_range']

/-! ## Histograms (R182) -/

/-- The key has the digits above its bin's that the reference has; all keys have where sh is 26. -/
def histIn (f : VxFields) (ref key : Word) : Bool :=
  auxBits f 56 5 == 26 || key.toNat / 2 ^ (auxBits f 56 5 + 6) == ref.toNat / 2 ^ (auxBits f 56 5 + 6)

/-- The bin of a key. -/
def histBin (f : VxFields) (key : Word) : Nat := key.toNat / 2 ^ auxBits f 56 5 % 64

/-- What a lane that counts makes of its bin. -/
def histAdd (f : VxFields) (c y : Word) : Word := if auxBit f 61 then (fadd32 .rne f.ftz f.sat y c).1 else y + 1

theorem histLane_bins (f : VxFields) (ref key c : Word) (h : List Word × Flags) : (histLane f ref key c h).1 =
    if histIn f ref key then h.1.set (histBin f key) (histAdd f c (h.1.getD (histBin f key) 0)) else h.1 := by
  unfold histLane histAdd
  change (if histIn f ref key then _ else _ : List Word × Flags).1 = _
  split
  · dsimp only
    split <;> rfl
  · rfl

/-- What a lane makes of bin k. -/
def histStep (f : VxFields) (ref key c : Word) (k : Nat) (y : Word) : Word :=
  if histIn f ref key && histBin f key == k then histAdd f c y else y

theorem histLane_getD (f : VxFields) (ref key c : Word) {h : List Word × Flags} (hlen : h.1.length = 64) :
    (histLane f ref key c h).1.length = 64 ∧ ∀ k, k < 64 →
      (histLane f ref key c h).1.getD k 0 = histStep f ref key c k (h.1.getD k 0) := by
  rw [histLane_bins]
  unfold histStep
  cases hin : histIn f ref key with
  | false => exact ⟨hlen, fun _ _ => rfl⟩
  | true =>
    refine ⟨(List.length_set ..).trans hlen, fun k hk => ?_⟩
    rw [if_pos rfl, Bool.true_and, List.getD_eq_getElem?_getD, List.getElem?_set, hlen]
    by_cases hbin : histBin f key = k
    · simp [hbin, hk]
    · simp [hbin]

/-- Over the lanes each bin is counted on its own. -/
theorem histLanes_getD (f : VxFields) (ref : Word) (live : Nat → Bool) (key c : Nat → Word) (l : List Nat)
    {h : List Word × Flags} (hlen : h.1.length = 64) {k : Nat} (hk : k < 64) :
    (l.foldl (fun h n => if live n then histLane f ref (key n) (c n) h else h) h).1.getD k 0 =
      l.foldl (fun y n => if live n then histStep f ref (key n) (c n) k y else y) (h.1.getD k 0) := by
  induction l generalizing h with
  | nil => rfl
  | cons n l ih =>
    rw [List.foldl_cons, List.foldl_cons]
    cases live n with
    | false => exact ih hlen
    | true =>
      obtain ⟨hlen', hbin⟩ := histLane_getD f ref (key n) (c n) hlen
      refine (ih hlen').trans ?_
      rw [hbin k hk]
      rfl

/-- The key of a lane. -/
def histKey (x : Tile) (f : VxFields) (n : Nat) : Word :=
  if auxBit f 62 then lane (x.rv f.va) n else orderKey (lane (x.rv f.va) n)

/-- The bins and flags of VHIST. -/
def histRun (x : Tile) (f : VxFields) : List Word × Flags :=
  (List.range 64).foldl (fun h n =>
    if bit (x.rm f.mask) n then histLane f (x.rs f.sb) (histKey x f n) (vxC x f n) h else h)
    ((List.range 64).map (vxB x f), (0 : Flags))

theorem histRun_getD (x : Tile) (f : VxFields) {k : Nat} (hk : k < 64) : (histRun x f).1.getD k 0 =
    (List.range 64).foldl (fun y n =>
      if bit (x.rm f.mask) n then histStep f (x.rs f.sb) (histKey x f n) (vxC x f n) k y else y) (vxB x f k) := by
  unfold histRun
  rw [histLanes_getD f _ _ _ _ _ (by simp) hk]
  simp [List.getD_eq_getElem?_getD, hk]

/-! ## The first lane (R183) -/

theorem notBelow_eq (o : Option Ordering) :
    (match o with | none => false | some o => o != .lt) = (o == some .gt || o == some .eq) := by
  rcases o with - | - | - | - <;> rfl

/-- The first live lane at the threshold or above it, 64 where there is none. -/
def firstLane (x : Tile) (f : VxFields) : Nat :=
  ((List.range 64).find? fun n => bit (x.rm f.mask) n &&
    (fcmp32 f.ftz (lane (x.rv f.va) n) (vxB x f 0) == some .gt ||
      fcmp32 f.ftz (lane (x.rv f.va) n) (vxB x f 0) == some .eq)).getD 64

theorem vxFirst_eq (x : Tile) (f : VxFields) : vxFirst x f = x.postNow 6 .vx
    (.vreg f.vd (ofLanes fun n => if n = 0 then BitVec.ofNat 32 (firstLane x f) else 0) allBits) 0 := by
  unfold firstLane
  simp only [← notBelow_eq]
  rfl

/-! ## Legality (R90, R160) -/

theorem vxLegal_of_rnd {op : VxOp} {f : VxFields} (hop : op = .vscan ∨ op = .vscanx ∨ op = .vred)
    (h : f.rnd.toNat < 2) : vxLegal op f = true := by
  have h2 : f.rnd ≠ 2#2 := fun h' => by rw [h'] at h; exact absurd h (by decide)
  have h3 : f.rnd ≠ 3#2 := fun h' => by rw [h'] at h; exact absurd h (by decide)
  unfold vxLegal
  rcases hop with rfl | rfl | rfl <;> simp [h2, h3]

theorem vxLegal_of_not_rnd {op : VxOp} {f : VxFields} (hop : op ≠ .fadd ∧ op ≠ .fsub ∧ op ≠ .fmul ∧ op ≠ .vcvt)
    (h : 2 ≤ f.rnd.toNat) : vxLegal op f = false := by
  have hrnd : f.rnd = 2 ∨ f.rnd = 3 := by
    revert h
    generalize f.rnd = r
    revert r
    decide
  obtain ⟨hadd, hsub, hmul, hcvt⟩ := hop
  unfold vxLegal
  rcases hrnd with hrnd | hrnd <;> rw [hrnd]
  · split <;> simp_all
  · rfl

/-- A scan delivers to each lane the value before or after its update, with the update's flags. -/
theorem State.scan_runsLanes (excl : Bool) {s : State} {t : Nat} {op : VxOp} {f : VxFields} {c : Instr}
    (hr : s.tileRuns t = true) (hop : op = .vscan ∨ op = .vscanx ∨ op = .vred) (hrnd : f.rnd.toNat < 2)
    (hexec : exec c s = .next (s.issueOne t (vxWork op f t)))
    (hscan : ∀ y, vxTile s.ts.profileB1 op f y = vxScan excl y f) :
    let x := s.tile t
    let live := bit (x.rm f.mask)
    let before := scanBefore (f.aux.toNat % 4) f.ftz f.sat live (segStart x f) (lane (x.rv f.va))
    let step := scanStep (f.aux.toNat % 4) f.ftz f.sat live (segStart x f) (lane (x.rv f.va))
    s.runsLanes c t f 6 fun n => (if excl then before n else (step n).1, (step n).2) := by
  intro x live before step
  obtain ⟨hdata, hfl⟩ := scanRun_spec excl x f
  have hplain : op ≠ .vgath ∧ op ≠ .vscat := by rcases hop with rfl | rfl | rfl <;> decide
  exact State.vx_runsLanes hr hexec (vxLegal_of_rnd hop hrnd) hplain (fun n => (scanRun excl x f).out.getD n 0)
    (scanRun excl x f).flags (fun i k => (hscan _).trans rfl)
    (fun n hn hlive => (hdata n hn).trans (if_pos hlive)) hfl

/-- Settles O3: a scan's lane is its update of the running value before it, VRED's lanes the fold of its live lanes, and
each bin of VHIST its own fold. -/
theorem vxAcrossLanes : Obligations.VxAcrossLanes := by
  unfold Obligations.VxAcrossLanes
  refine ⟨fun s t f hr hrnd => ?scans, fun s t f hr => ?lanes, fun s t f hrnd => ?nop⟩
  case scans =>
    intro x a live op seg before step all
    refine ⟨State.scan_runsLanes false hr (.inl rfl) hrnd rfl fun _ => rfl,
      State.scan_runsLanes true hr (.inr (.inl rfl)) hrnd rfl fun _ => rfl, ?_⟩
    have hall : redRun x f = all := redRun_eq x f
    rw [← hall]
    exact State.vx_runsAll hr rfl (vxLegal_of_rnd (.inr (.inr rfl)) hrnd) (by decide) (fun _ => (redRun x f).1) _
      (fun _ _ => rfl) fun _ _ => rfl
  case lanes =>
    intro x a b c live sh key hits bin first
    have hsh : auxBits f 56 5 = sh := auxBits_low f 5
    have hadd : auxBit f 61 = f.aux.getLsbD 5 := auxBit_eq f 5
    have hkey (n : Nat) : (histKey x f n).toNat = key n := by
      unfold histKey key
      rw [show auxBit f 62 = f.aux.getLsbD 6 from auxBit_eq f 6]
    have hbin (k : Nat) (hk : k < 64) : (histRun x f).1.getD k 0 = bin k := by
      refine (histRun_getD x f hk).trans (congrArg (fun g => (List.range 64).foldl g (b k)) ?_)
      funext y n
      unfold histStep histIn histBin histAdd hits
      rw [hkey, hsh, hadd]
      change (if live n then _ else y) = _
      cases live n with
      | false => rfl
      | true => rfl
    refine ⟨fun hl => ?vsel, fun hl => ?vfirst, fun hl => ⟨(histRun x f).2, ?vhist⟩⟩
    case vsel =>
      exact State.vx_runsAll hr rfl hl (by decide) (fun n => if live n then a n else b n) 0 (fun _ _ => rfl)
        fun _ _ => rfl
    case vfirst =>
      exact State.vx_runsAll hr rfl hl (by decide) (fun n => if n = 0 then BitVec.ofNat 32 (firstLane x f) else 0) 0
        (fun i k => vxFirst_eq ((x.onIsle i).counting k) f) fun _ _ => rfl
    case vhist =>
      exact State.vx_runsAll hr rfl hl (by decide) (fun n => (histRun x f).1.getD n 0) _ (fun _ _ => rfl) hbin
  case nop =>
    have idle {o : VxOp} {c : Instr} (hexec : exec c s = .next (s.issueOne t.toNat (vxWork o f t.toNat)))
        (ho : o ≠ .fadd ∧ o ≠ .fsub ∧ o ≠ .fmul ∧ o ≠ .vcvt) : exec c s = .next s :=
      State.vx_illegal hexec (vxLegal_of_not_rnd ho hrnd)
    exact ⟨idle rfl (by decide), idle rfl (by decide), idle rfl (by decide), idle rfl (by decide), idle rfl (by decide),
      idle rfl (by decide)⟩

end Sys2Proof.Machine
end

section
/-! PROOFS. Lane comparison and format conversion (R165, R172, R173). -/

namespace Sys2Proof.Machine

/-! ## Comparison (R165) -/

/-- The write of VCMP: the comparisons of the live lanes, under the mask and policy. -/
def cmpWrite (x : Tile) (f : VxFields) : WriteOp :=
  .mreg (f.vd.setWidth 3)
    (ofMask fun n => bit (x.rm f.mask) n && vcmpLane f.ftz (f.aux.toNat / 8 % 4) (f.aux.toNat % 8)
      (lane (x.rv f.va) n) (vxB x f n))
    (if f.zeroing then BitVec.allOnes 64 else x.rm f.mask)

theorem vxTile_vcmp (b1 : Bool) (f : VxFields) (x : Tile) : vxTile b1 .vcmp f x = x.postNow 4 .vx (cmpWrite x f) 0 := by
  have htype : auxBits f 59 2 = f.aux.toNat / 8 % 4 := rfl
  have hpred : auxBits f 56 3 = f.aux.toNat % 8 := auxBits_low f 3
  unfold cmpWrite
  rw [← htype, ← hpred]
  rfl

theorem bit_policyMask (live : BitVec 64) (zeroing : Bool) {n : Nat} (hn : n < 64) :
    bit (if zeroing then BitVec.allOnes 64 else live) n = (bit live n || zeroing) := by
  cases zeroing with
  | true =>
    rw [if_pos rfl, bit, BitVec.getLsbD_allOnes]
    simp [hn]
  | false => simp

/-! ## Conversion (R172, R173) -/

/-- Conversion to words is by lanes. -/
theorem vxCvt_of_word {f : VxFields} (h : f.fmt = 2) (x : Tile) : vxCvt x f =
    x.postNow 6 .vx (vregWrite f.vd (x.rm f.mask) f.zeroing fun n => BitVec.ofNat 32 (cvtResult x f n).1)
      (gatherFlags (bit (x.rm f.mask)) (fun n => (cvtResult x f n).2) 64) := if_pos (beq_iff_eq.2 h)

/-- The block of 64 narrow elements, at bit base of a register. -/
def blockAt {w : Nat} (base : Nat) (f : Nat → BitVec w) : Vec := packFields w 64 f <<< base

/-- A narrow element of a conversion. -/
def cvtField (x : Tile) (f : VxFields) (n : Nat) : BitVec (narrowWidth f.fmt) :=
  if bit (x.rm f.mask) n then BitVec.ofNat _ (cvtResult x f n).1 else 0

/-- The bits of a narrow element that a conversion writes. -/
def cvtKeep (x : Tile) (f : VxFields) (n : Nat) : BitVec (narrowWidth f.fmt) :=
  if bit (x.rm f.mask) n || f.zeroing then BitVec.allOnes _ else 0

/-- The lowest bit of the block that a conversion to narrow elements writes. -/
def cvtBase (f : VxFields) : Nat := narrowWidth f.fmt * (64 * (f.aux.toNat / 4 % 16))

/-- The write of a conversion to narrow elements. -/
def cvtWrite (x : Tile) (f : VxFields) : WriteOp :=
  .vreg f.vd (blockAt (cvtBase f) (cvtField x f)) (blockAt (cvtBase f) (cvtKeep x f))

theorem vxCvt_of_narrow {f : VxFields} (h : f.fmt ≠ 2) (x : Tile) : vxCvt x f = x.postNow 6 .vx (cvtWrite x f)
    (gatherFlags (bit (x.rm f.mask)) (fun n => (cvtResult x f n).2) 64) := by
  have hbase : narrowWidth f.fmt * 64 * auxBits f 58 4 = cvtBase f := Nat.mul_assoc _ _ _
  unfold cvtWrite
  rw [← hbase]
  exact if_neg (mt beq_iff_eq.1 h)

theorem narrowWidth_cases (c : BitVec 4) : narrowWidth c = 16 ∨ narrowWidth c = 8 ∨ narrowWidth c = 4 := by
  unfold narrowWidth
  split <;> simp

/-- A legal conversion to narrow elements writes a block inside the register. -/
theorem cvtBase_le {f : VxFields} (hl : vxLegal .vcvt f = true) (h : f.fmt ≠ 2) :
    cvtBase f + narrowWidth f.fmt * 64 ≤ 2048 := by
  have hq : f.aux.toNat / 4 % 16 < 32 / narrowWidth f.fmt := by
    have hfmt : (f.fmt == 2) = false := beq_eq_false_iff_ne.2 h
    have hcvt : vcvtLegal f = true := by
      unfold vxLegal at hl
      exact (Bool.and_eq_true_iff.1 hl).2
    unfold vcvtLegal at hcvt
    simp only [hfmt, Bool.false_and, Bool.false_eq_true, if_false] at hcvt
    split_ifs at hcvt
    simp only [Bool.and_eq_true, decide_eq_true_eq] at hcvt
    exact hcvt.1.2
  unfold cvtBase
  rcases narrowWidth_cases f.fmt with hw | hw | hw <;> rw [hw] at hq ⊢ <;> omega

/-- An element of a block. -/
theorem extract_blockAt {w base : Nat} (hw : 0 < w) (hfit : base + w * 64 ≤ 2048) (f : Nat → BitVec w) {n : Nat}
    (hn : n < 64) : (blockAt base f).extractLsb' (base + w * n) w = f n := by
  have hpacked : (packFields w 64 f : Vec).extractLsb' (w * n) w = f n := extract_packFields w 64 n hw f hn (by omega)
  rw [← hpacked]
  refine BitVec.eq_of_getLsbD_eq fun i hi => ?_
  have hin : w * (n + 1) ≤ w * 64 := Nat.mul_le_mul_left w hn
  rw [Nat.mul_succ] at hin
  have hlt : base + w * n + i < 2048 := by omega
  have hsub : base + w * n + i - base = w * n + i := by omega
  have hge : ¬base + w * n + i < base := by omega
  rw [blockAt, BitVec.getLsbD_extractLsb', BitVec.getLsbD_extractLsb', BitVec.getLsbD_shiftLeft, hsub]
  simp only [hlt, hge, decide_true, decide_false, Bool.not_false, Bool.true_and]

/-- Nothing outside the block. -/
theorem bit_blockAt_outside {w base : Nat} (hw : 0 < w) (f : Nat → BitVec w) {i : Nat}
    (hi : i < base ∨ base + w * 64 ≤ i) : bit (blockAt base f) i = false := by
  unfold bit blockAt
  rw [BitVec.getLsbD_shiftLeft]
  rcases hi with hlow | hhigh
  · simp [hlow]
  · rw [getLsbD_packFields w 64 hw]
    have hout : ¬i - base < w * 64 := by omega
    simp [hout]

/-- Settles O4: the mask bits of VCMP, the words of a wide VCVT and the block of a narrow one. -/
theorem vxCompareAndConvert : Obligations.VxCompareAndConvert := by
  unfold Obligations.VxCompareAndConvert
  intro s t f hr x a b live q
  refine ⟨State.vx_illegal rfl, State.vx_illegal rfl, fun hl => ?compare, fun hl hword => ?word,
    fun hl hnarrow => ?narrow⟩
  case compare =>
    refine ⟨_, _, _, State.vx_posts hr rfl hl (by decide) (l := 4) (w := cmpWrite x f) (fl := 0) fun i k =>
      vxTile_vcmp _ f ((x.onIsle i).counting k), Tile.owes_newWrite _ _ _ _ _, rfl, rfl, fun n hn => ⟨?_, ?_⟩⟩
    · exact bit_policyMask _ _ hn
    · exact bit_ofMask _ hn
  case word =>
    exact State.vx_runsLanes hr rfl hl (by decide) (fun n => BitVec.ofNat 32 (cvtResult x f n).1)
      (gatherFlags live (fun n => (cvtResult x f n).2) 64) (fun i k => vxCvt_of_word hword ((x.onIsle i).counting k))
      (fun _ _ _ => rfl) (bit_gatherFlags _ _ 64)
  case narrow =>
    have hfit := cvtBase_le hl hnarrow
    have hwidth : 0 < narrowWidth f.fmt := by rcases narrowWidth_cases f.fmt with hw | hw | hw <;> omega
    refine ⟨_, _, _, State.vx_posts hr rfl hl (by decide) (l := 6) (w := cvtWrite x f)
      (fl := gatherFlags live (fun n => (cvtResult x f n).2) 64) fun i k =>
        vxCvt_of_narrow hnarrow ((x.onIsle i).counting k), Tile.owes_newWrite _ _ _ _ _, rfl,
        bit_gatherFlags _ _ 64, ?_⟩
    intro k
    have hindex (n : Nat) : k * (64 * q + n) = cvtBase f + k * n := Nat.mul_add _ _ _
    simp only [hindex]
    exact ⟨fun n hn => ⟨extract_blockAt hwidth hfit _ hn, extract_blockAt hwidth hfit _ hn⟩, fun i hi =>
      bit_blockAt_outside hwidth _ hi⟩

end Sys2Proof.Machine
end

section
/-! PROOFS. Accumulator streams where the clocks of the part stand (R84, R169). -/

namespace Sys2Proof.Machine

/-- A VACC with every field zero, issued in cycle 0, with every row live. -/
def vaccRun : StreamRun :=
  { issue := 0, scan := false, a := 0, b := 0, mask := BitVec.allOnes 64, seg := 0, running := 0
    f := { vd := 0, va := 0, vb := 0, mask := 0, zeroing := false, vc := 0, rnd := 0, ftz := false, sat := false
           bs := false, sb := 0, cs := false, sc := 0, fmt := 0, fmt2 := 0, aux := 0 } }

/-- The halted lesson with that stream in progress on its tile. -/
def haltedStream : State :=
  { haltedLesson with tiles := [(0, { Tile.reset with ended := false, streams := [vaccRun] })] }

/-- Its island has no clock, so the end of the cycle does nothing. -/
theorem exec_resultWriteback_haltedStream : exec (.resultWriteback 0) haltedStream = .next haltedStream := rfl

/-- Refutes O5: with the clocks of the part halted, a tile whose own stop has no cycle does not end its cycle by
RESULT_WRITEBACK, so its stream posts no write for the live row of that cycle. -/
theorem not_vxAccumulators : ¬ Obligations.VxAccumulators := by
  unfold Obligations.VxAccumulators
  rintro ⟨-, hstreams⟩
  obtain ⟨s', hexec, hrows, -⟩ := hstreams haltedStream 0 (by decide +kernel)
  rw [exec_resultWriteback_haltedStream] at hexec
  obtain rfl := Host.Outcome.next.inj hexec
  obtain ⟨hlive, -⟩ := hrows vaccRun List.mem_cons_self (by decide) (by decide)
  obtain ⟨w, hw, -⟩ := hlive (by decide)
  exact absurd hw List.not_mem_nil

end Sys2Proof.Machine
end

section
/-! PROOFS. Gather from and scatter to the own tile store (R170). -/

namespace Sys2Proof.Machine

/-! ## Places of lanes -/

theorem laneOffset_lt (x : Tile) (f : VxFields) (n : Nat) : laneOffset x f n < 0x80000 := by
  unfold laneOffset
  omega

/-- The word of a lane does not leave its granule. -/
theorem laneOffset_in_granule (x : Tile) (f : VxFields) (n : Nat) : laneOffset x f n % 256 + 4 ≤ 256 := by
  unfold laneOffset
  omega

theorem ownKey_of_offset {off : Nat} (h : off < 0x80000) (t : Nat) : OwnKey t (storeBase t + off) := by
  unfold OwnKey storeBase
  omega

/-- What lanes address stays with the registers. -/
theorem State.OnlyRead.laneOffset {s s' : State} (h : s.OnlyRead s') (t : Nat) (f : VxFields) (n : Nat) :
    laneOffset (s'.tile t) f n = laneOffset (s.tile t) f n := by
  obtain ⟨hs, -, hv, -⟩ := h.reg t
  unfold Machine.laneOffset
  rw [hs, hv]

/-! ## Steps that note only -/

/-- Notes only, and the tile still in its cycle. -/
def State.NotesInCycle (t : Nat) (s s' : State) : Prop :=
  s.Notes s' ∧ (s'.tile t).isle.count = (s.tile t).isle.count

theorem State.NotesInCycle.refl (t : Nat) (s : State) : State.NotesInCycle t s s := ⟨.refl s, rfl⟩

theorem State.NotesInCycle.trans {n : Nat} {s t u : State} (h : State.NotesInCycle n s t)
    (h' : State.NotesInCycle n t u) : State.NotesInCycle n s u :=
  ⟨h.1.trans h'.1, h'.2.trans h.2⟩

theorem State.NotesInCycle.foldl {β : Type} {t : Nat} {g : State → β → State}
    (h : ∀ s b, State.NotesInCycle t s (g s b)) (l : List β) (s : State) : State.NotesInCycle t s (l.foldl g s) := by
  induction l generalizing s with
  | nil => exact .refl t s
  | cons b l ih => exact (h s b).trans (ih (g s b))

theorem State.notesInCycle_logAccess (t : Nat) (s : State) (a : Access) :
    State.NotesInCycle t s (s.logAccess t a) := ⟨s.notes_logAccess t a, s.logAccess_cycle t a⟩

theorem State.notesInCycle_readCounted (t : Nat) (s : State) (k n : Nat) :
    State.NotesInCycle t s (s.readCounted k n) := ⟨s.notes_readCounted k n, s.readCounted_cycle t k n⟩

/-! ## Gather -/

/-- A live lane gathers its word of the own store; a masked one does nothing. -/
theorem gatherLane_own {s : State} {t off : Nat} (h : s.ReadsOwn t) (hoff : off < 0x80000) (out : List Word) (n : Nat)
    (live : Bool) : gatherLane t (out, [], s) n off live =
      if live then (out.set n (s.mem.vec (storeBase t + off) 4), [], s.readCounted (storeBase t + off) 4)
      else (out, [], s) := by
  cases live with
  | false => rfl
  | true =>
    have hk := ownKey_of_offset hoff t
    have hread : (s.readMem (storeBase t + off) 4 (s.tile t).isle.count : ReadResult 32) =
        ⟨s.mem.vec (storeBase t + off) 4, s.readCounted (storeBase t + off) 4⟩ := by
      have honly := s.onlyRead_readCounted (storeBase t + off) 4
      rw [State.readMem_eq, if_pos (State.memOpen_of_ownKey hk h.exist h.unfenced), honly.hasUe,
        Mem.hasUe_of_clean h.clean, if_neg Bool.false_ne_true, honly.vec]
    unfold gatherLane
    dsimp only
    rw [h.plain]
    simp [hread, h.clean]

/-- The lanes gathered one after another. -/
theorem gatherLanes_own {t : Nat} {off : Nat → Nat} (hoff : ∀ n, off n < 0x80000) (live : Nat → Bool) (l : List Nat)
    (out : List Word) {s : State} (h : s.ReadsOwn t) :
    ∃ out' s', l.foldl (fun a n => gatherLane t a n (off n) (live n)) (out, [], s) = (out', [], s') ∧
      State.NotesInCycle t s s' ∧ out'.length = out.length ∧ ∀ n, n < out.length →
        out'.getD n 0 = if n ∈ l ∧ live n = true then s.mem.vec (storeBase t + off n) 4 else out.getD n 0 := by
  induction l generalizing out s with
  | nil => exact ⟨out, s, rfl, .refl t s, rfl, fun n _ => by simp⟩
  | cons m l ih =>
    rw [List.foldl_cons, gatherLane_own h (hoff m)]
    cases hlive : live m with
    | false =>
      obtain ⟨out', s', hfold, hnotes, hlen, hword⟩ := ih out h
      refine ⟨out', s', hfold, hnotes, hlen, fun n hn => (hword n hn).trans ?_⟩
      have hne : live n = true → n ≠ m := fun hn h => by rw [h, hlive] at hn; exact absurd hn (by decide)
      refine if_congr ⟨fun ⟨hin, hn⟩ => ⟨List.mem_cons_of_mem _ hin, hn⟩, fun ⟨hin, hn⟩ => ⟨?_, hn⟩⟩ rfl rfl
      exact (List.mem_cons.1 hin).resolve_left (hne hn)
    | true =>
      have hcount := s.notesInCycle_readCounted t (storeBase t + off m) 4
      obtain ⟨out', s', hfold, hnotes, hlen, hword⟩ :=
        ih (out.set m (s.mem.vec (storeBase t + off m) 4)) (h.of_onlyRead hcount.1.toOnlyRead)
      refine ⟨out', s', hfold, hcount.trans hnotes, hlen.trans (List.length_set ..), fun n hn => ?_⟩
      rw [hword n (by rwa [List.length_set]), hcount.1.vec]
      by_cases hnm : n = m
      · subst hnm
        simp [hlive, List.getD_eq_getElem?_getD, hn]
      · have hmn : ¬m = n := fun h => hnm h.symm
        simp [hnm, hmn, List.getD_eq_getElem?_getD]

/-- The access that the hall monitor keeps of lane n, served some cycles after the issue. -/
def laneAccess (x : Tile) (t : Nat) (f : VxFields) (delay : Nat) (write : Bool) (n : Nat) : Access :=
  { granule := (storeBase t + laneOffset x f n) / 256
    words := BitVec.ofNat 64 (2 ^ ((storeBase t + laneOffset x f n) / 4 % 64))
    cycle := x.isle.count + delay, write := write, slice := false }

/-- The log of a live lane of VGATH. -/
def State.logGather (x : Tile) (t : Nat) (f : VxFields) (s : State) (n : Nat) : State :=
  if bit (x.rm f.mask) n then s.logAccess t (laneAccess x t f 0 false n) else s

theorem State.notesInCycle_logGather (x : Tile) (t : Nat) (f : VxFields) (s : State) (n : Nat) :
    State.NotesInCycle t s (s.logGather x t f n) := by
  unfold State.logGather
  split
  · exact State.notesInCycle_logAccess t s _
  · exact .refl t s

/-- VGATH posts the words of its live lanes. -/
theorem vxGather_own {s : State} {t : Nat} (h : s.ReadsOwn t) (f : VxFields) :
    ∃ (out : List Word) (s1 : State), State.NotesInCycle t s s1 ∧
      vxGather s t f = s1.modTile t (·.postNow 4 .vx
        (vregWrite f.vd ((s.tile t).rm f.mask) f.zeroing fun n => out.getD n 0) 0) ∧
      ∀ n, n < 64 → bit ((s.tile t).rm f.mask) n = true →
        out.getD n 0 = s.mem.vec (storeBase t + laneOffset (s.tile t) f n) 4 := by
  obtain ⟨out, s1, hfold, hnotes, -, hword⟩ := gatherLanes_own (laneOffset_lt (s.tile t) f)
    (bit ((s.tile t).rm f.mask)) (List.range 64) (List.replicate 64 0) h
  refine ⟨out, (List.range 64).foldl (State.logGather (s.tile t) t f) s1,
    hnotes.trans (.foldl (State.notesInCycle_logGather (s.tile t) t f) _ s1), ?_, fun n hn hlive => ?_⟩
  · unfold vxGather
    dsimp only
    rw [hfold]
    rfl
  · rw [hword n (by rwa [List.length_replicate]), if_pos ⟨List.mem_range.2 hn, hlive⟩]

/-- A tile that runs may read its own store, where no region and no uncorrectable word lies in it. -/
theorem State.readsOwn_of_tileRuns {s : State} {t : BitVec 10} (hr : s.tileRuns t.toNat = true) (hue : s.mem.ue = [])
    (hplain : ∀ k, s.messageRegion k = none) : s.ReadsOwn t.toNat :=
  ⟨t.isLt, State.not_fenced_of_tileRuns hr, hue, hplain⟩

/-- A legal VGATH delivers to each live lane the word that it addresses. -/
theorem State.vgath_runsLanes {s : State} {t : BitVec 10} {f : VxFields} (hr : s.tileRuns t.toNat = true)
    (hl : vxLegal .vgath f = true) (hown : s.ReadsOwn t.toNat) : s.runsLanes (.vgath t f) t.toNat f 4 fun n =>
      (s.mem.vec (storeBase t.toNat + Machine.laneOffset (s.tile t.toNat) f n) 4, 0) := by
  obtain ⟨s1, hmeets, hafter, -⟩ := State.issueOne_meets hr (vxWork .vgath f t.toNat)
  have hstart := hmeets.trans (s1.meets_countTile t.toNat t.toNat 0x0004 1)
  have hrun : (vxWork .vgath f t.toNat).run s1 = vxGather (s1.countTile t.toNat 0x0004 1) t.toNat f := if_pos hl
  rw [hrun] at hafter
  generalize s1.countTile t.toNat 0x0004 1 = s2 at hstart hafter
  obtain ⟨out, s3, hnotes, hgather, hword⟩ := vxGather_own (hown.of_onlyRead hstart.toOnlyRead) f
  rw [hgather] at hafter
  obtain ⟨hkeeps, hpend, hother⟩ :=
    State.notes_posted (hstart.toNotes.trans hnotes.1) (hnotes.2.trans hstart.cycle) hafter
  obtain ⟨-, -, -, hmasks⟩ := hstart.reg t.toNat
  rw [hmasks] at hpend hword
  refine ⟨_, ⟨_, rfl, hkeeps, hpend, hother⟩, Tile.owesLanes_vregWrite _ _ _ (fun n hn hlive => ?_) fun b => ?_⟩
  · rw [hword n hn hlive, hstart.vec, hstart.laneOffset]
  · simp [bit]

/-! ## Scatter -/

/-- The write of a lane of VSCAT. -/
def Tile.scatterWrite (x : Tile) (f : VxFields) (n : Nat) : PendWrite :=
  x.newWrite 4 .vx (.store (laneOffset x f n / 256)
    ((vxB x f n).setWidth 2048 <<< (8 * (laneOffset x f n % 256))) ((0xF : BitVec 256) <<< (laneOffset x f n % 256))) 0

/-- The tile with these writes posted behind its own. -/
def Tile.postAll (x : Tile) (l : List PendWrite) : Tile := { x with pend := x.pend ++ l }

/-- One lane of VSCAT after another posts its write. -/
theorem foldl_scatter (f : VxFields) (l : List Nat) (x : Tile) :
    l.foldl (fun x n => x.postAll [x.scatterWrite f n]) x = x.postAll (l.map (x.scatterWrite f)) := by
  induction l generalizing x with
  | nil => exact (congrArg (fun l => { x with pend := l }) (List.append_nil x.pend)).symm
  | cons n l ih =>
    rw [List.foldl_cons, ih]
    exact congrArg (fun l => { x with pend := l }) (List.append_assoc x.pend _ _)

theorem vxScatter_eq (s : State) (t : Nat) (f : VxFields) : vxScatter s t f =
    (pick 64 (bit ((s.tile t).rm f.mask))).foldl (fun s' n => s'.logAccess t (laneAccess (s.tile t) t f 3 true n))
      (s.modTile t (·.postAll ((pick 64 (bit ((s.tile t).rm f.mask))).map ((s.tile t).scatterWrite f)))) := by
  have htile : s.modTile t (·.postAll ((pick 64 (bit ((s.tile t).rm f.mask))).map ((s.tile t).scatterWrite f))) =
      s.modTile t fun x => (pick 64 (bit ((s.tile t).rm f.mask))).foldl (fun x n => x.postAll [x.scatterWrite f n]) x :=
    congrArg (s.setTile t) (foldl_scatter f _ _).symm
  rw [htile]
  rfl

/-- What a scatter reads stays with the registers and the cycle. -/
theorem State.Meets.scatterWrite {s s' : State} {t : Nat} (h : State.Meets t s s') (f : VxFields) :
    (s'.tile t).scatterWrite f = (s.tile t).scatterWrite f := by
  obtain ⟨hs, -, hv, -⟩ := h.reg t
  funext n
  unfold Tile.scatterWrite Tile.newWrite vxB
  rw [h.laneOffset, h.cycle, hs, hv]

/-- A legal VSCAT posts one store per live lane. -/
theorem State.vscat_posts {s : State} {t : BitVec 10} {f : VxFields} (hr : s.tileRuns t.toNat = true)
    (hl : vxLegal .vscat f = true) : s.posts (.vscat t f) t.toNat
      ((pick 64 (bit ((s.tile t.toNat).rm f.mask))).map ((s.tile t.toNat).scatterWrite f)) := by
  obtain ⟨s1, hmeets, hafter, -⟩ := State.issueOne_meets hr (vxWork .vscat f t.toNat)
  have hstart := hmeets.trans (s1.meets_countTile t.toNat t.toNat 0x0004 1)
  have hrun : (vxWork .vscat f t.toNat).run s1 = vxScatter (s1.countTile t.toNat 0x0004 1) t.toNat f := if_pos hl
  rw [hrun, vxScatter_eq] at hafter
  generalize s1.countTile t.toNat 0x0004 1 = s2 at hstart hafter
  have hlast := (State.NotesInCycle.foldl (fun s' n => State.notesInCycle_logAccess t.toNat s'
    (laneAccess (s2.tile t.toNat) t.toNat f 3 true n)) _ _).1.trans hafter
  obtain ⟨-, -, -, hmasks⟩ := hstart.reg t.toNat
  rw [hstart.scatterWrite, hmasks] at hlast
  refine ⟨_, rfl, (hstart.keeps.trans (s2.keeps_modTile _ rfl)).trans hlast.keeps, ?_, fun u hu => ?_⟩
  · rw [(hlast.queues _).1, State.modTile_tile_same, ← (hstart.queues _).1]
    rfl
  · rw [(hlast.queues u).1, State.modTile_tile_other _ _ hu, (hstart.queues u).1]

theorem vxB_of_vscat {f : VxFields} (hl : vxLegal .vscat f = true) (x : Tile) (n : Nat) :
    vxB x f n = lane (x.rv f.vb) n := by
  unfold vxLegal at hl
  exact if_neg fun hbs => by simp [hbs] at hl

/-- Settles O6: the words gathered by the live lanes, and the stores scattered by them. -/
theorem vxGatherScatter : Obligations.VxGatherScatter := by
  unfold Obligations.VxGatherScatter
  intro s t f hr hue hplain x live lanes off base
  refine ⟨fun hl => ⟨_, State.vgath_runsLanes hr hl (State.readsOwn_of_tileRuns hr hue hplain), fun n i _ hi _ =>
    byteOf_vec _ _ _ _ hi (by decide)⟩, fun hl => ⟨_, State.vscat_posts hr hl, List.length_map _, fun j n hj => ?_⟩⟩
  refine ⟨x.scatterWrite f n, _, _, ?_, Tile.owes_newWrite _ _ _ _ _, rfl, fun i => ?_, ?_⟩
  · exact (List.getElem?_map ..).trans (congrArg _ hj)
  · exact bit_nibble_shift (laneOffset_in_granule x f n) i
  · rw [← vxB_of_vscat hl x n]
    exact extract_word_shift _ (laneOffset_in_granule x f n)

end Sys2Proof.Machine
end

section
/-! PROOFS. Random numbers and the tensor of a digest (R179 to R181, Table 7-10). -/

namespace Sys2Proof.Machine

/-! ## What the counter is read from -/

theorem State.cause_number (s : State) (b c d u k : Nat) : (s.cause b c d u k).bell.number = s.bell.number := by
  unfold State.cause
  split <;> rfl

theorem State.hazard_number (s : State) (t c cy d a : Nat) : (s.hazard t c cy d a).bell.number = s.bell.number := by
  unfold State.hazard
  split_ifs
  · exact State.cause_number _ _ _ _ _ _
  · rfl
  · rfl
  · rfl

/-- A report leaves what the counters of RAND are read from. -/
theorem State.randCounter_report (s : State) (t : Nat) (l : List Hazard) :
    randCounter (s.report t l) = randCounter s := by
  have hnumber : (s.report t l).bell.number = s.bell.number := by
    unfold State.report
    split
    · rfl
    · exact s.hazard_number _ _ _ _ _
  obtain ⟨_, _, _, _, _, h⟩ := s.report_eq t l
  have hjob : (s.report t l).job = s.job := by rw [h]
  have hmember : (s.report t l).member = s.member := by rw [h]; rfl
  unfold randCounter
  rw [hnumber, hjob, hmember]

/-! ## The forms (R181) -/

theorem randForm_eq (form : BitVec 2) (w : Word) : randForm form w = if form = 0 then w else
    if form = 1 then enc32 false (w.toNat / 256) (-24) else enc32 false (w.toNat / 256 + 1) (-24) := by
  obtain rfl | rfl | rfl | rfl : form = 0 ∨ form = 1 ∨ form = 2 ∨ form = 3 := by
    revert form
    decide
  · rfl
  · rfl
  · rfl
  · rfl

/-- What RAND delivers in lane n. -/
def randLane (s : State) (t : Nat) (sa : BitVec 5) (stream form : BitVec 2) (n : Nat) : Word :=
  randForm form (((randCounter s t ((s.tile t).rs sa) stream (n / 4)).rounds 10).out (n % 4))

theorem ctRand_eq (vd sa : BitVec 5) (stream : BitVec 2) {form : BitVec 2} (h : form ≠ 3) (t : Nat) (s : State) :
    ctRand vd sa stream form t s =
      s.modTile t (·.postNow 8 .ct (.vreg vd (ofLanes (randLane s t sa stream form)) allBits) 0) :=
  if_neg (mt beq_iff_eq.1 h)

/-- RAND of a form in use posts its words. -/
theorem State.rand_posts {s : State} {t : BitVec 10} (hr : s.tileRuns t.toNat = true) (vd sa : BitVec 5)
    (stream : BitVec 2) {form : BitVec 2} (h : form ≠ 3) : s.posts (.rand t vd sa stream form) t.toNat
      [(s.tile t.toNat).newWrite 8 .ct (.vreg vd (ofLanes (randLane s t.toNat sa stream form)) allBits) 0] := by
  have hexec : exec (.rand t vd sa stream form) s =
      .next (s.issueOne t.toNat (randWork vd sa stream form t.toNat)) := rfl
  rw [s.issueOne_eq _ _ hr] at hexec
  generalize hl : ((randWork vd sa stream form t.toNat).hazards s).filter (fun h => h.code < 5) = l at hexec
  have hmeets := State.meets_report (State.inLesson_of_tileRuns hr) l
  have hlane : randLane (s.report t.toNat l) t.toNat sa stream form = randLane s t.toNat sa stream form := by
    unfold randLane
    rw [s.randCounter_report, (hmeets.reg _).1]
  refine State.posts_of_countsOnly hexec ⟨s.countsOnly_report t.toNat l, hmeets.cycle⟩ ?_
  rw [← hlane, ← ctRand_eq vd sa stream h t.toNat (s.report t.toNat l)]
  exact State.countsOnly_report _ _ _

/-- RAND of form 3 is the NOP: it shows no hazard and does nothing. -/
theorem exec_rand_reserved (t : BitVec 10) (vd sa : BitVec 5) (stream : BitVec 2) (s : State) :
    exec (.rand t vd sa stream 3) s = .next s := by
  cases hr : s.tileRuns t.toNat with
  | false => exact congrArg Host.Outcome.next (s.issueOne_idle _ _ hr)
  | true => exact congrArg Host.Outcome.next (s.issueOne_eq _ (randWork vd sa stream 3 t.toNat) hr)

theorem exec_dgsel_of_runs {s : State} {t : BitVec 10} (hr : s.tileRuns t.toNat = true) (tensor : BitVec 16) :
    exec (.dgsel t tensor) s = .next (s.modTile t.toNat (ctDgsel tensor)) :=
  congrArg Host.Outcome.next (s.issueOne_eq _ (dgselWork tensor t.toNat) hr)

/-- Settles O15: each lane of RAND is its word of its group's counter in the form asked for. -/
theorem randomAndTensor : Obligations.RandomAndTensor := by
  unfold Obligations.RandomAndTensor
  intro s t vd sa stream form tensor hr x word
  refine ⟨fun hform => ?rand, fun hform => ?reserved, ?dgsel⟩
  case rand =>
    refine ⟨_, _, State.rand_posts hr vd sa stream hform, Tile.owes_newWrite _ _ _ _ _, rfl, fun g k hg hk => ?_⟩
    have hgroup : (4 * g + k) / 4 = g := by omega
    have hword : (4 * g + k) % 4 = k := by omega
    rw [lane_ofLanes _ (by omega), randLane, hgroup, hword]
    exact randForm_eq form _
  case reserved =>
    rw [hform]
    exact exec_rand_reserved t vd sa stream s
  case dgsel =>
    exact ⟨_, exec_dgsel_of_runs hr tensor, s.keeps_modTile _ rfl, by rw [State.modTile_tile_same]; rfl⟩

end Sys2Proof.Machine
end

section
/-! PROOFS. Canonical memory and the queue of commands: what every operation of the model keeps (R186, R207, R491). -/

namespace Sys2Proof.Machine

set_option Elab.async false

/-- The commands that wait are these, and working memory has its canonical form. -/
def State.Canon (waiting : List Instr) (s : State) : Prop := s.pending = waiting ∧ s.memWf

section
variable {waiting : List Instr} {s s' : State}

/-! ## Shapes of an operation -/

/-- An operation that touches neither the queue nor a byte of memory. -/
theorem State.Canon.same (hs : s.Canon waiting) (hp : s'.pending = s.pending := by rfl)
    (hm : s'.mem.bytes = s.mem.bytes := by rfl) : s'.Canon waiting :=
  ⟨hp.trans hs.1, show Memory.wf s'.mem.bytes = true from hm ▸ hs.2⟩

/-- An operation that leaves every byte zero. -/
theorem State.Canon.blank (hs : s.Canon waiting) (hp : s'.pending = s.pending := by rfl)
    (hm : s'.mem.bytes = [] := by rfl) : s'.Canon waiting :=
  ⟨hp.trans hs.1, show Memory.wf s'.mem.bytes = true from hm ▸ rfl⟩

/-- A change of fields other than the queue and the bytes of memory. -/
theorem State.Canon.update {fused tiles bell job cq lkSelect lkLane links rt rc nv sv hi mb dg sec pw pins ts out free}
    {ue ce select dies gate gateRequests gateOpened gateWaits slices groups groupBank instances redFlight}
    (hs : s.Canon waiting) :
    State.Canon waiting ⟨s.pending, fused, tiles, bell, job, ⟨s.mem.bytes, ue, ce, select, dies, gate, gateRequests,
      gateOpened, gateWaits, slices, groups, groupBank, instances, redFlight⟩, cq, lkSelect, lkLane, links, rt, rc, nv,
      sv, hi, mb, dg, sec, pw, pins, ts, out, free⟩ :=
  hs

theorem State.Canon.keepMem {fused tiles bell job cq lkSelect lkLane links rt rc nv sv hi mb dg sec pw pins ts out free}
    (hs : s.Canon waiting) :
    State.Canon waiting ⟨s.pending, fused, tiles, bell, job, s.mem, cq, lkSelect, lkLane, links, rt, rc, nv, sv, hi, mb,
      dg, sec, pw, pins, ts, out, free⟩ :=
  hs

theorem State.Canon.ite {c : Prop} [Decidable c] (ht : s.Canon waiting) (he : s'.Canon waiting) :
    (if c then s else s').Canon waiting := by
  split
  · exact ht
  · exact he

theorem State.Canon.foldl {α : Type} {f : State → α → State} {l : List α}
    (hf : ∀ t x, t.Canon waiting → (f t x).Canon waiting) (hs : s.Canon waiting) : (l.foldl f s).Canon waiting := by
  induction l generalizing s with
  | nil => exact hs
  | cons x l ih => exact ih (hf s x hs)

end

section
variable {waiting : List Instr} {α γ : Type} {w : Nat} {c : Prop} [Decidable c]

/-! ## Operations that answer a state beside another value -/

theorem State.Canon.itePair {x y : α × State} (ht : x.2.Canon waiting) (he : y.2.Canon waiting) :
    (if c then x else y).2.Canon waiting := by
  split
  · exact ht
  · exact he

theorem State.Canon.iteFst {x y : State × α} (ht : x.1.Canon waiting) (he : y.1.Canon waiting) :
    (if c then x else y).1.Canon waiting := by
  split
  · exact ht
  · exact he

theorem State.Canon.triple {s : State} {a : α} {b : γ} (hs : s.Canon waiting) : (a, b, s).2.2.Canon waiting := hs

theorem State.Canon.iteTriple {x y : α × γ × State} (ht : x.2.2.Canon waiting) (he : y.2.2.Canon waiting) :
    (if c then x else y).2.2.Canon waiting := by
  split
  · exact ht
  · exact he

theorem State.Canon.iteRead {x y : ReadResult w} (ht : x.state.Canon waiting) (he : y.state.Canon waiting) :
    (if c then x else y).state.Canon waiting := by
  split
  · exact ht
  · exact he

end

section
variable {waiting : List Instr} {s : State}

/-! ## Outcomes -/

/-- A next state has these commands waiting and memory in its canonical form. -/
def Settles (waiting : List Instr) : Host.Outcome State Fault Refusal → Prop
  | .next s => s.Canon waiting
  | _ => True

theorem Settles.next (hs : s.Canon waiting) : Settles waiting (.next s) := hs

/-! ## Writes of memory -/

theorem State.Canon.clearHalf {die half : Nat} (hs : s.Canon waiting) :
    State.Canon waiting { s with mem := s.mem.clearHalf die half } :=
  ⟨hs.1, s.mem.clearHalf_wf die half hs.2⟩

theorem State.applyGranule_pending (s : State) (g : Nat) (x : Vec) (mask : BitVec 256) :
    (s.applyGranule g x mask).pending = s.pending := by
  have hce (t : State) (k n : Nat) : (t.ceHold k n).pending = t.pending := by
    simp only [State.ceHold, State.countEvent]
    repeat' split
    all_goals rfl
  simp only [State.applyGranule]
  repeat' split
  · exact hce _ _ _
  · exact hce _ _ _
  · rfl

/-! ## Shared operations of the state -/

theorem State.Canon.setTile {t : Nat} {x : Tile} (hs : s.Canon waiting) : (s.setTile t x).Canon waiting := .same hs

theorem State.Canon.modTile {t : Nat} {f : Tile → Tile} (hs : s.Canon waiting) : (s.modTile t f).Canon waiting :=
  .same hs

theorem State.Canon.emit {o : Output} (hs : s.Canon waiting) : (s.emit o).Canon waiting := .same hs

theorem State.Canon.emitAll {l : List Output} (hs : s.Canon waiting) : (s.emitAll l).Canon waiting := .same hs

theorem State.Canon.modDie {d : Nat} {f : DieRegs → DieRegs} (hs : s.Canon waiting) : (s.modDie d f).Canon waiting :=
  .same hs

theorem State.Canon.countEvent {scope inst ev n : Nat} (hs : s.Canon waiting) :
    (s.countEvent scope inst ev n).Canon waiting :=
  .ite (.same hs) hs

theorem State.Canon.countTile {t ev n : Nat} (hs : s.Canon waiting) : (s.countTile t ev n).Canon waiting :=
  .ite (.modTile hs) hs

theorem State.Canon.cause {b cycle die unit source : Nat} (hs : s.Canon waiting) :
    (s.cause b cycle die unit source).Canon waiting :=
  .ite (.same hs) hs

theorem State.Canon.tileCause {b t cycle : Nat} (hs : s.Canon waiting) : (s.tileCause b t cycle).Canon waiting :=
  .cause hs

theorem State.Canon.memCause {b key cycle : Nat} (hs : s.Canon waiting) : (s.memCause b key cycle).Canon waiting :=
  .ite (.tileCause hs) (.cause hs)

theorem State.Canon.stopClocks (hs : s.Canon waiting) : s.stopClocks.Canon waiting := .same hs

theorem State.Canon.spreadStop {fire : Option Nat} (hs : s.Canon waiting) : (s.spreadStop fire).Canon waiting :=
  .same hs

theorem State.Canon.noteStop {hazard : Bool} {tile code kind cycle : Nat} {tag : BitVec 64} {detail addr : Nat}
    (hs : s.Canon waiting) : (s.noteStop hazard tile code kind cycle tag detail addr).Canon waiting :=
  .same hs

theorem State.Canon.debugStop {hazard : Bool} {tile code kind cycle : Nat} {tag : BitVec 64} {detail addr : Nat}
    {fire : Option Nat} (hs : s.Canon waiting) :
    (s.debugStop hazard tile code kind cycle tag detail addr fire).Canon waiting :=
  .spreadStop (.cause (.update (.noteStop hs)))

theorem State.Canon.takeStop {hazard : Bool} {tile code kind cycle : Nat} {tag : BitVec 64} {detail addr : Nat}
    (hs : s.Canon waiting) : (s.takeStop hazard tile code kind cycle tag detail addr).Canon waiting :=
  .same hs

theorem State.Canon.hazard {tile code cycle detail addr : Nat} (hs : s.Canon waiting) :
    (s.hazard tile code cycle detail addr).Canon waiting :=
  .ite (.ite (.debugStop hs) (.ite (.takeStop hs) hs)) hs

theorem State.Canon.probe {signal index : Nat} (hs : s.Canon waiting) : (s.probe signal index).Canon waiting :=
  .ite (.foldl (fun _ _ ht => .emit ht) hs) hs

theorem State.Canon.ueHold {k n kind : Nat} (hs : s.Canon waiting) : (s.ueHold k n kind).Canon waiting := .same hs

theorem State.Canon.ceHold {k n : Nat} (hs : s.Canon waiting) : (s.ceHold k n).Canon waiting :=
  .ite hs (.countEvent (.modDie hs))

theorem State.Canon.applyGranule {g : Nat} {x : Vec} {mask : BitVec 256} (hs : s.Canon waiting) :
    (s.applyGranule g x mask).Canon waiting :=
  ⟨(s.applyGranule_pending g x mask).trans hs.1, s.applyGranule_wf g x mask hs.2⟩

theorem State.Canon.putGranule {g : Nat} {x : Vec} {mask : BitVec 256} (hs : s.Canon waiting) :
    (s.putGranule g x mask).Canon waiting :=
  .ite (.applyGranule hs) hs

theorem State.Canon.putBytes {g n : Nat} {l : List Byte} (hs : s.Canon waiting) : (s.putBytes g n l).Canon waiting := by
  induction n generalizing s g l with
  | zero => exact hs
  | succ n ih => exact ih (.putGranule hs)

theorem State.Canon.noteStoreUe {t w : Nat} (hs : s.Canon waiting) : (s.noteStoreUe t w).Canon waiting := .same hs

theorem State.Canon.readMem {w k n cycle : Nat} (hs : s.Canon waiting) :
    (s.readMem k n cycle : ReadResult w).state.Canon waiting :=
  .iteRead (.iteRead (.ite (.foldl (fun _ _ ht => .noteStoreUe ht)
    (.update (.memCause (.ueHold (.ite (.countTile (.ceHold hs)) (.ceHold hs))))))
    (.update (.memCause (.ueHold (.ite (.countTile (.ceHold hs)) (.ceHold hs))))))
    (.ite (.countTile (.ceHold hs)) (.ceHold hs))) hs

theorem State.Canon.setRegion {n : Nat} {r : Region} (hs : s.Canon waiting) : (s.setRegion n r).Canon waiting :=
  .same hs

theorem State.Canon.regionRead {num off n reader : Nat} {move : Bool} {key cycle : Nat} (hs : s.Canon waiting) :
    (s.regionRead num off n reader move key cycle).2.Canon waiting :=
  .itePair (.itePair (.setRegion hs) hs) (.hazard (.memCause (.same hs)))

theorem State.Canon.tileRead {w reader k n : Nat} {move : Bool} {cycle : Nat} (hs : s.Canon waiting) :
    (s.tileRead reader k n move cycle : ReadResult w).state.Canon waiting := by
  unfold State.tileRead
  split
  · exact .readMem hs
  · exact .iteRead (.readMem (.regionRead hs)) (.regionRead hs)

theorem State.Canon.setSlice {d n : Nat} {x : Slice} (hs : s.Canon waiting) : (s.setSlice d n x).Canon waiting :=
  .same hs

theorem State.Canon.queueRead {r : ReadReq} (hs : s.Canon waiting) : (s.queueRead r).Canon waiting := .same hs

theorem State.Canon.queueWrite {r : WriteReq} (hs : s.Canon waiting) : (s.queueWrite r).Canon waiting := .same hs

theorem State.Canon.addTerm {tensor : BitVec 16} {x : BitVec 64} (hs : s.Canon waiting) :
    (s.addTerm tensor x).Canon waiting :=
  .same hs

theorem State.Canon.draw (hs : s.Canon waiting) : s.draw.2.Canon waiting := .same hs

theorem State.Canon.wake (hs : s.Canon waiting) : s.wake.Canon waiting := .ite (.same hs) hs

theorem State.Canon.tcDiscard (hs : s.Canon waiting) : s.tcDiscard.Canon waiting := .same hs

theorem State.Canon.otherDrop {die : Nat} (hs : s.Canon waiting) : (s.otherDrop die).Canon waiting := .same hs

/-! ## Answers and commits -/

theorem State.Canon.setMbox {tr : Nat} {x : Mailbox} (hs : s.Canon waiting) : (s.setMbox tr x).Canon waiting :=
  .same hs

theorem State.Canon.answer {w : Waiting} {status : BitVec 16} {body : List Byte} (hs : s.Canon waiting) :
    (s.answer w status body).Canon waiting :=
  .ite (.setMbox hs) hs

theorem State.Canon.answerAll {l : List Waiting} {status : BitVec 16} {body : List Byte} (hs : s.Canon waiting) :
    (s.answerAll l status body).Canon waiting :=
  .foldl (fun _ _ ht => .answer ht) hs

theorem State.Canon.startCommit {type : Byte} {e : Effect} {a : After} (hs : s.Canon waiting) :
    (s.startCommit type e a).Canon waiting :=
  .ite hs (.same hs)

theorem State.Canon.commitFabric {a : After} (hs : s.Canon waiting) : (s.commitFabric a).Canon waiting :=
  .startCommit hs

theorem State.Canon.setFn {f : Nat} {x : Func} (hs : s.Canon waiting) : (s.setFn f x).Canon waiting := .same hs

theorem State.Canon.modFn {f : Nat} {g : Func → Func} (hs : s.Canon waiting) : (s.modFn f g).Canon waiting := .same hs

theorem State.Canon.msix {f v : Nat} (hs : s.Canon waiting) : (s.msix f v).Canon waiting := .same hs

/-! ## Measurements -/

theorem State.Canon.takeSnapshot (hs : s.Canon waiting) : s.takeSnapshot.Canon waiting := .same hs

/-! ## Operands -/

theorem State.Canon.report {t : Nat} {l : List Hazard} (hs : s.Canon waiting) : (s.report t l).Canon waiting := by
  unfold State.report
  split
  · exact hs
  · exact .hazard hs

theorem State.Canon.logAccess {t : Nat} {a : Access} (hs : s.Canon waiting) : (s.logAccess t a).Canon waiting :=
  .ite (.modTile hs) hs

/-! ## The matrix unit -/

theorem State.Canon.mxIssue {conv : Bool} {f : MxFields} {t : Nat} (hs : s.Canon waiting) :
    (mxIssue conv f t s).Canon waiting :=
  .ite (.modTile (.countTile (.countTile hs))) hs

/-! ## The vector unit -/

theorem State.Canon.gatherLane {t n off : Nat} {live : Bool} {a : List Word × List Nat × State}
    (ha : a.2.2.Canon waiting) : (gatherLane t a n off live).2.2.Canon waiting := by
  obtain ⟨out, bad, s⟩ := a
  refine .iteTriple (.iteTriple (.triple ?_) (.iteTriple (.triple ?_) (.triple (.readMem ?_)))) ha
  all_goals
    split
    · exact ha
    · exact .regionRead ha

theorem State.Canon.vxGather {t : Nat} {f : VxFields} (hs : s.Canon waiting) : (vxGather s t f).Canon waiting := by
  have hlanes : ∀ l : List Nat, ∀ a : List Word × List Nat × State, a.2.2.Canon waiting →
      (l.foldl (fun a n => Machine.gatherLane t a n (laneOffset (s.tile t) f n) (bit ((s.tile t).rm f.mask) n))
        a).2.2.Canon waiting := by
    intro l
    induction l with
    | nil => exact fun a ha => ha
    | cons n l ih => exact fun a ha => ih _ (.gatherLane ha)
  exact .modTile (.foldl (fun _ _ ht => .ite (.logAccess ht) ht) (hlanes _ _ hs))

theorem State.Canon.vxScatter {t : Nat} {f : VxFields} (hs : s.Canon waiting) : (vxScatter s t f).Canon waiting :=
  .foldl (fun _ _ ht => .logAccess ht) (.modTile hs)

theorem State.Canon.vxIssue {op : VxOp} {f : VxFields} {t : Nat} (hs : s.Canon waiting) :
    (vxIssue op f t s).Canon waiting := by
  refine .ite ?_ hs
  dsimp only
  split
  · exact .vxGather (.countTile hs)
  · exact .vxScatter (.countTile hs)
  · exact .modTile (.countTile hs)

/-! ## The other slots of a bundle -/

theorem State.Canon.loadNow {t reach : Nat} {dest : HingeDest} {data : Vec} (hs : s.Canon waiting) :
    (s.loadNow t reach dest data).Canon waiting :=
  .same hs

theorem State.Canon.loadOutside {t reach : Nat} {dest : HingeDest} (hs : s.Canon waiting) :
    (s.loadOutside t reach dest).Canon waiting :=
  .same hs

theorem State.Canon.logLoad {t reach k n : Nat} (hs : s.Canon waiting) : (s.logLoad t reach k n).Canon waiting :=
  .logAccess hs

theorem State.Canon.loadRequest {t reach k : Nat} {size : ReadSize} {dest : ReadDest} (hs : s.Canon waiting) :
    (s.loadRequest t reach k size dest).Canon waiting :=
  .same hs

theorem State.Canon.loadPlain {t reach : Nat} {a : HouseAddr} {n : Nat} {size : ReadSize} {dest : HingeDest}
    (hs : s.Canon waiting) : (s.loadPlain t reach a n size dest).Canon waiting := by
  unfold State.loadPlain
  split
  · exact .loadOutside hs
  · exact .ite (.logLoad (.loadNow (.tileRead hs))) (.logLoad (.loadRequest (.modTile hs)))

theorem State.Canon.loadStrided {t reach : Nat} {a : HouseAddr} {stride : BitVec 40} {dest : HingeDest}
    (hs : s.Canon waiting) : (s.loadStrided t reach a stride dest).Canon waiting := by
  have hcount {c d : Prop} [Decidable c] [Decidable d] :
      (if d then (if c then s.tcDiscard else s).tcDiscard else if c then s.tcDiscard else s).Canon waiting :=
    .ite (.tcDiscard (.ite (.tcDiscard hs) hs)) (.ite (.tcDiscard hs) hs)
  refine .ite (.loadNow ?_) (.ite (.loadNow hcount) ?_)
  · dsimp only
    split
    · split
      · exact hcount
      · exact .tileRead hcount
    · refine .tileRead ?_
      split
      · exact hcount
      · exact .tileRead hcount
  · dsimp only
    split
    · split
      · exact .modTile hcount
      · exact .logLoad (.loadRequest (.modTile hcount))
    · refine .logLoad (.loadRequest ?_)
      split
      · exact .modTile hcount
      · exact .logLoad (.loadRequest (.modTile hcount))

theorem State.Canon.loadTransposed {t reach : Nat} {a : HouseAddr} {b : BitVec 2} {row : BitVec 5} {wide : Bool}
    {half : BitVec 1} (hs : s.Canon waiting) : (s.loadTransposed t reach a b row wide half).Canon waiting := by
  unfold State.loadTransposed
  dsimp only
  split
  · exact .loadOutside hs
  · split
    · exact .countEvent (.modTile hs)
    · exact .foldl (fun _ _ ht => .logLoad (.loadRequest ht)) (.modTile hs)

theorem State.Canon.loadRefill {t : Nat} {granule : BitVec 7} (hs : s.Canon waiting) :
    (s.loadRefill t granule).Canon waiting :=
  .ite (.loadRequest (.modTile hs)) (.hazard (.tileCause (.same hs)))

theorem State.Canon.ldIssue {op : LdOp} {f : LdFields} {t : Nat} (hs : s.Canon waiting) :
    (ldIssue op f t s).Canon waiting := by
  refine .ite ?_ hs
  dsimp only
  split
  · exact .loadPlain (.countTile hs)
  · exact .loadPlain (.countTile hs)
  · exact .loadRefill (.countTile hs)
  · split
    · exact .loadPlain (.countTile hs)
    · exact .loadStrided (.countTile hs)
    · exact .loadTransposed (.countTile hs)
    · exact .loadTransposed (.countTile hs)

theorem State.Canon.stIssue {vec : Bool} {f : StFields} {t : Nat} (hs : s.Canon waiting) :
    (stIssue vec f t s).Canon waiting := by
  refine .ite ?_ hs
  dsimp only
  split
  · exact .tcDiscard (.countTile hs)
  · exact .ite (.modTile (.logAccess (.ite (.addTerm (.countTile hs)) (.countTile hs)))) (.queueWrite (.logAccess
      (.ite (.addTerm (.countTile hs)) (.countTile hs))))

theorem State.Canon.sendIssue {vec : Bool} {src due : BitVec 5} {dst : BitVec 10} {reg : BitVec 5} {t : Nat}
    (hs : s.Canon waiting) : (sendIssue vec src due dst reg t s).Canon waiting :=
  .ite (.tileCause (.tcDiscard (.countTile hs))) (.ite (.tcDiscard (.countTile hs))
    (.ite (.hazard (.modTile (.countTile hs))) (.modTile (.countTile hs))))

theorem State.Canon.redIssue {src due : BitVec 5} {group : BitVec 8} {t : Nat} (hs : s.Canon waiting) :
    (redIssue src due group t s).Canon waiting :=
  .ite (.tileCause (.modDie (.countTile hs))) (.update (.countTile hs))

theorem State.Canon.inject {port : BitVec 4} {p : Packet} (hs : s.Canon waiting) : (s.inject port p).Canon waiting := by
  unfold State.inject
  split
  · exact .same hs
  · exact .ite (.same hs) (.countEvent (.same hs))

theorem State.Canon.putIssue {src : BitVec 5} {region : BitVec 8} {t : Nat} (hs : s.Canon waiting) :
    (putIssue src region t s).Canon waiting := by
  unfold Machine.putIssue
  dsimp only
  split
  · exact .update (.countTile hs)
  · exact .update (.countTile hs)
  · exact .ite (.inject (.countTile hs)) (.otherDrop (.countTile hs))

theorem State.Canon.ctRdctl {sd sel : BitVec 5} {t : Nat} (hs : s.Canon waiting) :
    (ctRdctl sd sel t s).Canon waiting := by
  unfold Machine.ctRdctl
  split
  · exact hs
  · exact .modTile hs

theorem State.Canon.ctRand {vd sa : BitVec 5} {stream form : BitVec 2} {t : Nat} (hs : s.Canon waiting) :
    (ctRand vd sa stream form t s).Canon waiting :=
  .ite hs (.modTile hs)

/-! ## The end of a cycle -/

theorem State.Canon.lateRelease {t : Nat} {h : HingeItem} (hs : s.Canon waiting) : (s.lateRelease t h).Canon waiting :=
  .hazard (.countTile (.tileCause hs))

theorem State.Canon.hingeRelease {t : Nat} (hs : s.Canon waiting) : (s.hingeRelease t).Canon waiting :=
  .modTile (.foldl (fun _ _ ht => .ite (.probe ht) (.lateRelease ht)) hs)

theorem State.Canon.performWrite {t : Nat} {p : PendWrite} (hs : s.Canon waiting) :
    (s.performWrite t p).Canon waiting := by
  unfold State.performWrite
  split
  · exact .applyGranule hs
  · exact .ite (.tcDiscard hs) (.modTile hs)
  · exact .modTile hs

theorem State.Canon.performWrites {t c : Nat} (hs : s.Canon waiting) : (s.performWrites t c).Canon waiting :=
  .foldl (fun _ _ ht => .performWrite ht) (.modTile hs)

theorem State.Canon.endCycle {t : Nat} (hs : s.Canon waiting) : (s.endCycle t).Canon waiting :=
  .modTile (.performWrites (.modTile (.hingeRelease (.modTile (.report hs)))))

/-! ## The sequencer -/

/-- Running the slot's instruction keeps the queue and memory's form. -/
def SlotWork.Keeps (w : SlotWork) (waiting : List Instr) : Prop :=
  ∀ s : State, s.Canon waiting → (w.run s).Canon waiting

theorem SlotWork.Keeps.nop : SlotWork.nop.Keeps waiting := fun _ hs => hs

theorem mxSlot_keeps (b : Bundle) (t : Nat) : (mxSlot b t).Keeps waiting := by
  simp only [mxSlot]
  split
  · exact fun _ hs => .mxIssue hs
  · exact fun _ hs => .mxIssue hs
  · exact .nop

theorem vxSlot_keeps (b : Bundle) (t : Nat) : (vxSlot b t).Keeps waiting := by
  simp only [vxSlot]
  split
  · exact fun _ hs => .vxIssue hs
  · exact .nop

theorem ldSlot_keeps (b : Bundle) (t : Nat) : (ldSlot b t).Keeps waiting := by
  simp only [ldSlot]
  split
  · exact fun _ hs => .ldIssue hs
  · exact .nop

theorem stSlot_keeps (b : Bundle) (t : Nat) : (stSlot b t).Keeps waiting := by
  simp only [stSlot]
  split
  · exact fun _ hs => .stIssue hs
  · exact fun _ hs => .stIssue hs
  · exact .nop

theorem txSlot_keeps (b : Bundle) (t : Nat) : (txSlot b t).Keeps waiting := by
  simp only [txSlot]
  split
  · exact fun _ hs => .sendIssue hs
  · exact fun _ hs => .sendIssue hs
  · exact fun _ hs => .redIssue hs
  · exact fun _ hs => .putIssue hs
  · exact .nop

theorem ctSlot_keeps (b : Bundle) (t : Nat) : (ctSlot b t).Keeps waiting := by
  simp only [ctSlot]
  split
  case h_7 => exact fun _ hs => .ctRdctl hs
  case h_9 => exact fun _ hs => .ctRand hs
  case h_11 => exact .nop
  all_goals exact fun _ hs => .same hs

theorem bundleWork_keeps (b : Bundle) (t : Nat) : ∀ w ∈ bundleWork b t, w.Keeps waiting := by
  simp only [bundleWork, List.forall_mem_cons, List.not_mem_nil, false_implies, implies_true, and_true]
  exact ⟨mxSlot_keeps b t, vxSlot_keeps b t, ldSlot_keeps b t, stSlot_keeps b t, txSlot_keeps b t, ctSlot_keeps b t⟩

theorem State.Canon.issue {t : Nat} {l : List SlotWork} (hl : ∀ w ∈ l, w.Keeps waiting) (hs : s.Canon waiting) :
    (s.issue t l).Canon waiting := by
  have hrun : ∀ s : State, s.Canon waiting → (l.foldl (fun s w => w.run s) s).Canon waiting := by
    induction l with
    | nil => exact fun _ ht => ht
    | cons w l ih =>
      exact fun _ ht => ih (fun v hv => hl v (List.mem_cons_of_mem _ hv)) _ (hl w List.mem_cons_self _ ht)
  exact .report (hrun _ (.report hs))

theorem State.Canon.issueOne {t : Nat} {w : SlotWork} (hw : w.Keeps waiting) (hs : s.Canon waiting) :
    (s.issueOne t w).Canon waiting :=
  .ite (.issue (fun _ hv => List.mem_singleton.1 hv ▸ hw) hs) hs

theorem State.Canon.fetch {t : Nat} (hs : s.Canon waiting) : (s.fetch t).2.Canon waiting :=
  .itePair hs (.tileCause (.modTile hs))

theorem State.Canon.breakpoints {t : Nat} {tag : BitVec 64} (hs : s.Canon waiting) :
    (s.breakpoints t tag).Canon waiting := by
  refine .ite ?_ hs
  split
  · exact hs
  · exact .ite (.debugStop (.same hs)) (.ite (.takeStop (.same hs)) (.same hs))

theorem State.Canon.fetchIssue {t : Nat} (hs : s.Canon waiting) : (s.fetchIssue t).Canon waiting :=
  .ite (.breakpoints (.issue (bundleWork_keeps _ t) (.countTile (.same (.fetch hs))))) (.same hs)

theorem State.Canon.refillCheck {t : Nat} (hs : s.Canon waiting) : (s.refillCheck t).Canon waiting := by
  unfold State.refillCheck
  dsimp only
  split
  · exact hs
  · exact .ite hs (.hazard (.tileCause hs))

theorem State.Canon.entryArrives {t : Nat} {h : HingeItem} {data : Vec} (hs : s.Canon waiting) :
    (s.entryArrives t h data).Canon waiting :=
  .ite (.probe (.modTile hs)) (.hazard (.modTile hs))

theorem Settles.execHingeEntryArrival {tile : BitVec 10} {entry : Nat} (hs : s.Canon waiting) :
    Settles waiting (execHingeEntryArrival tile entry s) := by
  refine .next ?_
  split
  · exact hs
  · split
    · exact hs
    · exact .modTile hs
    · exact .ite (.countTile (.modTile hs)) (.ite (.modTile hs) (.entryArrives hs))

theorem State.Canon.setStretch {id : Nat} {x : Stretch} (hs : s.Canon waiting) : (s.setStretch id x).Canon waiting :=
  .ite (.modTile hs) (.same hs)

theorem State.Canon.overstretch {id : Nat} (hs : s.Canon waiting) : (s.overstretch id).Canon waiting :=
  .ite (.tileCause hs) (.ite (.cause hs) (.cause hs))

theorem Settles.execDroopDetect {island : BitVec 16} (hs : s.Canon waiting) :
    Settles waiting (execDroopDetect island s) :=
  .next (.ite (.ite (.overstretch (.probe (.ite (.countTile (.setStretch hs)) (.setStretch hs))))
    (.probe (.ite (.countTile (.setStretch hs)) (.setStretch hs)))) hs)

/-! ## Pieces that land -/

theorem State.Canon.stopMatch {num : Nat} {data : Vec} (hs : s.Canon waiting) :
    (s.stopMatch num data).Canon waiting := by
  unfold State.stopMatch
  split
  · exact hs
  · exact .ite (.same hs) hs

theorem State.Canon.cqDiscard (hs : s.Canon waiting) : s.cqDiscard.Canon waiting := .same hs

theorem State.Canon.overrunAt {num : Nat} {r : Region} {cycle : Nat} (hs : s.Canon waiting) :
    (s.overrunAt num r cycle).Canon waiting :=
  .ite (.update (.setRegion hs)) (.hazard (.memCause (.update (.setRegion hs))))

theorem State.Canon.landed {num : Nat} {data : Vec} {cycle : Nat} (hs : s.Canon waiting) :
    (s.landed num data cycle).Canon waiting :=
  .stopMatch (.setRegion hs)

theorem State.Canon.landPiece {num : Nat} {p : Piece} {cycle : Nat} (hs : s.Canon waiting) :
    (s.landPiece num p cycle).Canon waiting :=
  .ite (.landed (.applyGranule hs)) hs

theorem State.Canon.settleRegions {clean : Bool} (hs : s.Canon waiting) : (s.settleRegions clean).Canon waiting :=
  .ite (.same hs) (.same hs)

theorem State.Canon.consumeRegion {num : Nat} (hs : s.Canon waiting) : (s.consumeRegion num).Canon waiting :=
  .ite hs (.setRegion hs)

theorem State.Canon.landCommitted {num : Nat} {data : Vec} (hs : s.Canon waiting) :
    (s.landCommitted num data).Canon waiting :=
  .setRegion (.putGranule hs)

theorem State.Canon.landEngine {num : Nat} {data : Vec} (hs : s.Canon waiting) :
    (s.landEngine num data).Canon waiting :=
  .ite (.cqDiscard hs) (.ite (.overrunAt hs) (.landCommitted hs))

/-! ## Memory slices and reductions -/

theorem State.Canon.modInstance {k : Nat} {f : RedInstance → RedInstance} (hs : s.Canon waiting) :
    (s.modInstance k f).Canon waiting :=
  .same hs

theorem State.Canon.getResponse {p : Packet} {data : Vec} {error : Bool} (hs : s.Canon waiting) :
    (s.getResponse p data error).Canon waiting :=
  .inject hs

theorem State.Canon.deliver {die : Nat} {dest : ReadDest} {data : Vec} (hs : s.Canon waiting) :
    (s.deliver die dest data).Canon waiting := by
  unfold State.deliver
  split
  · exact .modTile hs
  · exact .modTile hs
  · exact .modInstance hs
  · exact .getResponse hs

theorem State.Canon.deliverNothing {die : Nat} {dest : ReadDest} (hs : s.Canon waiting) :
    (s.deliverNothing die dest).Canon waiting := by
  unfold State.deliverNothing
  split
  · exact .modTile hs
  · exact .modTile hs
  · exact .modInstance hs
  · exact hs

theorem State.Canon.readData {x : Slice} {r : ReadReq} {now : Nat} (hs : s.Canon waiting) :
    (s.readData x r now).2.Canon waiting := by
  unfold State.readData
  dsimp only
  split
  · exact .itePair (.readMem hs) (.readMem hs)
  · exact .readMem hs

theorem State.Canon.serveRefill {x : Slice} {r : ReadReq} {t id now : Nat} (hs : s.Canon waiting) :
    (s.serveRefill x r t id now).Canon waiting :=
  .ite (.deliver (.readData (.regionRead hs))) (.modTile (.regionRead hs))

theorem State.Canon.serveRegion {x : Slice} {r : ReadReq} {num t now : Nat} (hs : s.Canon waiting) :
    (s.serveRegion x r num t now).Canon waiting :=
  .ite (.deliver (.readData (.regionRead hs))) (.deliver (.regionRead hs))

theorem State.Canon.serveReduction {x : Slice} {r : ReadReq} {now : Nat} (hs : s.Canon waiting) :
    (s.serveReduction x r now).Canon waiting :=
  .ite (.deliverNothing (.readData hs)) (.deliver (.readData hs))

theorem State.Canon.serveRead {x : Slice} {r : ReadReq} {now : Nat} (hs : s.Canon waiting) :
    (s.serveRead x r now).Canon waiting := by
  unfold State.serveRead
  dsimp only
  split
  · refine .ite (.serveRefill (.countEvent hs)) ?_
    split
    · exact .serveRegion (.countEvent hs)
    · exact .deliver (.readData (.countEvent hs))
  · split
    · exact .serveRegion (.countEvent hs)
    · exact .deliver (.readData (.countEvent hs))
  · exact .serveReduction (.countEvent hs)
  · exact .getResponse (.readData (.countEvent hs))
  · exact .deliver (.readData (.countEvent hs))

theorem State.Canon.applyWrite {w : WriteReq} (hs : s.Canon waiting) : (s.applyWrite w).Canon waiting :=
  .ite hs (.countEvent (.applyGranule hs))

theorem State.Canon.expireOne {d n now : Nat} {e : Nat × WriteReq} (hs : s.Canon waiting) :
    (State.expireOne d n now s e).Canon waiting := by
  refine .ite hs ?_
  split
  · exact .ite (.landed (.applyWrite (.setSlice hs))) hs
  · exact .applyWrite (.setSlice hs)

theorem State.Canon.expireWindow {d n now : Nat} (hs : s.Canon waiting) : (s.expireWindow d n now).Canon waiting :=
  .foldl (fun _ _ ht => .expireOne ht) hs

theorem State.Canon.collide {d n : Nat} (hs : s.Canon waiting) : (s.collide d n).Canon waiting :=
  .ite hs (.countEvent (.modDie hs))

theorem State.Canon.acceptWrite {d n : Nat} {w : WriteReq} {now : Nat} (hs : s.Canon waiting) :
    (s.acceptWrite d n w now).Canon waiting :=
  .ite (.collide (.setSlice hs)) (.collide hs)

theorem State.Canon.stampPieces {d n now : Nat} (hs : s.Canon waiting) : (s.stampPieces d n now).Canon waiting :=
  .same hs

theorem State.Canon.takeWaiting {d n : Nat} {v0 : WaitingWrite} (hs : s.Canon waiting) :
    (s.takeWaiting d n v0).Canon waiting := by
  unfold State.takeWaiting
  split
  · exact .setSlice hs
  · exact .same hs

theorem State.Canon.acceptWaiting {d n now : Nat} {v0 : WaitingWrite} (hs : s.Canon waiting) :
    (s.acceptWaiting d n now v0).Canon waiting := by
  unfold State.acceptWaiting
  split
  · exact .ite (.acceptWrite hs) hs
  · exact .ite (.cqDiscard hs) (.ite (.overrunAt hs) (.ite (.acceptWrite hs) hs))

theorem State.Canon.serveWrite {d n now : Nat} (hs : s.Canon waiting) : (s.serveWrite d n now).Canon waiting := by
  refine .ite hs ?_
  split
  · exact hs
  · exact .ite hs (.acceptWaiting (.setSlice (.takeWaiting hs)))

theorem State.Canon.serveReadAt {d n now : Nat} (hs : s.Canon waiting) : (s.serveReadAt d n now).Canon waiting := by
  unfold State.serveReadAt
  dsimp only
  split
  · exact hs
  · exact .ite hs (.serveRead (.setSlice hs))

theorem Settles.execSliceRequestServe {die : BitVec 2} {slice : BitVec 8} {write : Bool} {now : Nat}
    (hs : s.Canon waiting) : Settles waiting (execSliceRequestServe die slice write now s) :=
  .next (.ite (.serveWrite (.stampPieces (.expireWindow hs))) (.serveReadAt (.expireWindow hs)))

theorem State.Canon.dropped {d n now : Nat} (hs : s.Canon waiting) : (s.dropped d n now).Canon waiting :=
  .hazard (.cause (.countEvent (.modDie hs)))

theorem State.Canon.dropWaiting {v0 : WaitingWrite} (hs : s.Canon waiting) : (s.dropWaiting v0).Canon waiting := by
  unfold State.dropWaiting
  split
  · exact hs
  · exact .setRegion hs

theorem State.Canon.dropWrite {d n now : Nat} (hs : s.Canon waiting) : (s.dropWrite d n now).Canon waiting := by
  unfold State.dropWrite
  split
  · exact hs
  · refine .ite ?_ hs
    split
    · exact .ite (.cqDiscard (.takeWaiting hs)) (.dropped (.dropWaiting (.takeWaiting hs)))
    · exact .dropped (.takeWaiting hs)

theorem State.Canon.dropRead {d n now : Nat} (hs : s.Canon waiting) : (s.dropRead d n now).Canon waiting := by
  unfold State.dropRead
  dsimp only
  split
  · exact hs
  · exact .ite (.dropped (.deliverNothing (.setSlice hs))) hs

theorem Settles.execPieceLanding {piece : PieceArrival} (hs : s.Canon waiting) :
    Settles waiting (execPieceLanding piece s) := by
  refine .next ?_
  dsimp only
  split
  · exact .expireWindow hs
  · split
    · exact hs
    · exact .ite (.cqDiscard (.same hs)) (.ite (.overrunAt (.same hs)) (.ite (.landPiece (.same hs)) hs))

theorem State.Canon.groupMissing {k cycle : Nat} (hs : s.Canon waiting) : (s.groupMissing k cycle).Canon waiting :=
  .cause hs

theorem State.Canon.redDiscard {k : Nat} (hs : s.Canon waiting) : (s.redDiscard k).Canon waiting := .same hs

theorem State.Canon.openInstance {k : Nat} {c : Contribution} (hs : s.Canon waiting) :
    (s.openInstance k c).Canon waiting :=
  .ite (.queueRead (.same hs)) (.same hs)

theorem State.Canon.contribute {k : Nat} {c : Contribution} {now : Nat} (hs : s.Canon waiting) :
    (s.contribute k c now).Canon waiting := by
  refine .ite (.modDie hs) (.ite (.groupMissing (.redDiscard hs)) ?_)
  split
  · exact .ite (.groupMissing (.redDiscard hs)) (.openInstance hs)
  · exact .ite (.groupMissing (.redDiscard hs)) (.ite (.redDiscard hs) (.ite (.groupMissing (.redDiscard hs))
      (.modInstance hs)))

theorem Settles.execReductionContribution {die : BitVec 2} {group : BitVec 8} {now : Nat} (hs : s.Canon waiting) :
    Settles waiting (execReductionContribution die group now s) := by
  refine .next ?_
  dsimp only
  split
  · exact hs
  · exact .contribute (.same hs)

theorem State.Canon.closeInstance {k : Nat} (hs : s.Canon waiting) : (s.closeInstance k).Canon waiting := .same hs

theorem State.Canon.closeEmpty {k : Nat} (hs : s.Canon waiting) : (s.closeEmpty k).Canon waiting :=
  .countEvent (.closeInstance hs)

theorem State.Canon.closeSum {k : Nat} {i : RedInstance} {base : Vec} (hs : s.Canon waiting) :
    (s.closeSum k i base).Canon waiting :=
  .queueWrite (.countEvent (.closeInstance hs))

theorem Settles.execReductionClose {die : BitVec 2} {group : BitVec 8} {now : Nat} (hs : s.Canon waiting) :
    Settles waiting (execReductionClose die group now s) := by
  refine .next ?_
  split
  · exact hs
  · refine .ite hs (.ite (.hazard (.groupMissing (.closeEmpty hs))) (.ite (.ite (.closeEmpty hs) ?_) (.closeSum hs)))
    split
    · exact hs
    · exact .closeSum hs

/-! ## Half-layers and the scrub -/

theorem State.Canon.setGate {die half : Nat} {x : BitVec 2} (hs : s.Canon waiting) :
    (s.setGate die half x).Canon waiting :=
  .same hs

theorem State.Canon.gateNow {r : GateRequest} (hs : s.Canon waiting) : (s.gateNow r).Canon waiting :=
  .ite (.ite (.setGate hs) hs) (.ite (.setGate hs) hs)

theorem State.Canon.gateAnswer {die half : Nat} {up : Bool} (hs : s.Canon waiting) :
    (s.gateAnswer die half up).Canon waiting :=
  .answerAll (.same hs)

theorem State.Canon.gateOn {die half : Nat} (hs : s.Canon waiting) : (s.gateOn die half).Canon waiting :=
  .ite (.gateAnswer (.setGate (.clearHalf hs))) hs

theorem State.Canon.gateRecess (hs : s.Canon waiting) : s.gateRecess.Canon waiting :=
  .foldl (fun _ _ ht => .gateOn ht) (.foldl (fun _ _ ht => .gateNow ht) (.same hs))

theorem State.Canon.askSlot {block : Nat} (hs : s.Canon waiting) : (s.askSlot block).Canon waiting := by
  unfold State.askSlot
  split
  · exact hs
  · dsimp only
    split
    · exact hs
    · exact .ite hs (.wake (.same hs))

theorem State.Canon.askRestore {block : Nat} (hs : s.Canon waiting) : (s.askRestore block).Canon waiting := by
  unfold State.askRestore
  split
  · exact .askSlot hs
  · exact .ite hs (.wake (.same hs))

theorem State.Canon.reportScrub {key : Nat} (hs : s.Canon waiting) : (s.reportScrub key).Canon waiting :=
  .ite hs (.ite (.same hs) (.emit hs))

theorem State.Canon.scrubDie {die : Nat} (hs : s.Canon waiting) : (s.scrubDie die).Canon waiting :=
  .modDie (.foldl (fun _ _ ht => .reportScrub (.askRestore (.ueHold ht))) (.ceHold (.same hs)))

theorem State.Canon.scrub (hs : s.Canon waiting) : s.scrub.Canon waiting := .foldl (fun _ _ ht => .scrubDie ht) hs

/-! ## Records of the host -/

theorem State.Canon.violate {fn kind : Nat} {bar2 : Bool} {offset : Nat} (hs : s.Canon waiting) :
    (s.violate fn kind bar2 offset).Canon waiting :=
  .same hs

theorem State.Canon.ingressWrite {f o : Nat} {bytes : List Byte} (hs : s.Canon waiting) :
    (s.ingressWrite f o bytes).Canon waiting :=
  .ite (.violate hs) (.setFn (.same hs))

theorem State.Canon.consume {f : Nat} {r : Rec} (hs : s.Canon waiting) : (s.consume f r).Canon waiting := .same hs

theorem State.Canon.discardRec {f : Nat} {r : Rec} (hs : s.Canon waiting) : (s.discardRec f r).Canon waiting :=
  .same hs

theorem State.Canon.dropMalformed {f n : Nat} (hs : s.Canon waiting) : (s.dropMalformed f n).Canon waiting := by
  induction n generalizing s with
  | zero => exact hs
  | succ n ih =>
    unfold State.dropMalformed
    split
    · exact .ite hs (ih (.discardRec hs))
    · exact hs

theorem State.Canon.writeEntry {f : Nat} {e : Entry} (hs : s.Canon waiting) : (s.writeEntry f e).Canon waiting :=
  .modFn (.ite (.update (.emit hs)) (.emit hs))

theorem State.Canon.writeEntries {f : Nat} {l : List Entry} (hs : s.Canon waiting) :
    (s.writeEntries f l).Canon waiting := by
  induction l generalizing s with
  | nil => exact .same hs
  | cons e l ih => exact .ite (ih (.writeEntry hs)) (.same hs)

theorem State.Canon.readConsumed {f : Nat} {l : List (Nat × Word)} (hs : s.Canon waiting) :
    (s.readConsumed f l).Canon waiting :=
  .same hs

theorem State.Canon.beginEgress {f : Nat} {env : Surroundings} (hs : s.Canon waiting) :
    (s.beginEgress f env).Canon waiting :=
  .same hs

theorem State.Canon.egressVector {f : Nat} {fence : Bool} (hs : s.Canon waiting) :
    (s.egressVector f fence).Canon waiting :=
  .ite hs (.ite (.modFn hs) (.ite (.msix (.modFn hs)) hs))

theorem State.Canon.egressFn {f : Nat} {l : List (Nat × Word)} (hs : s.Canon waiting) :
    (s.egressFn f l).Canon waiting :=
  .egressVector (.writeEntries (.update (.readConsumed hs)))

theorem State.Canon.queueEntry {f : Nat} {id value extra : Word} {kind : Byte} {slot : Nat} (hs : s.Canon waiting) :
    (s.queueEntry f id value extra kind slot).Canon waiting :=
  .same hs

theorem State.Canon.writeMirror {f : Nat} (hs : s.Canon waiting) : (s.writeMirror f).Canon waiting :=
  .modFn (.ite (.msix (.ite (.emit hs) hs)) (.ite (.emit hs) hs))

/-! ## Routes -/

theorem State.Canon.modRouter {die : Nat} {f : Router → Router} (hs : s.Canon waiting) :
    (s.modRouter die f).Canon waiting :=
  .same hs

theorem State.Canon.setLink {l : Nat} {x : Link} (hs : s.Canon waiting) : (s.setLink l x).Canon waiting := .same hs

theorem State.Canon.sendLink {l : Nat} {p : Packet} (hs : s.Canon waiting) : (s.sendLink l p).Canon waiting :=
  .ite (.otherDrop hs) (.setLink hs)

theorem State.Canon.undrain (hs : s.Canon waiting) : s.undrain.Canon waiting :=
  .foldl (fun _ _ ht => .sendLink ht) (.same hs)

/-! ## Adjacency -/

theorem State.Canon.restLink {l : Nat} {x : Link} (hs : s.Canon waiting) : (s.restLink l x).Canon waiting := .same hs

theorem State.Canon.modRoll {l : Nat} {f : RollEntry → RollEntry} (hs : s.Canon waiting) :
    (s.modRoll l f).Canon waiting :=
  .same hs

/-! ## Relocation -/

theorem State.Canon.install {n : Nat} {r : Region} (hs : s.Canon waiting) : (s.install n r).Canon waiting :=
  .ite (.setRegion hs) (.setRegion hs)

theorem State.Canon.installStore {im : Image} (hs : s.Canon waiting) : (s.installStore im).Canon waiting :=
  .install hs

/-! ## Checks of an image -/

theorem State.Canon.faultBody {f : LoadFault} (hs : s.Canon waiting) : (s.faultBody f).2.Canon waiting := .draw hs

/-! ## The loader -/

theorem State.Canon.readArea {k n : Nat} (hs : s.Canon waiting) :
    (s.readArea k n : List Byte × State).2.Canon waiting := by
  induction n generalizing s k with
  | zero => exact hs
  | succ n ih => exact ih (.ite (.same (.ceHold hs)) (.ceHold hs))

theorem State.Canon.setBundles {im : Image} {lesson tile : Nat} (hs : s.Canon waiting) :
    (s.setBundles im lesson tile).2.Canon waiting := by
  unfold State.setBundles
  split
  · exact hs
  · split
    · exact hs
    · exact .readArea hs

theorem State.Canon.fillHalves {im : Image} (hs : s.Canon waiting) : (s.fillHalves im).Canon waiting :=
  .foldl (fun _ _ ht => .modTile (.itePair (.setBundles (.setBundles ht)) (.setBundles ht))) hs

theorem State.Canon.installRefills {im : Image} (hs : s.Canon waiting) : (s.installRefills im).Canon waiting :=
  .foldl (fun _ _ ht => .setRegion (.install ht)) hs

theorem State.Canon.pointRefill {im : Image} {lesson : Option Nat} {t : Nat} (hs : s.Canon waiting) :
    (s.pointRefill im lesson t).Canon waiting :=
  .ite (.setRegion hs) hs

theorem State.Canon.pointRefills {im : Image} {lesson : Option Nat} (hs : s.Canon waiting) :
    (s.pointRefills im lesson).Canon waiting :=
  .foldl (fun _ _ ht => .pointRefill ht) hs

theorem State.Canon.loadGroups {im : Image} {bank : Nat} {lesson : Option Nat} (hs : s.Canon waiting) :
    (s.loadGroups im bank lesson).Canon waiting :=
  .same hs

theorem State.Canon.loadRings {im : Image} {bank : Nat} {lesson : Option Nat} (hs : s.Canon waiting) :
    (s.loadRings im bank lesson).Canon waiting :=
  .same hs

theorem State.Canon.loadBank {im : Image} {bank : Nat} {lesson : Option Nat} (hs : s.Canon waiting) :
    (s.loadBank im bank lesson).Canon waiting :=
  .same hs

theorem State.Canon.installAll {im : Image} (hs : s.Canon waiting) : (s.installAll im).Canon waiting :=
  .foldl (fun _ _ ht => .install ht) hs

theorem State.Canon.installJob {im : Image} {second : Option Nat} (hs : s.Canon waiting) :
    (s.installJob im second).Canon waiting :=
  .loadBank (.loadBank (.update (.installAll (.installRefills (.fillHalves hs)))))

theorem State.Canon.swapBanks {im : Image} {next afterNext : Option Nat} (hs : s.Canon waiting) :
    (s.swapBanks im next afterNext).Canon waiting :=
  .ite (.loadBank (.pointRefills (.update (.foldl (fun _ _ ht => .modTile ht) hs))))
    (.update (.foldl (fun _ _ ht => .modTile ht) hs))

theorem State.Canon.writeSetGranule {im : Image} {x : Section} {index id g : Nat} {v : Vec} (hs : s.Canon waiting) :
    (s.writeSetGranule im x index id g v).Canon waiting :=
  .foldl (fun _ _ ht => .putGranule ht) (.same hs)

theorem State.Canon.closeSet {x : Section} {id : Nat} (hs : s.Canon waiting) : (s.closeSet x id).Canon waiting :=
  .ite (.ite (.same hs) (.same hs)) hs

theorem State.Canon.writeFrame {im : Image} {x : Section} {index id g : Nat} {l : List Vec} (hs : s.Canon waiting) :
    (s.writeFrame im x index id g l).Canon waiting := by
  induction l generalizing s g with
  | nil => exact hs
  | cons v l ih => exact ih (.writeSetGranule hs)

theorem State.Canon.processFrame {f : BundleFrame} (hs : s.Canon waiting) : (s.processFrame f).Canon waiting := by
  unfold State.processFrame
  dsimp only
  split
  · exact .same hs
  · split
    · exact .same hs
    · split
      · exact .same hs
      · exact .ite (.closeSet (.writeFrame hs)) (.same hs)

theorem State.Canon.takeFrame {im : Image} {f : BundleFrame} (hs : s.Canon waiting) :
    (s.takeFrame im f).Canon waiting :=
  .consumeRegion (.processFrame (.foldl (fun _ _ ht => .landCommitted ht) hs))

theorem Settles.execBundleFrame {f : BundleFrame} (hs : s.Canon waiting) : Settles waiting (execBundleFrame f s) := by
  refine .next ?_
  split
  · exact hs
  · exact .ite (.emit (.takeFrame hs)) hs

/-! ## The registrar -/

theorem State.Canon.setCtx {n : Nat} {c : Ctx} (hs : s.Canon waiting) : (s.setCtx n c).Canon waiting := .same hs

theorem State.Canon.chooseFree {n : Nat} {used : Nat → Bool} (hs : s.Canon waiting) :
    (s.chooseFree n used).2.Canon waiting :=
  .draw hs

theorem State.Canon.endRequest {n : Nat} {reason : Byte} (hs : s.Canon waiting) :
    (s.endRequest n reason).Canon waiting :=
  .ite (.update (.setCtx hs)) hs

theorem State.Canon.closeRequest {n : Nat} {reason : Byte} (hs : s.Canon waiting) :
    (s.closeRequest n reason).Canon waiting :=
  .ite (.update (.setCtx hs)) hs

theorem State.Canon.flrEnd {n : Nat} (hs : s.Canon waiting) : (s.flrEnd n).Canon waiting := .ite (.setCtx hs) hs

theorem State.Canon.refuse {f : Nat} {id : Word} {reason detail : Byte} (hs : s.Canon waiting) :
    (s.refuse f id reason detail).Canon waiting :=
  .same hs

theorem State.Canon.cancelRec {f : Nat} {r : Rec} (hs : s.Canon waiting) : (s.cancelRec f r).Canon waiting := by
  unfold State.cancelRec
  dsimp only
  split
  · exact .endRequest (.consume hs)
  · split
    · exact .refuse (.consume (.consume hs))
    · exact .update (.consume hs)

theorem State.Canon.cancelFn {f : Nat} (hs : s.Canon waiting) : (s.cancelFn f).Canon waiting :=
  .foldl (fun _ _ ht => .cancelRec ht) hs

theorem State.Canon.endsOutside {own : Bool} (hs : s.Canon waiting) : (s.endsOutside own).Canon waiting :=
  .update (.foldl (fun _ _ ht => .ite ht (.endRequest ht))
    (.foldl (fun _ _ ht => .modFn ht) (.foldl (fun _ _ ht => .ite (.flrEnd ht) ht)
    (.ite (.foldl (fun _ _ ht => .cancelFn ht) hs) hs))))

theorem State.Canon.modSlot {k : Nat} {g : AdapterSlot → AdapterSlot} (hs : s.Canon waiting) :
    (s.modSlot k g).Canon waiting :=
  .same hs

theorem State.Canon.retire (hs : s.Canon waiting) : s.retire.Canon waiting :=
  .foldl (fun _ _ ht => .ite (.ite (.setCtx ht) (.modSlot (.setCtx ht))) ht) hs

theorem State.Canon.growTables {im : Image} {n k : Nat} (hs : s.Canon waiting) :
    (s.growTables im n k).Canon waiting := by
  induction k generalizing s with
  | zero => exact hs
  | succ k ih =>
    have hchoose := State.Canon.chooseFree (n := servingPageBlocks im) (used := s.sv.tableUsed) hs
    unfold State.growTables
    refine .ite ?_ hs
    split
    · next hfree =>
      rw [hfree] at hchoose
      exact ih (.setCtx hchoose)
    · next hfree =>
      rw [hfree] at hchoose
      exact hchoose

theorem State.Canon.growPages {im : Image} {n positions k : Nat} (hs : s.Canon waiting) :
    (s.growPages im n positions k).Canon waiting := by
  induction k generalizing s with
  | zero => exact hs
  | succ k ih =>
    unfold State.growPages
    refine .ite ?_ hs
    split
    · exact ih (.same hs)
    · exact hs

theorem State.Canon.linkStep {im : Image} {e : StepEnd} (hs : s.Canon waiting) : (s.linkStep im e).Canon waiting :=
  .ite hs (.growTables (.growPages (.setCtx hs)))

theorem State.Canon.linkAdvances {im : Image} (hs : s.Canon waiting) : (s.linkAdvances im).Canon waiting :=
  .foldl (fun _ _ ht => .linkStep ht) (.update (.emit hs))

theorem State.Canon.consumeAppends {im : Image} (hs : s.Canon waiting) : (s.consumeAppends im).Canon waiting :=
  .foldl (fun _ _ ht => .consumeRegion ht) hs

theorem State.Canon.registerFrom {n b k : Nat} (hs : s.Canon waiting) : (s.registerFrom n b k).Canon waiting := by
  induction k generalizing s b with
  | zero => exact hs
  | succ k ih =>
    refine ih ?_
    split
    · exact .ite (.same hs) (.same hs)
    · exact hs

theorem State.Canon.registerPages {before : State} (hs : s.Canon waiting) : (s.registerPages before).Canon waiting :=
  .foldl (fun _ _ ht => .registerFrom ht) hs

theorem State.Canon.pauseResume (hs : s.Canon waiting) : s.pauseResume.Canon waiting := .same hs

theorem State.Canon.nameSlot {k : Nat} {a : Word} {g : BitVec 16} {t : BitVec 12} (hs : s.Canon waiting) :
    (s.nameSlot k a g t).Canon waiting :=
  .same hs

theorem State.Canon.bindSlot {k : Nat} {a : Word} {g : BitVec 16} {t : BitVec 12} {pins refs : Nat}
    (hs : s.Canon waiting) : (s.bindSlot k a g t pins refs).Canon waiting :=
  .modSlot (.ite (.same hs) (.emitAll (.nameSlot (.same hs))))

theorem State.Canon.admitOne {im : Image} {f : Nat} {id : Word} {b : OpenRec} (hs : s.Canon waiting) :
    ∀ t ∈ s.admitOne im f id b, t.Canon waiting := by
  intro u hu
  unfold State.admitOne at hu
  simp only [Option.mem_def] at hu
  split at hu
  · cases hu
  · split at hu
    · next n s' _ hfree =>
      have hs' : s'.Canon waiting := by
        have h : State.Canon waiting (s.chooseFree 131072 fun n => (s.ctx n).state != .free).2 := .chooseFree hs
        rwa [hfree] at h
      rw [Option.ite_none_left_eq_some] at hu
      rw [← Option.some.inj hu.2]
      exact .ite (.growTables (.setCtx (.keepMem hs'))) (.bindSlot (.growTables (.setCtx (.keepMem hs'))))
    · cases hu

theorem State.Canon.admitFirst {im : Image} (hs : s.Canon waiting) : ∀ t ∈ s.admitFirst im, t.Canon waiting := by
  intro u hu
  simp only [State.admitFirst, Option.mem_def] at hu
  split at hu
  · cases hu
  · split at hu
    · rw [← Option.some.inj hu]
      exact .refuse (.consume hs)
    · obtain ⟨t, ht, rfl⟩ := Option.map_eq_some_iff.1 hu
      exact .consume (hs.admitOne t ht)

theorem State.Canon.admitAll {im : Image} {n : Nat} (hs : s.Canon waiting) : (s.admitAll im n).Canon waiting := by
  induction n generalizing s with
  | zero => exact hs
  | succ n ih =>
    unfold State.admitAll
    split
    · exact hs
    · next hfirst => exact ih (hs.admitFirst _ hfirst)

theorem State.Canon.pinOne {im : Image} {p : PinRequest} (hs : s.Canon waiting) : (s.pinOne im p).Canon waiting := by
  unfold State.pinOne
  split
  · exact .answer hs
  · refine .ite ?_ ?_
    · split
      · exact .same hs
      · exact .answer (.bindSlot hs)
    · split
      · exact .answer hs
      · exact .answer (.modSlot hs)

theorem State.Canon.bindAll {im : Image} (hs : s.Canon waiting) : (s.bindAll im).Canon waiting :=
  .foldl (fun _ _ ht => .pinOne ht) (.same hs)

theorem State.Canon.fillSlots {im : Image} (hs : s.Canon waiting) : (s.fillSlots im).Canon waiting :=
  .update (.foldl (fun _ _ ht => .modSlot ht) hs)

theorem State.Canon.slotStep {im : Image} (hs : s.Canon waiting) : (s.slotStep im).Canon waiting :=
  .fillSlots (.same hs)

theorem State.Canon.appendRec {im : Image} {f : Nat} {r : Rec} (hs : s.Canon waiting) :
    (s.appendRec im f r).Canon waiting := by
  unfold State.appendRec
  dsimp only
  split
  · exact .ite (.consume (.setCtx hs)) (.discardRec hs)
  · exact .ite hs (.discardRec hs)

theorem State.Canon.appendFn {im : Image} {f : Nat} (hs : s.Canon waiting) : (s.appendFn im f).Canon waiting :=
  .foldl (fun _ _ ht => .appendRec ht) hs

theorem State.Canon.appendAll {im : Image} (hs : s.Canon waiting) : (s.appendAll im).Canon waiting :=
  .foldl (fun _ _ ht => .appendFn ht) hs

theorem State.Canon.putRun {k n : Nat} {l : List Byte} (hs : s.Canon waiting) : (s.putRun k l n).Canon waiting := by
  induction n generalizing s k l with
  | zero => exact hs
  | succ n ih => exact .ite hs (ih (.putGranule hs))

theorem State.Canon.putTable {k : Nat} {l : List Byte} (hs : s.Canon waiting) : (s.putTable k l).Canon waiting :=
  .putRun hs

theorem State.Canon.buildTables {im : Image} (hs : s.Canon waiting) : (s.buildTables im).Canon waiting :=
  .foldl (fun _ _ ht => .foldl (fun _ _ ht => .emit (.putTable ht)) ht) (.emit (.putTable hs))

theorem State.Canon.storeRecords {before : Serving} (hs : s.Canon waiting) : (s.storeRecords before).Canon waiting := by
  unfold State.storeRecords
  split
  · exact hs
  · exact .ite (.foldl (fun _ _ ht => .ite ht (.putTable ht)) hs) hs

theorem State.Canon.endsFirst {im : Image} {own : Bool} (hs : s.Canon waiting) : (s.endsFirst im own).Canon waiting :=
  .endsOutside (.foldl (fun _ _ ht => .endRequest ht) hs)

theorem State.Canon.termWork {im : Image} (hs : s.Canon waiting) : (s.termWork im).Canon waiting :=
  .buildTables (.bindAll (.appendAll (.admitAll (.pauseResume
    (.registerPages (.linkAdvances (.retire (.endsFirst hs))))))))

theorem State.Canon.place {im : Image} {p : PlacementRec} (hs : s.Canon waiting) : (s.place im p).Canon waiting := by
  unfold State.place
  dsimp only
  split
  · split
    · exact .cancelRec hs
    · exact hs
  · split
    · exact .setCtx hs
    · exact hs
  · split
    · exact .refuse (.consume hs)
    · exact hs
  · split
    · exact hs
    · exact .consume (.ite (.growTables (.setCtx (.same hs))) (.bindSlot (.growTables (.setCtx (.same hs)))))

theorem State.Canon.termFollow {im : Image} {l : List PlacementRec} (hs : s.Canon waiting) :
    (s.termFollow im l).Canon waiting := by
  unfold State.termFollow
  dsimp only
  generalize hpages : State.registerPages _ _ = t
  have ht : t.Canon waiting := hpages ▸ .registerPages (.linkAdvances (.retire (.endsFirst hs)))
  exact .buildTables (.bindAll (.appendAll (.foldl (fun _ _ ht => .place ht) ht.same)))

theorem State.Canon.closeAll {reason : Byte} (hs : s.Canon waiting) : (s.closeAll reason).Canon waiting :=
  .foldl (fun _ _ ht => .refuse (.consume ht)) (.foldl (fun _ _ ht => .closeRequest ht) hs)

theorem State.Canon.commitServing (hs : s.Canon waiting) : s.commitServing.Canon waiting := .storeRecords (.same hs)

theorem State.Canon.rollbackServing (hs : s.Canon waiting) : s.rollbackServing.Canon waiting := .same hs

/-! ## Host traffic -/

theorem State.Canon.unserved {f : Nat} {r : Rec} (hs : s.Canon waiting) : (s.unserved f r).Canon waiting :=
  .ite (.refuse (.consume hs)) (.discardRec hs)

theorem State.Canon.unservedAll {f : Nat} (hs : s.Canon waiting) : (s.unservedAll f).Canon waiting :=
  .ite hs (.foldl (fun _ _ ht => .unserved ht) hs)

theorem Settles.execReqOpen {fn : BitVec 6} (hs : s.Canon waiting) : Settles waiting (execReqOpen fn s) := by
  refine .next ?_
  split
  · exact hs
  · refine .ite (.ite (.unserved hs) hs) ?_
    split
    · refine .ite ?_ hs
      cases hfirst : s.admitFirst _ with
      | none => exact hs
      | some t => exact hs.admitFirst t hfirst
    · exact hs

theorem Settles.execReqAppend {fn : BitVec 6} (hs : s.Canon waiting) : Settles waiting (execReqAppend fn s) := by
  refine .next (.ite hs (.ite ?_ ?_))
  · split
    · exact .unserved hs
    · exact hs
  · split
    · exact .appendRec hs
    · exact hs

theorem Settles.execReqCancel {fn : BitVec 6} (hs : s.Canon waiting) : Settles waiting (execReqCancel fn s) := by
  refine .next ?_
  split
  · exact hs
  · exact .ite (.ite (.cancelRec hs) hs) (.ite (.unserved hs) hs)

theorem State.Canon.countStray {t : Transfer} (hs : s.Canon waiting) : (s.countStray t).Canon waiting :=
  .ite hs (.otherDrop hs)

theorem State.Canon.modTransfer {f slot : Nat} {g : Transfer → Transfer} (hs : s.Canon waiting) :
    (s.modTransfer f slot g).Canon waiting :=
  .same hs

theorem State.Canon.startTransfer {f : Nat} {r : Rec} (hs : s.Canon waiting) : (s.startTransfer f r).Canon waiting :=
  .ite hs (.modFn (.ite (.countStray hs) hs))

theorem State.Canon.putData {f slot n : Nat} {host : HostMem} (hs : s.Canon waiting) :
    (s.putData f slot host n).Canon waiting := by
  induction n generalizing s with
  | zero => exact hs
  | succ n ih =>
    unfold State.putData
    split
    · exact hs
    · refine .ite hs <| .ite (.modTransfer hs) <| .ite (.modTransfer hs) <| .ite hs ?_
      split
      · exact .modTransfer hs
      · exact ih (.modTransfer (.ite (.landCommitted hs) (.putGranule hs)))

theorem State.Canon.sendFrame {im : Image} {slot : Nat} {f : BundleFrame} (hs : s.Canon waiting) :
    (s.sendFrame im slot f).Canon waiting :=
  .modTransfer (.ite (.ite (.takeFrame hs) (.consumeRegion (.foldl (fun _ _ ht => .landCommitted ht) hs)))
    (.emit (.ite (.takeFrame hs) (.consumeRegion (.foldl (fun _ _ ht => .landCommitted ht) hs)))))

theorem State.Canon.putFrames {im : Image} {slot n : Nat} {host : HostMem} (hs : s.Canon waiting) :
    (s.putFrames im slot host n).Canon waiting := by
  induction n generalizing s with
  | zero => exact hs
  | succ n ih =>
    unfold State.putFrames
    split
    · exact hs
    · refine .ite hs <| .ite (.ite (.modTransfer hs) hs) ?_
      split
      · exact .modTransfer hs
      · refine .ite (ih (.modTransfer (.same hs))) ?_
        split
        · exact .modTransfer hs
        · exact .ite (ih (.sendFrame hs)) hs

theorem State.Canon.runTransfer {f : Nat} {t : Transfer} {host : HostMem} (hs : s.Canon waiting) :
    (s.runTransfer f t host).Canon waiting := by
  refine .ite ?_ (.putData (.wake hs))
  split
  · exact .putFrames (.wake hs)
  · exact .wake hs

theorem Settles.execDataPut {fn : BitVec 6} {run : PutRun} (hs : s.Canon waiting) :
    Settles waiting (execDataPut fn run s) := by
  refine .next (.ite ?_ hs)
  dsimp only
  split
  · exact .putData (.wake (.foldl (fun _ _ ht => .startTransfer ht) hs))
  · exact .foldl (fun _ _ ht => .startTransfer ht) hs

theorem Settles.execTtBlock {env : Surroundings} (hs : s.Canon waiting) : Settles waiting (execTtBlock env s) := by
  refine .next (.ite ?_ hs)
  dsimp only
  split
  · exact .runTransfer (.foldl (fun _ _ ht => .startTransfer ht) hs)
  · exact .foldl (fun _ _ ht => .startTransfer ht) hs

theorem State.Canon.completeEntry {f : Nat} {t : Transfer} (hs : s.Canon waiting) :
    (s.completeEntry f t).Canon waiting :=
  .same hs

theorem State.Canon.completeAll {f : Nat} (hs : s.Canon waiting) : (s.completeAll f).Canon waiting :=
  .foldl (fun _ _ ht => .completeEntry ht) hs

theorem Settles.execTransferComplete {fn : BitVec 6} (hs : s.Canon waiting) :
    Settles waiting (execTransferComplete fn s) := by
  refine .next ?_
  dsimp only
  split
  · exact .egressFn (.completeEntry (.ite (.foldl (fun _ _ ht => .startTransfer ht) hs) hs))
  · exact .ite (.foldl (fun _ _ ht => .startTransfer ht) hs) hs

theorem State.Canon.fenceFn {f : Nat} (hs : s.Canon waiting) : (s.fenceFn f).Canon waiting := by
  unfold State.fenceFn
  split
  · exact hs
  · exact .ite (.queueEntry (.draw hs)) hs

theorem State.Canon.takeRecords {f : Nat} {env : Surroundings} (hs : s.Canon waiting) :
    (s.takeRecords f env).Canon waiting :=
  .completeAll (.ite (.foldl (fun _ _ ht => .runTransfer ht)
    (.foldl (fun _ _ ht => .startTransfer ht) (.unservedAll (.dropMalformed hs))))
    (.foldl (fun _ _ ht => .startTransfer ht) (.unservedAll (.dropMalformed hs))))

theorem State.Canon.fences {f n : Nat} (hs : s.Canon waiting) : (s.fences f n).Canon waiting := by
  induction n generalizing s with
  | zero => exact hs
  | succ n ih => exact .ite (.fenceFn (.dropMalformed hs)) (ih (.egressFn (.fenceFn (.dropMalformed hs))))

theorem State.Canon.copyCounters (hs : s.Canon waiting) : s.copyCounters.Canon waiting := .same hs

theorem State.Canon.tickFn {env : Surroundings} {f : Nat} (hs : s.Canon waiting) : (s.tickFn env f).Canon waiting :=
  .writeMirror (.ite (.fences (.egressFn (.takeRecords (.beginEgress hs))))
    (.egressVector (.readConsumed (.beginEgress hs))))

theorem Settles.execServiceTick {env : Surroundings} (hs : s.Canon waiting) : Settles waiting (execServiceTick env s) :=
  .next (.ite (.ite (.foldl (fun _ _ ht => .tickFn ht) hs) (.copyCounters (.foldl (fun _ _ ht => .tickFn ht) hs))) hs)

/-! ## Power -/

theorem State.Canon.settleStep (hs : s.Canon waiting) : s.settleStep.Canon waiting := .ite hs (.same hs)

theorem State.Canon.thermalRecess (hs : s.Canon waiting) : s.thermalRecess.Canon waiting :=
  .ite (.ite (.same hs) (.same hs)) (.ite (.same hs) hs)

theorem State.Canon.holdLimit (hs : s.Canon waiting) : s.holdLimit.Canon waiting := by
  unfold State.holdLimit
  split
  · exact hs
  · exact .answerAll (.same hs)

theorem State.Canon.holdStep (hs : s.Canon waiting) : s.holdStep.Canon waiting := .answerAll (.same hs)

/-! ## The bell -/

theorem State.Canon.sendBell {kind : BitVec 4} {to_ : FabricAddr} {b : List Byte} (hs : s.Canon waiting) :
    (s.sendBell kind to_ b).Canon waiting :=
  .inject (.same hs)

theorem State.Canon.sendChildren {kind : BitVec 4} {b : List Byte} (hs : s.Canon waiting) :
    (s.sendChildren kind b).Canon waiting :=
  .foldl (fun _ _ ht => .sendBell ht) hs

theorem State.Canon.giveResult {part : FabricAddr} {opcode status : BitVec 16} {body : List Byte} (hs : s.Canon waiting)
    : (s.giveResult part opcode status body).Canon waiting :=
  .ite (.same hs) hs

theorem State.Canon.answerJob {status : BitVec 16} {body : List Byte} (hs : s.Canon waiting) :
    (s.answerJob status body).Canon waiting :=
  .answerAll (.same hs)

theorem State.Canon.clearSlice (hs : s.Canon waiting) : s.clearSlice.Canon waiting := .update (.undrain hs)

theorem State.Canon.leavePair (hs : s.Canon waiting) : s.leavePair.Canon waiting := by
  refine .update ?_
  split
  · exact .emit hs
  · exact hs

theorem State.Canon.releaseJob {a : After} (hs : s.Canon waiting) : (s.releaseJob a).Canon waiting :=
  .commitFabric (.clearSlice (.leavePair (.same hs)))

theorem State.Canon.applyCounters {b : List Byte} (hs : s.Canon waiting) : (s.applyCounters b).Canon waiting :=
  .ite (.same hs) (.same hs)

theorem State.Canon.countersDue (hs : s.Canon waiting) : s.countersDue.Canon waiting :=
  .foldl (fun _ _ ht => .answer (.applyCounters ht)) (.same hs)

theorem State.Canon.unpair (hs : s.Canon waiting) : s.unpair.Canon waiting :=
  .ite hs (.answerAll (.leavePair (.same hs)))

theorem State.Canon.egressAll {l : List (Nat × Word)} (hs : s.Canon waiting) : (s.egressAll l).Canon waiting :=
  .foldl (fun _ _ ht => .egressFn ht) hs

theorem State.Canon.abortTransfers (hs : s.Canon waiting) : s.abortTransfers.Canon waiting :=
  .foldl (fun _ _ ht => .completeAll (.modFn ht)) hs

theorem State.Canon.closeServing {phase : Phase} (hs : s.Canon waiting) : (s.closeServing phase).Canon waiting :=
  .ite (.closeAll hs) hs

theorem State.Canon.answerEnded (hs : s.Canon waiting) : s.answerEnded.Canon waiting := by
  have hheld : s.holdLimit.settleStep.holdStep.countersDue.unpair.Canon waiting :=
    .unpair (.countersDue (.holdStep (.settleStep (.holdLimit hs))))
  unfold State.answerEnded
  exact .ite (.answerJob (.gateRecess (.answerAll (.keepMem hheld))))
    (.ite (.gateRecess (.answerAll (.keepMem hheld))) (.answerJob (.gateRecess (.answerAll (.keepMem hheld)))))

theorem State.Canon.faultVectors (hs : s.Canon waiting) : s.faultVectors.Canon waiting :=
  .foldl (fun _ _ ht => .msix ht) hs

theorem State.Canon.fence {l : List (Nat × BitVec 4)} (hs : s.Canon waiting) : (s.fence l).Canon waiting :=
  .ite hs (.msix (.startCommit (.same hs)))

theorem State.Canon.fenceAtBell (hs : s.Canon waiting) : s.fenceAtBell.Canon waiting := .fence (.same hs)

theorem State.Canon.abandon (hs : s.Canon waiting) : s.abandon.Canon waiting :=
  .ite (.update (.fenceAtBell (.settleRegions (.rollbackServing hs)))) hs

theorem State.Canon.endJob {phase : Phase} {code : Byte} (hs : s.Canon waiting) : (s.endJob phase code).Canon waiting := by
  have hclose {t : State} (ht : t.Canon waiting) :
      (((t.egressAll []).closeServing phase).abortTransfers.egressAll []).Canon waiting :=
    .egressAll (.abortTransfers (.closeServing (.egressAll ht)))
  unfold State.endJob
  exact .ite (.releaseJob (.answerEnded (.ite (.faultVectors (hclose (.keepMem (.abandon hs))))
      (hclose (.keepMem (.abandon hs))))))
    (.answerEnded (.ite (.faultVectors (hclose (.keepMem (.abandon hs)))) (hclose (.keepMem (.abandon hs)))))

theorem State.Canon.tellAll {l : List FabricAddr} {m : FwMessage} (hs : s.Canon waiting) :
    (s.tellAll l m).Canon waiting :=
  .same hs

theorem State.Canon.endEverywhere {phase : Phase} {code : Byte} (hs : s.Canon waiting) :
    (s.endEverywhere phase code).Canon waiting := by
  unfold State.endEverywhere
  exact .endJob (.ite (.tellAll (.tellAll hs)) (.tellAll hs))

theorem State.Canon.endHere {phase : Phase} {code : Byte} (hs : s.Canon waiting) :
    (s.endHere phase code).Canon waiting :=
  .ite (.endEverywhere hs) (.endJob hs)

theorem State.Canon.fault {code : Byte} (hs : s.Canon waiting) : (s.fault code).Canon waiting :=
  .ite (.ite (.endEverywhere hs) (.emit hs)) hs

theorem State.Canon.rootVerdict {g : GatherStatus} (hs : s.Canon waiting) : (s.rootVerdict g).Canon waiting :=
  .sendChildren (.same hs)

theorem State.Canon.tryGather (hs : s.Canon waiting) : s.tryGather.Canon waiting := by
  unfold State.tryGather
  split
  · exact hs
  · refine .ite (.ite hs (.rootVerdict hs)) ?_
    split
    · exact hs
    · exact .sendBell (.same hs)

theorem State.Canon.gatherSend (hs : s.Canon waiting) : s.gatherSend.Canon waiting := by
  refine .ite (.tryGather (.update ?_)) hs
  split
  · exact .hazard (.cause hs)
  · exact hs

theorem State.Canon.relayGather (hs : s.Canon waiting) : s.relayGather.Canon waiting := .ite (.tryGather hs) hs

theorem State.Canon.rejoin {p : Packet} (hs : s.Canon waiting) : (s.rejoin p).Canon waiting := .ite (.same hs) hs

theorem State.Canon.noteBell {p : Packet} (hs : s.Canon waiting) : (s.noteBell p).Canon waiting := .same hs

theorem Settles.execBellGather {p : Packet} (hs : s.Canon waiting) : Settles waiting (execBellGather p s) :=
  .next (.ite (.tryGather (.update (.noteBell (.ite (.rejoin hs) hs)))) (.ite (.rejoin hs) hs))

theorem State.Canon.takeNotice {v : Vec} (hs : s.Canon waiting) : (s.takeNotice v).Canon waiting := .ite hs (.same hs)

theorem State.Canon.passNotice {p : Packet} (hs : s.Canon waiting) : (s.passNotice p).Canon waiting := by
  refine .ite (.takeNotice hs) (.ite hs ?_)
  split
  · exact .inject (.same hs)
  · exact hs

/-! ## Records of the store -/

theorem State.Canon.recordMap {a : After} (hs : s.Canon waiting) : (s.recordMap a).Canon waiting := .startCommit hs

theorem State.Canon.loadRoutes {w : Waiting} {b : List Byte} (hs : s.Canon waiting) :
    (s.loadRoutes w b).Canon waiting :=
  .commitFabric (.update (.foldl (fun _ _ ht => .modRouter ht) hs))

theorem State.Canon.routeSetNow {w : Waiting} {b : List Byte} (hs : s.Canon waiting) :
    (s.routeSetNow w b).Canon waiting :=
  .ite (.loadRoutes hs) (.answer hs)

theorem State.Canon.routeStep (hs : s.Canon waiting) : s.routeStep.Canon waiting :=
  .foldl (fun _ _ ht => .routeSetNow ht) (.same hs)

/-! ## The recess -/

theorem State.Canon.applyReader (hs : s.Canon waiting) : s.applyReader.Canon waiting := by
  unfold State.applyReader
  split
  · split
    · exact .ite hs (.install hs)
    · exact hs
  · exact hs

theorem State.Canon.restoreHit (hs : s.Canon waiting) : s.restoreHit.Canon waiting :=
  .foldl (fun _ _ ht => .askRestore ht) (.same hs)

theorem State.Canon.commitStep (hs : s.Canon waiting) : s.commitStep.Canon waiting :=
  .update (.applyReader (.settleRegions (.commitServing hs)))

theorem State.Canon.rollbackStep (hs : s.Canon waiting) : s.rollbackStep.Canon waiting :=
  .restoreHit (.settleRegions (.rollbackServing hs))

theorem State.Canon.consumeStages (hs : s.Canon waiting) : s.consumeStages.Canon waiting := by
  unfold State.consumeStages
  split
  · exact .ite (.foldl (fun _ _ ht => .consumeRegion ht) hs) hs
  · exact hs

theorem State.Canon.egressStep {env : Surroundings} (hs : s.Canon waiting) : (s.egressStep env).Canon waiting :=
  .gateRecess (.consumeStages (.foldl (fun _ _ ht => .fences (.egressFn ht))
    (.foldl (fun _ _ ht => .takeRecords ht) (.foldl (fun _ _ ht => .beginEgress ht) hs))))

theorem State.Canon.tryPlacement (hs : s.Canon waiting) : s.tryPlacement.Canon waiting := by
  refine .ite ?_ hs
  split
  · exact .ite (.update (.takeSnapshot (.storeRecords (.termFollow hs)))) hs
  · exact hs

theorem State.Canon.sendPlacement {before : Serving} (hs : s.Canon waiting) :
    (s.sendPlacement before).Canon waiting := by
  unfold State.sendPlacement
  split
  · exact .ite (.emit hs) hs
  · exact hs

theorem State.Canon.termStep {im : Image} (hs : s.Canon waiting) : (s.termStep im).Canon waiting :=
  .ite (.tryPlacement hs) (.sendPlacement (.storeRecords (.termWork hs)))

theorem State.Canon.registrarStep {im : Image} (hs : s.Canon waiting) : (s.registrarStep im).Canon waiting :=
  .ite (.ite (.termStep (.ite (.consumeAppends (.same hs)) (.same hs)))
    (.storeRecords (.appendAll (.ite (.consumeAppends (.same hs)) (.same hs)))))
    (.ite (.consumeAppends (.same hs)) (.same hs))

theorem State.Canon.mirrors (hs : s.Canon waiting) : s.mirrors.Canon waiting :=
  .foldl (fun _ _ ht => .writeMirror ht) hs

theorem State.Canon.sampleCounters (hs : s.Canon waiting) : s.sampleCounters.Canon waiting := .same hs

theorem State.Canon.sumFlag {flag : Nat} {bell : BitVec 40} {part : FabricAddr} {tile : BitVec 10}
    (hs : s.Canon waiting) : (s.sumFlag flag bell part tile).Canon waiting :=
  .ite (.same hs) hs

theorem State.Canon.sumFlags (hs : s.Canon waiting) : s.sumFlags.Canon waiting :=
  .ite (.foldl (fun _ _ ht => .sumFlag ht) hs) (.emit (.foldl (fun _ _ ht => .sumFlag ht) hs))

theorem State.Canon.digestStep (hs : s.Canon waiting) : s.digestStep.Canon waiting := .same hs

theorem State.Canon.trySlice (hs : s.Canon waiting) : s.trySlice.Canon waiting := by
  refine .ite ?_ hs
  dsimp only
  split
  · exact .emit (.same hs)
  · exact .same hs

theorem State.Canon.giveDigest (hs : s.Canon waiting) : s.giveDigest.Canon waiting :=
  .ite (.trySlice (.same hs)) (.emit hs)

theorem State.Canon.compareSlices (hs : s.Canon waiting) : s.compareSlices.Canon waiting := by
  unfold State.compareSlices
  split
  · exact .ite (.endEverywhere (.same hs)) hs
  · exact hs

theorem State.Canon.counterStep {clean : Bool} (hs : s.Canon waiting) : (s.counterStep clean).Canon waiting :=
  .ite (.ite (.giveDigest (.digestStep (.sumFlags (.sampleCounters hs))))
    (.digestStep (.sumFlags (.sampleCounters hs)))) (.update (.sampleCounters hs))

theorem State.Canon.noteVerdict {g : GatherStatus} (hs : s.Canon waiting) : (s.noteVerdict g).Canon waiting :=
  .same hs

theorem State.Canon.measure {index watts : Nat} {clean : Bool} (hs : s.Canon waiting) :
    (s.measure index watts clean).Canon waiting :=
  .ite (.same hs) hs

theorem State.Canon.dirtyCheck {fenced : Bool} (hs : s.Canon waiting) : (s.dirtyCheck fenced).Canon waiting :=
  .ite (.ite (.fault hs) hs) (.ite (.fault hs) (.ite (.fault hs) hs))

theorem State.Canon.moveOn {im : Image} {next : Option Nat} (hs : s.Canon waiting) : (s.moveOn im next).Canon waiting :=
  .same hs

theorem State.Canon.slotAndSwap {im : Image} {next : Option Nat} (hs : s.Canon waiting) :
    (s.slotAndSwap im next).Canon waiting :=
  .swapBanks (.ite (.slotStep hs) hs)

theorem State.Canon.recessClean {env : Surroundings} (hs : s.Canon waiting) : (s.recessClean env).Canon waiting := by
  unfold State.recessClean
  split
  · exact hs
  · exact .ite (.endHere (.unpair (.counterStep (.scrub (.thermalRecess (.slotAndSwap (.mirrors (.takeSnapshot
      (.registrarStep (.egressStep (.moveOn (.commitStep (.measure hs))))))))))))) (.ite (.endHere (.unpair
      (.counterStep (.scrub (.thermalRecess (.slotAndSwap (.mirrors (.takeSnapshot (.registrarStep (.egressStep
      (.moveOn (.commitStep (.measure hs))))))))))))) (.ite (.endHere (.unpair (.counterStep (.scrub (.thermalRecess
      (.slotAndSwap (.mirrors (.takeSnapshot (.registrarStep (.egressStep (.moveOn (.commitStep (.measure
      hs))))))))))))) (.unpair (.counterStep (.scrub (.thermalRecess (.slotAndSwap (.mirrors (.takeSnapshot
      (.registrarStep (.egressStep (.moveOn (.commitStep (.measure hs))))))))))))))

theorem State.Canon.recessRest {env : Surroundings} (hs : s.Canon waiting) : (s.recessRest env).Canon waiting := by
  unfold State.recessRest
  exact .unpair (.counterStep (.scrub (.thermalRecess (.mirrors (.egressStep (.same hs))))))

theorem State.Canon.stopDirty {all : Bool} (hs : s.Canon waiting) : (s.stopDirty all).Canon waiting :=
  .ite (.endEverywhere hs) hs

theorem State.Canon.recessDirty {env : Surroundings} (hs : s.Canon waiting) : (s.recessDirty env).Canon waiting :=
  .stopDirty (.ite (.update (.ite (.recessRest (.rollbackStep (.fenceAtBell hs)))
    (.update (.rollbackStep (.fenceAtBell hs))))) (.dirtyCheck
    (.ite (.recessRest (.rollbackStep (.fenceAtBell hs))) (.update (.rollbackStep (.fenceAtBell hs))))))

theorem State.Canon.performVerdict {g : GatherStatus} {env : Surroundings} (hs : s.Canon waiting) :
    (s.performVerdict g env).Canon waiting :=
  .ite (.recessClean (.noteVerdict hs)) (.recessDirty (.noteVerdict hs))

theorem State.Canon.tryReady (hs : s.Canon waiting) : s.tryReady.Canon waiting := by
  unfold State.tryReady
  split
  · exact hs
  · refine .ite (.stopDirty hs) ?_
    split
    · exact hs
    · exact .sendBell hs

theorem State.Canon.tellWidth (hs : s.Canon waiting) : s.tellWidth.Canon waiting := .ite (.emit hs) hs

theorem State.Canon.relayVerdict {g : GatherStatus} (hs : s.Canon waiting) : (s.relayVerdict g).Canon waiting :=
  .ite (.tellWidth (.same hs)) (.tryReady (.tellWidth (.same hs)))

theorem Settles.execBellVerdict {p : Packet} {env : Surroundings} (hs : s.Canon waiting) :
    Settles waiting (execBellVerdict p env s) := by
  refine .next (.ite ?_ (.ite (.ite (.relayVerdict (.sendChildren (.noteBell (.ite (.rejoin hs) hs)))) (.ite
    (.performVerdict (.sendChildren (.noteBell (.ite (.rejoin hs) hs)))) (.sendChildren (.noteBell (.ite (.rejoin hs)
    hs))))) (.ite (.rejoin hs) hs)))
  split
  · exact .ite (.performVerdict hs) hs
  · exact hs

theorem State.Canon.partQuiet {a : FabricAddr} (hs : s.Canon waiting) : (s.partQuiet a).Canon waiting :=
  .ite (.answerAll (.same hs)) (.same hs)

theorem State.Canon.reportQuiet (hs : s.Canon waiting) : s.reportQuiet.Canon waiting :=
  .ite (.partQuiet (.tellAll (.same hs))) (.tellAll (.same hs))

theorem Settles.execReadySend {env : Surroundings} (hs : s.Canon waiting) : Settles waiting (execReadySend env s) :=
  .next (.ite (.tryReady (.update (.ite (.reportQuiet (.foldl (fun _ _ ht => .takeRecords ht)
    (.ite (.recessRest (.ite (.tryPlacement hs) hs)) (.ite (.tryPlacement hs) hs))))
    (.foldl (fun _ _ ht => .takeRecords ht) (.ite (.recessRest (.ite (.tryPlacement hs) hs))
    (.ite (.tryPlacement hs) hs)))))) (.ite (.tryReady (.ite (.reportQuiet (.ite (.tryPlacement hs) hs))
    (.ite (.tryPlacement hs) hs))) (.ite (.tryPlacement hs) hs)))

theorem Settles.execDrainQuiet (hs : s.Canon waiting) : Settles waiting (execDrainQuiet s) := by
  refine .next (.ite (.ite ?_ (.ite (.tryReady (.reportQuiet hs)) (.reportQuiet hs))) hs)
  split
  · exact .ite (.reportQuiet hs) (.tryReady (.update (.reportQuiet hs)))
  · exact hs

theorem State.Canon.passRelease {r : Release} (hs : s.Canon waiting) : (s.passRelease r).Canon waiting :=
  .sendChildren (.update (.routeStep hs))

theorem State.Canon.issueRelease {r : Release} (hs : s.Canon waiting) : (s.issueRelease r).Canon waiting :=
  .passRelease hs

theorem State.Canon.finishStart (hs : s.Canon waiting) : s.finishStart.Canon waiting := by
  refine .ite ?_ (.issueRelease ?_)
  · split
    · exact .ite (.termStep hs) hs
    · exact hs
  · split
    · exact .ite (.termStep hs) hs
    · exact hs

theorem Settles.execReleaseIssue {elapsed : Nat} (hs : s.Canon waiting) :
    Settles waiting (execReleaseIssue elapsed s) := by
  refine .next (.ite (.finishStart hs) (.ite ?_ hs))
  split
  · exact .ite (.issueRelease hs) hs
  · exact hs

theorem State.Canon.relayRelease {r : Release} (hs : s.Canon waiting) : (s.relayRelease r).Canon waiting :=
  .undrain (.same hs)

theorem State.Canon.releaseTile {bell : BitVec 40} {before : Nat → Island} {t : Nat} (hs : s.Canon waiting) :
    (s.releaseTile bell before t).Canon waiting :=
  .ite hs (.ite (.modTile hs) (.countTile (.modTile hs)))

theorem State.Canon.releaseIsles {bell : BitVec 40} {old : State} (hs : s.Canon waiting) :
    (s.releaseIsles bell old).Canon waiting :=
  .update (.foldl (fun _ _ ht => .releaseTile ht) hs)

theorem State.Canon.releaseFabric (hs : s.Canon waiting) : s.releaseFabric.Canon waiting := .undrain (.same hs)

theorem State.Canon.releaseBell {r : Release} (hs : s.Canon waiting) : (s.releaseBell r).Canon waiting := .same hs

theorem State.Canon.bellBreak (hs : s.Canon waiting) : s.bellBreak.Canon waiting :=
  .ite (.stopClocks (.cause (.same hs))) hs

theorem State.Canon.releaseProbes (hs : s.Canon waiting) : s.releaseProbes.Canon waiting :=
  .ite (.ite (.foldl (fun _ _ ht => .probe ht) hs) hs) hs

theorem Settles.execTileRelease (hs : s.Canon waiting) : Settles waiting (execTileRelease s) := by
  refine .next ?_
  split
  · exact hs
  · refine .ite (.bellBreak ?_) hs
    have h {t : State} (ht : t.Canon waiting) : t.releaseFabric.countersDue.releaseProbes.Canon waiting :=
      .releaseProbes (.countersDue (.releaseFabric ht))
    exact .ite (h (.releaseIsles (.releaseBell (.holdStep (.holdLimit (.keepMem hs))))))
      (.ite (.answerJob (h (.releaseIsles (.releaseBell (.holdStep (.holdLimit (.keepMem hs)))))))
        (.keepMem (h (.releaseIsles (.releaseBell (.holdStep (.holdLimit (.keepMem hs))))))))

/-! ## The fabric -/

theorem State.Canon.hop {die : Nat} {negative entered : Bool} {p : Packet} (hs : s.Canon waiting) :
    (s.hop die negative entered p).Canon waiting :=
  .sendLink hs

theorem State.Canon.routeDrop {die check : Nat} (hs : s.Canon waiting) : (s.routeDrop die check).Canon waiting :=
  .countEvent (.modRouter hs)

theorem State.Canon.markCheck {die port : Nat} {p : Packet} (hs : s.Canon waiting) :
    (s.markCheck die port p).Canon waiting :=
  .ite (.cause hs) hs

theorem State.Canon.deliverPacket {die port : Nat} {p : Packet} (hs : s.Canon waiting) :
    (s.deliverPacket die port p).Canon waiting :=
  .update (.countEvent (.markCheck hs))

theorem State.Canon.queuePacket {die : BitVec 2} {port : BitVec 4} {p : Packet} (hs : s.Canon waiting) :
    (s.queuePacket die port p).Canon waiting :=
  .same hs

theorem State.Canon.forward {die port : Nat} {p : Packet} (hs : s.Canon waiting) :
    (s.forward die port p).Canon waiting := by
  refine .ite (.deliverPacket hs) (.ite (.deliverPacket (.countEvent (.modRouter hs))) ?_)
  split
  · exact .hop (.countEvent (.modRouter hs))
  · exact .hop (.countEvent (.modRouter hs))
  · split
    · exact .queuePacket (.countEvent (.modRouter hs))
    · exact .deliverPacket (.countEvent (.modRouter hs))

theorem State.Canon.freeFlits {die port : Nat} {p : Packet} (hs : s.Canon waiting) :
    (s.freeFlits die port p).Canon waiting :=
  .ite (.setLink hs) hs

theorem State.Canon.routePacket {die port : Nat} {p : Packet} (hs : s.Canon waiting) :
    (s.routePacket die port p).Canon waiting := by
  unfold State.routePacket
  dsimp only
  split
  · exact .forward (.freeFlits hs)
  · exact .routeDrop (.freeFlits hs)

theorem State.Canon.atCycle {now : Nat} (hs : s.Canon waiting) : (s.atCycle now).Canon waiting := .same hs

theorem State.Canon.arrive {die : BitVec 2} {port : BitVec 4} {p : Packet} {now : Nat} (hs : s.Canon waiting) :
    (s.arrive die port p now).Canon waiting :=
  .ite (.atCycle hs) (.queuePacket (.atCycle hs))

theorem Settles.execPacketRoute {die : BitVec 2} {port : BitVec 4} {a : PacketArrival} (hs : s.Canon waiting) :
    Settles waiting (execPacketRoute die port a s) := by
  refine .next (.ite hs ?_)
  dsimp only
  split
  · exact .arrive hs
  · exact .ite (.routePacket (.update (.arrive hs))) (.arrive hs)

theorem State.Canon.takePacket {p : Packet} (hs : s.Canon waiting) : (s.takePacket p).Canon waiting := .same hs

theorem State.Canon.addPiece {p : Piece} (hs : s.Canon waiting) : (s.addPiece p).Canon waiting := .same hs

theorem State.Canon.issueGet {b : List Byte} {i n : Nat} (hs : s.Canon waiting) : (s.issueGet b i n).Canon waiting := by
  unfold State.issueGet
  dsimp only
  split
  · exact .otherDrop (.same hs)
  · exact .inject (.same hs)

theorem Settles.execGetReqIssue {now : Nat} (hs : s.Canon waiting) : Settles waiting (execGetReqIssue now s) := by
  refine .next ?_
  split
  · exact hs
  · refine .ite ?_ hs
    split
    · exact hs
    · exact .ite (.issueGet (.atCycle hs)) hs

theorem State.Canon.nearRead {k cycle margin : Nat} (hs : s.Canon waiting) :
    (s.nearRead k cycle margin).Canon waiting := by
  unfold State.nearRead
  split
  · exact .hazard hs
  · exact hs

theorem Settles.execGetReq {p : Packet} {now : Nat} (hs : s.Canon waiting) : Settles waiting (execGetReq p now s) :=
  .next (.ite (.ite (.queueRead (.nearRead (.takePacket hs))) (.getResponse (.readMem (.nearRead (.takePacket hs)))))
    hs)

theorem Settles.execGetResp {p : Packet} (hs : s.Canon waiting) : Settles waiting (execGetResp p s) :=
  .next (.ite (.ite (.addPiece (.ite (.cause (.ite (.update (.takePacket hs)) (.takePacket hs)))
    (.ite (.update (.takePacket hs)) (.takePacket hs)))) (.otherDrop (.takePacket hs))) hs)

theorem Settles.execMcast {p : Packet} (hs : s.Canon waiting) : Settles waiting (execMcast p s) :=
  .next (.ite (.update (.takePacket hs)) (.ite (.foldl (fun _ _ ht => .hop ht)
    (.ite (.takePacket hs) (.addPiece (.takePacket hs)))) hs))

theorem State.Canon.modRing {r : Nat} {f : RingRun → RingRun} (hs : s.Canon waiting) : (s.modRing r f).Canon waiting :=
  .same hs

theorem State.Canon.sendRing {r k : Nat} {d : RingDesc} {v : Vec} (hs : s.Canon waiting) :
    (s.sendRing r k d v).Canon waiting :=
  .inject (.modRing hs)

theorem State.Canon.ringLocal {d : RingDesc} {k now : Nat} (hs : s.Canon waiting) :
    (s.ringLocal d k now : ReadResult 2048).state.Canon waiting :=
  .readMem (.nearRead hs)

theorem State.Canon.sendPieces {r now k n : Nat} {d : RingDesc} (hs : s.Canon waiting) :
    (s.sendPieces r d now k n).Canon waiting := by
  induction n generalizing s k with
  | zero => exact hs
  | succ n ih => exact ih (.sendRing (.ringLocal hs))

theorem State.Canon.ringBad {l : Nat} (hs : s.Canon waiting) : (s.ringBad l).Canon waiting := .cause (.modRouter hs)

theorem State.Canon.ringSum {d : RingDesc} {k now : Nat} {v : Vec} (hs : s.Canon waiting) :
    (s.ringSum d k now v : ReadResult 2048).state.Canon waiting :=
  .ringLocal hs

theorem Settles.execRf {link : BitVec 5} {p : Packet} (hs : s.Canon waiting) : Settles waiting (execRf link p s) :=
  .next (.ite (.ite (.cqDiscard (.takePacket hs)) (.ite (.ringBad (.takePacket hs))
    (.ite (.takePacket hs) (.ite (.sendRing (.modRing (.ringSum (.takePacket hs))))
    (.addPiece (.modRing (.ringSum (.takePacket hs)))))))) hs)

/-! ## The roll call -/

theorem State.Canon.sendNeighbour {l : Nat} {type : Byte} {n : Neighbour} (hs : s.Canon waiting) :
    (s.sendNeighbour l type n).Canon waiting :=
  .ite (.same hs) (.sendLink hs)

theorem State.Canon.announce {l : Nat} (hs : s.Canon waiting) : (s.announce l).Canon waiting := .sendNeighbour hs

theorem State.Canon.echo {l : Nat} (hs : s.Canon waiting) : (s.echo l).Canon waiting := .sendNeighbour (.draw hs)

theorem State.Canon.echoes {l : Nat} (hs : s.Canon waiting) : (s.echoes l).Canon waiting :=
  .foldl (fun _ _ ht => .echo ht) hs

theorem State.Canon.takeNeighbour {type : Byte} {n : Neighbour} (hs : s.Canon waiting) :
    (s.takeNeighbour type n).Canon waiting := by
  unfold State.takeNeighbour
  dsimp only
  split
  · exact .takePacket hs
  · exact hs

theorem State.Canon.rootReverify {part : FabricAddr} {step : Byte} (hs : s.Canon waiting) :
    (s.rootReverify part step).Canon waiting :=
  .ite (.same hs) (.ite (.fault (.same hs)) (.same hs))

theorem State.Canon.tellReverify {part : FabricAddr} {step : Byte} (hs : s.Canon waiting) :
    (s.tellReverify part step).Canon waiting :=
  .ite (.rootReverify hs) (.emit hs)

theorem State.Canon.heldCheck (hs : s.Canon waiting) : s.heldCheck.Canon waiting :=
  .ite (.ite (.stopDirty (.dirtyCheck hs)) (.tellWidth hs)) hs

theorem State.Canon.endReverify (hs : s.Canon waiting) : s.endReverify.Canon waiting :=
  .ite hs (.ite (.heldCheck (.tellReverify (.foldl (fun _ _ ht => .modRoll ht) hs))) hs)

theorem State.Canon.rollUpdate (hs : s.Canon waiting) : s.rollUpdate.Canon waiting :=
  .endReverify (.ite (.same hs) hs)

theorem State.Canon.resendBell {l : Nat} (hs : s.Canon waiting) : (s.resendBell l).Canon waiting :=
  .foldl (fun _ _ ht => .inject ht) hs

theorem State.Canon.rollActive {l : Nat} (hs : s.Canon waiting) : (s.rollActive l).Canon waiting :=
  .ite (.echoes (.announce (.modRoll hs))) (.announce (.modRoll hs))

theorem State.Canon.linkEvent {l : Nat} {type : Byte} (hs : s.Canon waiting) : (s.linkEvent l type).Canon waiting :=
  .ite (.passNotice (.ite (.cause hs) hs)) hs

theorem State.Canon.memberReset {a : FabricAddr} (hs : s.Canon waiting) : (s.memberReset a).Canon waiting :=
  .ite (.endEverywhere hs) (.fault hs)

theorem State.Canon.peerReset {l : Nat} (hs : s.Canon waiting) : (s.peerReset l).Canon waiting :=
  .ite (.ite (.memberReset hs) (.tellReverify (.tellReverify (.modRoll (.ite (.cause hs) hs))))) hs

theorem State.Canon.fall {l : Nat} {reason : BitVec 4} (hs : s.Canon waiting) : (s.fall l reason).Canon waiting :=
  .rollUpdate (.ite (.peerReset (.modRoll (.update (.modRouter (.restLink hs)))))
    (.linkEvent (.modRoll (.update (.modRouter (.restLink hs))))))

theorem State.Canon.restartFailed (hs : s.Canon waiting) : s.restartFailed.Canon waiting :=
  .foldl (fun _ _ ht => .ite (.restLink ht) ht) hs

theorem State.Canon.openWindow (hs : s.Canon waiting) : s.openWindow.Canon waiting :=
  .rollUpdate (.update (.restartFailed hs))

theorem State.Canon.recordHop {l : Nat} (hs : s.Canon waiting) : (s.recordHop l).Canon waiting :=
  .rollUpdate (.ite (.modRoll hs) (.commitFabric (.modRoll hs)))

theorem Settles.execEchoResp {link : BitVec 5} {n : Neighbour} {roundTrip : Nat} (hs : s.Canon waiting) :
    Settles waiting (execEchoResp link n roundTrip s) :=
  .next (.ite (.ite (.recordHop (.modRoll (.takeNeighbour hs))) (.modRoll (.takeNeighbour hs))) (.takeNeighbour hs))

/-! ## Links -/

theorem State.Canon.packetDone {l : Nat} (hs : s.Canon waiting) : (s.packetDone l).Canon waiting := by
  unfold State.packetDone
  dsimp only
  split
  · exact hs
  · exact .ite (.queuePacket (.setLink hs)) hs

theorem State.Canon.dataFlit {l : Nat} {first : Bool} {body : BitVec 480} {crc : Word} (hs : s.Canon waiting) :
    (s.dataFlit l first body crc).Canon waiting :=
  .ite hs (.ite (.packetDone (.countEvent (.setLink hs))) (.countEvent (.setLink hs)))

theorem State.Canon.degradeLink {l : Nat} (hs : s.Canon waiting) : (s.degradeLink l).Canon waiting := .same hs

theorem State.Canon.failLink {l : Nat} {x : Link} {reason : BitVec 4} (hs : s.Canon waiting) :
    (s.failLink l x reason).Canon waiting :=
  .same hs

theorem State.Canon.checkGroup {l : Nat} (hs : s.Canon waiting) : (s.checkGroup l).Canon waiting :=
  .ite (.degradeLink hs) hs

theorem State.Canon.countReplay {l : Nat} {x y : Link} (hs : s.Canon waiting) : (s.countReplay l x y).Canon waiting :=
  .ite hs (.probe (.countEvent hs))

theorem State.Canon.statusFlit {l : Nat} {f : StatusFlit} {ns : Nat} (hs : s.Canon waiting) :
    (s.statusFlit l f ns).Canon waiting :=
  .ite (.checkGroup (.countReplay (.setLink hs))) hs

theorem State.Canon.negotiate {l : Nat} {f : TrainFlit} (hs : s.Canon waiting) : (s.negotiate l f).Canon waiting := by
  unfold State.negotiate
  dsimp only
  split
  · exact .failLink hs
  · split
    · exact .failLink hs
    · exact .ite (.setLink hs) (.setLink hs)

theorem State.Canon.endDegrade {l : Nat} {u : Nat × Nat × Nat} {ns : Nat} (hs : s.Canon waiting) :
    (s.endDegrade l u ns).Canon waiting :=
  .rollUpdate (.resendBell (.ite (.linkEvent (.setLink (.countReplay hs))) (.setLink (.countReplay hs))))

theorem State.Canon.regroup {l : Nat} {f : TrainFlit} {ns : Nat} (hs : s.Canon waiting) :
    (s.regroup l f ns).Canon waiting := by
  unfold State.regroup
  dsimp only
  split
  · exact .fall hs
  · exact .ite (.endDegrade (.setLink hs)) (.setLink hs)

theorem State.Canon.train {l : Nat} {f : TrainFlit} {ns : Nat} (hs : s.Canon waiting) :
    (s.train l f ns).Canon waiting := by
  unfold State.train
  dsimp only
  split
  · exact .negotiate hs
  · exact .ite (.negotiate (.setLink hs)) hs
  · exact .regroup hs
  · exact .ite (.regroup (.degradeLink hs)) hs
  · exact hs

theorem Settles.execLinkCheckDone {link : BitVec 5} {failed : BitVec 8} (hs : s.Canon waiting) :
    Settles waiting (execLinkCheckDone link failed s) :=
  .next (.ite (.ite (.rollUpdate (.resendBell (.rollActive (.setLink hs)))) (.setLink hs)) hs)

theorem State.Canon.laneFail {l lane : Nat} {transmit : Bool} (hs : s.Canon waiting) :
    (s.laneFail l lane transmit).Canon waiting :=
  .checkGroup (.setLink hs)

theorem State.Canon.feedFail {l lane : Nat} (hs : s.Canon waiting) : (s.feedFail l lane).Canon waiting :=
  .foldl (fun _ _ ht => .ite ht (.laneFail ht)) hs

theorem State.Canon.badFlit {l : Nat} {counted : Bool} (hs : s.Canon waiting) : (s.badFlit l counted).Canon waiting :=
  .ite (.countEvent (.setLink hs)) hs

theorem State.Canon.slot {l : Nat} {w : BitVec 5140} {i ns : Nat} (hs : s.Canon waiting) :
    (s.slot l w i ns).Canon waiting := by
  refine .ite (.ite (.badFlit hs) (.ite hs ?_)) (.dataFlit hs)
  split
  · exact .statusFlit hs
  · exact .train hs
  · exact hs

theorem State.Canon.slotRow {l : Nat} {ws : List (Option (BitVec 5140))} {i ns : Nat} (hs : s.Canon waiting) :
    (s.slotRow l ws i ns).Canon waiting := by
  refine .foldl (fun _ _ ht => ?_) hs
  split
  · exact .badFlit ht
  · exact .slot ht

theorem State.Canon.deal {l ns : Nat} (hs : s.Canon waiting) : (s.deal l ns).Canon waiting :=
  .ite (.foldl (fun _ _ ht => .slotRow ht) (.setLink hs)) hs

theorem State.Canon.takeWord {l lane : Nat} {message : Option (BitVec 5140)} {ns : Nat} (hs : s.Canon waiting) :
    (s.takeWord l lane message ns).Canon waiting := by
  refine .ite (.ite (.deal (.setLink hs)) hs) ?_
  split
  · exact hs
  · exact .foldl (fun _ _ ht => .slotRow ht) hs

theorem State.Canon.emitWords {l : Nat} {lanes : List Nat} (hs : s.Canon waiting) :
    (s.emitWords l lanes).Canon waiting :=
  .foldl (fun _ _ ht => .emit ht) (.setLink hs)

theorem State.Canon.dealSlot {l : Nat} {flit : BitVec 512} {start control : Bool} (hs : s.Canon waiting) :
    (s.dealSlot l flit start control).Canon waiting :=
  .ite (.emitWords (.setLink hs)) (.setLink hs)

theorem State.Canon.trainSlot {l : Nat} {lanes : List Nat} {f : TrainFlit} (hs : s.Canon waiting) :
    (s.trainSlot l lanes f).Canon waiting :=
  .ite (.emitWords (.emit (.countEvent (.setLink hs)))) (.emit (.countEvent (.setLink hs)))

theorem State.Canon.sendData {l : Nat} {f : SentFlit} (hs : s.Canon waiting) : (s.sendData l f).Canon waiting :=
  .dealSlot (.emit hs)

theorem State.Canon.sendFlit {l : Nat} {x : Link} (hs : s.Canon waiting) : (s.sendFlit l x).Canon waiting := by
  unfold State.sendFlit
  split
  · exact hs
  · exact .sendData (.countEvent (.setLink hs))

theorem State.Canon.sendStatus {l : Nat} {x : Link} (hs : s.Canon waiting) : (s.sendStatus l x).Canon waiting :=
  .dealSlot (.emit (.countEvent (.setLink hs)))

theorem State.Canon.sendSlot {l : Nat} {x : Link} (hs : s.Canon waiting) : (s.sendSlot l x).Canon waiting := by
  refine .ite (.sendStatus hs) ?_
  split
  · exact .sendData (.countEvent (.setLink hs))
  · refine .ite (.sendStatus hs) (.ite (.sendFlit hs) ?_)
    split
    · exact .sendStatus hs
    · exact .sendFlit hs

theorem Settles.execFlitSlotTransmit {link : BitVec 5} (hs : s.Canon waiting) :
    Settles waiting (execFlitSlotTransmit link s) := by
  refine .next ?_
  split
  · exact .sendSlot hs
  · exact .trainSlot hs
  · exact .trainSlot hs
  · exact hs

theorem State.Canon.setOptics {l lane : Nat} {f : Optics → Optics} (hs : s.Canon waiting) :
    (s.setOptics l lane f).Canon waiting :=
  .same hs

theorem Settles.execOpticalReadingsRefresh {link : BitVec 5} {lane : BitVec 3} {tx rx feed ber : BitVec 16}
    (hs : s.Canon waiting) : Settles waiting (execOpticalReadingsRefresh link lane tx rx feed ber s) :=
  .next (.ite (.ite (.feedFail (.foldl (fun _ _ ht => .setOptics ht) (.setOptics hs)))
    (.foldl (fun _ _ ht => .setOptics ht) (.setOptics hs))) hs)

/-! ## The clock -/

theorem State.Canon.countTime (hs : s.Canon waiting) : s.countTime.Canon waiting :=
  .ite (.foldl (fun _ _ ht => .countEvent ht) (.foldl (fun _ _ ht => .countEvent ht) hs))
    (.foldl (fun _ _ ht => .countEvent ht) hs)

theorem State.Canon.tick (hs : s.Canon waiting) : s.tick.Canon waiting := .countTime (.same hs)

/-! ## The weight store -/

theorem State.Canon.modStack {k : Nat} {f : Stack → Stack} (hs : s.Canon waiting) : (s.modStack k f).Canon waiting :=
  .same hs

theorem State.Canon.place13 {b : StoreBlock} (hs : s.Canon waiting) : (s.place13 b).Canon waiting := by
  unfold State.place13
  split
  · exact .same hs
  · exact .ite hs (.same hs)
  · exact hs

theorem State.Canon.freeBlocks {p : StoreBlock → Bool} (hs : s.Canon waiting) : (s.freeBlocks p).Canon waiting :=
  .foldl (fun _ _ ht => .modStack ht) (.same hs)

theorem State.Canon.retireBlock {k e : Nat} (hs : s.Canon waiting) : (s.retireBlock k e).Canon waiting :=
  .ite (.modStack hs) (.modStack (.same hs))

theorem State.Canon.eraseOne {k e : Nat} {failed : Bool} (hs : s.Canon waiting) :
    (s.eraseOne k e failed).Canon waiting :=
  .ite (.retireBlock (.modStack (.same hs))) (.modStack (.same hs))

theorem State.Canon.copyBlocks {move : List StoreBlock} {place : State → Option Nat} (hs : s.Canon waiting) :
    (s.copyBlocks move place).Canon waiting := by
  refine .foldl (fun _ _ ht => ?_) hs
  split
  · exact .same ht
  · exact ht

theorem State.Canon.emptyBlock {k e : Nat} {place : State → Option Nat} {failed : Bool} (hs : s.Canon waiting) :
    (s.emptyBlock k e place failed).Canon waiting :=
  .ite (.eraseOne (.copyBlocks hs)) (.copyBlocks hs)

theorem State.Canon.levelWear {k : Nat} (hs : s.Canon waiting) : (s.levelWear k).Canon waiting := by
  refine .ite hs ?_
  dsimp only
  split
  · exact .ite (.emptyBlock hs) hs
  · exact hs

theorem State.Canon.relocateBlock {k e : Nat} {failed : Bool} (hs : s.Canon waiting) :
    (s.relocateBlock k e failed).Canon waiting :=
  .levelWear (.emptyBlock hs)

/-- The equation of a further program. It is proved with the choice of the block left open: `unfold` would run it. -/
theorem State.failPrograms_succ {k n : Nat} : s.failPrograms k (n + 1) = match s.openBlock k with
    | some e => ((s.copyBlocks (s.held13 k e) fun s => s.elsewhere k e).retireBlock k e).failPrograms k n
    | none => s := by
  delta State.failPrograms State.failPrograms._f
  generalize State.openBlock = f
  rfl

theorem State.Canon.failPrograms {k n : Nat} (hs : s.Canon waiting) : (s.failPrograms k n).Canon waiting := by
  induction n generalizing s with
  | zero => exact hs
  | succ n ih =>
    rw [State.failPrograms_succ]
    split
    · exact ih (.retireBlock (.copyBlocks hs))
    · exact hs

theorem State.Canon.recordWear {before : State} (hs : s.Canon waiting) : (s.recordWear before).Canon waiting :=
  .ite hs (.startCommit hs)

theorem State.Canon.lose {name : Byte × Word × BitVec 16 × BitVec 24} (hs : s.Canon waiting) :
    (s.lose name).Canon waiting :=
  .ite hs (.msix (.same hs))

theorem State.Canon.countRead {b : StoreBlock} {ldpcFailed corrected : Nat} (hs : s.Canon waiting) :
    (s.countRead b ldpcFailed corrected).Canon waiting :=
  .same hs

theorem State.Canon.readStored {b : StoreBlock} {tenant : BitVec 12} {ldpcFailed corrected : Nat} (hs : s.Canon waiting)
    : (s.readStored b tenant ldpcFailed corrected).1.Canon waiting := by
  refine .iteFst (.lose (.countRead hs)) ?_
  split
  · exact .lose (.modStack (.countRead hs))
  · exact .countRead hs

theorem State.Canon.readEntry {e : MapEntry} {ldpcFailed corrected : Nat} (hs : s.Canon waiting) :
    (s.readEntry e ldpcFailed corrected).1.Canon waiting := by
  refine .iteFst hs ?_
  split
  · exact .readStored hs
  · exact .lose hs

theorem State.Canon.restoreOne {e : MapEntry} {ldpcFailed corrected : Nat} (hs : s.Canon waiting) :
    (s.restoreOne e ldpcFailed corrected).Canon waiting := by
  have hread := State.Canon.readEntry (e := e) (ldpcFailed := ldpcFailed) (corrected := corrected) hs
  unfold State.restoreOne
  split
  · next hentry =>
    rw [hentry] at hread
    exact .same hread
  · next hentry =>
    rw [hentry] at hread
    generalize hput : State.putBytes _ _ _ _ = t
    have ht : t.Canon waiting := hput ▸ hread.putBytes
    exact ht.same

theorem State.Canon.loseSlot {k : Nat} (hs : s.Canon waiting) : (s.loseSlot k).Canon waiting :=
  .ite (.same hs) (.emit (.same hs))

theorem State.Canon.restoreSlot {r : SlotRead} {ldpcFailed corrected : Nat} (hs : s.Canon waiting) :
    (s.restoreSlot r ldpcFailed corrected).Canon waiting := by
  have hread := State.Canon.readEntry (e := r.entry) (ldpcFailed := ldpcFailed) (corrected := corrected) hs
  unfold State.restoreSlot
  split
  · next hentry =>
    rw [hentry] at hread
    exact .loseSlot hread
  · next hentry =>
    rw [hentry] at hread
    generalize hput : State.putBytes _ _ _ _ = t
    have ht : t.Canon waiting := hput ▸ hread.putBytes
    exact ht.same

theorem State.Canon.finishRestore (hs : s.Canon waiting) : s.finishRestore.Canon waiting := .ite (.answerJob hs) hs

theorem State.Canon.endRestore (hs : s.Canon waiting) : s.endRestore.Canon waiting :=
  .ite (.ite (.finishRestore (.giveResult (.same hs))) (.emit (.same hs))) hs

theorem Settles.execRestoreBlockRead {ldpcFailed corrected : Nat} (hs : s.Canon waiting) :
    Settles waiting (execRestoreBlockRead ldpcFailed corrected s) := by
  refine .next (.ite ?_ hs)
  split
  · exact .endRestore (.restoreOne (.same hs))
  · exact .restoreSlot (.same hs)
  · exact hs

theorem State.Canon.dropSuperseded (hs : s.Canon waiting) : s.dropSuperseded.Canon waiting :=
  .foldl (fun _ _ ht => .freeBlocks ht) (.same hs)

/-! ## Distribution of objects -/

theorem State.Canon.modDist {f : Dist → Dist} (hs : s.Canon waiting) : (s.modDist f).Canon waiting := .same hs

theorem State.Canon.openStoreRegion {reader : FabricAddr} (hs : s.Canon waiting) :
    (s.openStoreRegion reader).Canon waiting :=
  .same hs

theorem State.Canon.sourceBlock {d : Dist} {index : Nat} (hs : s.Canon waiting) :
    (s.sourceBlock d index).1.Canon waiting := by
  refine .iteFst ?_ hs
  split
  · exact .readStored hs
  · exact hs

theorem State.Canon.putProgress {p : Progress} (hs : s.Canon waiting) : (s.putProgress p).Canon waiting :=
  .update (.freeBlocks hs)

theorem State.Canon.commitProgress {d : Dist} (hs : s.Canon waiting) : (s.commitProgress d).Canon waiting :=
  .ite hs (.startCommit (.putProgress hs))

theorem State.Canon.leaveDist (hs : s.Canon waiting) : s.leaveDist.Canon waiting := by
  unfold State.leaveDist
  split
  · exact hs
  · exact .commitProgress (.modDist hs)

theorem State.Canon.endIncomplete {status : BitVec 16} (hs : s.Canon waiting) :
    (s.endIncomplete status).Canon waiting := by
  unfold State.endIncomplete
  split
  · exact hs
  · exact .answerAll (.leaveDist (.tellAll hs))

theorem State.Canon.takeDistEnd {source : FabricAddr} {digest : BitVec 64} (hs : s.Canon waiting) :
    (s.takeDistEnd source digest).Canon waiting := by
  unfold State.takeDistEnd
  split
  · exact hs
  · exact .ite (.leaveDist hs) hs

theorem State.Canon.sendBlock {index : Nat} (hs : s.Canon waiting) : (s.sendBlock index).Canon waiting := by
  unfold State.sendBlock
  split
  · exact hs
  · next d _ =>
    have hsource := State.Canon.sourceBlock (d := d) (index := index) hs
    split
    · next hblock =>
      rw [hblock] at hsource
      exact .modDist (.emit hsource)
    · next hblock =>
      rw [hblock] at hsource
      exact .ite hsource (.endIncomplete hsource)

theorem State.Canon.sendPass {blocks : List Nat} (hs : s.Canon waiting) : (s.sendPass blocks).Canon waiting := by
  unfold State.sendPass
  dsimp only
  split
  · exact .ite (.emit (.foldl (fun _ _ ht => .ite (.sendBlock ht) ht) (.modDist hs))) (.foldl (fun _ _ ht => .ite
      (.sendBlock ht) ht) (.modDist hs))
  · exact .foldl (fun _ _ ht => .ite (.sendBlock ht) ht) (.modDist hs)

theorem State.Canon.beginReader {d : Dist} (hs : s.Canon waiting) : (s.beginReader d).Canon waiting :=
  .sendPass (.emitAll (.ite (.tellAll (.wake (.same hs))) (.openStoreRegion (.tellAll (.wake (.same hs))))))

theorem State.Canon.tryDecide (hs : s.Canon waiting) : s.tryDecide.Canon waiting := by
  unfold State.tryDecide
  split
  · exact hs
  · exact .ite (.startCommit (.modDist hs)) hs

theorem State.Canon.passDone {d : Dist} (hs : s.Canon waiting) : (s.passDone d).Canon waiting :=
  .ite (.tryDecide (.modDist hs)) (.ite (.endIncomplete hs) (.sendPass hs))

theorem State.Canon.takeNak {source : FabricAddr} {pass : Nat} {more : Bool} {digest : BitVec 64}
    {ranges : List (Nat × Nat)} (hs : s.Canon waiting) : (s.takeNak source pass more digest ranges).Canon waiting := by
  unfold State.takeNak
  split
  · exact hs
  · exact .ite (.ite (.passDone (.same hs)) (.same hs)) hs

theorem State.Canon.takeRefusal {member : FabricAddr} {status : BitVec 16} (hs : s.Canon waiting) :
    (s.takeRefusal member status).Canon waiting :=
  .same hs

theorem Settles.execEndOfPassResend (hs : s.Canon waiting) : Settles waiting (execEndOfPassResend s) := by
  refine .next ?_
  split
  · exact hs
  · exact .ite (.ite (.modDist (.emitAll hs)) (.endIncomplete hs)) hs

theorem State.Canon.refuseDist {reader : FabricAddr} {status : BitVec 16} (hs : s.Canon waiting) :
    (s.refuseDist reader status).Canon waiting :=
  .ite (.modDist (.modDist hs)) (.emit (.modDist hs))

theorem State.Canon.keepPending (hs : s.Canon waiting) : s.keepPending.Canon waiting := .ite (.leaveDist hs) hs

theorem State.Canon.takeReader {reader : FabricAddr} {repairing : Bool} {low high : FabricAddr} (hs : s.Canon waiting) :
    (s.takeReader reader repairing low high).Canon waiting :=
  .ite hs (.ite (.emit hs) (.ite (.wake (.update (.keepPending hs)))
    (.openStoreRegion (.wake (.update (.keepPending hs))))))

theorem State.Canon.landIdle {n : Nat} {l : List Vec} (hs : s.Canon waiting) : (s.landIdle n l).Canon waiting :=
  .consumeRegion (.foldl (fun _ _ ht => .landEngine ht) hs)

theorem State.Canon.landInRecess {n : Nat} {l : List Vec} (hs : s.Canon waiting) : (s.landInRecess n l).Canon waiting :=
  .foldl (fun _ _ ht => .consumeRegion (.landCommitted (.consumeRegion ht))) hs

theorem State.Canon.landFrame {d : Dist} {f : Frame} {type : Byte} (hs : s.Canon waiting) :
    ∀ e ∈ s.landFrame d f type, e.1.Canon waiting := by
  intro e he
  simp only [State.landFrame, Option.mem_def] at he
  generalize framePieces13 f type = l at he
  split at he
  · cases he
  · split at he
    · split at he
      · cases he
        exact .landInRecess hs
      · cases he
        exact .landIdle hs
    · cases he

theorem State.Canon.discardFrame (hs : s.Canon waiting) : s.discardFrame.Canon waiting := .same hs

theorem State.Canon.noteHighest {adapter : Bool} {object : Word} {generation : BitVec 16} {tenant : BitVec 12}
    (hs : s.Canon waiting) : (s.noteHighest adapter object generation tenant).Canon waiting :=
  .ite hs (.startCommit hs)

theorem State.Canon.receiveManifest {d : Dist} {b : List Byte} (hs : s.Canon waiting) :
    (s.receiveManifest d b).Canon waiting :=
  .ite (.noteHighest (.same hs)) (.refuseDist (.same hs))

theorem Settles.execManifestFrame {f : Frame} (hs : s.Canon waiting) : Settles waiting (execManifestFrame f s) := by
  refine .next ?_
  split
  · exact .discardFrame hs
  · split
    · exact .discardFrame hs
    · next hland =>
      have ht := hs.landFrame _ hland
      refine .ite ?_ ht
      dsimp only
      split
      · exact .receiveManifest (.same ht)
      · exact .same ht

theorem State.Canon.keepBlock {d : Dist} {f : Frame} (hs : s.Canon waiting) : (s.keepBlock d f).Canon waiting := by
  refine .ite ?_ hs
  split
  · exact .modDist hs
  · exact hs

theorem State.Canon.keepCopy {d : Dist} {f : Frame} (hs : s.Canon waiting) : (s.keepCopy d f).Canon waiting :=
  .ite (.modDist hs) hs

theorem Settles.execBlockFrame {f : Frame} (hs : s.Canon waiting) : Settles waiting (execBlockFrame f s) := by
  refine .next ?_
  split
  · exact .discardFrame hs
  · split
    · exact .discardFrame hs
    · next hland =>
      have ht := hs.landFrame _ hland
      exact .ite (.keepCopy (.keepBlock (.modDist ht))) ht

theorem State.Canon.blockDone {object : Word} {generation : BitVec 16} {index : BitVec 24} {failures : Nat}
    (hs : s.Canon waiting) : (s.blockDone object generation index failures).Canon waiting := by
  unfold State.blockDone
  split
  · exact hs
  · exact .ite hs (.recordWear (.ite (.update (.modDist (.foldl (fun _ _ ht => .place13 ht) (.failPrograms hs))))
      (.modDist (.foldl (fun _ _ ht => .place13 ht) (.failPrograms hs)))))

theorem State.Canon.sendCommit {e : Decision} (hs : s.Canon waiting) : (s.sendCommit e).Canon waiting := .same hs

theorem State.Canon.takeCommitted {source : FabricAddr} {digest : BitVec 64} (hs : s.Canon waiting) :
    (s.takeCommitted source digest).Canon waiting := by
  unfold State.takeCommitted
  split
  · exact hs
  · refine .ite ?_ (.same hs)
    dsimp only
    split
    · exact .ite (.answerAll (.update (.startCommit (.same hs)))) (.startCommit (.same hs))
    · exact .startCommit (.same hs)

theorem State.Canon.tellCommitted {target : FabricAddr} {digest : BitVec 64} (hs : s.Canon waiting) :
    (s.tellCommitted target digest).Canon waiting := by
  refine .ite (.takeCommitted hs) (.emit ?_)
  split
  · exact .ite (.same hs) hs
  · exact hs

theorem State.Canon.takeCommit {source : FabricAddr} {digest : BitVec 64} (hs : s.Canon waiting) :
    (s.takeCommit source digest).Canon waiting := by
  unfold State.takeCommit
  split
  · exact hs
  · exact .ite (.tellCommitted hs) (.startCommit hs)

theorem State.Canon.takePrepared {source : FabricAddr} {digest : BitVec 64} (hs : s.Canon waiting) :
    (s.takePrepared source digest).Canon waiting := by
  unfold State.takePrepared
  split
  · exact hs
  · exact .ite (.tryDecide (.same hs)) hs

theorem State.Canon.sendCommits (hs : s.Canon waiting) : s.sendCommits.Canon waiting :=
  .foldl (fun _ _ ht => .ite (.takeCommit (.sendCommit ht)) (.sendCommit ht)) hs

theorem State.Canon.tellPrepared {target : FabricAddr} {digest : BitVec 64} (hs : s.Canon waiting) :
    (s.tellPrepared target digest).Canon waiting :=
  .ite (.takePrepared hs) (.modDist (.emit hs))

theorem State.Canon.prepare {d : Dist} (hs : s.Canon waiting) : (s.prepare d).Canon waiting :=
  .ite (.tellPrepared hs) (.startCommit hs)

theorem State.Canon.sendNaks {d : Dist} {pass n : Nat} {l : List (Nat × Nat)} (hs : s.Canon waiting) :
    (s.sendNaks d pass n l).Canon waiting := by
  induction n generalizing s l with
  | zero => exact hs
  | succ n ih => exact .ite (ih (.ite (.takeNak hs) (.same hs))) (.ite (.takeNak hs) (.same hs))

theorem Settles.execEndOfPass {f : Frame} (hs : s.Canon waiting) : Settles waiting (execEndOfPass f s) := by
  refine .next ?_
  split
  · exact .discardFrame hs
  · split
    · exact .discardFrame hs
    · next hland =>
      have ht := hs.landFrame _ hland
      exact .ite (.sendNaks (.ite (.ite (.ite (.tellPrepared ht) ht) (.prepare ht)) ht)) ht

/-! ## Commits of the store -/

theorem State.Canon.dropAdapters {l : List (BitVec 12)} (hs : s.Canon waiting) : (s.dropAdapters l).Canon waiting :=
  .foldl (fun _ _ ht => .freeBlocks ht) (.same hs)

theorem State.Canon.setKeyRing {new : List KeyEntry} (hs : s.Canon waiting) : (s.setKeyRing new).Canon waiting :=
  .dropAdapters (.same hs)

theorem State.Canon.placeRouters (hs : s.Canon waiting) : s.placeRouters.Canon waiting :=
  .foldl (fun _ _ ht => .modRouter ht) hs

theorem State.Canon.eraseOwned (hs : s.Canon waiting) : s.eraseOwned.Canon waiting :=
  .clearSlice (.placeRouters (.update (.freeBlocks hs)))

theorem State.Canon.setPadlock {state : Padlock} {owner : List Byte} {mask counter : BitVec 64} {erase clearRing : Bool}
    (hs : s.Canon waiting) : (s.setPadlock state owner mask counter erase clearRing).Canon waiting :=
  .update (.ite (.eraseOwned (.ite (.setKeyRing hs) hs)) (.ite (.setKeyRing hs) hs))

theorem State.Canon.enterDebug {counter : BitVec 64} (hs : s.Canon waiting) : (s.enterDebug counter).Canon waiting :=
  .update (.setKeyRing hs)

theorem State.Canon.placeLink {l : Nat} (hs : s.Canon waiting) : (s.placeLink l).Canon waiting := .same hs

theorem State.Canon.acceptPlan {p : Plan} (hs : s.Canon waiting) : (s.acceptPlan p).Canon waiting :=
  .openWindow (.placeRouters (.foldl (fun _ _ ht => .placeLink ht) (.same hs)))

theorem State.Canon.putGenerations {l : List GenEntry} (hs : s.Canon waiting) : (s.putGenerations l).Canon waiting :=
  .dropSuperseded (.freeBlocks (.same hs))

theorem State.Canon.putDecisions {l : List Decision} (hs : s.Canon waiting) : (s.putDecisions l).Canon waiting :=
  .same hs

theorem State.Canon.confirm (hs : s.Canon waiting) : s.confirm.Canon waiting := .same hs

theorem State.Canon.applyEffect {v0 : Effect} (hs : s.Canon waiting) : (s.applyEffect v0).Canon waiting := by
  unfold State.applyEffect
  split
  · exact .setKeyRing (.same hs)
  · exact .ite (.update (.setPadlock hs)) (.setPadlock hs)
  · exact .enterDebug hs
  · exact .update (.acceptPlan hs)
  · exact hs
  · exact .dropSuperseded hs
  · exact .putGenerations hs
  · exact .putDecisions hs
  · exact .same hs
  · exact .confirm hs
  · exact .putProgress hs
  · exact .same hs
  · exact hs
  · exact hs

theorem State.Canon.serve {mac : Nat} {a : ServiceAnswer} (hs : s.Canon waiting) : (s.serve mac a).Canon waiting :=
  .same hs

theorem State.Canon.writeCopy {c : RecordCopy} {k : Nat} {bad : List Nat} (hs : s.Canon waiting) :
    (s.writeCopy c k bad).Canon waiting := by
  unfold State.writeCopy
  split
  · exact .same hs
  · exact .modStack hs

theorem State.Canon.writeRecords {c : Commit} {failed : List (Nat × Nat)} (hs : s.Canon waiting) :
    (s.writeRecords c failed).Canon waiting :=
  .foldl (fun _ _ ht => .foldl (fun _ _ ht => .writeCopy ht) ht)
    (.foldl (fun _ _ ht => .foldl (fun _ _ ht => .retireBlock ht) ht) hs)

theorem State.Canon.noteDegraded (hs : s.Canon waiting) : s.noteDegraded.Canon waiting :=
  .ite hs (.ite (.same hs) (.msix (.same hs)))

theorem State.Canon.eraseJournal (hs : s.Canon waiting) : s.eraseJournal.Canon waiting :=
  .foldl (fun _ _ ht => .foldl (fun _ _ ht => .ite (.same ht) (.eraseOne (.same ht))) ht) hs

theorem State.Canon.rewriteAll {a : After} {l : List Byte} (hs : s.Canon waiting) :
    (s.rewriteAll a l).Canon waiting := by
  induction l generalizing s with
  | nil => exact hs
  | cons t l ih =>
    cases l with
    | nil => exact .startCommit hs
    | cons u l => exact ih (.startCommit hs)

theorem State.Canon.compact (hs : s.Canon waiting) : s.compact.Canon waiting := .ite (.rewriteAll hs) hs

theorem State.Canon.dropDecisions {c : Commit} (hs : s.Canon waiting) : (s.dropDecisions c).Canon waiting :=
  .ite (.same hs) hs

theorem State.Canon.complete {c : Commit} {failed : List (Nat × Nat)} (hs : s.Canon waiting) :
    (s.complete c failed).Canon waiting :=
  .recordWear (.noteDegraded (.writeRecords (.applyEffect (.dropDecisions hs))))

/-! ## The mailbox -/

theorem State.Canon.mailboxWrite {k : Nat} {bar2 : Bool} {base off : Nat} {bytes : List Byte} (hs : s.Canon waiting) :
    (s.mailboxWrite k bar2 base off bytes).Canon waiting :=
  .ite (.violate hs) (.ite (.setMbox hs) hs)

theorem State.Canon.i3cMessage {bytes : List Byte} (hs : s.Canon waiting) : (s.i3cMessage bytes).Canon waiting :=
  .ite (.setMbox hs) hs

theorem State.Canon.writeResponse {k : Nat} (hs : s.Canon waiting) : (s.writeResponse k).Canon waiting := by
  unfold State.writeResponse
  dsimp only
  split
  · exact hs
  · exact .ite (.emit (.setMbox hs)) (.ite hs (.msix (.setMbox hs)))

theorem State.Canon.releaseOut {k : Nat} (hs : s.Canon waiting) : (s.releaseOut k).Canon waiting :=
  .ite (.setMbox hs) hs

theorem State.Canon.startRequest {k : Nat} {x : Mailbox} {t : List MailRequest} {counted : Bool} (hs : s.Canon waiting)
    : (s.startRequest k x t counted).Canon waiting :=
  .same hs

theorem State.Canon.command {tr : BitVec 7} {kind : CommandKind} {granted : Bool} {fits : List Byte → Bool}
    {run : State → Waiting → List Byte → State} (hrun : ∀ t w b, t.Canon waiting → (run t w b).Canon waiting)
    (hs : s.Canon waiting) : (s.command tr kind granted fits run).Canon waiting := by
  unfold State.command
  dsimp only
  split
  · exact hs
  · exact .ite (.ite (.answer (.same hs)) (.ite (.answer (.same hs)) (hrun _ _ _ (.same hs)))) hs

theorem State.Canon.refuseReserved {k : Nat} (hs : s.Canon waiting) : (s.refuseReserved k).Canon waiting := by
  unfold State.refuseReserved
  dsimp only
  split
  · exact hs
  · exact .ite (.answer (.startRequest hs)) hs

theorem Settles.execHello {tr : BitVec 7} (hs : s.Canon waiting) : Settles waiting (execHello tr s) := by
  refine .next ?_
  dsimp only
  split
  · exact hs
  · exact .ite (.ite (.answer (.startRequest hs)) (.ite (.answer (.setMbox (.startRequest hs))) (.answer
      (.startRequest hs)))) hs

theorem State.Canon.updateBody (hs : s.Canon waiting) : s.updateBody.2.Canon waiting := .draw hs

/-! ## Jobs -/

theorem State.Canon.beginOrder {op : BitVec 16} {parts : List FabricAddr} (hs : s.Canon waiting) :
    (s.beginOrder op parts).Canon waiting :=
  .same hs

theorem State.Canon.addWait {w : Waiting} (hs : s.Canon waiting) : (s.addWait w).Canon waiting := .same hs

theorem State.Canon.freshJob {id : BitVec 16} {seed : BitVec 64} {replayLimit : BitVec 4} {recessMin : Nat}
    {attach : BitVec 64} (hs : s.Canon waiting) : (s.freshJob id seed replayLimit recessMin attach).Canon waiting :=
  .same hs

theorem State.Canon.jobCreate {w : Waiting} {b : List Byte} (hs : s.Canon waiting) : (s.jobCreate w b).Canon waiting :=
  .ite (.answer hs) (.ite (.answer hs) (.answer (.freshJob (.draw hs))))

theorem State.Canon.fillRoutes (hs : s.Canon waiting) : s.fillRoutes.Canon waiting :=
  .foldl (fun _ _ ht => .modRouter ht) hs

theorem State.Canon.assignHere {slice : BitVec 8} {low high : FabricAddr} {members : BitVec 4096} {root : FabricAddr}
    {epoch : BitVec 2} {limitUs : Word} (hs : s.Canon waiting) :
    (s.assignHere slice low high members root epoch limitUs).2.Canon waiting :=
  .itePair hs (.itePair hs (.commitFabric (.update (.fillRoutes (.same hs)))))

theorem State.Canon.setDelays {b : List Byte} (hs : s.Canon waiting) : (s.setDelays b).Canon waiting := .same hs

theorem State.Canon.sendDelays {target : Nat} {a : FabricAddr} {d : Nat} (hs : s.Canon waiting) :
    (s.sendDelays target a d).Canon waiting :=
  .ite (.setDelays hs) (.emit hs)

theorem State.Canon.undoAssign (hs : s.Canon waiting) : s.undoAssign.Canon waiting :=
  .update (.ite (.commitFabric (.clearSlice (.tellAll hs))) (.tellAll hs))

theorem State.Canon.finishAssign (hs : s.Canon waiting) : s.finishAssign.Canon waiting :=
  .ite (.answerJob (.undoAssign hs)) (.ite (.answerJob (.undoAssign hs))
    (.answerJob (.foldl (fun _ _ ht => .sendDelays ht) hs)))

theorem State.Canon.sendAssign {slice : BitVec 8} {low high : FabricAddr} {members : BitVec 4096} {limitUs : Word}
    (hs : s.Canon waiting) : (s.sendAssign slice low high members limitUs).Canon waiting :=
  .ite (.assignHere (.tellAll (.tellAll (.beginOrder (.same hs)))))
    (.giveResult (.assignHere (.tellAll (.tellAll (.beginOrder (.same hs))))))

theorem State.Canon.sliceAssign {w : Waiting} {b : List Byte} (hs : s.Canon waiting) :
    (s.sliceAssign w b).Canon waiting :=
  .ite (.answer hs) (.ite (.answer hs) (.ite (.answer hs)
    (.ite (.answer hs) (.ite (.finishAssign (.sendAssign (.addWait hs))) (.sendAssign (.addWait hs))))))

theorem State.Canon.loadHere {im : Image} {alone : Option LoadFault} (hs : s.Canon waiting) :
    ((s.loadHere im alone : BitVec 16 × List Byte × State).2.2).Canon waiting := by
  unfold State.loadHere
  split
  · exact .faultBody hs
  · exact .same hs

theorem State.Canon.dropImage (hs : s.Canon waiting) : s.dropImage.Canon waiting := .same hs

theorem State.Canon.sendOffer (hs : s.Canon waiting) : s.sendOffer.Canon waiting := by
  unfold State.sendOffer
  split
  · exact .emit hs
  · exact hs

theorem State.Canon.finishLoad (hs : s.Canon waiting) : s.finishLoad.Canon waiting := by
  unfold State.finishLoad
  split
  · exact .answerJob (.dropImage (.tellAll hs))
  · exact .answerJob (.sendOffer hs)

theorem State.Canon.loadFetched {w : Waiting} {d : List Byte} {length : Nat} {raw : List (List Byte)}
    (hs : s.Canon waiting) : (s.loadFetched w d length raw).Canon waiting := by
  unfold State.loadFetched
  dsimp only
  split
  · exact .answer (.faultBody hs)
  · exact .ite (.finishLoad (.giveResult (.loadHere (.tellAll (.beginOrder (.addWait hs)))))) (.giveResult (.loadHere
      (.tellAll (.beginOrder (.addWait hs)))))

theorem State.Canon.ttLoad {host : HostMem} {w : Waiting} {b : List Byte} (hs : s.Canon waiting) :
    (s.ttLoad host w b).Canon waiting := by
  refine .ite (.answer hs) (.ite (.answer hs) ?_)
  split
  · exact .answer hs
  · refine .ite (.loadFetched hs) ?_
    split
    · exact .answer hs
    · exact .loadFetched hs

theorem State.Canon.relocateHere (hs : s.Canon waiting) : s.relocateHere.2.Canon waiting := by
  unfold State.relocateHere
  split
  · exact hs
  · exact .installStore (.same hs)

theorem State.Canon.finishRelocate (hs : s.Canon waiting) : s.finishRelocate.Canon waiting := .answerJob hs

theorem State.Canon.ttRelocate {w : Waiting} {b : List Byte} (hs : s.Canon waiting) :
    (s.ttRelocate w b).Canon waiting :=
  .ite (.answer hs) (.ite (.finishRelocate (.giveResult (.relocateHere (.tellAll (.beginOrder (.addWait hs))))))
    (.giveResult (.relocateHere (.tellAll (.beginOrder (.addWait hs))))))

theorem State.Canon.patchCheck {b : List Byte} (hs : s.Canon waiting) :
    ((s.patchCheck b : BitVec 16 × List Byte × State).2.2).Canon waiting := by
  unfold State.patchCheck
  split
  · exact hs
  · dsimp only
    split
    · exact hs
    · exact .faultBody hs

theorem State.Canon.patchHere {b : List Byte} (hs : s.Canon waiting) : (s.patchHere b).Canon waiting := by
  unfold State.patchHere
  split
  · exact hs
  · exact .installStore (.same hs)

theorem State.Canon.finishPatch (hs : s.Canon waiting) : s.finishPatch.Canon waiting := .answerJob hs

theorem State.Canon.finishPatchCheck {b : List Byte} (hs : s.Canon waiting) : (s.finishPatchCheck b).Canon waiting := by
  unfold State.finishPatchCheck
  split
  · exact .answerJob hs
  · exact .ite (.finishPatch (.giveResult (.patchHere (.tellAll (.beginOrder hs))))) (.giveResult (.patchHere
      (.tellAll (.beginOrder hs))))

theorem State.Canon.ttPatch {w : Waiting} {b : List Byte} (hs : s.Canon waiting) : (s.ttPatch w b).Canon waiting :=
  .ite (.answer hs) (.ite (.answer hs) (.ite (.finishPatchCheck
    (.giveResult (.patchCheck (.tellAll (.update (.beginOrder (.addWait hs)))))))
    (.giveResult (.patchCheck (.tellAll (.update (.beginOrder (.addWait hs))))))))

theorem State.Canon.startHere {b : List Byte} (hs : s.Canon waiting) : (s.startHere b).Canon waiting := by
  refine .keepMem ?_
  have hw : State.Canon waiting { s.wake with
      job := { s.wake.job with termCount := fieldAt 32 b 0, termsDone := 0 }, bell := { s.wake.bell with index := 0 } }
        :=
    .keepMem (.wake hs)
  split
  · exact .ite (.ite (.recordMap (.keepMem (.installJob hw))) (.installJob hw)) hw
  · exact hw

theorem State.Canon.finishStartCheck (hs : s.Canon waiting) : s.finishStartCheck.Canon waiting := by
  unfold State.finishStartCheck
  split
  · exact .answerJob hs
  · exact .ite (.finishStart (.giveResult (.startHere (.tellAll (.beginOrder hs))))) (.giveResult (.startHere
      (.tellAll (.beginOrder hs))))

theorem State.Canon.jobStart {w : Waiting} {b : List Byte} (hs : s.Canon waiting) : (s.jobStart w b).Canon waiting :=
  .ite (.answer hs) (.ite (.finishStartCheck (.giveResult (.tellAll (.update (.beginOrder (.addWait hs))))))
    (.giveResult (.tellAll (.update (.beginOrder (.addWait hs))))))

theorem State.Canon.releaseEnded {w : Waiting} (hs : s.Canon waiting) : (s.releaseEnded w).Canon waiting :=
  .releaseJob (.tellAll hs)

theorem State.Canon.jobStop {w : Waiting} {b : List Byte} (hs : s.Canon waiting) : (s.jobStop w b).Canon waiting :=
  .ite (.answer hs) (.ite (.ite (.releaseEnded hs) (.answer hs))
    (.ite (.ite (.endEverywhere (.addWait (.same hs))) (.addWait (.same hs))) (.endEverywhere (.addWait (.same hs)))))

theorem State.Canon.restoreHere (hs : s.Canon waiting) : s.restoreHere.Canon waiting := by
  unfold State.restoreHere
  split
  · exact hs
  · exact .endRestore (.wake (.recordMap (.same hs)))

theorem State.Canon.weightsRestore {w : Waiting} {b : List Byte} (hs : s.Canon waiting) :
    (s.weightsRestore w b).Canon waiting :=
  .ite (.answer hs) (.restoreHere (.tellAll (.beginOrder (.addWait hs))))

theorem State.Canon.reply {op st : BitVec 16} {b : List Byte} (hs : s.Canon waiting) :
    (s.reply op st b).Canon waiting :=
  .same hs

theorem State.Canon.obey {op : BitVec 16} {b : List Byte} (hs : s.Canon waiting) : (s.obey op b).Canon waiting := by
  unfold State.obey
  split
  · exact .setDelays hs
  · exact .dropImage hs
  · exact .reply (.relocateHere hs)
  · exact .reply (.patchCheck hs)
  · exact .reply (.patchHere hs)
  · exact .reply hs
  · exact .reply (.startHere hs)
  · exact .restoreHere hs
  · exact hs

theorem State.Canon.orderDone (hs : s.Canon waiting) : s.orderDone.Canon waiting := by
  refine .ite ?_ hs
  split
  · exact .finishAssign hs
  · exact .finishLoad hs
  · exact .finishRelocate hs
  · exact .finishPatchCheck hs
  · exact .finishPatch hs
  · exact .finishStartCheck hs
  · exact .finishStart hs
  · exact .finishRestore hs
  · exact hs

theorem State.Canon.takeResult {part : FabricAddr} {op st : BitVec 16} {b : List Byte} (hs : s.Canon waiting) :
    (s.takeResult part op st b).Canon waiting :=
  .ite (.orderDone (.giveResult hs)) hs

/-! ## Commands of the mailbox -/

theorem State.Canon.adapterBind {w : Waiting} {b : List Byte} (hs : s.Canon waiting) :
    (s.adapterBind w b).Canon waiting :=
  .ite (.answer hs) (.ite (.answer hs) (.ite (.answer hs) (.ite (.answer hs) (.same hs))))

theorem State.Canon.powerStep {w : Waiting} {b : List Byte} (hs : s.Canon waiting) : (s.powerStep w b).Canon waiting :=
  .ite (.answer hs) (.ite (.same hs) (.holdStep (.settleStep (.same hs))))

theorem State.Canon.powerLimit {w : Waiting} {b : List Byte} (hs : s.Canon waiting) :
    (s.powerLimit w b).Canon waiting :=
  .ite (.answer hs) (.ite (.same hs) (.settleStep (.holdLimit (.same hs))))

theorem State.Canon.bankPower {w : Waiting} {b : List Byte} (hs : s.Canon waiting) : (s.bankPower w b).Canon waiting :=
  .ite (.answer hs) (.ite (.answer hs) (.ite (.answer hs) (.ite (.same hs) (.gateNow (.same hs)))))

theorem State.Canon.drainHere {asker : FabricAddr} (hs : s.Canon waiting) : (s.drainHere asker).Canon waiting :=
  .same hs

theorem State.Canon.routeDrain {w : Waiting} {b : List Byte} (hs : s.Canon waiting) :
    (s.routeDrain w b).Canon waiting :=
  .ite (.answer hs) (.ite (.ite (.answer hs) (.answer (.undrain (.tellAll hs)))) (.drainHere (.update (.tellAll hs))))

theorem State.Canon.routeSet {w : Waiting} {b : List Byte} (hs : s.Canon waiting) : (s.routeSet w b).Canon waiting :=
  .ite (.answer hs) (.ite (.answer hs) (.ite (.same hs) (.routeSetNow hs)))

theorem State.Canon.countersEnable {w : Waiting} {b : List Byte} (hs : s.Canon waiting) :
    (s.countersEnable w b).Canon waiting :=
  .ite (.answer hs) (.ite (.same hs) (.answer (.applyCounters hs)))

theorem State.Canon.countersRead {k : Nat} {w : Waiting} {b : List Byte} (hs : s.Canon waiting) :
    (s.countersRead k w b).Canon waiting := by
  unfold State.countersRead
  dsimp only
  split
  · exact .answer hs
  · exact .answer hs
  · exact .ite (.answer hs) (.answer hs)
  · exact .ite (.answer hs) (.answer hs)
  · exact .answer hs

theorem State.Canon.debugProbe {w : Waiting} {b : List Byte} (hs : s.Canon waiting) :
    (s.debugProbe w b).Canon waiting :=
  .ite (.answer (.same hs)) (.answer hs)

theorem State.Canon.debugBreak {w : Waiting} {b : List Byte} (hs : s.Canon waiting) :
    (s.debugBreak w b).Canon waiting :=
  .ite (.answer hs) (.ite (.answer hs) (.answer (.same hs)))

theorem State.Canon.lockstep {w : Waiting} {b : List Byte} (hs : s.Canon waiting) : (s.lockstep w b).Canon waiting :=
  .ite (.answer hs) (.ite (.answer hs) (.ite (.ite (.answer (.sendOffer (.same hs))) (.answer hs))
    (.ite (.same hs) (.answer (.leavePair hs)))))

theorem State.Canon.takeLock {partner : FabricAddr} {m : LockMessage} (hs : s.Canon waiting) :
    (s.takeLock partner m).Canon waiting := by
  unfold State.takeLock
  split
  · exact .same hs
  · exact .ite (.update (.ite (.same hs) hs)) (.ite (.same hs) hs)
  · exact .ite (.compareSlices (.same hs)) hs

theorem State.Canon.attest {k : Nat} {w : Waiting} {b : List Byte} (hs : s.Canon waiting) :
    (s.attest k w b).Canon waiting := by
  refine .ite (.answer (.setMbox hs)) ?_
  split
  · exact .ite (.answer hs) (.answer hs)
  · exact .answer hs

/-! ## Start-up and resets -/

theorem State.Canon.restoreRoutes (hs : s.Canon waiting) : s.restoreRoutes.Canon waiting :=
  .foldl (fun _ _ ht => .modRouter ht) hs

theorem State.Canon.dropUnstarted (hs : s.Canon waiting) : s.dropUnstarted.Canon waiting := .same hs

theorem State.Canon.settleCommits (hs : s.Canon waiting) : s.settleCommits.Canon waiting :=
  .dropUnstarted (.foldl (fun _ _ ht => .ite (.complete (.draw ht)) (.draw ht)) (.update (.dropUnstarted hs)))

theorem State.Canon.resetDomains {state : PowerState} {cause : BitVec 4} {mark : Bool} (hs : s.Canon waiting) :
    (s.resetDomains state cause mark).Canon waiting :=
  .blank hs

theorem State.Canon.commitNow {type : Byte} {e : Effect} (hs : s.Canon waiting) : (s.commitNow type e).Canon waiting :=
  .complete (.same hs)

theorem State.Canon.startImage {slot : BitVec 1} {trial : Bool} (hs : s.Canon waiting) :
    (s.startImage slot trial).Canon waiting :=
  .same hs

theorem State.Canon.boot (hs : s.Canon waiting) : s.boot.Canon waiting :=
  .ite (.startImage (.commitNow (.ite hs (.commitNow hs))))
    (.ite (.startImage (.commitNow (.ite hs (.commitNow hs))))
    (.ite (.startImage (.draw (.ite hs (.commitNow hs))))
    (.ite (.startImage (.ite hs (.commitNow hs))) (.ite (.startImage (.ite hs (.commitNow hs)))
    (.update (.ite hs (.commitNow hs)))))))

theorem State.Canon.tryBoot (hs : s.Canon waiting) : s.tryBoot.Canon waiting := .ite (.boot hs) hs

theorem State.Canon.startUp (hs : s.Canon waiting) : s.startUp.Canon waiting := .ite (.tryBoot (.same hs)) hs

theorem State.Canon.partReset {cause : BitVec 4} (hs : s.Canon waiting) : (s.partReset cause).Canon waiting :=
  .startUp (.resetDomains (.settleCommits (.fenceAtBell hs)))

theorem State.Canon.coldReset (hs : s.Canon waiting) : s.coldReset.Canon waiting :=
  .update (.resetDomains (.settleCommits hs))

theorem State.Canon.powerOff {cause : BitVec 4} {stays : Bool} (hs : s.Canon waiting) :
    (s.powerOff cause stays).Canon waiting :=
  .update (.resetDomains hs)

theorem State.Canon.endCut (hs : s.Canon waiting) : s.endCut.Canon waiting := .ite (.powerOff (.dropUnstarted hs)) hs

theorem State.Canon.cutJob (hs : s.Canon waiting) : s.cutJob.Canon waiting :=
  .ite (.ite (.fault (.gatherSend (.stopClocks (.cause hs)))) (.emit (.gatherSend (.stopClocks (.cause hs))))) hs

theorem State.Canon.cutDist (hs : s.Canon waiting) : s.cutDist.Canon waiting := by
  unfold State.cutDist
  split
  · exact .ite (.commitProgress hs) hs
  · exact hs

theorem State.Canon.finishBlocks (hs : s.Canon waiting) : s.finishBlocks.Canon waiting := by
  unfold State.finishBlocks
  split
  · exact .ite (.cutDist (.foldl (fun _ _ ht => .blockDone ht) hs)) hs
  · exact hs

theorem State.Canon.cut {cause : BitVec 4} (hs : s.Canon waiting) : (s.cut cause).Canon waiting :=
  .cutDist (.cutJob (.same hs))

theorem State.Canon.finishCommits (hs : s.Canon waiting) : s.finishCommits.Canon waiting :=
  .dropUnstarted (.ite (.foldl (fun _ _ ht => .complete ht) (.update (.dropUnstarted hs)))
    (.update (.dropUnstarted hs)))

theorem State.Canon.markFailing {failing : List (BitVec 2 × Byte × BitVec 64)} (hs : s.Canon waiting) :
    (s.markFailing failing).Canon waiting :=
  .same hs

theorem State.Canon.loadContent {v0 : Content} (hs : s.Canon waiting) : (s.loadContent v0).Canon waiting := by
  unfold State.loadContent
  split
  · exact .same hs
  · exact .foldl (fun _ _ ht => .modRoll ht) (.same hs)
  · exact .same hs
  · exact .same hs
  · exact .same hs
  · exact .same hs
  · exact .same hs
  · exact .same hs
  · exact .same hs
  · exact .foldl (fun _ _ ht => .modStack ht) hs
  · exact .same hs
  · exact .same hs

theorem State.Canon.loadType {type : Byte} (hs : s.Canon waiting) : (s.loadType type).Canon waiting := by
  unfold State.loadType
  split
  · exact .loadContent hs
  · refine .ite hs ?_
    split
    · exact .loadContent hs
    · exact hs

theorem State.Canon.mount (hs : s.Canon waiting) : s.mount.Canon waiting := by
  have hl : (recordTypes.foldl State.loadType s).Canon waiting := .foldl (fun _ _ ht => .loadType ht) hs
  unfold State.mount
  dsimp only
  generalize hrewrite : State.rewriteAll _ _ _ = t
  have ht : t.Canon waiting := hrewrite ▸ hl.rewriteAll
  exact .restoreRoutes (.freeBlocks (.dropSuperseded ht.same))

theorem Settles.execStoreMount (hs : s.Canon waiting) : Settles waiting (execStoreMount s) := by
  refine .next (.ite (.ite (.msix (.same hs)) (.openWindow ?_)) hs)
  dsimp only
  generalize hlinks : List.foldl _ _ _ = t
  have ht : t.Canon waiting := hlinks ▸ .foldl (fun _ _ ht => .placeLink ht) hs.mount
  exact ht.same

theorem State.Canon.powerA (hs : s.Canon waiting) : s.powerA.Canon waiting := .blank hs

theorem State.Canon.computeReset {cause : BitVec 4} (hs : s.Canon waiting) : (s.computeReset cause).Canon waiting :=
  have hf : (if s.inSession && s.isMember then s.fault 6 else s).fenceAtBell.Canon waiting :=
    .fenceAtBell (.ite (.fault hs) hs)
  hf.blank

theorem State.Canon.powerRefused (hs : s.Canon waiting) : s.powerRefused.Canon waiting := .same hs

theorem State.Canon.endShutdown (hs : s.Canon waiting) : s.endShutdown.Canon waiting := .ite (.powerOff hs) hs

theorem State.Canon.trip (hs : s.Canon waiting) : s.trip.Canon waiting := .update (.stopClocks (.ite (.cause hs) hs))

theorem State.Canon.thermalTrip (hs : s.Canon waiting) : s.thermalTrip.Canon waiting :=
  .ite hs (.settleStep (.update (.trip hs)))

theorem State.Canon.thermalShutdown (hs : s.Canon waiting) : s.thermalShutdown.Canon waiting :=
  .update (.computeReset hs)

theorem State.Canon.hotCut (hs : s.Canon waiting) : s.hotCut.Canon waiting :=
  .update (.powerOff (.finishCommits (.finishBlocks (.cut hs))))

theorem Settles.execTemperatureSample {readings : List (BitVec 16)} (hs : s.Canon waiting) :
    Settles waiting (execTemperatureSample readings s) :=
  .next (.ite (.ite (.same hs) (.ite (.hotCut (.same hs))
    (.ite (.thermalShutdown (.same hs)) (.ite (.thermalTrip (.same hs)) (.same hs))))) hs)

/-! ## The end of a commit -/

theorem State.Canon.applyAfter {v0 : After} (hs : s.Canon waiting) : (s.applyAfter v0).Canon waiting := by
  unfold State.applyAfter
  split
  · exact hs
  · exact .answer hs
  · exact .answerAll hs
  · exact .ite (.takeResult hs) (.ite hs (.reply hs))
  · exact .endRestore hs
  · exact .eraseJournal hs
  · exact .serve hs
  · exact .serve hs
  · exact .tellPrepared hs
  · exact .tellCommitted hs
  · exact .sendCommits hs

theorem Settles.execRecordCommitDone {failed : List (Nat × Nat)} (hs : s.Canon waiting) :
    Settles waiting (execRecordCommitDone failed s) := by
  unfold Machine.execRecordCommitDone
  refine .next ?_
  split
  · exact hs
  · next c t _ =>
    have hdone : (State.complete { s with nv := { s.nv with commits := t } } c failed).Canon waiting :=
      .complete (.keepMem hs)
    have hafter : ((State.complete { s with nv := { s.nv with commits := t } } c failed).applyAfter
        c.after).compact.endCut.Canon waiting := .endCut (.compact (.applyAfter hdone))
    refine .ite (.endShutdown (.ite (.endCut (.msix (.keepMem hdone))) ?_)) hs
    split
    · exact .ite (.partReset hafter) hafter
    · exact hafter

/-! ## Objects -/

theorem State.Canon.program {adapter : Bool} {host : HostMem} {w : Waiting} {b : List Byte} (hs : s.Canon waiting) :
    (s.program adapter host w b).Canon waiting := by
  refine .ite (.answer hs) (.ite (.answer hs) (.ite (.answer hs) (.ite (.answer hs) ?_)))
  split
  · exact .answer hs
  · exact .ite (.answer hs) (.ite (.answer hs) (.beginReader hs))

theorem State.Canon.withObject {host : HostMem} {types : List Nat} {w : Waiting} {b : List Byte}
    {k : State → List Byte → State} (hk : ∀ t o, t.Canon waiting → (k t o).Canon waiting) (hs : s.Canon waiting) :
    (s.withObject host types w b k).Canon waiting := by
  refine .ite (.answer hs) ?_
  split
  · exact .answer hs
  · exact .ite (hk _ _ hs) (.answer hs)

theorem State.Canon.keyringSet {w : Waiting} {o : List Byte} (hs : s.Canon waiting) :
    (s.keyringSet w o).Canon waiting := by
  unfold State.keyringSet
  split
  · exact .answer hs
  · split
    · exact .answer hs
    · exact .startCommit hs

theorem Settles.execKeyringSet {tr : BitVec 7} {host : HostMem} (hs : s.Canon waiting) :
    Settles waiting (execKeyringSet tr host s) :=
  .next (.command (fun _ _ _ ht => .ite (.answer ht) (.withObject (fun _ _ ht => .keyringSet ht) ht)) hs)

theorem Settles.execDebugAuth {tr : BitVec 7} {host : HostMem} (hs : s.Canon waiting) :
    Settles waiting (execDebugAuth tr host s) :=
  .next (.command (fun _ _ _ ht => .ite (.answer ht) (.withObject (fun _ _ ht => .ite (.answer ht) (.startCommit ht))
    ht)) hs)

theorem State.Canon.padlockSet {w : Waiting} {o : List Byte} (hs : s.Canon waiting) :
    (s.padlockSet w o).Canon waiting := by
  unfold State.padlockSet
  split
  · exact .answer hs
  · exact .ite (.answer hs) (.startCommit hs)

/-! ## The service channel -/

theorem State.Canon.request {mac : Nat} {sequence : Word} {takes : Bool} {run : State → State}
    (hrun : ∀ t, t.Canon waiting → (run t).Canon waiting) (hs : s.Canon waiting) :
    (s.request mac sequence takes run).Canon waiting := by
  refine .ite ?_ hs
  split
  · exact .ite (.emit hs) (hrun _ hs)
  · exact hrun _ hs

theorem Settles.execUpdateEnd {mac : Nat} {sequence : Word} (hs : s.Canon waiting) :
    Settles waiting (execUpdateEnd mac sequence s) := by
  refine .next (.request (fun _ ht => ?_) hs)
  split
  · exact .serve ht
  · split
    · exact .serve ht
    · exact .ite (.serve (.same ht)) (.startCommit (.same ht))

/-! ## Registers and the endpoint -/

theorem State.Canon.sampleTake (hs : s.Canon waiting) : s.sampleTake.Canon waiting := .same hs

theorem Settles.execTsSampleDone (hs : s.Canon waiting) : Settles waiting (execTsSampleDone s) := by
  refine .next ?_
  split
  · exact hs
  · exact .ite (.same hs) (.same hs)

theorem State.Canon.clearViol {high : Bool} {v : Word} (hs : s.Canon waiting) : (s.clearViol high v).Canon waiting :=
  .same hs

theorem State.Canon.stateOf {o : Host.Outcome State Fault Refusal} (ho : Settles waiting o) (hs : s.Canon waiting) :
    (stateOf s o).Canon waiting := by
  cases o with
  | next t => exact ho
  | fault r => exact hs
  | refused r => exact hs

theorem State.Canon.writePwCtrl {v : Word} (hs : s.Canon waiting) : (s.writePwCtrl v).Canon waiting := by
  unfold State.writePwCtrl
  split
  · exact .stateOf (.next (.ite hs (.ite (.powerRefused hs) (.blank hs)))) hs
  · exact .stateOf (.next (.ite hs (.ite (.powerA (.same hs)) (.powerRefused hs)))) hs
  · exact .stateOf (.next (.ite hs (.ite (.powerRefused hs) (.endShutdown (.same hs))))) hs
  · exact hs

theorem State.Canon.writePwReset {v : Word} (hs : s.Canon waiting) : (s.writePwReset v).Canon waiting :=
  have hc : (Machine.stateOf s (execPwResetCompute v s)).Canon waiting := .stateOf
    (.next (.ite (.ite (.powerA (.computeReset hs)) (.computeReset hs)) hs)) hs
  .stateOf (.next (.ite (.same hc) hc)) hs

theorem State.Canon.writePriv {off : Nat} {v : Word} (hs : s.Canon waiting) : (s.writePriv off v).Canon waiting := by
  unfold State.writePriv
  split
  · exact .clearViol hs
  · exact .clearViol hs
  · exact .same hs
  · exact .ite (.sampleTake hs) hs
  · exact .same hs
  · exact .same hs
  · exact .same hs
  · exact .same hs
  · exact .same hs
  · exact .same hs
  · exact .writePwCtrl hs
  · exact .writePwReset hs
  · exact .same hs
  · exact hs

theorem State.Canon.writeControl {off : Nat} {v : Word} (hs : s.Canon waiting) : (s.writeControl off v).Canon waiting :=
  .ite (.violate hs) (.same hs)

theorem State.Canon.writeMail {f : Nat} {bar2 : Bool} {base off : Nat} {v : Word} (hs : s.Canon waiting) :
    (s.writeMail f bar2 base off v).Canon waiting :=
  .ite (.mailboxWrite hs) (.ite (.violate hs) (.ite (.releaseOut hs) hs))

theorem State.Canon.writeBar0 {off : Nat} {v : Word} (hs : s.Canon waiting) : (s.writeBar0 off v).Canon waiting :=
  .ite (.writeMail hs) (.ite (.writePriv hs) (.ite (.same hs) hs))

theorem State.Canon.writeBar2 {f off : Nat} {v : Word} (hs : s.Canon waiting) : (s.writeBar2 f off v).Canon waiting :=
  .ite (.writeControl hs) (.ite (.writeMail hs) (.ite (.ingressWrite hs) (.ite (.modFn hs) hs)))

theorem Settles.execRegisterWrite {fn : BitVec 6} {bar2 : Bool} {offset value : Word} (hs : s.Canon waiting) :
    Settles waiting (execRegisterWrite fn bar2 offset value s) := by
  refine .next (.ite hs ?_)
  split
  · exact .violate hs
  · exact .ite (.writeBar2 hs) (.writeBar0 hs)

theorem State.Canon.resetFn {f : Nat} (hs : s.Canon waiting) : (s.resetFn f).Canon waiting := .same hs

theorem State.Canon.flr {f : Nat} (hs : s.Canon waiting) : (s.flr f).Canon waiting :=
  .ite (.foldl (fun _ _ ht => .resetFn ht) hs) (.resetFn hs)

theorem State.Canon.tapShift {tdi : List Bool} (hs : s.Canon waiting) : (s.tapShift tdi).Canon waiting := by
  unfold State.tapShift
  dsimp only
  split
  · exact .emit (.same hs)
  · exact .emit (.same hs)
  · exact .emit (.update (.draw hs))

theorem Settles.execTestAccessPort {op : TapOp} (hs : s.Canon waiting) : Settles waiting (execTestAccessPort op s) := by
  refine .next (.ite ?_ hs)
  split
  · exact .same hs
  · exact .same hs
  · exact .same hs
  · exact .same hs
  · exact .same hs
  · exact .same hs
  · exact .tapShift hs

/-! ## Messages of the firmware -/

theorem State.Canon.takeCreate {root : FabricAddr} {job : BitVec 16} {seed : BitVec 64} {replayLimit : Byte}
    {recessMin : Word} (hs : s.Canon waiting) : (s.takeCreate root job seed replayLimit recessMin).Canon waiting :=
  .ite (.update (.freshJob hs)) hs

theorem State.Canon.takeAssign {source : FabricAddr} {job : BitVec 16} {slice : BitVec 8} {low high : FabricAddr}
    {members : List Nat} {root : FabricAddr} {epoch : BitVec 2} {limitUs : Word} (hs : s.Canon waiting) :
    (s.takeAssign source job slice low high members root epoch limitUs).Canon waiting :=
  .ite (.ite (.assignHere hs) (.emit (.same hs))) (.emit hs)

theorem State.Canon.takeImage {d : List Byte} {l : List (List Byte × BitVec 512)} (hs : s.Canon waiting) :
    (s.takeImage d l).Canon waiting :=
  .ite (.reply (.loadHere hs)) hs

theorem State.Canon.takeOrder {source : FabricAddr} {op : BitVec 16} {b : List Byte} (hs : s.Canon waiting) :
    (s.takeOrder source op b).Canon waiting :=
  .ite (.ite (.drainHere hs) (.undrain hs)) (.ite (.obey hs) hs)

theorem State.Canon.frameDone {member : FabricAddr} (hs : s.Canon waiting) : (s.frameDone member).Canon waiting := by
  unfold State.frameDone
  split
  · exact hs
  · exact .modTransfer hs

theorem State.Canon.takeDone {member : FabricAddr} {op st : BitVec 16} {b : List Byte} (hs : s.Canon waiting) :
    (s.takeDone member op st b).Canon waiting :=
  .ite (.frameDone hs) (.ite (.partQuiet hs) (.takeResult hs))

theorem State.Canon.takeEnd {source : FabricAddr} {phase : Phase} {code : Byte} (hs : s.Canon waiting) :
    (s.takeEnd source phase code).Canon waiting :=
  .ite (.ite (.fault hs) hs) (.ite (.endJob hs) hs)

theorem State.Canon.takeRelease {source : FabricAddr} {job : BitVec 16} {release : Bool} (hs : s.Canon waiting) :
    (s.takeRelease source job release).Canon waiting :=
  .ite (.ite (.releaseJob hs) (.same hs)) (.ite (.commitFabric (.clearSlice hs)) hs)

theorem State.Canon.takeDigest {member : Nat} {bell : BitVec 40} {value : BitVec 64} (hs : s.Canon waiting) :
    (s.takeDigest member bell value).Canon waiting :=
  .ite (.compareSlices (.trySlice (.same hs))) hs

theorem State.Canon.takeFlags {source : FabricAddr} {bell : BitVec 40} {l : List (Nat × BitVec 10)}
    (hs : s.Canon waiting) : (s.takeFlags source bell l).Canon waiting :=
  .ite (.foldl (fun _ _ ht => .sumFlag ht) hs) hs

theorem State.Canon.takePage {page : Nat} (hs : s.Canon waiting) : (s.takePage page).Canon waiting :=
  .ite (.same hs) hs

theorem State.Canon.takeWidthOf {part : FabricAddr} {lanes : Nat} (hs : s.Canon waiting) :
    (s.takeWidthOf part lanes).Canon waiting :=
  .ite (.ite (.fault (.same hs)) (.tryReady (.same hs))) hs

theorem State.Canon.takeBound {source : FabricAddr} {slot : Nat} {adapter : Word} {generation : BitVec 16}
    {tenant : BitVec 12} (hs : s.Canon waiting) :
    (s.takeBound source slot adapter generation tenant).Canon waiting := by
  refine .ite ?_ hs
  dsimp only
  split
  · exact .ite (.fillSlots (.nameSlot hs)) (.nameSlot hs)
  · exact .nameSlot hs

theorem State.Canon.takeFirmware {source : FabricAddr} {v0 : FwMessage} (hs : s.Canon waiting) :
    (s.takeFirmware source v0).Canon waiting := by
  unfold State.takeFirmware
  split
  · exact .takeCreate hs
  · exact .takeAssign hs
  · exact .takeOrder hs
  · exact .takeImage hs
  · exact .takeDone hs
  · exact .takeDigest hs
  · exact .takeFlags hs
  · exact .takeEnd hs
  · exact .takePage hs
  · exact .ite (.same hs) hs
  · exact .takeRelease hs
  · exact .ite (.heldCheck (.rootReverify hs)) hs
  · exact .takeRefusal hs
  · exact .takeReader hs
  · exact .takeDistEnd hs
  · exact .takeBound hs
  · exact .ite (.loseSlot hs) hs
  · exact .takeWidthOf hs
  · exact .ite (.fault hs) hs

/-! ## Every command -/

theorem exec_settles (hs : s.Canon waiting) (c : Instr) : Settles waiting (exec c s) := by
  cases c with
  | bundleFetch => exact .next (.ite (.ite (.fetchIssue (.ite (.endCycle hs) hs)) (.ite (.endCycle hs) hs)) hs)
  | lessonEnd => exact .next (.ite (.modTile (.refillCheck (.ite (.endCycle hs) hs))) hs)
  | mxb => exact .next (.issueOne (fun _ ht => .mxIssue ht) hs)
  | mxc => exact .next (.issueOne (fun _ ht => .mxIssue ht) hs)
  | vmov => exact .next (.issueOne (fun _ ht => .vxIssue ht) hs)
  | iadd => exact .next (.issueOne (fun _ ht => .vxIssue ht) hs)
  | isub => exact .next (.issueOne (fun _ ht => .vxIssue ht) hs)
  | imul => exact .next (.issueOne (fun _ ht => .vxIssue ht) hs)
  | imin => exact .next (.issueOne (fun _ ht => .vxIssue ht) hs)
  | imax => exact .next (.issueOne (fun _ ht => .vxIssue ht) hs)
  | vand => exact .next (.issueOne (fun _ ht => .vxIssue ht) hs)
  | vor => exact .next (.issueOne (fun _ ht => .vxIssue ht) hs)
  | vxor => exact .next (.issueOne (fun _ ht => .vxIssue ht) hs)
  | shl => exact .next (.issueOne (fun _ ht => .vxIssue ht) hs)
  | shr => exact .next (.issueOne (fun _ ht => .vxIssue ht) hs)
  | sar => exact .next (.issueOne (fun _ ht => .vxIssue ht) hs)
  | key => exact .next (.issueOne (fun _ ht => .vxIssue ht) hs)
  | vcmp => exact .next (.issueOne (fun _ ht => .vxIssue ht) hs)
  | vsel => exact .next (.issueOne (fun _ ht => .vxIssue ht) hs)
  | vperm => exact .next (.issueOne (fun _ ht => .vxIssue ht) hs)
  | vrda => exact .next (.issueOne (fun _ ht => .vxIssue ht) hs)
  | vwra => exact .next (.issueOne (fun _ ht => .vxIssue ht) hs)
  | vgath => exact .next (.issueOne (fun _ ht => .vxIssue ht) hs)
  | vscat => exact .next (.issueOne (fun _ ht => .vxIssue ht) hs)
  | fadd => exact .next (.issueOne (fun _ ht => .vxIssue ht) hs)
  | fsub => exact .next (.issueOne (fun _ ht => .vxIssue ht) hs)
  | fmul => exact .next (.issueOne (fun _ ht => .vxIssue ht) hs)
  | ffma => exact .next (.issueOne (fun _ ht => .vxIssue ht) hs)
  | fmax => exact .next (.issueOne (fun _ ht => .vxIssue ht) hs)
  | fmin => exact .next (.issueOne (fun _ ht => .vxIssue ht) hs)
  | vcvt => exact .next (.issueOne (fun _ ht => .vxIssue ht) hs)
  | vscan => exact .next (.issueOne (fun _ ht => .vxIssue ht) hs)
  | vscanx => exact .next (.issueOne (fun _ ht => .vxIssue ht) hs)
  | vred => exact .next (.issueOne (fun _ ht => .vxIssue ht) hs)
  | vhist => exact .next (.issueOne (fun _ ht => .vxIssue ht) hs)
  | vfirst => exact .next (.issueOne (fun _ ht => .vxIssue ht) hs)
  | vacc => exact .next (.issueOne (fun _ ht => .vxIssue ht) hs)
  | vscana => exact .next (.issueOne (fun _ ht => .vxIssue ht) hs)
  | exp2 => exact .next (.issueOne (fun _ ht => .vxIssue ht) hs)
  | log2 => exact .next (.issueOne (fun _ ht => .vxIssue ht) hs)
  | rcp => exact .next (.issueOne (fun _ ht => .vxIssue ht) hs)
  | rsqrt => exact .next (.issueOne (fun _ ht => .vxIssue ht) hs)
  | sin => exact .next (.issueOne (fun _ ht => .vxIssue ht) hs)
  | cos => exact .next (.issueOne (fun _ ht => .vxIssue ht) hs)
  | lds => exact .next (.issueOne (fun _ ht => .ldIssue ht) hs)
  | ldv => exact .next (.issueOne (fun _ ht => .ldIssue ht) hs)
  | ldo => exact .next (.issueOne (fun _ ht => .ldIssue ht) hs)
  | ldi => exact .next (.issueOne (fun _ ht => .ldIssue ht) hs)
  | sts => exact .next (.issueOne (fun _ ht => .stIssue ht) hs)
  | stv => exact .next (.issueOne (fun _ ht => .stIssue ht) hs)
  | sendv => exact .next (.issueOne (fun _ ht => .sendIssue ht) hs)
  | sends => exact .next (.issueOne (fun _ ht => .sendIssue ht) hs)
  | red => exact .next (.issueOne (fun _ ht => .redIssue ht) hs)
  | put => exact .next (.issueOne (fun _ ht => .putIssue ht) hs)
  | loop => exact .next (.issueOne (fun _ ht => .modTile ht) hs)
  | brc => exact .next (.issueOne (fun _ ht => .modTile ht) hs)
  | endl => exact .next (.issueOne (fun _ ht => .modTile ht) hs)
  | sets => exact .next (.issueOne (fun _ ht => .modTile ht) hs)
  | seta => exact .next (.issueOne (fun _ ht => .modTile ht) hs)
  | salu => exact .next (.issueOne (fun _ ht => .modTile ht) hs)
  | rdctl => exact .next (.issueOne (fun _ ht => .ctRdctl ht) hs)
  | mset => exact .next (.issueOne (fun _ ht => .modTile ht) hs)
  | rand => exact .next (.issueOne (fun _ ht => .ctRand ht) hs)
  | dgsel => exact .next (.issueOne (fun _ ht => .modTile ht) hs)
  | resultWriteback => exact .next (.ite hs (.ite (.endCycle hs) (.modTile hs)))
  | mxRowWrite => exact .next (.ite (.modTile hs) hs)
  | hingeEntryArrival => exact .execHingeEntryArrival hs
  | hingeDueRelease => exact .next (.ite (.hingeRelease hs) hs)
  | droopDetect => exact .execDroopDetect hs
  | stretchDebtRecovery => exact .next (.ite (.setStretch hs) hs)
  | sliceRequestServe => exact .execSliceRequestServe hs
  | sliceRequestDrop => exact .next (.ite (.dropWrite (.stampPieces hs)) (.dropRead hs))
  | collisionWindowExpiry => exact .next (.expireWindow hs)
  | reductionContribution => exact .execReductionContribution hs
  | reductionClose => exact .execReductionClose hs
  | pieceLanding => exact .execPieceLanding hs
  | gatherStatusSend => exact .next (.ite (.gatherSend hs) (.relayGather hs))
  | bellGather => exact .execBellGather hs
  | gatherTimeout => exact .next (.ite (.endEverywhere hs) hs)
  | bellVerdict => exact .execBellVerdict hs
  | readySend => exact .execReadySend hs
  | bellReady => exact .next (.ite (.tryReady (.update (.ite (.rejoin hs) hs))) (.ite (.rejoin hs) hs))
  | releaseIssue => exact .execReleaseIssue hs
  | bellRelease => exact .next (.ite (.ite (.passRelease hs) (.relayRelease (.passRelease hs))) hs)
  | tileRelease => exact .execTileRelease hs
  | bellNotice => exact .next (.ite (.passNotice hs) hs)
  | drainQuiet => exact .execDrainQuiet hs
  | temperatureSample => exact .execTemperatureSample hs
  | thermalStepRise => exact .next (.ite (.ite (.same hs) (.settleStep (.same hs))) hs)
  | cooldownReady => exact .next (.ite (.same hs) hs)
  | powerSample => exact .next (.ite (.ite (.update (.ite (.same hs) (.trip (.same hs)))) (.same hs)) hs)
  | p1IdleEntry => exact .next (.ite (.same hs) hs)
  | inputGood => exact .next (.ite (.startUp (.same hs)) hs)
  | storeMount => exact .execStoreMount hs
  | domainAPowerUp => exact .next (.ite (.powerA hs) hs)
  | selfTestComplete => exact .next (.ite (.update (.fence hs)) hs)
  | startupRestoreComplete => exact .next (.ite (.same hs) hs)
  | inputFailure => exact .next (.ite hs (.ite (.endCut (.cut hs)) (.ite (.same hs) (.powerOff (.same hs)))))
  | vsbLoss => exact .next (.update (.coldReset (.ite (.finishCommits (.finishBlocks (.cut hs))) hs)))
  | refclkLoss => exact .next (.ite (.partReset (.draw (.ite (.cause (.same hs)) (.same hs)))) (.same hs))
  | partReset => exact .next (.ite (.partReset (.same hs)) (.ite (.partReset hs) hs))
  | perstN => exact .next (.flr (.same hs))
  | flr => exact .next (.ite (.flr hs) hs)
  | trialWatchdogExpiry => exact .next (.ite (.partReset hs) hs)
  | trialConfirm => exact .next (.ite (.startCommit hs) hs)
  | recordCommitDone => exact .execRecordCommitDone hs
  | restoreBlockRead => exact .execRestoreBlockRead hs
  | readDisturbRelocate => exact .next (.ite (.recordWear (.modStack (.relocateBlock hs))) hs)
  | retentionRefresh => exact .next (.ite (.recordWear (.modStack (.relocateBlock hs))) hs)
  | scrubIdleTick => exact .next (.ite (.scrub hs) hs)
  | halfLayerClosed => exact .next (.ite (.gateAnswer (.setGate (.clearHalf hs))) hs)
  | halfLayerOpened => exact .next (.ite (.ite hs (.same hs)) (.gateOn hs))
  | codewordReceive => exact .next (.ite hs (.ite (.laneFail (.takeWord (.setLink hs))) (.takeWord (.setLink hs))))
  | dataFlit => exact .next (.dataFlit hs)
  | statusFlit => exact .next (.statusFlit hs)
  | flitSlotTransmit => exact .execFlitSlotTransmit hs
  | replayTimeout => exact .next (.ite (.probe (.countEvent (.setLink hs))) hs)
  | linkLightDetect => exact .next (.ite (.setLink hs) hs)
  | linkCodewordLock => exact .next (.ite (.setLink hs) hs)
  | linkDetectTimeout => exact .next (.ite (.restLink hs) hs)
  | linkLockDone => exact .next (.ite (.setLink hs) hs)
  | train => exact .next (.train hs)
  | linkCheckDone => exact .execLinkCheckDone hs
  | laneFail => exact .next (.ite hs (.ite (.feedFail hs) (.ite (.laneFail hs) hs)))
  | degradeTimeout => exact .next (.ite (.fall hs) hs)
  | linkDown => exact .next (.ite (.fall hs) hs)
  | packetRoute => exact .execPacketRoute hs
  | putPacket => exact .next (.ite (.addPiece (.takePacket hs)) hs)
  | getReqIssue => exact .execGetReqIssue hs
  | getReq => exact .execGetReq hs
  | getResp => exact .execGetResp hs
  | mcast => exact .execMcast hs
  | ringStart => exact .next (.ite (.sendPieces (.atCycle hs)) hs)
  | rf => exact .execRf hs
  | announce => exact .next (.ite (.rollUpdate (.modRoll (.takeNeighbour hs))) (.takeNeighbour hs))
  | announceRepeat => exact .next (.ite (.announce hs) hs)
  | echoReq => exact .next (.ite (.sendNeighbour (.takeNeighbour hs)) (.takeNeighbour hs))
  | echoResp => exact .execEchoResp hs
  | rollCallWindowClose => exact .next (.rollUpdate (.same hs))
  | linkWindowClose => exact .next (.rollUpdate (.modRoll hs))
  | relayReverifyTimeout => exact .next (.ite (.fault hs) hs)
  | readerNotice => exact .next (.takeReader hs)
  | manifestFrame => exact .execManifestFrame hs
  | blockFrame => exact .execBlockFrame hs
  | blockProgramDone => exact .next (.ite (.endCut (.cutDist (.blockDone hs))) (.blockDone hs))
  | endOfPass => exact .execEndOfPass hs
  | storeNak => exact .next (.takeNak hs)
  | endOfPassResend => exact .execEndOfPassResend hs
  | prepared => exact .next (.takePrepared hs)
  | commit => exact .next (.takeCommit hs)
  | commitResend => exact .next (.sendCommits hs)
  | committed => exact .next (.takeCommitted hs)
  | ingressWrite => exact .next (.ingressWrite hs)
  | serviceTick => exact .execServiceTick hs
  | reqOpen => exact .execReqOpen hs
  | reqAppend => exact .execReqAppend hs
  | reqCancel => exact .execReqCancel hs
  | dataPut => exact .execDataPut hs
  | ttBlock => exact .execTtBlock hs
  | fence => exact .next (.ite (.ite (.dropMalformed hs) (.egressFn (.fenceFn (.dropMalformed hs)))) hs)
  | transferComplete => exact .execTransferComplete hs
  | bundleFrame => exact .execBundleFrame hs
  | mailboxRequest => exact .next (.ite (.mailboxWrite hs) (.ite (.i3cMessage hs) hs))
  | mailboxResponse => exact .next (.writeResponse (.refuseReserved hs))
  | mbOutRelease => exact .next (.releaseOut hs)
  | hello => exact .execHello hs
  | identify => exact .next (.command (fun _ _ _ ht => .answer ht) hs)
  | caps => exact .next (.command (fun _ _ _ ht => .answer ht) hs)
  | jobCreate => exact .next (.command (fun _ _ _ ht => .jobCreate ht) hs)
  | sliceAssign => exact .next (.command (fun _ _ _ ht => .sliceAssign ht) hs)
  | ttLoad => exact .next (.command (fun _ _ _ ht => .ttLoad ht) hs)
  | ttRelocate => exact .next (.command (fun _ _ _ ht => .ttRelocate ht) hs)
  | ttPatch => exact .next (.command (fun _ _ _ ht => .ttPatch ht) hs)
  | jobStart => exact .next (.command (fun _ _ _ ht => .jobStart ht) hs)
  | jobStop => exact .next (.command (fun _ _ _ ht => .jobStop ht) hs)
  | weightsProgram => exact .next (.command (fun _ _ _ ht => .program ht) hs)
  | weightsRestore => exact .next (.command (fun _ _ _ ht => .weightsRestore ht) hs)
  | adapterStore => exact .next (.command (fun _ _ _ ht => .program ht) hs)
  | adapterBind => exact .next (.command (fun _ _ _ ht => .adapterBind ht) hs)
  | keyringSet => exact .execKeyringSet hs
  | powerStep => exact .next (.command (fun _ _ _ ht => .powerStep ht) hs)
  | powerLimit => exact .next (.command (fun _ _ _ ht => .powerLimit ht) hs)
  | bankPower => exact .next (.command (fun _ _ _ ht => .bankPower ht) hs)
  | routeDrain => exact .next (.command (fun _ _ _ ht => .routeDrain ht) hs)
  | routeSet => exact .next (.command (fun _ _ _ ht => .routeSet ht) hs)
  | countersEnable => exact .next (.command (fun _ _ _ ht => .countersEnable ht) hs)
  | countersRead => exact .next (.command (fun _ _ _ ht => .countersRead ht) hs)
  | debugAuth => exact .execDebugAuth hs
  | debugProbe => exact .next (.command (fun _ _ _ ht => .debugProbe ht) hs)
  | debugBreak => exact .next (.command (fun _ _ _ ht => .debugBreak ht) hs)
  | lockstep => exact .next (.command (fun _ _ _ ht => .lockstep ht) hs)
  | attest => exact .next (.command (fun _ _ _ ht => .attest ht) hs)
  | updateStatus => exact .next (.command (fun _ _ _ ht => .answer (.updateBody ht)) hs)
  | padlock => exact .next (.command (fun _ _ _ ht => .withObject (fun _ _ ht => .padlockSet ht) ht) hs)
  | serviceIdentify => exact .next (.request (fun _ ht => .serve ht) hs)
  | plan => exact .next (.request (fun _ ht => .ite (.serve ht) (.ite (.serve ht) (.startCommit ht))) hs)
  | updateBegin => exact .next (.request (fun _ ht => .ite (.serve ht) (.startCommit (.same ht))) hs)
  | updateData => exact .next (.request (fun _ ht => .serve (.same ht)) hs)
  | updateEnd => exact .execUpdateEnd hs
  | updateActivate => exact .next (.request (fun _ ht => .ite (.serve ht) (.startCommit ht)) hs)
  | serviceUpdateStatus => exact .next (.request (fun _ ht => .serve (.updateBody ht)) hs)
  | lockstepDigest => exact .next (.takeLock hs)
  | lockstepPlacement => exact .next (.ite (.ite (.orderDone (.tryPlacement (.same hs))) (.tryPlacement (.same hs))) hs)
  | i3cDynamicAddress => exact .next (.ite (.same hs) hs)
  | i3cResetDynamicAddress => exact .next (.setMbox (.same hs))
  | setEndpointId => exact .next (.ite (.same hs) hs)
  | egCtrlEnable => exact .next (.ite (.modFn hs) hs)
  | tsSampleTake => exact .next (.ite (.sampleTake hs) hs)
  | tsSampleDone => exact .execTsSampleDone hs
  | pwCtrlEnterP2 => exact .next (.ite hs (.ite (.powerRefused hs) (.blank hs)))
  | pwCtrlLeaveP2 => exact .next (.ite hs (.ite (.powerA (.same hs)) (.powerRefused hs)))
  | pwCtrlEnterP3 => exact .next (.ite hs (.ite (.powerRefused hs) (.endShutdown (.same hs))))
  | pwResetCompute => exact .next (.ite (.ite (.powerA (.computeReset hs)) (.computeReset hs)) hs)
  | pwResetPart => exact .next (.ite (.same hs) hs)
  | accessViolation => exact .next (.ite (.violate hs) hs)
  | registerWrite => exact .execRegisterWrite hs
  | firmwareMessage => exact .next (.ite (.takeFirmware hs) hs)
  | vsbGood => exact .next (.ite hs (.markFailing (.same hs)))
  | partRstNRelease => exact .next (.ite (.startUp (.same hs)) hs)
  | refclkPresent => exact .next (.ite (.tryBoot (.same hs)) (.same hs))
  | pciExpressLinkChange => exact .next (.ite (.same hs) (.ite (.same hs) hs))
  | holdupStoreCharged => exact .next (.ite (.same hs) hs)
  | opticalReadingsRefresh => exact .execOpticalReadingsRefresh hs
  | testAccessPort => exact .execTestAccessPort hs

end

/-- Settles O58, an operation at a time: each one of the model keeps the queue it finds and the canonical form. -/
theorem stepKeepsMemoryCanonical : Obligations.StepKeepsMemoryCanonical := by
  intro s s' hwf hstep
  unfold step at hstep
  cases hq : s.pending with
  | nil =>
    rw [hq] at hstep
    cases hstep
    exact (State.Canon.tick ⟨hq, hwf⟩).symm
  | cons c rest =>
    rw [hq] at hstep
    have hrest : State.Canon rest { s with pending := rest } := ⟨rfl, hwf⟩
    have hnext := exec_settles hrest c
    dsimp only at hstep
    rw [hstep] at hnext
    exact hnext.symm

end Sys2Proof.Machine
end

section
/-! PROOFS. What an accepted granule write makes of working memory (R193, R204, R209). -/

namespace Sys2Proof.Machine

/-! ## One word -/

/-- The bytes of a run that a mask names take the new value. -/
theorem Mem.setBytes_byte (m : Mem) (k : Nat) (x : Vec) (mask : BitVec 256) (i j b : Nat) :
    (m.setBytes k x mask i j).byte b =
      if (k + i ≤ b ∧ b < k + i + j) ∧ bit mask (b - k) = true then byteOf x (b - k) else m.byte b := by
  by_cases hin : k + i ≤ b ∧ b < k + i + j
  · obtain ⟨n, rfl⟩ : ∃ n, b = k + n := ⟨b - k, by omega⟩
    rw [Mem.setBytes_byte_inside m k x mask i j n (by omega) (by omega), Nat.add_sub_cancel_left]
    simp only [hin, true_and]
  · rw [Mem.setBytes_byte_outside m k x mask i j b (by omega), if_neg fun h => hin h.1]

theorem Mem.setBytes_frame (m : Mem) (k : Nat) (x : Vec) (mask : BitVec 256) (i j : Nat) :
    ∃ bytes, m.setBytes k x mask i j = { m with bytes := bytes } := by
  induction j generalizing m i with
  | zero => exact ⟨m.bytes, rfl⟩
  | succ j ih =>
    simp only [Mem.setBytes]
    split
    · obtain ⟨bytes, h⟩ := ih (m.setByte (k + i) (byteOf x i)) (i + 1)
      exact ⟨bytes, h⟩
    · exact ih m (i + 1)

/-- A mask that names no byte of a word has none of its bits. -/
theorem bit_of_word_zero {mask : BitVec 256} {k i : Nat} (h : mask.extractLsb' (8 * k) 8 = 0) (hi : i < 8) :
    bit mask (8 * k + i) = false := by
  have hbit := congrArg (fun m : BitVec 8 => m.getLsbD i) h
  simpa [bit, hi] using hbit

/-- A write of a word changes the bytes of memory and which words are in error. -/
theorem writeWord_frame (g : Nat) (x : Vec) (mask : BitVec 256) (a : GranuleWrite) (k : Nat) :
    ∃ bytes ue ce, (writeWord g x mask a k).mem = { a.mem with bytes := bytes, ue := ue, ce := ce } := by
  obtain ⟨bytes, h⟩ := a.mem.setBytes_frame g x mask (8 * k) 8
  simp only [writeWord]
  split
  · exact ⟨_, _, _, rfl⟩
  · split
    · exact ⟨bytes, _, _, by rw [h]⟩
    · split
      · exact ⟨_, _, _, rfl⟩
      · exact ⟨bytes, _, _, by rw [h]⟩

/-- Where no word is uncorrectable, a word takes the bytes that the mask names, and none becomes uncorrectable. -/
theorem writeWord_byte (g : Nat) (x : Vec) (mask : BitVec 256) {a : GranuleWrite} (k : Nat) (hue : a.mem.ue = []) :
    (writeWord g x mask a k).mem.ue = [] ∧ ∀ b, (writeWord g x mask a k).mem.byte b =
      if (g + 8 * k ≤ b ∧ b < g + 8 * k + 8) ∧ bit mask (b - g) = true then byteOf x (b - g) else a.mem.byte b := by
  obtain ⟨bytes, hframe⟩ := a.mem.setBytes_frame g x mask (8 * k) 8
  have hset := a.mem.setBytes_byte g x mask (8 * k) 8
  simp only [writeWord]
  split
  · next hnone =>
    refine ⟨hue, fun b => (if_neg ?_).symm⟩
    rintro ⟨hin, hbit⟩
    have hoff : b - g = 8 * k + (b - g - 8 * k) := by omega
    rw [hoff, bit_of_word_zero hnone (by omega)] at hbit
    exact absurd hbit (by decide)
  · split
    · exact ⟨by rw [hue]; rfl, hset⟩
    · rw [hue, if_neg (by simp)]
      exact ⟨by rw [hframe]; exact hue, hset⟩

/-! ## A granule -/

/-- The first n words of a granule write. -/
theorem writeWords_byte (g : Nat) (x : Vec) (mask : BitVec 256) {a : GranuleWrite} (n : Nat) (hue : a.mem.ue = []) :
    ((List.range n).foldl (writeWord g x mask) a).mem.ue = [] ∧
      ∀ b, ((List.range n).foldl (writeWord g x mask) a).mem.byte b =
        if (g ≤ b ∧ b < g + 8 * n) ∧ bit mask (b - g) = true then byteOf x (b - g) else a.mem.byte b := by
  induction n with
  | zero => exact ⟨hue, fun b => (if_neg fun h => by omega).symm⟩
  | succ n ih =>
    obtain ⟨hue', hbyte⟩ := ih
    rw [List.range_succ, List.foldl_append]
    obtain ⟨hue'', hword⟩ := writeWord_byte g x mask n hue'
    refine ⟨hue'', fun b => (hword b).trans ?_⟩
    rw [hbyte b]
    by_cases hnew : g + 8 * n ≤ b ∧ b < g + 8 * n + 8
    · have hold : ¬b < g + 8 * n := by omega
      have hall : g ≤ b ∧ b < g + 8 * (n + 1) := by omega
      simp only [hnew, hold, hall, and_self, and_false, true_and, false_and, if_false]
    · have hsame : (g ≤ b ∧ b < g + 8 * n) ↔ (g ≤ b ∧ b < g + 8 * (n + 1)) := by omega
      simp only [hnew, hsame, false_and, if_false]

theorem writeWords_frame (g : Nat) (x : Vec) (mask : BitVec 256) (l : List Nat) (a : GranuleWrite) :
    ∃ bytes ue ce, (l.foldl (writeWord g x mask) a).mem = { a.mem with bytes := bytes, ue := ue, ce := ce } := by
  induction l generalizing a with
  | nil => exact ⟨_, _, _, rfl⟩
  | cons k l ih =>
    obtain ⟨_, _, _, hword⟩ := writeWord_frame g x mask a k
    obtain ⟨_, _, _, hrest⟩ := ih (writeWord g x mask a k)
    exact ⟨_, _, _, by rw [List.foldl_cons, hrest, hword]⟩

/-- Where no word is uncorrectable, a granule write makes every byte that its mask names the new one. -/
theorem Mem.writeGranule_byte (m : Mem) (g : Nat) (x : Vec) (mask : BitVec 256) (hue : m.ue = []) :
    (m.writeGranule g x mask).mem.ue = [] ∧ ∀ b, (m.writeGranule g x mask).mem.byte b =
      if (g ≤ b ∧ b < g + 256) ∧ bit mask (b - g) = true then byteOf x (b - g) else m.byte b :=
  writeWords_byte (a := { mem := m, ce := 0, ue := 0 }) g x mask 32 hue

/-! ## An accepted write -/

theorem State.onlyRead_writeHeld (s : State) (g ce ue : Nat) :
    s.OnlyRead (if ue = 0 then s.ceHold g ce else (s.ceHold g ce).ueHold g ue 2) := by
  split
  · exact s.onlyRead_ceHold g ce
  · exact (s.onlyRead_ceHold g ce).trans (State.onlyRead_ueHold _ g ue 2)

/-- Where no word is uncorrectable, an accepted write makes every byte that its mask names the new one, in a place that
completes writes. -/
theorem State.applyGranule_byte (s : State) (g : Nat) (x : Vec) (mask : BitVec 256) (hue : s.mem.ue = []) :
    (s.applyGranule g x mask).mem.ue = [] ∧ ∀ b, (s.applyGranule g x mask).mem.byte b =
      if s.memApplies g = true ∧ (g ≤ b ∧ b < g + 256) ∧ bit mask (b - g) = true then byteOf x (b - g)
      else s.mem.byte b := by
  obtain ⟨hue', hbyte⟩ := s.mem.writeGranule_byte g x mask hue
  cases ha : s.memApplies g with
  | false =>
    rw [State.applyGranule, ha]
    exact ⟨hue, fun b => (if_neg fun h => absurd h.1 (by decide)).symm⟩
  | true =>
    have hheld := State.onlyRead_writeHeld { s with mem := (s.mem.writeGranule g x mask).mem } g
      (s.mem.writeGranule g x mask).ce (s.mem.writeGranule g x mask).ue
    rw [State.applyGranule, ha]
    refine ⟨hheld.ue.trans hue', fun b => (hheld.keeps.1 b).trans ?_⟩
    simp only [true_and]
    exact hbyte b

/-- What an accepted granule write changes of the part: bytes, words in error, crossbar registers and counts. -/
theorem State.applyGranule_eq (s : State) (g : Nat) (x : Vec) (mask : BitVec 256) : ∃ bytes ue ce dies cnt,
    s.applyGranule g x mask = { s with
      mem := { s.mem with bytes := bytes, ue := ue, ce := ce, dies := dies }, dg := { s.dg with cnt := cnt } } := by
  obtain ⟨bytes, ue, ce, hmem⟩ := writeWords_frame g x mask (List.range 32) { mem := s.mem, ce := 0, ue := 0 }
  have hhold : ∀ (m : Mem) (n : Nat), ∃ dies cnt,
      State.ceHold { s with mem := m } g n = { s with mem := { m with dies := dies }, dg := { s.dg with cnt := cnt } } := by
    intro m n
    unfold State.ceHold
    split
    · exact ⟨m.dies, s.dg.cnt, rfl⟩
    · obtain ⟨cnt, h⟩ := State.countEvent_eq
        (State.modDie { s with mem := m } (dieOf g) fun r => { r with ceCount := r.ceCount + BitVec.ofNat 32 n })
        1 (dieOf g) 0x0107 n
      exact ⟨_, cnt, h⟩
  unfold State.applyGranule
  split
  · obtain ⟨dies, cnt, h⟩ := hhold (s.mem.writeGranule g x mask).mem (s.mem.writeGranule g x mask).ce
    dsimp only
    rw [h]
    have hwritten : (s.mem.writeGranule g x mask).mem = { s.mem with bytes := bytes, ue := ue, ce := ce } := hmem
    rw [hwritten]
    split
    · exact ⟨_, _, _, _, _, rfl⟩
    · exact ⟨_, _, _, _, _, rfl⟩
  · exact ⟨s.mem.bytes, s.mem.ue, s.mem.ce, s.mem.dies, s.dg.cnt, rfl⟩

end Sys2Proof.Machine
end

section
/-! PROOFS. The choice of a request at a memory slice (R192). -/

namespace Sys2Proof.Machine

/-! ## Crossbar registers of a slice's die -/

theorem State.countEvent_mem (s : State) (scope inst ev n : Nat) : (s.countEvent scope inst ev n).mem = s.mem := by
  obtain ⟨_, h⟩ := s.countEvent_eq scope inst ev n
  rw [h]

theorem State.onlyRead_countEvent (s : State) (scope inst ev n : Nat) : s.OnlyRead (s.countEvent scope inst ev n) := by
  obtain ⟨_, h⟩ := s.countEvent_eq scope inst ev n
  rw [h]
  exact State.onlyRead_of_mem_tiles rfl rfl rfl rfl rfl rfl rfl rfl rfl rfl

theorem State.notes_countEvent (s : State) (scope inst ev n : Nat) : s.Notes (s.countEvent scope inst ev n) := by
  refine ⟨s.onlyRead_countEvent scope inst ev n, fun u => ?_⟩
  obtain ⟨_, h⟩ := s.countEvent_eq scope inst ev n
  rw [h]
  exact ⟨rfl, rfl, rfl⟩

/-- Putting a slice back keeps every register and every byte. -/
theorem State.keeps_setSlice (s : State) (d n : Nat) (x : Slice) : s.keeps (s.setSlice d n x) := .of_bytes rfl rfl

theorem State.setSlice_dieRegs (s : State) (d n : Nat) (x : Slice) (k : Nat) :
    (s.setSlice d n x).dieRegs k = s.dieRegs k := rfl

/-! ## Choosing a request (R192) -/

/-- A request goes before another: an earlier arrival, or the lower port of one arrival. -/
def Leads (a p b q : Nat) : Prop := a < b ∨ (a = b ∧ p < q)

theorem servedFirst_iff (a p b q : Nat) : servedFirst a p b q = true ↔ Leads a p b q := by
  simp [servedFirst, Leads]

theorem Leads.asymm {a p b q : Nat} (h : Leads a p b q) : ¬Leads b q a p := by
  unfold Leads at *
  omega

/-- The first of what has come so far and one more request. -/
def keepFirst {α : Type} (arrival port : α → Nat) (now : Nat) (best : Option α) (r : α) : Option α :=
  if now < arrival r then best
  else match best with
    | none => some r
    | some b => if servedFirst (arrival r) (port r) (arrival b) (port b) then some r else some b

theorem firstWrite_eq (now : Nat) (l : List WriteReq) :
    firstWrite now l = l.foldl (keepFirst WriteReq.arrival WriteReq.port now) none := by
  unfold firstWrite
  congr 1
  funext best r
  cases best <;> rfl

theorem firstRead_eq (now : Nat) (l : List ReadReq) :
    firstRead now l = l.foldl (keepFirst ReadReq.arrival ReadReq.port now) none := by
  unfold firstRead
  congr 1
  funext best r
  cases best <;> rfl

section
variable {α : Type} {arrival port : α → Nat} {now : Nat} {l : List α} {w : α}

/-- The request goes before every other of the list that has come. -/
def LeadsAll (arrival port : α → Nat) (now : Nat) (w : α) (l : List α) : Prop :=
  ∀ v ∈ l, v ≠ w → arrival v ≤ now → Leads (arrival w) (port w) (arrival v) (port v)

theorem keepFirst_of_future {r : α} (h : now < arrival r) (best : Option α) :
    keepFirst arrival port now best r = best := if_pos h

theorem keepFirst_some {r : α} (h : arrival r ≤ now) (b : α) : keepFirst arrival port now (some b) r =
    if servedFirst (arrival r) (port r) (arrival b) (port b) then some r else some b :=
  if_neg (Nat.not_lt.2 h)

theorem keepFirst_none {r : α} (h : arrival r ≤ now) : keepFirst arrival port now none r = some r :=
  if_neg (Nat.not_lt.2 h)

/-- Where none has come, the choice stays. -/
theorem foldl_keepFirst_of_future (h : ∀ v ∈ l, now < arrival v) (best : Option α) :
    l.foldl (keepFirst arrival port now) best = best := by
  induction l generalizing best with
  | nil => rfl
  | cons v l ih =>
    obtain ⟨hv, hl⟩ := List.forall_mem_cons.1 h
    rw [List.foldl_cons, keepFirst_of_future hv]
    exact ih hl best

/-- One that goes before all others stays chosen. -/
theorem foldl_keepFirst_of_chosen (h : LeadsAll arrival port now w l) :
    l.foldl (keepFirst arrival port now) (some w) = some w := by
  induction l with
  | nil => rfl
  | cons v l ih =>
    obtain ⟨hv, hl⟩ := List.forall_mem_cons.1 h
    have hstep : keepFirst arrival port now (some w) v = some w := by
      by_cases hcome : arrival v ≤ now
      · rw [keepFirst_some hcome]
        split
        · next hfirst =>
          by_contra hne
          exact ((servedFirst_iff _ _ _ _).1 hfirst).asymm (hv (fun heq => hne (by rw [heq])) hcome)
        · rfl
      · exact keepFirst_of_future (Nat.not_le.1 hcome) _
    rw [List.foldl_cons, hstep]
    exact ih hl

/-- One that has come and goes before all others that have come is chosen. -/
theorem foldl_keepFirst_of_leads (hmem : w ∈ l) (hcome : arrival w ≤ now) (h : LeadsAll arrival port now w l)
    (best : Option α) (hbest : ∀ b ∈ best, b ≠ w → Leads (arrival w) (port w) (arrival b) (port b)) :
    l.foldl (keepFirst arrival port now) best = some w := by
  induction l generalizing best with
  | nil => exact absurd hmem List.not_mem_nil
  | cons v l ih =>
    obtain ⟨hv, hl⟩ := List.forall_mem_cons.1 h
    rw [List.foldl_cons]
    by_cases hvw : v = w
    · subst hvw
      have hstep : keepFirst arrival port now best v = some v := by
        cases best with
        | none => exact keepFirst_none hcome
        | some b =>
          rw [keepFirst_some hcome]
          split
          · rfl
          · next hlast =>
            by_contra hne
            exact hlast ((servedFirst_iff _ _ _ _).2 (hbest b rfl fun heq => hne (by rw [heq])))
      rw [hstep]
      exact foldl_keepFirst_of_chosen hl
    · refine ih ((List.mem_cons.1 hmem).resolve_left fun heq => hvw heq.symm) hl _ fun b hb hbw => ?_
      by_cases hvcome : arrival v ≤ now
      · cases best with
        | none =>
          rw [keepFirst_none hvcome] at hb
          rw [← Option.some.inj hb]
          exact hv hvw hvcome
        | some c =>
          rw [keepFirst_some hvcome] at hb
          split at hb
          · rw [← Option.some.inj hb]
            exact hv hvw hvcome
          · exact hbest b hb hbw
      · rw [keepFirst_of_future (Nat.not_le.1 hvcome)] at hb
        exact hbest b hb hbw

/-- What is chosen is one of the requests, or was chosen before. -/
theorem mem_of_foldl_keepFirst {best : Option α} (h : l.foldl (keepFirst arrival port now) best = some w) :
    w ∈ l ∨ best = some w := by
  induction l generalizing best with
  | nil => exact .inr h
  | cons v l ih =>
    rcases ih h with hmem | hbest
    · exact .inl (List.mem_cons_of_mem v hmem)
    · by_cases hvcome : arrival v ≤ now
      · cases best with
        | none =>
          rw [keepFirst_none hvcome] at hbest
          exact .inl (Option.some.inj hbest ▸ List.mem_cons_self)
        | some c =>
          rw [keepFirst_some hvcome] at hbest
          split at hbest
          · exact .inl (Option.some.inj hbest ▸ List.mem_cons_self)
          · exact .inr hbest
      · rw [keepFirst_of_future (Nat.not_le.1 hvcome)] at hbest
        exact .inr hbest

end

end Sys2Proof.Machine
end

section
/-! PROOFS. Writes at a memory slice and their window (R190, R192, R193, Table 8-7). -/

namespace Sys2Proof.Machine

section
variable {s : State} {d n now : Nat}

/-! ## Windows that have not passed -/

theorem State.expireOne_of_fresh (s : State) (d n : Nat) {e : Nat × WriteReq} (h : now < e.1 + 4) :
    State.expireOne d n now s e = s := if_pos h

theorem State.foldl_expireOne_of_fresh (s : State) (d n : Nat) {l : List (Nat × WriteReq)} (h : ∀ e ∈ l, now < e.1 + 4) :
    l.foldl (State.expireOne d n now) s = s := by
  induction l with
  | nil => rfl
  | cons e l ih =>
    obtain ⟨he, hl⟩ := List.forall_mem_cons.1 h
    rw [List.foldl_cons, State.expireOne_of_fresh s d n he]
    exact ih hl

theorem State.expireWindow_of_fresh (h : ∀ e ∈ (s.slice d n).window, now < e.1 + 4) : s.expireWindow d n now = s :=
  s.foldl_expireOne_of_fresh d n h

/-! ## Slices without pieces of a lesson -/

theorem State.headedFor_of_untagged (s : State) (d n : Nat) {p : Piece} (h : p.untagged = true) :
    s.headedFor d n p = false := by
  rw [State.headedFor, h]
  rfl

theorem State.stampPieces_of_plain (d n now : Nat) (h : ∀ p ∈ s.cq.pieces, p.untagged = true) :
    s.stampPieces d n now = s := by
  have hmap : (s.cq.pieces.map fun p =>
      if p.arrival.isNone && s.headedFor d n p then { p with arrival := some now } else p) = s.cq.pieces := by
    refine (List.map_congr_left fun p hp => ?_).trans (List.map_id _)
    rw [s.headedFor_of_untagged d n (h p hp), Bool.and_false]
    rfl
  unfold State.stampPieces
  rw [hmap]

theorem State.firstPiece_of_plain (d n now : Nat) (h : ∀ p ∈ s.cq.pieces, p.untagged = true) :
    s.firstPiece d n now = none := by
  have hnone : (s.cq.pieces.filter fun p => s.headedFor d n p && p.arrival.any fun a => a ≤ now) = [] :=
    List.filter_eq_nil_iff.2 fun p hp => by
      rw [s.headedFor_of_untagged d n (h p hp), Bool.false_and]
      exact Bool.false_ne_true
  unfold State.firstPiece
  rw [hnone]
  rfl

/-- Without such pieces the first write of the queue is the first that waits. -/
theorem State.firstWaiting_of_plain (h : ∀ p ∈ s.cq.pieces, p.untagged = true) :
    s.firstWaiting d n now = (firstWrite now (s.slice d n).writes).map .plain := by
  unfold State.firstWaiting
  rw [State.firstPiece_of_plain d n now h]
  cases firstWrite now (s.slice d n).writes <;> rfl

/-! ## Counting discarded writes -/

theorem State.collide_spec (s : State) (d n k : Nat) :
    s.keeps (s.collide d k) ∧ (s.collide d k).slice d n = s.slice d n ∧
      ((s.collide d k).dieRegs d).collide = (s.dieRegs d).collide + BitVec.ofNat 32 k := by
  unfold State.collide
  split
  · next hk =>
    rw [hk]
    exact ⟨.refl s, rfl, (BitVec.add_zero _).symm⟩
  · have hmem := State.countEvent_mem (s.modDie d fun r => { r with collide := r.collide + BitVec.ofNat 32 k }) 1 d 0x0104 k
    have hkeeps := (State.onlyRead_countEvent
      (s.modDie d fun r => { r with collide := r.collide + BitVec.ofNat 32 k }) 1 d 0x0104 k).keeps
    refine ⟨State.keeps.trans (.of_bytes rfl rfl) hkeeps, ?_, ?_⟩
    · rw [State.slice, hmem]
      rfl
    · rw [State.dieRegs, hmem]
      exact congrArg DieRegs.collide (s.modDie_dieRegs_same d _)

/-! ## The window (R193) -/

/-- The entry of a window is to the write's granule and from another source. -/
def WriteReq.meets (w : WriteReq) (e : Nat × WriteReq) : Bool := e.2.addr == w.addr && e.2.source != w.source

/-- The lowest source of those that meet is kept. -/
theorem State.acceptWrite_of_lowest (s : State) (d n now : Nat) {w : WriteReq}
    (h : ∀ e ∈ (s.slice d n).window.filter w.meets, w.rank < e.2.rank) :
    s.keeps (s.acceptWrite d n w now) ∧ (s.acceptWrite d n w now).slice d n =
      { s.slice d n with window := ((s.slice d n).window.filter fun e => !w.meets e) ++ [(now, w)] } ∧
    ((s.acceptWrite d n w now).dieRegs d).collide =
      (s.dieRegs d).collide + BitVec.ofNat 32 ((s.slice d n).window.filter w.meets).length := by
  have hall : (((s.slice d n).window.filter w.meets).all fun e => w.rank < e.2.rank) = true :=
    List.all_eq_true.2 fun e he => decide_eq_true (h e he)
  have haccept : s.acceptWrite d n w now = (s.setSlice d n { s.slice d n with
      window := ((s.slice d n).window.filter fun e => !w.meets e) ++ [(now, w)] }).collide d
        ((s.slice d n).window.filter w.meets).length := if_pos hall
  obtain ⟨hkeeps, hslice, hcount⟩ := State.collide_spec (s.setSlice d n { s.slice d n with
      window := ((s.slice d n).window.filter fun e => !w.meets e) ++ [(now, w)] }) d n
        ((s.slice d n).window.filter w.meets).length
  rw [haccept]
  exact ⟨(s.keeps_setSlice d n _).trans hkeeps, hslice.trans (State.setSlice_slice_same _ _ _ _), hcount⟩

/-- Another write to the granule is discarded and counted. -/
theorem State.acceptWrite_of_higher (s : State) (d n now : Nat) {w : WriteReq}
    (h : ¬∀ e ∈ (s.slice d n).window.filter w.meets, w.rank < e.2.rank) :
    s.acceptWrite d n w now = s.collide d 1 := by
  refine if_neg fun hall => h fun e he => ?_
  exact of_decide_eq_true (List.all_eq_true.1 hall e he)

/-! ## A served write -/

/-- The part after a slice has taken a write off its queue in a cycle. -/
def State.takenWrite (s : State) (d n now : Nat) (w : WriteReq) : State :=
  let t := s.takeWaiting d n (.plain w)
  t.setSlice d n { t.slice d n with writeAt := some now }

theorem State.takenWrite_slice (s : State) (d n now : Nat) (w : WriteReq) : (s.takenWrite d n now w).slice d n =
    { s.slice d n with writes := (s.slice d n).writes.erase w, writeAt := some now } := by
  unfold State.takenWrite State.takeWaiting
  dsimp only
  rw [State.setSlice_slice_same, State.setSlice_slice_same]

theorem State.keeps_takenWrite (s : State) (d n now : Nat) (w : WriteReq) : s.keeps (s.takenWrite d n now w) :=
  .of_bytes rfl rfl

theorem State.serveWrite_of_first {w : WriteReq} (hfirst : s.firstWaiting d n now = some (.plain w))
    (hin : now ≤ w.arrival + 2) (hserved : (s.slice d n).writeAt ≠ some now) :
    s.serveWrite d n now = if s.memOpen w.addr then (s.takenWrite d n now w).acceptWrite d n w now
      else s.takenWrite d n now w := by
  unfold State.serveWrite
  rw [if_neg (by simpa using hserved), hfirst]
  exact if_neg (Nat.not_lt.2 hin)

theorem State.serveWrite_of_served (h : (s.slice d n).writeAt = some now) : s.serveWrite d n now = s := by
  unfold State.serveWrite
  rw [if_pos (by rw [h]; exact beq_self_eq_true _)]

theorem State.serveWrite_of_none (h : s.firstWaiting d n now = none) : s.serveWrite d n now = s := by
  unfold State.serveWrite
  rw [h]
  exact ite_self _

end

end Sys2Proof.Machine
end

section
/-! PROOFS. A read at its slice: the layer's bytes and the reader's own earlier writes (R94, R193). -/

namespace Sys2Proof.Machine

/-! ## Bytes of vectors -/

theorem byteOf_getLsbD {w : Nat} (x : BitVec w) (i j : Nat) (hj : j < 8) :
    (byteOf x i).getLsbD j = x.getLsbD (8 * i + j) := by
  simp [byteOf, hj]

theorem byteOf_shiftLeft (x : Vec) (m i : Nat) (h : m + i < 256) : byteOf (x <<< (8 * m)) (m + i) = byteOf x i := by
  refine BitVec.eq_of_getLsbD_eq fun j hj => ?_
  rw [byteOf_getLsbD _ _ _ hj, byteOf_getLsbD _ _ _ hj, BitVec.getLsbD_shiftLeft]
  have hin : 8 * (m + i) + j < 2048 := by omega
  have hlow : ¬8 * (m + i) + j < 8 * m := by omega
  have hsub : 8 * (m + i) + j - 8 * m = 8 * i + j := by omega
  simp only [hin, hlow, hsub, decide_true, decide_false, Bool.not_false, Bool.true_and]

theorem byteOf_cutGranule (g : Vec) (k n i : Nat) (hi : i < n) (h : k % 256 + n ≤ 256) :
    byteOf (cutGranule g k n) i = byteOf g (k % 256 + i) := by
  refine BitVec.eq_of_getLsbD_eq fun j hj => ?_
  rw [byteOf_getLsbD _ _ _ hj, byteOf_getLsbD _ _ _ hj, cutGranule, BitVec.getLsbD_and, BitVec.getLsbD_ushiftRight,
    BitVec.getLsbD_ofNat, Nat.testBit_two_pow_sub_one]
  have hmask : 8 * i + j < 8 * n := by omega
  have hin : 8 * i + j < 2048 := by omega
  have hsum : 8 * (k % 256) + (8 * i + j) = 8 * (k % 256 + i) + j := by omega
  simp only [hmask, hin, hsum, decide_true, Bool.and_true]

/-! ## Writes merged over a granule -/

theorem byteOf_mergeOne (g : Vec) (w : WriteReq) (j : Nat) (hj : j < 256) :
    byteOf (packFields 8 256 fun i => if bit w.bytes i then byteOf w.data i else byteOf g i : Vec) j =
      if bit w.bytes j then byteOf w.data j else byteOf g j :=
  extract_packFields 8 256 j (by decide) _ hj (by decide)

/-- A byte is that of the last write that names it. -/
theorem byteOf_mergeWrites (l : List WriteReq) (g : Vec) (j : Nat) (hj : j < 256) :
    byteOf (mergeWrites g l) j = match (l.filter fun w => bit w.bytes j).getLast? with
      | some w => byteOf w.data j
      | none => byteOf g j := by
  induction l generalizing g with
  | nil => rfl
  | cons w l ih =>
    rw [mergeWrites, List.foldl_cons]
    refine (ih _).trans ?_
    rw [List.filter_cons]
    cases hb : bit w.bytes j with
    | true =>
      rw [if_pos rfl, List.getLast?_cons]
      cases (l.filter fun w => bit w.bytes j).getLast? with
      | none => exact (byteOf_mergeOne g w j hj).trans (if_pos hb)
      | some v => rfl
    | false =>
      rw [if_neg (by decide)]
      cases (l.filter fun w => bit w.bytes j).getLast? with
      | none => exact (byteOf_mergeOne g w j hj).trans (if_neg (by rw [hb]; decide))
      | some v => rfl

/-! ## The data of a read -/

/-- The reader's own earlier writes to its granule that name a byte. -/
def ownOf (x : Slice) (t : BitVec 10) (r : ReadReq) (j : Nat) : List WriteReq :=
  (ownWrites x t (r.addr / 256 * 256) r.arrival).filter fun w => bit w.bytes j

theorem State.readData_eq (s : State) (x : Slice) {r : ReadReq} {t : BitVec 10} (ht : r.tile = some t) (now : Nat)
    (hopen : s.memOpen r.addr = true) (hue : s.mem.hasUe r.addr r.size.bytes = false) :
    s.readData x r now =
      (if (ownWrites x t (r.addr / 256 * 256) r.arrival).isEmpty then s.mem.vec r.addr r.size.bytes
        else cutGranule (mergeWrites ((s.mem.vec r.addr r.size.bytes : Vec) <<< (8 * (r.addr % 256)))
          (ownWrites x t (r.addr / 256 * 256) r.arrival)) r.addr r.size.bytes,
       s.readCounted r.addr r.size.bytes) := by
  have hread : (s.readMem r.addr r.size.bytes now : ReadResult 2048) =
      ⟨s.mem.vec r.addr r.size.bytes, s.readCounted r.addr r.size.bytes⟩ := by
    have honly := s.onlyRead_readCounted r.addr r.size.bytes
    rw [State.readMem_eq, if_pos hopen, honly.hasUe, if_neg (by rw [hue]; decide), honly.vec]
  unfold State.readData
  dsimp only
  rw [ht, hopen, hue, hread]
  dsimp only
  cases (ownWrites x t (r.addr / 256 * 256) r.arrival).isEmpty <;> rfl

/-- The bytes of a read: those of the layer, with the reader's own earlier writes over them. -/
theorem State.readData_byte (s : State) (x : Slice) {r : ReadReq} {t : BitVec 10} (ht : r.tile = some t) (now : Nat)
    (hopen : s.memOpen r.addr = true) (hue : s.mem.hasUe r.addr r.size.bytes = false)
    (hin : r.addr % 256 + r.size.bytes ≤ 256) {i : Nat} (hi : i < r.size.bytes) :
    byteOf (s.readData x r now).1 i = match (ownOf x t r (r.addr % 256 + i)).getLast? with
      | some w => byteOf w.data (r.addr % 256 + i)
      | none => s.mem.byte (r.addr + i) := by
  have hlayer : byteOf (s.mem.vec r.addr r.size.bytes : Vec) i = s.mem.byte (r.addr + i) :=
    byteOf_vec s.mem r.addr r.size.bytes i hi (by omega)
  rw [s.readData_eq x ht now hopen hue]
  dsimp only
  split
  · next hempty =>
    rw [ownOf, List.isEmpty_iff.1 hempty]
    exact hlayer
  · rw [byteOf_cutGranule _ _ _ _ hi hin, byteOf_mergeWrites _ _ _ (by omega), byteOf_shiftLeft _ _ _ (by omega),
      hlayer]
    rfl

/-! ## Service of a read -/

section
variable {s : State} {d n now : Nat}

theorem State.serveReadAt_of_first {r : ReadReq} (hfirst : firstRead now (s.slice d n).reads = some r)
    (hin : now ≤ r.arrival + 2) (hserved : (s.slice d n).readAt ≠ some now) :
    s.serveReadAt d n now = (s.setSlice d n
      { s.slice d n with reads := (s.slice d n).reads.erase r, readAt := some now }).serveRead (s.slice d n) r now := by
  unfold State.serveReadAt
  dsimp only
  rw [hfirst]
  exact if_neg (by simp [hserved, hin])

theorem State.serveReadAt_of_none (h : firstRead now (s.slice d n).reads = none) : s.serveReadAt d n now = s := by
  unfold State.serveReadAt
  dsimp only
  rw [h]

theorem State.serveReadAt_of_served (h : (s.slice d n).readAt = some now) : s.serveReadAt d n now = s := by
  unfold State.serveReadAt
  dsimp only
  split
  · rfl
  · exact if_pos (by rw [h]; simp)

/-- A tile's read outside every region, of an entry that fills no instruction buffer. -/
theorem State.serveRead_of_plain (x : Slice) {r : ReadReq} {t u : BitVec 10} {id shift : Nat} (ht : r.tile = some u)
    (hdest : r.dest = .hinge t id shift) (hrefill : s.isRefill r = false) (hregion : s.messageRegion r.addr = none) :
    s.serveRead x r now =
      let q := (s.countEvent 1 (dieOf r.addr) 0x0101 1).readData x r now
      q.2.modTile t.toNat (·.modEntry id (·.fill q.1 shift)) := by
  have hnotes := s.notes_countEvent 1 (dieOf r.addr) 0x0101 1
  have hrefill' : (s.countEvent 1 (dieOf r.addr) 0x0101 1).isRefill r = false := by
    unfold State.isRefill at hrefill ⊢
    rw [hdest] at hrefill ⊢
    dsimp only at hrefill ⊢
    rw [(hnotes.queues t.toNat).2.1]
    exact hrefill
  unfold State.serveRead
  rw [hdest, ht]
  dsimp only
  rw [hrefill', hnotes.messageRegion, hregion]
  rfl

end

end Sys2Proof.Machine
end

section
/-! PROOFS. Requests that have waited their time, and windows that have passed (R192 to R194, Table 8-7). -/

namespace Sys2Proof.Machine

/-! ## A dropped request -/

/-- A request was dropped at a slice: counted, the lesson LATE at its cycle, and nothing read or written. -/
def State.LateAt (s s' : State) (die : BitVec 2) (n : BitVec 8) (now : Nat) : Prop :=
  s.keeps s' ∧ (s'.dieRegs die.toNat).late = (s.dieRegs die.toNat).late + 1 ∧
    (s.causeOpen = true → bit s'.bell.lessonCauses 0 = true) ∧
    (s.causeOpen = true → s.dg.debugMode = false → s.bell.lessonFirst = none → s'.bell.lessonFirst = some
      { cycle := satCycle now, part := s.rc.address, die := die, unit := n, bit := 0, source := 1 })

/-- The crossbar's count of a dropped request. -/
def State.lateCounted (s : State) (d : Nat) : State :=
  (s.modDie d fun r => { r with late := r.late + 1 }).countEvent 1 d 0x0103 1

theorem State.dropped_eq (s : State) (d n now : Nat) :
    s.dropped d n now = ((s.lateCounted d).cause cLate now d n 1).hazard 0 7 now n 0 := rfl

theorem State.lateCounted_eq (s : State) (d : Nat) : ∃ cnt, s.lateCounted d =
    { s.modDie d fun r => { r with late := r.late + 1 } with dg := { s.dg with cnt := cnt } } :=
  State.countEvent_eq _ 1 d 0x0103 1

theorem State.dropped_mem (s : State) (d n now : Nat) :
    (s.dropped d n now).mem = (s.modDie d fun r => { r with late := r.late + 1 }).mem := by
  obtain ⟨_, h⟩ := s.lateCounted_eq d
  rw [State.dropped_eq, (State.countsOnly_hazard _ _ _ _ _ _).1, State.cause_mem, h]

theorem State.dropped_slice (s : State) (d n now : Nat) : (s.dropped d n now).slice d n = s.slice d n := by
  rw [State.slice, s.dropped_mem]
  rfl

theorem State.dropped_hinge (s : State) (d n now u : Nat) :
    ((s.dropped d n now).tile u).hinge = (s.tile u).hinge := by
  obtain ⟨_, h⟩ := s.lateCounted_eq d
  rw [State.dropped_eq, ((State.countsOnly_hazard _ _ _ _ _ _).hinge u).1,
    ((State.countsOnly_cause _ _ _ _ _ _).hinge u).1, h]
  rfl

theorem State.keeps_dropped (s : State) (d n now : Nat) : s.keeps (s.dropped d n now) := by
  obtain ⟨_, h⟩ := s.lateCounted_eq d
  have hcount : s.keeps (s.lateCounted d) := by
    rw [h]
    exact .of_bytes rfl rfl
  exact hcount.trans ((State.keeps_cause _ _ _ _ _ _).trans (State.keeps_hazard _ _ _ _ _ _))

/-- A drop from a state that differs in its queues and hinges only. -/
theorem State.lateAt_dropped {s t : State} (hkeeps : s.keeps t) (hbell : t.bell = s.bell) (hdg : t.dg = s.dg)
    (hrc : t.rc = s.rc) (hdies : t.mem.dies = s.mem.dies) (die : BitVec 2) (n : BitVec 8) (now : Nat) :
    s.LateAt (t.dropped die.toNat n.toNat now) die n now := by
  obtain ⟨cnt, h⟩ := t.lateCounted_eq die.toNat
  have hopen : (t.lateCounted die.toNat).causeOpen = s.causeOpen := by
    rw [h]
    unfold State.causeOpen
    rw [← hbell]
    rfl
  refine ⟨hkeeps.trans (t.keeps_dropped _ _ _), ?_, fun hc => ?_, fun hc hdebug hfirst => ?_⟩
  · rw [State.dieRegs, t.dropped_mem]
    refine (congrArg DieRegs.late (t.modDie_dieRegs_same die.toNat _)).trans ?_
    rw [State.dieRegs, hdies]
    rfl
  · exact State.bit_hazard_of_bit (State.bit_cause _ (b := cLate) (by decide) _ _ _ _ (hopen.trans hc)) _ _ _ _ _
  · have hquiet : ((t.lateCounted die.toNat).cause cLate now die.toNat n.toNat 1).dg.debugMode = false := by
      obtain ⟨_, hcause⟩ := (t.lateCounted die.toNat).cause_eq cLate now die.toNat n.toNat 1
      rw [hcause, h]
      exact (congrArg Debug.debugMode hdg).trans hdebug
    rw [State.dropped_eq, State.hazard_of_not_debug hquiet, State.cause, if_pos (hopen.trans hc), h]
    show firstCause t.bell.lessonFirst _ = _
    rw [hbell, hfirst, BitVec.ofNat_toNat, BitVec.ofNat_toNat, BitVec.setWidth_eq, BitVec.setWidth_eq]
    show some _ = some _
    rw [← hrc]
    rfl

/-! ## A dropped write -/

section
variable {s : State} {d n now : Nat}

theorem waitedOut_iff (a now : Nat) (served : Option Nat) :
    waitedOut a now served = true ↔ a + 2 < now ∨ (a + 2 = now ∧ served = some now) := by
  simp only [waitedOut, Bool.or_eq_true, Bool.and_eq_true, decide_eq_true_eq, beq_iff_eq]
  by_cases hs : served = some now
  · simp only [hs, and_true]
    omega
  · simp only [hs, and_false]

theorem State.dropWrite_of_first {w : WriteReq} (hfirst : s.firstWaiting d n now = some (.plain w))
    (h : waitedOut w.arrival now (s.slice d n).writeAt = true) :
    s.dropWrite d n now = (s.takeWaiting d n (.plain w)).dropped d n now := by
  unfold State.dropWrite
  rw [hfirst]
  exact if_pos h

theorem State.dropWrite_of_waiting (h : ∀ w ∈ s.firstWaiting d n now, now ≤ w.arrival + 1) :
    s.dropWrite d n now = s := by
  unfold State.dropWrite
  cases hfirst : s.firstWaiting d n now with
  | none => rfl
  | some w =>
    have hw := h w hfirst
    refine if_neg fun hout => ?_
    have := (waitedOut_iff _ _ _).1 hout
    omega

/-! ## A dropped read -/

theorem State.dropRead_of_first {r : ReadReq} (hfirst : firstRead now (s.slice d n).reads = some r)
    (h : waitedOut r.arrival now (s.slice d n).readAt = true) :
    s.dropRead d n now = ((s.setSlice d n { s.slice d n with reads := (s.slice d n).reads.erase r }).deliverNothing d
      r.dest).dropped d n now := by
  unfold State.dropRead
  dsimp only
  rw [hfirst]
  exact if_pos h

theorem State.dropRead_of_waiting (h : ∀ r ∈ firstRead now (s.slice d n).reads, now ≤ r.arrival + 1) :
    s.dropRead d n now = s := by
  unfold State.dropRead
  dsimp only
  cases hfirst : firstRead now (s.slice d n).reads with
  | none => rfl
  | some r =>
    have hr := h r hfirst
    refine if_neg fun hout => ?_
    have := (waitedOut_iff _ _ _).1 hout
    omega

/-- A read that delivers nothing leaves registers, bytes, the bell and the slices. -/
theorem State.deliverNothing_leaves (s : State) (d : Nat) (dest : ReadDest) :
    s.keeps (s.deliverNothing d dest) ∧ (s.deliverNothing d dest).bell = s.bell ∧
      (s.deliverNothing d dest).dg = s.dg ∧ (s.deliverNothing d dest).rc = s.rc ∧
      (s.deliverNothing d dest).mem.dies = s.mem.dies ∧ (s.deliverNothing d dest).mem.slices = s.mem.slices := by
  cases dest with
  | hinge t id shift => exact ⟨s.keeps_modTile _ rfl, rfl, rfl, rfl, rfl, rfl⟩
  | fill t fill granule => exact ⟨s.keeps_modTile _ rfl, rfl, rfl, rfl, rfl, rfl⟩
  | reduction g => exact ⟨.of_bytes rfl rfl, rfl, rfl, rfl, rfl, rfl⟩
  | get p => exact ⟨.refl s, rfl, rfl, rfl, rfl, rfl⟩

end

/-! ## Windows that have passed (R193) -/

/-- A write of a window is applied by a cycle and names a byte. -/
def State.strikes (s : State) (now a : Nat) (e : Nat × WriteReq) : Bool :=
  decide (e.1 + 4 ≤ now ∧ e.2.addr ≤ a ∧ a < e.2.addr + 256) && s.memApplies e.2.addr &&
    bit e.2.bytes (a - e.2.addr)

/-- What applying a write leaves: the tiles, the slices, the regions and which places take writes. -/
structure State.Applied (s s' : State) : Prop where
  tiles : s'.tiles = s.tiles
  slices : s'.mem.slices = s.mem.slices
  cq : s'.cq = s.cq
  bell : s'.bell = s.bell
  applies : s'.memApplies = s.memApplies

theorem State.applied_applyGranule (s : State) (g : Nat) (x : Vec) (mask : BitVec 256) :
    s.Applied (s.applyGranule g x mask) := by
  obtain ⟨_, _, _, _, _, h⟩ := s.applyGranule_eq g x mask
  rw [h]
  exact ⟨rfl, rfl, rfl, rfl, rfl⟩

theorem State.Applied.trans {s t u : State} (h : s.Applied t) (h' : t.Applied u) : s.Applied u :=
  ⟨h'.tiles.trans h.tiles, h'.slices.trans h.slices, h'.cq.trans h.cq, h'.bell.trans h.bell,
    h'.applies.trans h.applies⟩

/-- A write of the window is applied to the bytes that it names. -/
theorem State.applyWrite_spec (s : State) (w : WriteReq) (hue : s.mem.ue = []) :
    s.Applied (s.applyWrite w) ∧ (s.applyWrite w).mem.ue = [] ∧ ∀ b, (s.applyWrite w).mem.byte b =
      if s.memApplies w.addr = true ∧ (w.addr ≤ b ∧ b < w.addr + 256) ∧ bit w.bytes (b - w.addr) = true
      then byteOf w.data (b - w.addr) else s.mem.byte b := by
  unfold State.applyWrite
  split
  · next hnone =>
    refine ⟨⟨rfl, rfl, rfl, rfl, rfl⟩, hue, fun b => (if_neg ?_).symm⟩
    rw [hnone]
    simp [bit]
  · obtain ⟨hue', hbyte⟩ := s.applyGranule_byte w.addr w.data w.bytes hue
    obtain ⟨_, h⟩ := (s.applyGranule w.addr w.data w.bytes).countEvent_eq 1 (dieOf w.addr) 0x0102 1
    rw [h]
    exact ⟨(s.applied_applyGranule _ _ _).trans ⟨rfl, rfl, rfl, rfl, rfl⟩, hue', hbyte⟩

/-- A write whose window has passed and that is no landing leaves the window and is applied. -/
theorem State.expireOne_of_passed (s : State) (d n : Nat) {now : Nat} {e : Nat × WriteReq} (h : e.1 + 4 ≤ now)
    (hplain : ∀ num, e.2.source ≠ .landing num) : State.expireOne d n now s e =
      (s.setSlice d n { s.slice d n with window := (s.slice d n).window.erase e }).applyWrite e.2 := by
  unfold State.expireOne
  dsimp only
  rw [if_neg (Nat.not_lt.2 h)]
  split
  · next num hsource => exact absurd hsource (hplain num)
  · rfl

/-- The writes of a window in turn: those that have passed are applied, the others stay. -/
theorem State.foldl_expireOne_spec (d n now : Nat) {l kept : List (Nat × WriteReq)} {s : State}
    (hwindow : (s.slice d n).window = kept ++ l) (hkept : ∀ e ∈ kept, now < e.1 + 4)
    (hplain : ∀ e ∈ l, ∀ num, e.2.source ≠ .landing num) (hue : s.mem.ue = []) :
    let s' := l.foldl (State.expireOne d n now) s
    s'.tiles = s.tiles ∧
      s'.slice d n = { s.slice d n with window := kept ++ l.filter fun e => decide (now < e.1 + 4) } ∧
      ∀ a, s'.mem.byte a = match (l.filter (s.strikes now a)).getLast? with
        | some e => byteOf e.2.data (a - e.2.addr)
        | none => s.mem.byte a := by
  induction l generalizing s kept with
  | nil =>
    refine ⟨rfl, ?_, fun a => rfl⟩
    rw [List.filter_nil, ← hwindow]
    rfl
  | cons e l ih =>
    obtain ⟨he, hl⟩ := List.forall_mem_cons.1 hplain
    dsimp only
    rw [List.foldl_cons]
    by_cases hpassed : e.1 + 4 ≤ now
    · have hfresh : ¬now < e.1 + 4 := Nat.not_lt.2 hpassed
      have hnot : e ∉ kept := fun hmem => hfresh (hkept e hmem)
      rw [State.expireOne_of_passed s d n hpassed he]
      generalize hout : s.setSlice d n { s.slice d n with window := (s.slice d n).window.erase e } = out
      have houtslice : out.slice d n = { s.slice d n with window := kept ++ l } := by
        rw [← hout, State.setSlice_slice_same, hwindow, List.erase_append_right _ hnot, List.erase_cons_head]
      have houtmem : out.mem.ue = [] ∧ out.tiles = s.tiles ∧ out.memApplies = s.memApplies ∧
          ∀ a, out.mem.byte a = s.mem.byte a := by
        rw [← hout]
        exact ⟨hue, rfl, rfl, fun _ => rfl⟩
      obtain ⟨hue', htiles', happlies', hbyte'⟩ := houtmem
      obtain ⟨happlied, hue'', hbyte''⟩ := out.applyWrite_spec e.2 hue'
      have hslice'' : (out.applyWrite e.2).slice d n = { s.slice d n with window := kept ++ l } := by
        rw [State.slice, happlied.slices]
        exact houtslice
      obtain ⟨htiles, hslice, hbyte⟩ := ih (by rw [hslice'']) hkept hl hue''
      refine ⟨htiles.trans (happlied.tiles.trans htiles'), ?_, fun a => (hbyte a).trans ?_⟩
      · rw [hslice, hslice'', List.filter_cons, if_neg (by simpa using hpassed)]
      · have hstrikes : (out.applyWrite e.2).strikes now a = s.strikes now a := by
          unfold State.strikes
          rw [happlied.applies, happlies']
        have hstrike : s.strikes now a e = true ↔ s.memApplies e.2.addr = true ∧
            (e.2.addr ≤ a ∧ a < e.2.addr + 256) ∧ bit e.2.bytes (a - e.2.addr) = true := by
          simp only [State.strikes, hpassed, true_and, Bool.and_eq_true, decide_eq_true_eq]
          tauto
        rw [hstrikes, List.filter_cons, hbyte'' a, happlies', hbyte']
        by_cases hs : s.strikes now a e = true
        · rw [if_pos hs, List.getLast?_cons, if_pos (hstrike.1 hs)]
          cases (l.filter (s.strikes now a)).getLast? <;> rfl
        · rw [if_neg hs, if_neg (mt hstrike.2 hs)]
    · have hfresh : now < e.1 + 4 := Nat.not_le.1 hpassed
      have hnostrike : ∀ a, s.strikes now a e = false := fun a => by
        simp [State.strikes, hpassed]
      have hall : ∀ k ∈ kept ++ [e], now < k.1 + 4 := fun k hk => by
        rcases List.mem_append.1 hk with hk | hk
        · exact hkept k hk
        · rw [List.mem_singleton.1 hk]; exact hfresh
      rw [State.expireOne_of_fresh s d n hfresh]
      obtain ⟨htiles, hslice, hbyte⟩ := ih (by rw [hwindow, List.append_assoc]; rfl) hall hl hue
      refine ⟨htiles, ?_, fun a => (hbyte a).trans ?_⟩
      · rw [hslice, List.filter_cons, if_pos (by simpa using hfresh), List.append_assoc]
        rfl
      · rw [List.filter_cons, hnostrike a, if_neg (by decide)]

end Sys2Proof.Machine
end

section
/-! PROOFS. The commands of a memory slice (R190 to R194, Table 8-7). -/

namespace Sys2Proof.Machine

section
variable {s : State} {die : BitVec 2} {n : BitVec 8} {now : Nat}

theorem firstWrite_of_leads {l : List WriteReq} {w : WriteReq} (hmem : w ∈ l) (hcome : w.arrival ≤ now)
    (h : LeadsAll WriteReq.arrival WriteReq.port now w l) : firstWrite now l = some w := by
  rw [firstWrite_eq]
  exact foldl_keepFirst_of_leads hmem hcome h none fun _ hb => nomatch hb

theorem firstRead_of_leads {l : List ReadReq} {r : ReadReq} (hmem : r ∈ l) (hcome : r.arrival ≤ now)
    (h : LeadsAll ReadReq.arrival ReadReq.port now r l) : firstRead now l = some r := by
  rw [firstRead_eq]
  exact foldl_keepFirst_of_leads hmem hcome h none fun _ hb => nomatch hb

theorem mem_of_firstWrite {l : List WriteReq} {w : WriteReq} (h : firstWrite now l = some w) : w ∈ l := by
  rw [firstWrite_eq] at h
  exact (mem_of_foldl_keepFirst h).resolve_right fun hnone => nomatch hnone

theorem mem_of_firstRead {l : List ReadReq} {r : ReadReq} (h : firstRead now l = some r) : r ∈ l := by
  rw [firstRead_eq] at h
  exact (mem_of_foldl_keepFirst h).resolve_right fun hnone => nomatch hnone

/-- The write that waits first at a slice without pieces of a lesson. -/
theorem State.firstWaiting_of_leads {d m : Nat} {w : WriteReq} (hplain : ∀ p ∈ s.cq.pieces, p.untagged = true)
    (hmem : w ∈ (s.slice d m).writes) (hcome : w.arrival ≤ now)
    (h : LeadsAll WriteReq.arrival WriteReq.port now w (s.slice d m).writes) :
    s.firstWaiting d m now = some (.plain w) := by
  rw [State.firstWaiting_of_plain hplain, firstWrite_of_leads hmem hcome h]
  rfl

theorem ownOf_eq (x : Slice) (t : BitVec 10) (r : ReadReq) (j : Nat) : ownOf x t r j =
    (x.window.map (·.2) ++ x.writes).filter fun w =>
      w.source == .tile t && w.addr == r.addr / 256 * 256 && w.arrival < r.arrival && bit w.bytes j := by
  rw [ownOf, ownWrites, List.filter_filter]
  exact List.filter_congr fun w _ => Bool.and_comm _ _

/-! ## Service -/

theorem exec_serveWrite (hplain : ∀ p ∈ s.cq.pieces, p.untagged = true)
    (hfresh : ∀ e ∈ (s.slice die.toNat n.toNat).window, now < e.1 + 4) :
    exec (.sliceRequestServe die n true now) s = .next (s.serveWrite die.toNat n.toNat now) := by
  show Host.Outcome.next _ = _
  rw [State.expireWindow_of_fresh hfresh, if_pos rfl, State.stampPieces_of_plain _ _ _ hplain]

theorem exec_serveRead (hfresh : ∀ e ∈ (s.slice die.toNat n.toNat).window, now < e.1 + 4) :
    exec (.sliceRequestServe die n false now) s = .next (s.serveReadAt die.toNat n.toNat now) := by
  show Host.Outcome.next _ = _
  rw [State.expireWindow_of_fresh hfresh]
  rfl

/-- What serving a write makes of the slice. -/
theorem State.serveWrite_spec {d m : Nat} {w : WriteReq} (hfirst : s.firstWaiting d m now = some (.plain w))
    (hin : now ≤ w.arrival + 2) (hserved : (s.slice d m).writeAt ≠ some now) :
    s.keeps (s.serveWrite d m now) ∧
    let y (l : List (Nat × WriteReq)) : Slice :=
      { s.slice d m with writes := (s.slice d m).writes.erase w, writeAt := some now, window := l }
    let added (k : Nat) : Prop :=
      ((s.serveWrite d m now).dieRegs d).collide = (s.dieRegs d).collide + BitVec.ofNat 32 k
    let met := (s.slice d m).window.filter w.meets
    (s.memOpen w.addr = false → (s.serveWrite d m now).slice d m = y (s.slice d m).window ∧ added 0) ∧
    (s.memOpen w.addr = true → (∀ e ∈ met, w.rank < e.2.rank) →
      (s.serveWrite d m now).slice d m = y (((s.slice d m).window.filter fun e => !w.meets e) ++ [(now, w)]) ∧
      added met.length) ∧
    (s.memOpen w.addr = true → ¬(∀ e ∈ met, w.rank < e.2.rank) →
      (s.serveWrite d m now).slice d m = y (s.slice d m).window ∧ added 1) := by
  have hslice := s.takenWrite_slice d m now w
  have hkeeps := s.keeps_takenWrite d m now w
  have hdies : (s.takenWrite d m now w).dieRegs d = s.dieRegs d := rfl
  rw [State.serveWrite_of_first hfirst hin hserved]
  cases hopen : s.memOpen w.addr with
  | false =>
    exact ⟨hkeeps, fun _ => ⟨hslice, (BitVec.add_zero _).symm⟩, fun h => absurd h (by decide),
      fun h => absurd h (by decide)⟩
  | true =>
    rw [if_pos rfl]
    have hwindow : ((s.takenWrite d m now w).slice d m).window = (s.slice d m).window := by rw [hslice]
    by_cases hlow : ∀ e ∈ (s.slice d m).window.filter w.meets, w.rank < e.2.rank
    · obtain ⟨hkeeps', hslice', hcount⟩ :=
        (s.takenWrite d m now w).acceptWrite_of_lowest d m now (w := w) (by rw [hwindow]; exact hlow)
      rw [hslice] at hslice' hcount
      exact ⟨hkeeps.trans hkeeps', fun h => absurd h (by decide), fun _ _ => ⟨hslice', hcount⟩,
        fun _ h => absurd hlow h⟩
    · obtain ⟨hkeeps', hslice', hcount⟩ := (s.takenWrite d m now w).collide_spec d m 1
      rw [(s.takenWrite d m now w).acceptWrite_of_higher d m now (by rw [hwindow]; exact hlow)]
      exact ⟨hkeeps.trans hkeeps', fun h => absurd h (by decide), fun _ h => absurd h hlow,
        fun _ _ => ⟨hslice'.trans hslice, hcount⟩⟩

/-- What serving a tile's plain read makes of the slice and of the tile's hinge. -/
theorem State.serveReadAt_spec {d m : Nat} {r : ReadReq} {t : BitVec 10} {id shift : Nat}
    (hfirst : firstRead now (s.slice d m).reads = some r) (hin : now ≤ r.arrival + 2)
    (hserved : (s.slice d m).readAt ≠ some now) (hopen : s.memOpen r.addr = true)
    (hue : s.mem.hasUe r.addr r.size.bytes = false) (hspan : r.addr % 256 + r.size.bytes ≤ 256)
    (hregion : s.messageRegion r.addr = none) (ht : r.tile = some t) (hdest : r.dest = .hinge t id shift)
    (hrefill : s.isRefill r = false) : ∃ v : Vec,
      s.keeps (s.serveReadAt d m now) ∧
      (s.serveReadAt d m now).slice d m =
        { s.slice d m with reads := (s.slice d m).reads.erase r, readAt := some now } ∧
      ((s.serveReadAt d m now).tile t.toNat).hinge =
        ((s.tile t.toNat).hinge.map fun h => if h.id == id then h.fill v shift else h) ∧
      ∀ i, i < r.size.bytes → byteOf v i = match (ownOf (s.slice d m) t r (r.addr % 256 + i)).getLast? with
        | some w => byteOf w.data (r.addr % 256 + i)
        | none => s.mem.byte (r.addr + i) := by
  generalize hx : s.slice d m = x at *
  generalize htaken : s.setSlice d m { x with reads := x.reads.erase r, readAt := some now } = taken
  have hserve : s.serveReadAt d m now = taken.serveRead x r now := by
    rw [State.serveReadAt_of_first (by rw [hx]; exact hfirst) hin (by rw [hx]; exact hserved), hx, htaken]
  have htile (u : Nat) : taken.tile u = s.tile u := by rw [← htaken]; rfl
  have hslice : taken.slice d m = { x with reads := x.reads.erase r, readAt := some now } := by
    rw [← htaken]; exact State.setSlice_slice_same _ _ _ _
  have hkeeps : s.keeps taken := by rw [← htaken]; exact s.keeps_setSlice _ _ _
  have hregion' : taken.messageRegion r.addr = none := by rw [← htaken]; exact hregion
  have hrefill' : taken.isRefill r = false := by rw [← htaken]; exact hrefill
  generalize hcounted : taken.countEvent 1 (dieOf r.addr) 0x0101 1 = counted at *
  have hnotes : taken.Notes counted := by rw [← hcounted]; exact State.notes_countEvent _ _ _ _ _
  have hopen' : counted.memOpen r.addr = true := by rw [hnotes.memOpen, ← htaken]; exact hopen
  have hue' : counted.mem.hasUe r.addr r.size.bytes = false := by rw [hnotes.hasUe, ← htaken]; exact hue
  have hread := counted.readData_eq x ht now hopen' hue'
  have hnotes' : taken.Notes (counted.readData x r now).2 := by
    rw [hread]
    exact hnotes.trans (counted.notes_readCounted _ _)
  have hplain := State.serveRead_of_plain (s := taken) (now := now) x ht hdest hrefill' hregion'
  rw [hcounted] at hplain
  rw [hserve, hplain]
  refine ⟨(counted.readData x r now).1, hkeeps.trans (hnotes'.keeps.trans (State.keeps_modTile _ _ rfl)), ?_, ?_,
    fun i hi => ?_⟩
  · exact (hnotes'.slice d m).trans hslice
  · dsimp only
    rw [State.modTile_tile_same, Tile.modEntry]
    dsimp only
    rw [(hnotes'.queues t.toNat).2.1, htile]
  · have hbyte : counted.mem.byte (r.addr + i) = s.mem.byte (r.addr + i) := (hnotes.keeps.1 _).trans (hkeeps.1 _)
    have hread := counted.readData_byte x ht now hopen' hue' hspan hi
    rw [hbyte] at hread
    exact hread

end

/-- Settles O22: the choice by arrival and port, the window, and what drops and expiry leave. -/
theorem sliceRequests : Obligations.SliceRequests := by
  unfold Obligations.SliceRequests
  refine ⟨fun s die n now => ?_, fun s die n now hplain hue => ?expiry⟩
  case expiry =>
    obtain ⟨htiles, hslice, hbyte⟩ := State.foldl_expireOne_spec die.toNat n.toNat now
      (kept := []) (s := s) rfl (fun _ h => absurd h List.not_mem_nil) hplain hue
    exact ⟨_, rfl, fun u => by rw [State.tile, State.expireWindow, htiles]; rfl, hslice, hbyte⟩
  intro x fresh plain leads firstW firstR met rest waited late
  refine ⟨fun w hw hfresh hpl hin hserved => ?serveWrite,
    fun r t id shift hr hfresh hin hserved hopen hue hspan hregion ht hdest hrefill => ?serveRead,
    fun hfresh hpl hidle => ?idleWrite, fun hfresh hidle => ?idleRead, fun w hw hpl hout => ?dropWrite,
    fun r hr hout => ?dropRead, fun hpl hwait => ?keepWrite, fun hwait => ?keepRead⟩
  case serveWrite =>
    obtain ⟨hmem, hcome, hlead⟩ := hw
    exact ⟨_, exec_serveWrite hpl hfresh,
      State.serveWrite_spec (State.firstWaiting_of_leads hpl hmem hcome hlead) hin hserved⟩
  case serveRead =>
    obtain ⟨hmem, hcome, hlead⟩ := hr
    obtain ⟨v, hkeeps, hslice, hhinge, hbyte⟩ := State.serveReadAt_spec (firstRead_of_leads hmem hcome hlead) hin hserved
      hopen hue hspan hregion ht hdest hrefill
    refine ⟨_, v, exec_serveRead hfresh, hkeeps, hslice, hhinge, fun i hi => ?_⟩
    have hread := hbyte i hi
    rw [ownOf_eq] at hread
    exact hread
  case idleWrite =>
    rw [exec_serveWrite hpl hfresh]
    rcases hidle with hfuture | hserved
    · rw [State.serveWrite_of_none]
      rw [State.firstWaiting_of_plain hpl, firstWrite_eq, foldl_keepFirst_of_future hfuture]
      rfl
    · rw [State.serveWrite_of_served hserved]
  case idleRead =>
    rw [exec_serveRead hfresh]
    rcases hidle with hfuture | hserved
    · rw [State.serveReadAt_of_none]
      rw [firstRead_eq, foldl_keepFirst_of_future hfuture]
    · rw [State.serveReadAt_of_served hserved]
  case dropWrite =>
    obtain ⟨hmem, hcome, hlead⟩ := hw
    refine ⟨_, rfl, ?_⟩
    rw [if_pos rfl, State.stampPieces_of_plain _ _ _ hpl,
      State.dropWrite_of_first (State.firstWaiting_of_leads hpl hmem hcome hlead) ((waitedOut_iff _ _ _).2 hout),
      State.dropped_slice]
    refine ⟨State.lateAt_dropped (.of_bytes rfl rfl) rfl rfl rfl rfl die n now, ?_⟩
    rw [State.takeWaiting, State.setSlice_slice_same]
    exact ⟨rfl, rfl⟩
  case dropRead =>
    obtain ⟨hmem, hcome, hlead⟩ := hr
    refine ⟨_, rfl, ?_⟩
    generalize htaken : s.setSlice die.toNat n.toNat { x with reads := x.reads.erase r } = taken
    obtain ⟨hkeeps, hbell, hdg, hrc, hdies, hslices⟩ := taken.deliverNothing_leaves die.toNat r.dest
    rw [if_neg (by decide),
      State.dropRead_of_first (firstRead_of_leads hmem hcome hlead) ((waitedOut_iff _ _ _).2 hout), htaken]
    subst htaken
    refine ⟨State.lateAt_dropped ((s.keeps_setSlice _ _ _).trans hkeeps) hbell hdg hrc hdies die n now, ?_,
      fun t id shift hdest => ?_⟩
    · rw [State.dropped_slice, State.slice, hslices]
      exact congrArg Slice.reads (State.setSlice_slice_same _ _ _ _)
    · rw [State.dropped_hinge, hdest, State.deliverNothing, State.modTile_tile_same]
      rfl
  case keepWrite =>
    show Host.Outcome.next _ = _
    rw [if_pos rfl, State.stampPieces_of_plain _ _ _ hpl, State.dropWrite_of_waiting]
    intro w hw
    rw [State.firstWaiting_of_plain hpl] at hw
    obtain ⟨v, hv, rfl⟩ := Option.map_eq_some_iff.1 hw
    exact hwait v (mem_of_firstWrite hv)
  case keepRead =>
    show Host.Outcome.next _ = _
    rw [if_neg (by decide), State.dropRead_of_waiting]
    exact fun r hr => hwait r (mem_of_firstRead hr)

end Sys2Proof.Machine
end

section
/-! PROOFS. Pieces that land, overrun or are discarded, at once and at their slice (R192, R193, R213 to R220). -/

namespace Sys2Proof.Machine

/-! ## Pieces on their way in the windows of the slices -/

theorem tabGet_of_above {α : Type} {d : α} {t : Tab α} {k : Nat} (h : ∀ e ∈ t, k < e.1) : tabGet d t k = d := by
  induction t with
  | nil => rfl
  | cons e t ih =>
    obtain ⟨he, ht⟩ := List.forall_mem_cons.1 h
    exact (if_neg (Nat.ne_of_lt he)).trans (ih ht)

/-- Entries count by what they hold: one put in that counts as what it replaces leaves the sum. -/
theorem sum_tabInsert {α : Type} {d : α} {f : α → Nat} (hd : f d = 0) {t : Tab α} {k : Nat} {x : α}
    (hsorted : t.Pairwise fun a b => a.1 < b.1) (hx : f x = f (tabGet d t k)) :
    ((tabInsert t k x).map fun e => f e.2).sum = (t.map fun e => f e.2).sum := by
  induction t with
  | nil => simpa [tabInsert, hd] using hx
  | cons e t ih =>
    obtain ⟨j, y⟩ := e
    obtain ⟨hhead, htail⟩ := List.pairwise_cons.1 hsorted
    unfold tabInsert
    split
    · next heq =>
      rw [tabGet_cons, if_pos heq] at hx
      simp only [List.map_cons, hx]
    · next hne =>
      split
      · next hlt =>
        have habove : ∀ e ∈ (j, y) :: t, k < e.1 := fun e he => by
          rcases List.mem_cons.1 he with rfl | he
          · exact hlt
          · exact hlt.trans (hhead e he)
        rw [tabGet_of_above habove, hd] at hx
        simp only [List.map_cons, List.sum_cons, hx, Nat.zero_add]
      · rw [tabGet_cons, if_neg hne] at hx
        simp only [List.map_cons, List.sum_cons, ih htail hx]

/-- A slice put back with the same window holds as many pieces of a region on their way. -/
theorem State.landing_setSlice (s : State) (d n num : Nat) {x : Slice} (hwf : tabWf .reset s.mem.slices = true)
    (hne : x ≠ .reset) (hwindow : x.window = (s.slice d n).window) :
    (s.setSlice d n x).landing num = s.landing num := by
  obtain ⟨-, hsorted⟩ := (tabWf_iff _ _).1 hwf
  have hset : (s.setSlice d n x).mem.slices = tabInsert s.mem.slices (256 * d + n) x := if_neg hne
  unfold State.landing
  rw [hset]
  refine sum_tabInsert (d := .reset) (f := fun y : Slice => (y.window.filter fun w => w.2.source == .landing num).length)
    rfl hsorted ?_
  rw [hwindow]
  rfl

/-! ## Pieces that are turned away -/

theorem State.bit_memCause (s : State) {b : Nat} (hb : b < 16) (key cycle : Nat) (h : s.causeOpen = true) :
    bit (s.memCause b key cycle).bell.lessonCauses b = true := by
  unfold State.memCause
  split
  · exact s.bit_cause hb _ _ _ _ h
  · exact s.bit_cause hb _ _ _ _ h

/-- A piece is of the lesson in progress or of none, from the declared producer of a region here that still takes any. -/
def State.Welcome (s : State) (p : Piece) : Prop :=
  let r := s.region p.region.toNat
  r.kind = .localRegion ∧ r.producedBy p = true ∧ r.dropped = false ∧
    (p.untagged = true ∨ (s.lessonOpen = true ∧ s.tagNow p.tagBell p.tagAttempt = true))

theorem State.pieceStale_iff (s : State) (p : Piece) : s.pieceStale p = true ↔ ¬s.Welcome p := by
  simp only [State.pieceStale, State.Welcome, Bool.or_eq_true, Bool.and_eq_true, Bool.not_eq_true', Bool.and_eq_false_iff,
    bne_iff_ne, not_and_or, not_or, Bool.not_eq_true, Bool.not_eq_false]
  tauto

theorem State.pieceStale_of_welcome {s : State} {p : Piece} (h : s.Welcome p) : s.pieceStale p = false :=
  Bool.eq_false_iff.2 fun hstale => (s.pieceStale_iff p).1 hstale h

/-- The region of a piece for which there is no room: overrun, at the place that its shadow tail has reached. -/
def State.overrunMarked (s : State) (num : Nat) : State :=
  let t := s.setRegion num { s.region num with overrun := true }
  { t with cq := { t.cq with overruns := t.cq.overruns + 1 } }

/-- What an overrun leaves: registers, bytes, slices and the waiting pieces; OVERRUN comes with the first. -/
theorem State.overrunAt_spec (s : State) (num cycle : Nat) :
    (s.overrunMarked num).OnlyRead (s.overrunAt num (s.region num) cycle) ∧
      ((s.region num).overrun = false → s.causeOpen = true →
        bit (s.overrunAt num (s.region num) cycle).bell.lessonCauses 2 = true) := by
  have heq : s.overrunAt num (s.region num) cycle = if (s.region num).overrun then s.overrunMarked num
      else ((s.overrunMarked num).memCause cOverrun ((s.region num).pieceKey (s.region num).tailSh) cycle).hazard 0 6
        cycle num 0 := rfl
  rw [heq]
  cases (s.region num).overrun with
  | true => exact ⟨.refl _, fun h => absurd h (by decide)⟩
  | false =>
    rw [if_neg (by decide)]
    refine ⟨(State.onlyRead_memCause _ _ _ _).trans (State.onlyRead_hazard _ _ _ _ _ _), fun _ hopen => ?_⟩
    have hmarked : (s.overrunMarked num).causeOpen = true := hopen
    have hbit := (s.overrunMarked num).bit_memCause (b := cOverrun) (by decide)
      ((s.region num).pieceKey (s.region num).tailSh) cycle hmarked
    exact State.bit_hazard_of_bit hbit 0 6 cycle num 0

theorem State.overrunAt_region (s : State) (num cycle : Nat) :
    (s.overrunAt num (s.region num) cycle).region num = { s.region num with overrun := true } := by
  rw [State.region, (s.overrunAt_spec num cycle).1.cq]
  exact State.setRegion_region_same _ _ _

/-! ## A piece that has landed -/

theorem State.stopMatch_eq (s : State) (num : Nat) (data : Vec) : ∃ sv, s.stopMatch num data = { s with sv := sv } := by
  unfold State.stopMatch
  split
  · exact ⟨s.sv, rfl⟩
  · split
    · exact ⟨_, rfl⟩
    · exact ⟨s.sv, rfl⟩

theorem State.landed_spec (s : State) (num : Nat) (data : Vec) (cycle : Nat) :
    (s.landed num data cycle).tiles = s.tiles ∧ (s.landed num data cycle).mem = s.mem ∧
      (s.landed num data cycle).cq.pieces = s.cq.pieces ∧
      (s.landed num data cycle).region num = (s.region num).landed s.lessonOpen cycle := by
  obtain ⟨_, h⟩ := (s.setRegion num ((s.region num).landed s.lessonOpen cycle)).stopMatch_eq num data
  unfold State.landed
  rw [h]
  exact ⟨rfl, rfl, rfl, State.setRegion_region_same _ _ _⟩

/-- A whole granule written at a local key: its bytes are the new ones. -/
def State.HoldsGranule (s s' : State) (k : Nat) (v : Vec) : Prop :=
  ∀ a, s'.mem.byte a = if k ≤ a ∧ a < k + 256 then byteOf v (a - k) else s.mem.byte a

/-- A piece of a region has landed: the shadow tail moves on, outside lessons the tail with it, and no tile changes. -/
def State.Lands (s s' : State) (num : Nat) : Prop :=
  (∀ u, s'.tile u = s.tile u) ∧ (s'.region num).tailSh = (s.region num).tailSh + 1 ∧
    (s'.region num).tail = (if s.lessonOpen then (s.region num).tail else (s.region num).tailSh + 1) ∧
    (s'.region num).head = (s.region num).head

theorem bit_fullBytes {i : Nat} (h : i < 256) : bit fullBytes i = true := by
  rw [bit, fullBytes, BitVec.getLsbD_allOnes, decide_eq_true h]

theorem State.memApplies_of_memOpen {s : State} {k : Nat} (h : s.memOpen k = true) : s.memApplies k = true := by
  unfold State.memOpen at h
  unfold State.memApplies
  dsimp only at h ⊢
  split at h
  · next hlayer => rw [if_pos hlayer, h, Bool.true_or]
  · next hlayer => rw [if_neg hlayer, h]

theorem State.holdsGranule_applyGranule {s : State} {k : Nat} (v : Vec) (happlies : s.memApplies k = true)
    (hue : s.mem.ue = []) : s.HoldsGranule (s.applyGranule k v fullBytes) k v := by
  intro a
  rw [(s.applyGranule_byte k v fullBytes hue).2 a]
  by_cases hin : k ≤ a ∧ a < k + 256
  · rw [if_pos ⟨happlies, hin, bit_fullBytes (by omega)⟩, if_pos hin]
  · rw [if_neg fun h => hin h.2.1, if_neg hin]

/-- An applied write that lands its piece. -/
theorem State.lands_of_applied {s t : State} (h : s.Applied t) (num : Nat) (data : Vec) (cycle : Nat) :
    s.Lands (t.landed num data cycle) num := by
  obtain ⟨htiles, hmem, -, hregion⟩ := t.landed_spec num data cycle
  have hr : t.region num = s.region num := by rw [State.region, h.cq]; rfl
  have hopen : t.lessonOpen = s.lessonOpen := by rw [State.lessonOpen, h.bell]; rfl
  rw [hr, hopen] at hregion
  unfold State.Lands
  rw [hregion]
  exact ⟨fun u => by rw [State.tile, htiles, h.tiles]; rfl, rfl, rfl, rfl⟩

end Sys2Proof.Machine
end

section
/-! PROOFS. The landing of a region's next piece, and a lesson's piece at its slice (R192, R193, R213 to R220). -/

namespace Sys2Proof.Machine

/-! ## The next piece of a region -/

section
variable {s : State} {n : BitVec 11} {now : Nat} {p : Piece}

/-- The waiting pieces without one. -/
def State.withoutPiece (s : State) (p : Piece) : State :=
  { s with cq := { s.cq with pieces := s.cq.pieces.erase p } }

/-- The command, where the next piece of the region waits outside the slices' windows. -/
theorem exec_pieceLanding_of_waiting (hwindow : s.landingWindow n.toNat = none)
    (hfind : (s.cq.pieces.find? fun p => p.region == n) = some p) :
    exec (.pieceLanding ⟨n, now⟩) s = .next (
      if s.pieceStale p then (s.withoutPiece p).cqDiscard
      else if (s.region n.toNat).overrun || !(s.region n.toNat).hasRoom 0 then
        (s.withoutPiece p).overrunAt n.toNat (s.region n.toNat) now
      else if p.untagged || (s.landingSlice n.toNat).isNone then (s.withoutPiece p).landPiece n.toNat p now
      else s) := by
  show Host.Outcome.next _ = _
  dsimp only
  rw [hwindow, hfind]
  rfl

theorem exec_pieceLanding_of_none (hwindow : s.landingWindow n.toNat = none)
    (hfind : (s.cq.pieces.find? fun p => p.region == n) = none) : exec (.pieceLanding ⟨n, now⟩) s = .next s := by
  show Host.Outcome.next _ = _
  dsimp only
  rw [hwindow, hfind]

/-- With no piece on its way in a window, the next place is that of the shadow tail. -/
theorem State.landingKey_of_none {num : Nat} (h : s.landing num = 0) :
    s.landingKey num = (s.region num).pieceKey (s.region num).tailSh := by
  unfold State.landingKey
  rw [h]
  exact congrArg (s.region num).pieceKey (BitVec.add_zero _)

theorem State.landingSlice_isNone {num : Nat} (h : s.landing num = 0) (hkind : (s.region num).kind = .localRegion) :
    (s.landingSlice num).isNone = !inLayers (offsetOf ((s.region num).pieceKey (s.region num).tailSh)) := by
  unfold State.landingSlice
  dsimp only
  rw [State.landingKey_of_none h, hkind]
  cases inLayers (offsetOf ((s.region num).pieceKey (s.region num).tailSh)) <;> rfl

/-- A piece that lands at once: written at the shadow tail where the place takes writes. -/
theorem State.landPiece_spec (s : State) (num : Nat) (p : Piece) (cycle : Nat) :
    let key := (s.region num).pieceKey (s.region num).tailSh
    (s.landPiece num p cycle).cq.pieces = s.cq.pieces ∧
      (s.memOpen key = true → s.Lands (s.landPiece num p cycle) num ∧
        (s.mem.ue = [] → s.HoldsGranule (s.landPiece num p cycle) key p.data)) ∧
      (s.memOpen key = false → s.landPiece num p cycle = s) := by
  intro key
  cases hopen : s.memOpen key with
  | false =>
    have heq : s.landPiece num p cycle = s := if_neg (by rw [hopen]; decide)
    exact ⟨by rw [heq], fun h => absurd h (by decide), fun _ => heq⟩
  | true =>
    have heq : s.landPiece num p cycle = (s.applyGranule key p.data fullBytes).landed num p.data cycle := if_pos hopen
    have happlied := s.applied_applyGranule key p.data fullBytes
    obtain ⟨-, hmem, hpieces, -⟩ := (s.applyGranule key p.data fullBytes).landed_spec num p.data cycle
    rw [heq]
    refine ⟨by rw [hpieces, happlied.cq], fun _ => ⟨State.lands_of_applied happlied num p.data cycle, fun hue a => ?_⟩,
      fun h => absurd h (by decide)⟩
    rw [hmem]
    exact State.holdsGranule_applyGranule p.data (State.memApplies_of_memOpen hopen) hue a

/-- A piece's write whose window has passed leaves the window, is applied and lands its piece. -/
theorem State.expireOne_of_landing (s : State) (d m : Nat) {num : Nat} {e : Nat × WriteReq} (hpassed : e.1 + 4 ≤ now)
    (hsource : e.2.source = .landing num) (haddr : (s.region num).pieceKey (s.region num).tailSh = e.2.addr) :
    State.expireOne d m now s e =
      ((s.setSlice d m { s.slice d m with window := (s.slice d m).window.erase e }).applyWrite e.2).landed num e.2.data
        (e.1 + 4) := by
  unfold State.expireOne
  dsimp only
  rw [if_neg (Nat.not_lt.2 hpassed), hsource]
  exact if_pos (by rw [haddr]; exact beq_self_eq_true _)

theorem State.holdsGranule_applyWrite {w : WriteReq} (hbytes : w.bytes = fullBytes)
    (happlies : s.memApplies w.addr = true) (hue : s.mem.ue = []) : s.HoldsGranule (s.applyWrite w) w.addr w.data := by
  intro a
  rw [(s.applyWrite_spec w hue).2.2 a, hbytes]
  by_cases hin : w.addr ≤ a ∧ a < w.addr + 256
  · rw [if_pos ⟨happlies, hin, bit_fullBytes (by omega)⟩, if_pos hin]
  · rw [if_neg fun h => hin h.2.1, if_neg hin]

/-- The next piece of a region, accepted by its slice, lands once its window has passed. -/
theorem State.expireWindow_of_landing {num c d m : Nat} {w : WriteReq} (hwindow : (s.slice d m).window = [(c, w)])
    (hsource : w.source = .landing num) (haddr : (s.region num).pieceKey (s.region num).tailSh = w.addr)
    (hbytes : w.bytes = fullBytes) (happlies : s.memApplies w.addr = true) (hue : s.mem.ue = []) (hpassed : c + 4 ≤ now) :
    s.Lands (s.expireWindow d m now) num ∧ s.HoldsGranule (s.expireWindow d m now) w.addr w.data ∧
      ((s.expireWindow d m now).slice d m).window = [] := by
  have hone := s.expireOne_of_landing d m (e := (c, w)) hpassed hsource haddr
  rw [hwindow, List.erase_cons_head] at hone
  rw [State.expireWindow, hwindow, List.foldl_cons, List.foldl_nil, hone]
  generalize hout : s.setSlice d m { s.slice d m with window := [] } = out
  have hslice : (out.slice d m).window = [] := by rw [← hout, State.setSlice_slice_same]
  have hlands : out.Lands ((out.applyWrite w).landed num w.data (c + 4)) num →
      s.Lands ((out.applyWrite w).landed num w.data (c + 4)) num := by rw [← hout]; exact id
  have hholds : out.HoldsGranule (out.applyWrite w) w.addr w.data :=
    State.holdsGranule_applyWrite hbytes (by rw [← hout]; exact happlies) (by rw [← hout]; exact hue)
  have happlied := (out.applyWrite_spec w (by rw [← hout]; exact hue)).1
  obtain ⟨-, hmem, -, -⟩ := (out.applyWrite w).landed_spec num w.data (c + 4)
  refine ⟨hlands (State.lands_of_applied happlied num w.data (c + 4)), fun a => ?_, ?_⟩
  · rw [hmem, hholds a, ← hout]
    rfl
  · rw [State.slice, hmem, happlied.slices]
    exact hslice

end

/-! ## A lesson's piece at its slice -/

section
variable {s : State} {d n now a : Nat} {p : Piece}

/-- The one waiting piece, of a lesson and due at the slice, is the first that waits there. -/
theorem State.headedFor_of_only (hpieces : s.cq.pieces = [p]) (htagged : p.untagged = false)
    (hslice : s.landingSlice p.region.toNat = some (d, n)) : s.headedFor d n p = true := by
  have hfind : [p].find? (fun q => q.region == p.region) = some p := List.find?_cons_of_pos (beq_self_eq_true p.region)
  unfold State.headedFor State.oldestPiece
  rw [hpieces, htagged, hslice, hfind, beq_self_eq_true, beq_self_eq_true]
  rfl

theorem State.stampPieces_of_arrived (h : ∀ p ∈ s.cq.pieces, p.arrival.isNone = false) :
    s.stampPieces d n now = s := by
  have hmap : (s.cq.pieces.map fun p =>
      if p.arrival.isNone && s.headedFor d n p then { p with arrival := some now } else p) = s.cq.pieces := by
    refine (List.map_congr_left fun p hp => ?_).trans (List.map_id _)
    rw [h p hp, Bool.false_and]
    rfl
  unfold State.stampPieces
  rw [hmap]

theorem State.firstWaiting_of_only (hpieces : s.cq.pieces = [p]) (htagged : p.untagged = false)
    (hslice : s.landingSlice p.region.toNat = some (d, n)) (harrival : p.arrival = some a) (hcome : a ≤ now)
    (hwrites : (s.slice d n).writes = []) : s.firstWaiting d n now = some (.piece p) := by
  have hhead := State.headedFor_of_only hpieces htagged hslice
  have hfirst : s.firstPiece d n now = some p := by
    unfold State.firstPiece
    rw [hpieces, List.filter_cons_of_pos (by rw [hhead, harrival]; simpa using hcome), List.filter_nil]
    rfl
  unfold State.firstWaiting
  rw [hwrites, hfirst]
  rfl

/-- The part after a slice has taken a piece off those that wait, in a cycle. -/
def State.takenPiece (s : State) (d n now : Nat) (p : Piece) : State :=
  (s.withoutPiece p).setSlice d n { s.slice d n with writeAt := some now }

theorem State.serveWrite_of_piece (hfirst : s.firstWaiting d n now = some (.piece p)) (harrival : p.arrival = some a)
    (hin : now ≤ a + 2) (hserved : (s.slice d n).writeAt ≠ some now) :
    s.serveWrite d n now = (s.takenPiece d n now p).acceptWaiting d n now (.piece p) := by
  unfold State.serveWrite
  rw [if_neg (by simpa using hserved), hfirst]
  refine if_neg ?_
  rw [WaitingWrite.arrival, harrival]
  exact Nat.not_lt.2 hin

theorem State.dropWrite_of_piece (hfirst : s.firstWaiting d n now = some (.piece p)) (harrival : p.arrival = some a)
    (hout : a + 2 < now) (hwelcome : s.Welcome p) :
    s.dropWrite d n now = ((s.withoutPiece p).setRegion p.region.toNat
      { s.region p.region.toNat with dropped := true }).dropped d n now := by
  have hwaited : waitedOut (WaitingWrite.piece p).arrival now (s.slice d n).writeAt = true := by
    rw [WaitingWrite.arrival, harrival]
    exact (waitedOut_iff _ _ _).2 (.inl hout)
  unfold State.dropWrite
  rw [hfirst]
  refine (if_pos hwaited).trans ?_
  dsimp only
  rw [State.pieceStale_of_welcome hwelcome, if_neg (by decide)]
  rfl

/-- What accepting a piece at its slice does. -/
theorem State.acceptWaiting_piece (s : State) (d n now : Nat) (p : Piece) :
    s.acceptWaiting d n now (.piece p) =
      if s.pieceStale p then s.cqDiscard
      else if (s.region p.region.toNat).overrun || !(s.region p.region.toNat).hasRoom (s.landing p.region.toNat) then
        s.overrunAt p.region.toNat (s.region p.region.toNat) now
      else if s.memOpen (s.landingKey p.region.toNat) then
        s.acceptWrite d n { arrival := p.arrival.getD now, port := p.port, source := .landing p.region.toNat
                            addr := s.landingKey p.region.toNat, data := p.data, bytes := fullBytes } now
      else s := rfl

theorem State.takenPiece_landing (s : State) (d n now : Nat) (p : Piece) (num : Nat)
    (hwf : tabWf .reset s.mem.slices = true) : (s.takenPiece d n now p).landing num = s.landing num :=
  State.landing_setSlice (s.withoutPiece p) d n num hwf (fun h => nomatch congrArg Slice.writeAt h) rfl

theorem State.takenPiece_slice (s : State) (d n now : Nat) (p : Piece) :
    (s.takenPiece d n now p).slice d n = { s.slice d n with writeAt := some now } :=
  State.setSlice_slice_same _ _ _ _

theorem State.keeps_takenPiece (s : State) (d n now : Nat) (p : Piece) : s.keeps (s.takenPiece d n now p) :=
  .of_bytes rfl rfl

end

end Sys2Proof.Machine
end

section
/-! PROOFS. Pieces of a region, at once, at their slice and dropped there (R192, R193, R213 to R220). -/

namespace Sys2Proof.Machine

theorem State.keeps_withoutPiece (s : State) (p : Piece) : s.keeps (s.withoutPiece p) := State.keeps_of_mem_tiles rfl rfl

/-- A piece of a region that is no piece of its lesson or producer is stale, and only such a one. -/
theorem State.pieceStale_of_region {s : State} {n : BitVec 11} {p : Piece} (hp : p.region = n) :
    s.pieceStale p = true ↔ ¬((s.region n.toNat).kind = .localRegion ∧ (s.region n.toNat).producedBy p = true ∧
      (s.region n.toNat).dropped = false ∧
      (p.untagged = true ∨ (s.lessonOpen = true ∧ s.tagNow p.tagBell p.tagAttempt = true))) := by
  subst hp
  exact s.pieceStale_iff p

section
variable {s : State} {n : BitVec 11} {p : Piece} (now : Nat) (hwindow : s.landingWindow n.toNat = none)
  (hfind : (s.cq.pieces.find? fun p => p.region == n) = some p)
include hwindow hfind

theorem exec_pieceLanding_of_stale (hstale : s.pieceStale p = true) :
    exec (.pieceLanding ⟨n, now⟩) s = .next (s.withoutPiece p).cqDiscard := by
  rw [exec_pieceLanding_of_waiting hwindow hfind, if_pos hstale]

theorem exec_pieceLanding_of_full (hstale : ¬s.pieceStale p = true)
    (hfull : (s.region n.toNat).overrun = true ∨ (s.region n.toNat).hasRoom 0 = false) :
    exec (.pieceLanding ⟨n, now⟩) s = .next ((s.withoutPiece p).overrunAt n.toNat (s.region n.toNat) now) := by
  have hcond : ((s.region n.toNat).overrun || !(s.region n.toNat).hasRoom 0) = true := by
    rcases hfull with h | h
    · exact Bool.or_eq_true_iff.2 (.inl h)
    · exact Bool.or_eq_true_iff.2 (.inr (congrArg not h))
  rw [exec_pieceLanding_of_waiting hwindow hfind, if_neg hstale, if_pos hcond]

/-- With room, a piece of no lesson and one for a tile store land at once; one for a layer waits at its slice. -/
theorem exec_pieceLanding_of_room (hstale : ¬s.pieceStale p = true) (hover : (s.region n.toNat).overrun = false)
    (hroom : (s.region n.toNat).hasRoom 0 = true) (hkind : (s.region n.toNat).kind = .localRegion)
    (hnone : s.landing n.toNat = 0) : exec (.pieceLanding ⟨n, now⟩) s = .next (
      if p.untagged = true ∨ inLayers (offsetOf ((s.region n.toNat).pieceKey (s.region n.toNat).tailSh)) = false
      then (s.withoutPiece p).landPiece n.toNat p now else s) := by
  have hcond : ¬((s.region n.toNat).overrun || !(s.region n.toNat).hasRoom 0) = true := by
    rw [hover, hroom]
    decide
  rw [exec_pieceLanding_of_waiting hwindow hfind, if_neg hstale, if_neg hcond, State.landingSlice_isNone hnone hkind]
  simp only [Bool.or_eq_true, Bool.not_eq_true']

end

/-- The command, where the next piece of the region is in the window of the slice of the shadow tail. -/
theorem exec_pieceLanding_of_landing {s : State} {n : BitVec 11} {c : Nat} {w : WriteReq} (now : Nat)
    (hlayer : inLayers (offsetOf ((s.region n.toNat).pieceKey (s.region n.toNat).tailSh)) = true)
    (hwindow : (s.slice (dieOf ((s.region n.toNat).pieceKey (s.region n.toNat).tailSh))
      (sliceOf (offsetOf ((s.region n.toNat).pieceKey (s.region n.toNat).tailSh)))).window = [(c, w)])
    (hsource : w.source = .landing n.toNat) : exec (.pieceLanding ⟨n, now⟩) s =
      .next (s.expireWindow (dieOf ((s.region n.toNat).pieceKey (s.region n.toNat).tailSh))
        (sliceOf (offsetOf ((s.region n.toNat).pieceKey (s.region n.toNat).tailSh))) now) := by
  have hin : s.landingWindow n.toNat = some (dieOf ((s.region n.toNat).pieceKey (s.region n.toNat).tailSh),
      sliceOf (offsetOf ((s.region n.toNat).pieceKey (s.region n.toNat).tailSh))) := by
    unfold State.landingWindow
    refine if_pos ?_
    rw [hlayer, hwindow, List.any_cons, hsource, beq_self_eq_true]
    rfl
  show Host.Outcome.next _ = _
  dsimp only
  rw [hin]

/-- The overrun of a region, after a piece has been taken off those that wait. -/
theorem State.overrunAt_of_taken {s t : State} {num : Nat} (cycle : Nat) (hkeeps : s.keeps t)
    (hregion : t.region num = s.region num) (hoverruns : t.cq.overruns = s.cq.overruns) (hbell : t.bell = s.bell) :
    s.keeps (t.overrunAt num (s.region num) cycle) ∧
      (t.overrunAt num (s.region num) cycle).cq.pieces = t.cq.pieces ∧
      (t.overrunAt num (s.region num) cycle).cq.overruns = s.cq.overruns + 1 ∧
      (t.overrunAt num (s.region num) cycle).mem.slices = t.mem.slices ∧
      (t.overrunAt num (s.region num) cycle).region num = { s.region num with overrun := true } ∧
      ((s.region num).overrun = false → s.causeOpen = true →
        bit (t.overrunAt num (s.region num) cycle).bell.lessonCauses 2 = true) := by
  obtain ⟨honly, hcause⟩ := t.overrunAt_spec num cycle
  have hr := t.overrunAt_region num cycle
  have hopen : t.causeOpen = s.causeOpen := by rw [State.causeOpen, hbell]; rfl
  rw [hregion] at honly hcause hr
  rw [hopen] at hcause
  refine ⟨hkeeps.trans (State.keeps.trans (State.keeps_of_mem_tiles rfl rfl) honly.keeps), ?_, ?_, honly.slices, hr,
    hcause⟩
  · rw [honly.cq]
    rfl
  · rw [honly.cq, ← hoverruns]
    rfl

section
variable {s : State} {die : BitVec 2} {m : BitVec 8} {now a : Nat} {p : Piece}

theorem exec_serveWrite_of_arrived (hpieces : s.cq.pieces = [p]) (harrival : p.arrival = some a)
    (hfresh : ∀ e ∈ (s.slice die.toNat m.toNat).window, now < e.1 + 4) :
    exec (.sliceRequestServe die m true now) s = .next (s.serveWrite die.toNat m.toNat now) := by
  have harrived : ∀ q ∈ s.cq.pieces, q.arrival.isNone = false := fun q hq => by
    rw [hpieces] at hq
    rw [List.mem_singleton.1 hq, harrival]
    rfl
  show Host.Outcome.next _ = _
  rw [State.expireWindow_of_fresh hfresh, if_pos rfl, State.stampPieces_of_arrived harrived]

theorem exec_dropWrite_of_arrived (hpieces : s.cq.pieces = [p]) (harrival : p.arrival = some a) :
    exec (.sliceRequestDrop die m true now) s = .next (s.dropWrite die.toNat m.toNat now) := by
  have harrived : ∀ q ∈ s.cq.pieces, q.arrival.isNone = false := fun q hq => by
    rw [hpieces] at hq
    rw [List.mem_singleton.1 hq, harrival]
    rfl
  show Host.Outcome.next _ = _
  rw [if_pos rfl, State.stampPieces_of_arrived harrived]

theorem State.withoutPiece_only (hpieces : s.cq.pieces = [p]) : (s.withoutPiece p).cq.pieces = [] := by
  show s.cq.pieces.erase p = []
  rw [hpieces, List.erase_cons_head]

theorem State.kind_of_landingSlice {num : Nat} {x : Nat × Nat} (h : s.landingSlice num = some x) :
    (s.region num).kind = .localRegion := by
  unfold State.landingSlice at h
  dsimp only at h
  split at h
  · next hcond => exact eq_of_beq (Bool.and_eq_true_iff.1 hcond).1
  · cases h

theorem State.collide_cq (s : State) (d k : Nat) : (s.collide d k).cq = s.cq := by
  unfold State.collide
  split
  · rfl
  · obtain ⟨_, h⟩ := State.countEvent_eq (s.modDie d fun r => { r with collide := r.collide + BitVec.ofNat 32 k }) 1 d
      0x0104 k
    rw [h]
    rfl

/-- A write in the window changes no register, no byte and no region. -/
theorem State.acceptWrite_leaves (s : State) (d n : Nat) (w : WriteReq) (now : Nat) :
    s.keeps (s.acceptWrite d n w now) ∧ (s.acceptWrite d n w now).cq = s.cq := by
  unfold State.acceptWrite
  dsimp only
  split
  · exact ⟨(s.keeps_setSlice d n _).trans (State.collide_spec _ d n _).1, State.collide_cq _ _ _⟩
  · exact ⟨(s.collide_spec d n 1).1, s.collide_cq d 1⟩

/-- Accepting a piece or turning it away changes no register, no byte and no waiting piece. -/
theorem State.acceptWaiting_leaves (s : State) (d n now : Nat) (p : Piece) :
    s.keeps (s.acceptWaiting d n now (.piece p)) ∧ (s.acceptWaiting d n now (.piece p)).cq.pieces = s.cq.pieces := by
  rw [s.acceptWaiting_piece d n now p]
  split
  · exact ⟨State.keeps_of_mem_tiles rfl rfl, rfl⟩
  · split
    · obtain ⟨hkeeps, hpieces, -⟩ := State.overrunAt_of_taken (s := s) (num := p.region.toNat) now (.refl s) rfl rfl rfl
      exact ⟨hkeeps, hpieces⟩
    · split
      · obtain ⟨hkeeps, hcq⟩ := s.acceptWrite_leaves d n { arrival := p.arrival.getD now, port := p.port
                                                           source := .landing p.region.toNat
                                                           addr := s.landingKey p.region.toNat
                                                           data := p.data, bytes := fullBytes } now
        exact ⟨hkeeps, by rw [hcq]⟩
      · exact ⟨.refl s, rfl⟩

end

section
variable {s : State} {d n now : Nat} {p : Piece}

theorem State.takenPiece_landingKey (s : State) (d n now : Nat) (p : Piece) (num : Nat)
    (hwf : tabWf .reset s.mem.slices = true) : (s.takenPiece d n now p).landingKey num = s.landingKey num := by
  unfold State.landingKey
  rw [s.takenPiece_landing d n now p num hwf]
  rfl

/-- A stale piece is discarded at its slice. -/
theorem State.acceptTaken_of_stale (d n now : Nat) (h : s.pieceStale p = true) :
    (s.takenPiece d n now p).acceptWaiting d n now (.piece p) = (s.takenPiece d n now p).cqDiscard := by
  rw [State.acceptWaiting_piece]
  exact if_pos h

/-- One without room overruns its region. -/
theorem State.acceptTaken_of_full (d n now : Nat) (hwelcome : s.Welcome p) (hwf : tabWf .reset s.mem.slices = true)
    (hfull : (s.region p.region.toNat).overrun = true ∨
      (s.region p.region.toNat).hasRoom (s.landing p.region.toNat) = false) :
    (s.takenPiece d n now p).acceptWaiting d n now (.piece p) =
      (s.takenPiece d n now p).overrunAt p.region.toNat (s.region p.region.toNat) now := by
  have hfresh : ¬(s.takenPiece d n now p).pieceStale p = true := fun h =>
    (s.pieceStale_iff p).1 h hwelcome
  rw [State.acceptWaiting_piece, if_neg hfresh, s.takenPiece_landing d n now p _ hwf]
  refine if_pos (Bool.or_eq_true_iff.2 ?_)
  rcases hfull with h | h
  · exact .inl h
  · exact .inr (congrArg not h)

/-- One with room goes on to the window, at the place behind the pieces already on their way. -/
theorem State.acceptTaken_of_room (d n now : Nat) (hwelcome : s.Welcome p) (hwf : tabWf .reset s.mem.slices = true)
    (hover : (s.region p.region.toNat).overrun = false)
    (hroom : (s.region p.region.toNat).hasRoom (s.landing p.region.toNat) = true)
    (hopen : s.memOpen (s.landingKey p.region.toNat) = true) :
    (s.takenPiece d n now p).acceptWaiting d n now (.piece p) = (s.takenPiece d n now p).acceptWrite d n
      { arrival := p.arrival.getD now, port := p.port, source := .landing p.region.toNat
        addr := s.landingKey p.region.toNat, data := p.data, bytes := fullBytes } now := by
  have hfresh : ¬(s.takenPiece d n now p).pieceStale p = true := fun h =>
    (s.pieceStale_iff p).1 h hwelcome
  have hroomy : ¬((s.region p.region.toNat).overrun ||
      !(s.region p.region.toNat).hasRoom (s.landing p.region.toNat)) = true := by
    rw [hover, hroom]
    decide
  rw [State.acceptWaiting_piece, if_neg hfresh, s.takenPiece_landing d n now p _ hwf,
    s.takenPiece_landingKey d n now p _ hwf]
  exact (if_neg hroomy).trans (if_pos hopen)

end

theorem State.dropped_cq (s : State) (d n now : Nat) : (s.dropped d n now).cq = s.cq := by
  obtain ⟨_, h⟩ := s.lateCounted_eq d
  rw [State.dropped_eq, (State.onlyRead_hazard _ _ _ _ _ _).cq, (State.onlyRead_cause _ _ _ _ _ _).cq, h]
  rfl

/-- A write to a granule that no write of the window is to joins the window behind the others. -/
theorem State.acceptWrite_of_alone (s : State) (d n now : Nat) {w : WriteReq}
    (h : ∀ e ∈ (s.slice d n).window, e.2.addr ≠ w.addr) :
    ((s.acceptWrite d n w now).slice d n).window = (s.slice d n).window ++ [(now, w)] := by
  have halone : ∀ e ∈ (s.slice d n).window, w.meets e = false := fun e he => by
    rw [WriteReq.meets, beq_eq_false_iff_ne.2 (h e he), Bool.false_and]
  have hnone : (s.slice d n).window.filter w.meets = [] :=
    List.filter_eq_nil_iff.2 fun e he => by rw [halone e he]; exact Bool.false_ne_true
  have hall : ((s.slice d n).window.filter fun e => !w.meets e) = (s.slice d n).window :=
    List.filter_eq_self.2 fun e he => by rw [halone e he]; rfl
  obtain ⟨-, hslice, -⟩ := s.acceptWrite_of_lowest d n now (w := w) (by rw [hnone]; exact fun _ h => nomatch h)
  rw [hslice, hall]

/-- Settles O24: at once, from the window of its slice, and on the way into it. -/
theorem pieceLanding : Obligations.PieceLanding := by
  unfold Obligations.PieceLanding
  refine ⟨fun s n now p => ?next, fun s die m now a p hpieces htagged => ?slice⟩
  case next =>
    intro r key fits lands writes
    refine ⟨fun hwindow hfind => ?waiting, fun w c hlayer hwin hsource haddr hbytes happlies hue => ?landing,
      exec_pieceLanding_of_none⟩
    case waiting =>
      have hregion : p.region = n := by
        have h := List.find?_some hfind
        exact eq_of_beq h
      have hstale : s.pieceStale p = true ↔ ¬fits := State.pieceStale_of_region hregion
      have hwelcome (h : fits) : ¬s.pieceStale p = true := fun hs => hstale.1 hs h
      refine ⟨fun hnot => ?_, fun hfits hfull => ?_, fun hfits hover hroom hplace hnone => ?_,
        fun hfits hover hroom htagged hnone hlayer => ?_⟩
      · exact ⟨_, exec_pieceLanding_of_stale now hwindow hfind (hstale.2 hnot), State.keeps_of_mem_tiles rfl rfl, rfl,
          rfl, rfl⟩
      · obtain ⟨hkeeps, hpieces, hoverruns, -, hr, hcause⟩ := State.overrunAt_of_taken (s := s) (t := s.withoutPiece p)
          (num := n.toNat) now (s.keeps_withoutPiece p) rfl rfl rfl
        exact ⟨_, exec_pieceLanding_of_full now hwindow hfind (hwelcome hfits) hfull, hkeeps, hpieces, hoverruns,
          by rw [hr], by rw [hr], hcause⟩
      · obtain ⟨hpieces, hopen, hclosed⟩ := (s.withoutPiece p).landPiece_spec n.toNat p now
        have hexec := exec_pieceLanding_of_room now hwindow hfind (hwelcome hfits) hover hroom hfits.1 hnone
        rw [if_pos hplace] at hexec
        refine ⟨_, hexec, hpieces, hopen, fun h => ?_⟩
        rw [hclosed h]
        exact ⟨s.keeps_withoutPiece p, rfl⟩
      · rw [exec_pieceLanding_of_room now hwindow hfind (hwelcome hfits) hover hroom hfits.1 hnone, if_neg]
        rintro (h | h)
        · rw [htagged] at h
          exact absurd h (by decide)
        · exact absurd (hlayer.symm.trans h) (by decide)
    case landing =>
      have hexec := exec_pieceLanding_of_landing now hlayer hwin hsource
      refine ⟨fun hpassed => ?_, fun hfresh => ?_⟩
      · obtain ⟨hlands, hholds, hempty⟩ := State.expireWindow_of_landing hwin hsource haddr.symm hbytes
          (by rw [haddr]; exact happlies) hue hpassed
        rw [haddr] at hholds
        exact ⟨_, hexec, hlands, hholds, hempty⟩
      · rw [hexec, State.expireWindow_of_fresh]
        intro e he
        rw [hwin, List.mem_singleton] at he
        rw [he]
        exact hfresh
  case slice =>
    intro n r x key fits hslice harrival hwrites hwf
    have hkind := State.kind_of_landingSlice hslice
    have hwelcome (h : fits) : s.Welcome p := ⟨hkind, h.1, h.2.1, .inr h.2.2⟩
    have hfits (h : s.Welcome p) : fits :=
      ⟨h.2.1, h.2.2.1, h.2.2.2.resolve_left fun hu => by rw [htagged] at hu; exact absurd hu (by decide)⟩
    refine ⟨fun hcome hin hserved hfresh => ?serve, fun hout hf => ?drop⟩
    case serve =>
      have hfirst := State.firstWaiting_of_only (now := now) hpieces htagged hslice harrival hcome hwrites
      have hexec : exec (.sliceRequestServe die m true now) s =
          .next ((s.takenPiece die.toNat m.toNat now p).acceptWaiting die.toNat m.toNat now (.piece p)) := by
        rw [exec_serveWrite_of_arrived hpieces harrival hfresh, State.serveWrite_of_piece hfirst harrival hin hserved]
      obtain ⟨hkeeps, hleft⟩ := (s.takenPiece die.toNat m.toNat now p).acceptWaiting_leaves die.toNat m.toNat now p
      have htaken : s.keeps (s.takenPiece die.toNat m.toNat now p) := s.keeps_takenPiece _ _ _ _
      have hwindow : ((s.takenPiece die.toNat m.toNat now p).slice die.toNat m.toNat).window = x.window := by
        rw [State.takenPiece_slice]
      refine ⟨_, hexec, htaken.trans hkeeps, hleft.trans (State.withoutPiece_only hpieces), fun hnot => ?_,
        fun hf hfull => ?_, fun hf hover hroom hopen halone => ?_⟩
      · rw [State.acceptTaken_of_stale _ _ _ ((s.pieceStale_iff p).2 fun h => hnot (hfits h))]
        exact ⟨rfl, hwindow⟩
      · obtain ⟨-, -, hoverruns, hslices, hr, hcause⟩ := State.overrunAt_of_taken (s := s)
          (t := s.takenPiece die.toNat m.toNat now p) (num := n) now htaken rfl rfl rfl
        rw [State.acceptTaken_of_full _ _ _ (hwelcome hf) hwf hfull]
        refine ⟨hoverruns, ?_, by rw [hr], hcause⟩
        rw [State.slice, hslices]
        exact hwindow
      · rw [State.acceptTaken_of_room _ _ _ (hwelcome hf) hwf hover hroom hopen, State.acceptWrite_of_alone, hwindow,
          harrival]
        · rfl
        · rw [hwindow]
          exact halone
    case drop =>
      have hfirst := State.firstWaiting_of_only (now := now) hpieces htagged hslice harrival (by omega) hwrites
      have hexec : exec (.sliceRequestDrop die m true now) s = .next (((s.withoutPiece p).setRegion n
          { r with dropped := true }).dropped die.toNat m.toNat now) := by
        rw [exec_dropWrite_of_arrived hpieces harrival,
          State.dropWrite_of_piece hfirst harrival hout (hwelcome hf)]
      obtain ⟨hkeeps, hlate, hcause, -⟩ := State.lateAt_dropped (s := s) (t := (s.withoutPiece p).setRegion n
          { r with dropped := true }) (State.keeps_of_mem_tiles rfl rfl) rfl rfl rfl rfl die m now
      refine ⟨_, hexec, hkeeps, ?_, ?_, hlate, hcause⟩
      · rw [State.dropped_cq]
        exact State.withoutPiece_only hpieces
      · rw [State.region, State.dropped_cq]
        exact congrArg Region.dropped (State.setRegion_region_same _ _ _)

end Sys2Proof.Machine
end

section
/-! PROOFS. Half-layers that close and open (R207, R208, Table 8-6). -/

namespace Sys2Proof.Machine

/-! ## Contents of a half-layer -/

theorem tabGet_filter {α : Type} (d : α) (t : Tab α) (p : Nat → Bool) (k : Nat) :
    tabGet d (t.filter fun e => p e.1) k = if p k then tabGet d t k else d := by
  induction t with
  | nil => exact (ite_self d).symm
  | cons e t ih =>
    obtain ⟨j, x⟩ := e
    rw [List.filter_cons, tabGet_cons]
    by_cases hkj : k = j
    · subst hkj
      by_cases hp : p k = true
      · rw [if_pos hp, tabGet_cons, if_pos rfl, if_pos rfl, if_pos hp]
      · rw [if_neg hp, ih, if_neg hp, if_neg hp]
    · rw [if_neg hkj, ← ih]
      split
      · rw [tabGet_cons, if_neg hkj]
      · rfl

theorem inHalf_iff (die half k : Nat) :
    inHalf die half k = true ↔ halfBase die half ≤ k ∧ k < halfBase die half + 2 ^ 30 := by
  simp [inHalf]

theorem Mem.clearHalf_byte (m : Mem) (die half a : Nat) : (m.clearHalf die half).byte a =
    if halfBase die half ≤ a ∧ a < halfBase die half + 2 ^ 30 then 0 else m.byte a := by
  unfold Mem.byte Mem.clearHalf
  dsimp only
  rw [tabGet_filter 0 m.bytes fun k => !inHalf die half k]
  by_cases h : halfBase die half ≤ a ∧ a < halfBase die half + 2 ^ 30
  · rw [if_pos h, (inHalf_iff die half a).2 h]
    rfl
  · rw [if_neg h, Bool.eq_false_iff.2 (mt (inHalf_iff die half a).1 h)]
    rfl

theorem Mem.clearHalf_ue {m : Mem} {die half w : Nat} (h : w ∈ (m.clearHalf die half).ue) :
    w ∈ m.ue ∧ ¬(halfBase die half ≤ 8 * w ∧ 8 * w < halfBase die half + 2 ^ 30) := by
  obtain ⟨hmem, hout⟩ := List.mem_filter.1 h
  refine ⟨hmem, fun hin => ?_⟩
  rw [(inHalf_iff die half (8 * w)).2 hin] at hout
  exact absurd hout (by decide)

/-- A half-layer has lost its contents, and nothing else of memory or of a tile has changed. -/
def State.Emptied (s s' : State) (die half : Nat) : Prop :=
  (∀ a, s'.mem.byte a = if halfBase die half ≤ a ∧ a < halfBase die half + 2 ^ 30 then 0 else s.mem.byte a) ∧
    (∀ w ∈ s'.mem.ue, ¬(halfBase die half ≤ 8 * w ∧ 8 * w < halfBase die half + 2 ^ 30)) ∧
    ∀ u, s'.tile u = s.tile u

/-! ## States of a half-layer -/

theorem State.gateAnswer_eq (s : State) (die half : Nat) (up : Bool) : ∃ waits mb,
    s.gateAnswer die half up = { s with mem := { s.mem with gateWaits := waits }, mb := mb } := by
  unfold State.gateAnswer
  obtain ⟨mb, h⟩ := State.answerAll_eq { s with mem := { s.mem with gateWaits := s.mem.gateWaits.filter fun e =>
    !(e.1.die.toNat == die && e.1.half.toNat == half && e.1.up == up) } }
    ((s.mem.gateWaits.filter fun e => e.1.die.toNat == die && e.1.half.toNat == half && e.1.up == up).map (·.2)) stOk
    (toBytes 1 ((s.gateOf die half).setWidth 8))
  exact ⟨_, mb, h⟩

/-- The half-layer exists: its state is one of a layer that the part has. -/
theorem State.gateOf_eq {s : State} {die half : Nat} (h : s.gateOf die half ≠ 2) :
    ¬2 * layersOf s.fused.variant ≤ half ∧ s.gateOf die half = tabGet 0 s.mem.gate (8 * die + half) := by
  have hin : ¬2 * layersOf s.fused.variant ≤ half := fun hout => h (if_pos hout)
  exact ⟨hin, if_neg hin⟩

theorem State.setGate_gateOf_other (s : State) {die half k j : Nat} (h : 8 * k + j ≠ 8 * die + half) (x : BitVec 2) :
    (s.setGate die half x).gateOf k j = s.gateOf k j := by
  unfold State.gateOf
  rw [show (s.setGate die half x).mem.gate = tabSet 0 s.mem.gate (8 * die + half) x from rfl,
    tabGet_tabSet_other 0 s.mem.gate x h]
  rfl

/-- The half-layer emptied, put into a state, and answered for. -/
def State.gateCleared (s : State) (die half : Nat) (x : BitVec 2) (up : Bool) : State :=
  (State.setGate { s with mem := s.mem.clearHalf die half } die half x).gateAnswer die half up

theorem State.gateCleared_spec (s : State) (die half : Nat) (x : BitVec 2) (up : Bool) :
    s.Emptied (s.gateCleared die half x up) die half ∧ (s.gateCleared die half x up).fused = s.fused ∧
      (∀ w ∈ (s.gateCleared die half x up).mem.ue, w ∈ s.mem.ue) ∧
      (s.gateCleared die half x up).mem.gate = tabSet 0 s.mem.gate (8 * die + half) x := by
  obtain ⟨_, _, h⟩ := State.gateAnswer_eq (State.setGate { s with mem := s.mem.clearHalf die half } die half x) die half up
  unfold State.gateCleared
  rw [h]
  exact ⟨⟨s.mem.clearHalf_byte die half, fun w hw => (Mem.clearHalf_ue hw).2, fun _ => rfl⟩, rfl,
    fun w hw => (Mem.clearHalf_ue hw).1, rfl⟩

theorem State.gateCleared_gateOf {s : State} {die half : Nat} (h : s.gateOf die half ≠ 2) (x : BitVec 2) (up : Bool) :
    (s.gateCleared die half x up).gateOf die half = x := by
  obtain ⟨-, hfused, -, hgate⟩ := s.gateCleared_spec die half x up
  unfold State.gateOf
  rw [hfused, hgate, if_neg (State.gateOf_eq h).1, tabGet_tabSet_same]

theorem State.gateOn_of_opening {s : State} {die half : Nat} (h : s.gateOf die half = 3) :
    s.gateOn die half = s.gateCleared die half 0 true := if_pos (by rw [h]; rfl)

theorem State.gateOn_of_other {s : State} {die half : Nat} (h : s.gateOf die half ≠ 3) : s.gateOn die half = s :=
  if_neg (by rw [beq_eq_false_iff_ne.2 h]; decide)

/-! ## The end of recess step 2 (R208) -/

/-- A request for power does nothing to a half-layer that opens. -/
theorem State.gateNow_opening {s : State} {die : BitVec 2} {half : BitVec 3}
    (h : s.gateOf die.toNat half.toNat = 3) (r : GateRequest) :
    (s.gateNow r).gateOf die.toNat half.toNat = 3 ∧ (s.gateNow r).tiles = s.tiles := by
  have hother : ∀ x, s.gateOf r.die.toNat r.half.toNat ≠ 3 →
      (s.setGate r.die.toNat r.half.toNat x).gateOf die.toNat half.toNat = 3 := by
    intro x hr
    rw [State.setGate_gateOf_other, h]
    intro heq
    have hhalf := half.isLt
    have hrhalf := r.half.isLt
    have hd : r.die.toNat = die.toNat := by omega
    have hh : r.half.toNat = half.toNat := by omega
    rw [hd, hh] at hr
    exact hr h
  unfold State.gateNow
  dsimp only
  split
  · split
    · next hoff => exact ⟨hother _ (by rw [eq_of_beq hoff]; decide), rfl⟩
    · exact ⟨h, rfl⟩
  · split
    · next hon => exact ⟨hother _ (by rw [eq_of_beq hon]; decide), rfl⟩
    · exact ⟨h, rfl⟩

theorem State.foldl_gateNow_opening {s : State} {die : BitVec 2} {half : BitVec 3}
    (h : s.gateOf die.toNat half.toNat = 3) (l : List GateRequest) :
    (l.foldl (fun s r => s.gateNow r) s).gateOf die.toNat half.toNat = 3 ∧
      (l.foldl (fun s r => s.gateNow r) s).tiles = s.tiles := by
  induction l generalizing s with
  | nil => exact ⟨h, rfl⟩
  | cons r l ih =>
    obtain ⟨hgate, htiles⟩ := State.gateNow_opening h r
    obtain ⟨hgate', htiles'⟩ := ih hgate
    exact ⟨hgate', htiles'.trans htiles⟩

/-- A half-layer is ON with every word zero. -/
def State.ZeroOn (s : State) (die half : Nat) : Prop :=
  s.gateOf die half = 0 ∧ (∀ a, halfBase die half ≤ a ∧ a < halfBase die half + 2 ^ 30 → s.mem.byte a = 0) ∧
    ∀ w ∈ s.mem.ue, ¬(halfBase die half ≤ 8 * w ∧ 8 * w < halfBase die half + 2 ^ 30)

theorem State.gateOn_tile (s : State) (die half u : Nat) : (s.gateOn die half).tile u = s.tile u := by
  by_cases h : s.gateOf die half = 3
  · rw [State.gateOn_of_opening h]
    exact (s.gateCleared_spec die half 0 true).1.2.2 u
  · rw [State.gateOn_of_other h]

/-- A half-layer that has opened is ON with every word zero. -/
theorem State.gateOn_zeroOn {s : State} {die half : Nat} (h : s.gateOf die half = 3) :
    (s.gateOn die half).ZeroOn die half := by
  rw [State.gateOn_of_opening h]
  obtain ⟨⟨hbyte, hue, -⟩, -⟩ := s.gateCleared_spec die half 0 true
  exact ⟨State.gateCleared_gateOf (by rw [h]; decide) 0 true, fun a ha => (hbyte a).trans (if_pos ha), hue⟩

/-- Another half-layer that opens changes nothing of one that is ON with every word zero, or that opens. -/
theorem State.gateOn_other (s : State) {die half k j : Nat} (h : 8 * k + j ≠ 8 * die + half) :
    (s.gateOn k j).gateOf die half = s.gateOf die half := by
  by_cases hopen : s.gateOf k j = 3
  · rw [State.gateOn_of_opening hopen]
    obtain ⟨-, hfused, -, hgate⟩ := s.gateCleared_spec k j 0 true
    unfold State.gateOf
    rw [hfused, hgate, tabGet_tabSet_other 0 s.mem.gate _ (Ne.symm h)]
  · rw [State.gateOn_of_other hopen]

theorem State.ZeroOn.gateOn {s : State} {die half : Nat} (h : s.ZeroOn die half) (k j : Nat) (hj : j < 8)
    (hhalf : half < 8) : (s.gateOn k j).ZeroOn die half := by
  obtain ⟨hgate, hbyte, hue⟩ := h
  by_cases hopen : s.gateOf k j = 3
  · have hother : 8 * k + j ≠ 8 * die + half := fun heq => by
      have hk : k = die := by omega
      have hjh : j = half := by omega
      rw [hk, hjh, hgate] at hopen
      exact absurd hopen (by decide)
    have hsame := s.gateOn_other hother
    rw [State.gateOn_of_opening hopen] at hsame ⊢
    obtain ⟨⟨hbyte', -⟩, -, hue', -⟩ := s.gateCleared_spec k j 0 true
    refine ⟨hsame.trans hgate, fun a ha => ?_, fun w hw => hue w (hue' w hw)⟩
    rw [hbyte' a, hbyte a ha]
    exact ite_self 0
  · rw [State.gateOn_of_other hopen]
    exact ⟨hgate, hbyte, hue⟩

/-- The half-layers that have opened in turn: one of them ends ON with every word zero. -/
theorem State.foldl_gateOn {s : State} {die half : Nat} (hhalf : half < 8) {l : List Nat}
    (h : (s.gateOf die half = 3 ∧ 8 * die + half ∈ l) ∨ s.ZeroOn die half) :
    (l.foldl (fun s k => s.gateOn (k / 8) (k % 8)) s).ZeroOn die half := by
  induction l generalizing s with
  | nil =>
    rcases h with ⟨-, hmem⟩ | h
    · exact absurd hmem List.not_mem_nil
    · exact h
  | cons k l ih =>
    refine ih ?_
    rcases h with ⟨hgate, hmem⟩ | h
    · by_cases hk : 8 * die + half = k
      · have hd : k / 8 = die := by omega
        have hh : k % 8 = half := by omega
        dsimp only
        rw [hd, hh]
        exact .inr (State.gateOn_zeroOn hgate)
      · refine .inl ⟨?_, (List.mem_cons.1 hmem).resolve_left hk⟩
        rw [State.gateOn_other _ (by omega)]
        exact hgate
    · exact .inr (h.gateOn _ _ (Nat.mod_lt _ (by decide)) hhalf)

theorem State.foldl_gateOn_tile (s : State) (l : List Nat) (u : Nat) :
    (l.foldl (fun s k => s.gateOn (k / 8) (k % 8)) s).tile u = s.tile u := by
  induction l generalizing s with
  | nil => rfl
  | cons k l ih => exact (ih _).trans (s.gateOn_tile _ _ u)

/-- At the end of recess step 2 a half-layer that has opened is ON with every word zero. -/
theorem State.gateRecess_spec {s : State} {die : BitVec 2} {half : BitVec 3} (h : s.gateOf die.toNat half.toNat = 3)
    (hopened : 8 * die.toNat + half.toNat ∈ s.mem.gateOpened) :
    s.gateRecess.ZeroOn die.toNat half.toNat ∧ ∀ u, s.gateRecess.tile u = s.tile u := by
  obtain ⟨hgate, htiles⟩ := State.foldl_gateNow_opening
    (s := { s with mem := { s.mem with gateRequests := [], gateOpened := [] } }) h s.mem.gateRequests
  unfold State.gateRecess
  refine ⟨State.foldl_gateOn half.isLt (.inl ⟨hgate, hopened⟩), fun u => ?_⟩
  rw [State.foldl_gateOn_tile, State.tile, htiles]
  rfl

end Sys2Proof.Machine
end

section
/-! PROOFS. The patrol scrub (R205, R206). -/

namespace Sys2Proof.Machine

/-! ## What the scrub's steps leave alone -/

/-- What a step of the scrub leaves: the registers and the bytes, the uncorrectable words, the states of the half-layers,
the restore map and the restores asked for, and which quantum each die reads. No word becomes correctable. -/
structure State.Scrubs (s s' : State) : Prop where
  keeps : s.keeps s'
  ue : s'.mem.ue = s.mem.ue
  quanta : s'.inQuantum = s.inQuantum
  map : s'.nv.restoreMap = s.nv.restoreMap
  restores : ∀ e ∈ s.nv.restores, e ∈ s'.nv.restores
  ce : ∀ w ∈ s'.mem.ce, w ∈ s.mem.ce
  quantum : ∀ d, (s'.dieRegs d).scrubQuantum = (s.dieRegs d).scrubQuantum

theorem State.Scrubs.refl (s : State) : s.Scrubs s := ⟨.refl s, rfl, rfl, rfl, fun _ h => h, fun _ h => h, fun _ => rfl⟩

theorem State.Scrubs.trans {s t u : State} (h : s.Scrubs t) (h' : t.Scrubs u) : s.Scrubs u :=
  ⟨h.keeps.trans h'.keeps, h'.ue.trans h.ue, h'.quanta.trans h.quanta, h'.map.trans h.map,
    fun e he => h'.restores e (h.restores e he), fun w hw => h.ce w (h'.ce w hw),
    fun d => (h'.quantum d).trans (h.quantum d)⟩

/-- A change of a die's crossbar registers that leaves its quantum. -/
theorem State.scrubs_modDie (s : State) (d : Nat) {f : DieRegs → DieRegs} (hf : ∀ r, (f r).scrubQuantum = r.scrubQuantum) :
    s.Scrubs (s.modDie d f) := by
  refine ⟨.of_bytes rfl rfl, rfl, rfl, rfl, fun _ h => h, fun _ h => h, fun k => ?_⟩
  by_cases hk : k = d
  · rw [hk, State.modDie_dieRegs_same, hf]
  · exact congrArg DieRegs.scrubQuantum (tabGet_tabMod_other DieRegs.reset s.mem.dies f hk)

theorem State.scrubs_ueHold (s : State) (k n kind : Nat) : s.Scrubs (s.ueHold k n kind) :=
  s.scrubs_modDie _ fun _ => rfl

theorem State.scrubs_ceHold (s : State) (k n : Nat) : s.Scrubs (s.ceHold k n) := by
  unfold State.ceHold
  split
  · exact .refl s
  · have hcount := s.scrubs_modDie (dieOf k) (f := fun r => { r with ceCount := r.ceCount + BitVec.ofNat 32 n })
      fun _ => rfl
    refine hcount.trans ?_
    obtain ⟨_, h⟩ := State.countEvent_eq
      (s.modDie (dieOf k) fun r => { r with ceCount := r.ceCount + BitVec.ofNat 32 n }) 1 (dieOf k) 0x0107 n
    rw [h]
    exact ⟨State.keeps_of_mem_tiles rfl rfl, rfl, rfl, rfl, fun _ h => h, fun _ h => h, fun _ => rfl⟩

theorem State.scrubs_wake (s : State) : s.Scrubs s.wake := by
  unfold State.wake
  split
  · exact ⟨State.keeps_of_mem_tiles rfl rfl, rfl, rfl, rfl, fun _ h => h, fun _ h => h, fun _ => rfl⟩
  · exact .refl s

theorem State.scrubs_askSlot (s : State) (block : Nat) : s.Scrubs (s.askSlot block) := by
  unfold State.askSlot
  split
  · exact .refl s
  · dsimp only
    split
    · exact .refl s
    · split
      · exact .refl s
      · refine State.Scrubs.trans ?_ (State.scrubs_wake _)
        exact ⟨State.keeps_of_mem_tiles rfl rfl, rfl, rfl, rfl, fun _ h => h, fun _ h => h, fun _ => rfl⟩

/-- The part with one more restore asked for. -/
def State.withRestore (s : State) (e : MapEntry) : State :=
  { s with nv := { s.nv with restores := s.nv.restores ++ [e] } }

theorem State.scrubs_withRestore (s : State) (e : MapEntry) : s.Scrubs (s.withRestore e) :=
  ⟨State.keeps_of_mem_tiles rfl rfl, rfl, rfl, rfl, fun _ h => List.mem_append_left _ h, fun _ h => h, fun _ => rfl⟩

theorem State.scrubs_askRestore (s : State) (block : Nat) : s.Scrubs (s.askRestore block) := by
  unfold State.askRestore
  split
  · exact s.scrubs_askSlot block
  · next e _ =>
    split
    · exact .refl s
    · exact (s.scrubs_withRestore e).trans (State.scrubs_wake _)

/-- The restore of the one block of the map that a word lies in is asked for. -/
theorem State.mem_restores_askRestore {s : State} {e : MapEntry} (he : e ∈ s.nv.restoreMap)
    (hone : ∀ x ∈ s.nv.restoreMap, x.block = e.block → x = e) : e ∈ (s.askRestore e.block).nv.restores := by
  have hfind : (s.nv.restoreMap.find? fun x => x.block == e.block) = some e := by
    obtain ⟨x, hx⟩ := Option.isSome_iff_exists.1 (List.find?_isSome.2
      ⟨e, he, beq_self_eq_true e.block⟩ : (s.nv.restoreMap.find? fun x => x.block == e.block).isSome = true)
    rw [hx, hone x (List.mem_of_find?_eq_some hx) (eq_of_beq (List.find?_some hx :))]
  unfold State.askRestore
  rw [hfind]
  dsimp only
  split
  · next hasked => exact List.contains_iff_mem.1 hasked
  · exact (State.scrubs_wake (s.withRestore e)).restores e (List.mem_append_right _ (List.mem_singleton.2 rfl))

theorem State.scrubs_reportScrub (s : State) (key : Nat) : s.Scrubs (s.reportScrub key) := by
  unfold State.reportScrub
  split
  · exact .refl s
  · split
    · exact ⟨State.keeps_of_mem_tiles rfl rfl, rfl, rfl, rfl, fun _ h => h, fun _ h => h, fun _ => rfl⟩
    · exact ⟨State.keeps_of_mem_tiles rfl rfl, rfl, rfl, rfl, fun _ h => h, fun _ h => h, fun _ => rfl⟩

/-! ## Uncorrectable words -/

/-- An uncorrectable word that the scrub meets. -/
def State.scrubUe (s : State) (w : Nat) : State :=
  ((s.ueHold (8 * w) 1 1).askRestore (8 * w / 65536)).reportScrub (8 * w)

theorem State.scrubs_scrubUe (s : State) (w : Nat) : s.Scrubs (s.scrubUe w) :=
  (s.scrubs_ueHold _ _ _).trans ((State.scrubs_askRestore _ _).trans (State.scrubs_reportScrub _ _))

theorem State.scrubs_foldl_scrubUe (s : State) (l : List Nat) : s.Scrubs (l.foldl State.scrubUe s) := by
  induction l generalizing s with
  | nil => exact .refl s
  | cons w l ih => exact (s.scrubs_scrubUe w).trans (ih _)

/-- The restore of each mapped block of the words is asked for. -/
theorem State.mem_restores_foldl_scrubUe {s : State} {e : MapEntry} (he : e ∈ s.nv.restoreMap)
    (hone : ∀ x ∈ s.nv.restoreMap, x.block = e.block → x = e) {l : List Nat} {w : Nat} (hw : w ∈ l)
    (hblock : 8 * w / 65536 = e.block) : e ∈ (l.foldl State.scrubUe s).nv.restores := by
  induction l generalizing s with
  | nil => exact absurd hw List.not_mem_nil
  | cons v l ih =>
    rw [List.foldl_cons]
    by_cases hwv : w = v
    · subst hwv
      have hasked := State.mem_restores_askRestore (s := s.ueHold (8 * w) 1 1) he hone
      refine (State.scrubs_foldl_scrubUe _ l).restores e ((State.scrubs_reportScrub _ _).restores e ?_)
      rw [hblock]
      exact hasked
    · have hmap := (s.scrubs_scrubUe v).map
      exact ih (by rw [hmap]; exact he) (by rw [hmap]; exact hone) ((List.mem_cons.1 hw).resolve_left hwv)

/-! ## A quantum -/

/-- What a quantum of each of some dies leaves, and what it does: the quanta's words are corrected, the restores of their
mapped blocks asked for, and the next quanta come. -/
structure State.Sweeps (s s' : State) (dies : List Nat) : Prop where
  keeps : s.keeps s'
  ue : s'.mem.ue = s.mem.ue
  quanta : s'.inQuantum = s.inQuantum
  map : s'.nv.restoreMap = s.nv.restoreMap
  restores : ∀ e ∈ s.nv.restores, e ∈ s'.nv.restores
  ce : ∀ w ∈ s'.mem.ce, w ∈ s.mem.ce
  corrected : ∀ d ∈ dies, ∀ w ∈ s'.mem.ce, s.inQuantum d (s.dieRegs d).scrubQuantum.toNat w = false
  asked : ∀ d ∈ dies, ∀ e ∈ s.nv.restoreMap, (∀ x ∈ s.nv.restoreMap, x.block = e.block → x = e) →
    (∃ w ∈ s.mem.ue, s.inQuantum d (s.dieRegs d).scrubQuantum.toNat w = true ∧ 8 * w / 65536 = e.block) →
    e ∈ s'.nv.restores
  next : ∀ d ∈ dies, (s'.dieRegs d).scrubQuantum = (s.dieRegs d).scrubQuantum + 1
  others : ∀ d, d ∉ dies → (s'.dieRegs d).scrubQuantum = (s.dieRegs d).scrubQuantum

/-- The words of a die's quantum corrected, and counted. -/
def State.scrubCe (s : State) (die : Nat) : State :=
  let ce := s.mem.ce.filter fun w => s.inQuantum die (s.dieRegs die).scrubQuantum.toNat w
  State.ceHold { s with mem := { s.mem with ce := s.mem.ce.filter fun w => !ce.contains w } } (die * 2 ^ 35) ce.length

theorem State.scrubCe_spec (s : State) (die : Nat) : s.Scrubs (s.scrubCe die) ∧
    ∀ w ∈ (s.scrubCe die).mem.ce, s.inQuantum die (s.dieRegs die).scrubQuantum.toNat w = false := by
  unfold State.scrubCe
  dsimp only
  have hhold := State.scrubs_ceHold { s with mem := { s.mem with ce := s.mem.ce.filter fun w =>
    !(s.mem.ce.filter fun w => s.inQuantum die (s.dieRegs die).scrubQuantum.toNat w).contains w } } (die * 2 ^ 35)
    (s.mem.ce.filter fun w => s.inQuantum die (s.dieRegs die).scrubQuantum.toNat w).length
  refine ⟨State.Scrubs.trans ?_ hhold, fun w hw => ?_⟩
  · exact ⟨.of_bytes rfl rfl, rfl, rfl, rfl, fun _ h => h, fun w hw => (List.mem_filter.1 hw).1, fun _ => rfl⟩
  · obtain ⟨hmem, hout⟩ := List.mem_filter.1 (hhold.ce w hw)
    by_contra hin
    have hword := List.mem_filter.2 ⟨hmem, Bool.not_eq_false _ ▸ hin⟩
    rw [List.contains_iff_mem.2 hword] at hout
    exact absurd hout (by decide)

/-- A quantum of a die: its correctable words, its uncorrectable ones, and its registers for the next. -/
theorem State.scrubDie_eq (s : State) (die : Nat) : ∃ f : DieRegs → DieRegs,
    (∀ r, (f r).scrubQuantum = r.scrubQuantum + 1) ∧
    s.scrubDie die = State.modDie (List.foldl State.scrubUe (s.scrubCe die)
      (s.mem.ue.filter fun w => s.inQuantum die (s.dieRegs die).scrubQuantum.toNat w)) die f :=
  ⟨fun r => { r with
      scrubQuantum := r.scrubQuantum + 1
      scrubPasses := if (s.dieRegs die).scrubQuantum.toNat = 63 && r.scrubPasses != 0xFFFF then r.scrubPasses + 1
        else r.scrubPasses }, fun _ => rfl, rfl⟩

theorem State.sweeps_scrubDie (s : State) (die : Nat) : s.Sweeps (s.scrubDie die) [die] := by
  obtain ⟨f, hf, heq⟩ := s.scrubDie_eq die
  obtain ⟨hscrubs, hcorrected⟩ := s.scrubCe_spec die
  have hue := State.scrubs_foldl_scrubUe (s.scrubCe die)
    (s.mem.ue.filter fun w => s.inQuantum die (s.dieRegs die).scrubQuantum.toNat w)
  have hall := hscrubs.trans hue
  rw [heq]
  refine ⟨hall.keeps.trans (.of_bytes rfl rfl), hall.ue, hall.quanta, hall.map, hall.restores, hall.ce, ?_, ?_, ?_, ?_⟩
  · intro d hd w hw
    rw [List.mem_singleton.1 hd]
    exact hcorrected w (hue.ce w hw)
  · rintro d hd e he hone ⟨w, hw, hin, hblock⟩
    rw [List.mem_singleton.1 hd] at hin
    exact State.mem_restores_foldl_scrubUe (by rw [hscrubs.map]; exact he) (by rw [hscrubs.map]; exact hone)
      (List.mem_filter.2 ⟨hw, hin⟩) hblock
  · intro d hd
    rw [List.mem_singleton.1 hd, State.modDie_dieRegs_same, hf, hall.quantum]
  · intro d hd
    exact (congrArg DieRegs.scrubQuantum (tabGet_tabMod_other DieRegs.reset _ f (mt List.mem_singleton.2 hd))).trans
      (hall.quantum d)

theorem State.Sweeps.trans {s t u : State} {l m : List Nat} (h : s.Sweeps t l) (h' : t.Sweeps u m)
    (hlm : ∀ d ∈ m, d ∉ l) : s.Sweeps u (l ++ m) := by
  refine ⟨h.keeps.trans h'.keeps, h'.ue.trans h.ue, h'.quanta.trans h.quanta, h'.map.trans h.map,
    fun e he => h'.restores e (h.restores e he), fun w hw => h.ce w (h'.ce w hw), ?_, ?_, ?_, ?_⟩
  · intro d hd w hw
    rcases List.mem_append.1 hd with hl | hm
    · exact h.corrected d hl w (h'.ce w hw)
    · have hthere := h'.corrected d hm w hw
      rw [h.quanta, h.others d (hlm d hm)] at hthere
      exact hthere
  · intro d hd e he hone hword
    rcases List.mem_append.1 hd with hl | hm
    · exact h'.restores e (h.asked d hl e he hone hword)
    · have hthere := h'.asked d hm e
      rw [h.map, h.ue, h.quanta, h.others d (hlm d hm)] at hthere
      exact hthere he hone hword
  · intro d hd
    by_cases hm : d ∈ m
    · rw [h'.next d hm, h.others d (hlm d hm)]
    · rw [h'.others d hm, h.next d ((List.mem_append.1 hd).resolve_right hm)]
  · intro d hd
    obtain ⟨hl, hm⟩ := not_or.1 (mt List.mem_append.2 hd)
    exact (h'.others d hm).trans (h.others d hl)

theorem State.sweeps_scrub (s : State) : s.Sweeps s.scrub [0, 1, 2, 3] :=
  (((s.sweeps_scrubDie 0).trans (State.sweeps_scrubDie _ 1) (by decide)).trans (State.sweeps_scrubDie _ 2)
    (by decide)).trans (State.sweeps_scrubDie _ 3) (by decide)

/-! ## The commands -/

theorem State.execHalfLayerClosed_closing {s : State} {die : BitVec 2} {half : BitVec 3}
    (hgate : s.gateOf die.toNat half.toNat = 1) (hopen : s.writesOpen die.toNat half.toNat = false) :
    exec (.halfLayerClosed die half) s = .next (s.gateCleared die.toNat half.toNat 2 false) :=
  congrArg Host.Outcome.next (if_pos (by rw [hgate, hopen]; decide))

theorem State.execHalfLayerClosed_other {s : State} {die : BitVec 2} {half : BitVec 3}
    (h : s.gateOf die.toNat half.toNat ≠ 1 ∨ s.writesOpen die.toNat half.toNat = true) :
    exec (.halfLayerClosed die half) s = .next s := by
  refine congrArg Host.Outcome.next (if_neg fun hboth => ?_)
  obtain ⟨hgate, hopen⟩ := Bool.and_eq_true_iff.1 hboth
  rcases h with h | h
  · exact h (eq_of_beq hgate)
  · rw [h] at hopen
    exact absurd hopen (by decide)

theorem State.execHalfLayerOpened_now {s : State} {die : BitVec 2} {half : BitVec 3}
    (h : s.gateOf die.toNat half.toNat ≠ 3 ∨ s.inSession = false) :
    exec (.halfLayerOpened die half) s = .next (s.gateOn die.toNat half.toNat) := by
  refine congrArg Host.Outcome.next (if_neg fun hboth => ?_)
  obtain ⟨hgate, hjob⟩ := Bool.and_eq_true_iff.1 hboth
  rcases h with h | h
  · exact h (eq_of_beq hgate)
  · rw [h] at hjob
    exact absurd hjob (by decide)

/-- With a job in session an open half-layer is remembered, and waits for the next recess. -/
theorem State.execHalfLayerOpened_inSession {s : State} {die : BitVec 2} {half : BitVec 3}
    (hgate : s.gateOf die.toNat half.toNat = 3) (hjob : s.inSession = true) :
    ∃ s', exec (.halfLayerOpened die half) s = .next s' ∧ s.keeps s' ∧ s'.mem.gate = s.mem.gate ∧
      8 * die.toNat + half.toNat ∈ s'.mem.gateOpened ∧ s'.mem.gateRequests = s.mem.gateRequests := by
  refine ⟨_, congrArg Host.Outcome.next (if_pos (by rw [hgate, hjob]; decide)), ?_⟩
  dsimp only
  split
  · next hin => exact ⟨.refl s, rfl, List.contains_iff_mem.1 hin, rfl⟩
  · exact ⟨.of_bytes rfl rfl, rfl, List.mem_append_right _ (List.mem_singleton.2 rfl), rfl⟩

theorem State.execScrubIdleTick_idle {s : State} (hjob : s.inSession = false) (hfirmware : s.pw.firmware = true)
    (hdomain : s.pw.domainA = true) : exec .scrubIdleTick s = .next s.scrub :=
  congrArg Host.Outcome.next (if_pos (by rw [hjob, hfirmware, hdomain]; decide))

theorem State.execScrubIdleTick_other {s : State}
    (h : s.inSession = true ∨ s.pw.firmware = false ∨ s.pw.domainA = false) : exec .scrubIdleTick s = .next s := by
  refine congrArg Host.Outcome.next (if_neg fun hboth => ?_)
  obtain ⟨hrest, hdomain⟩ := Bool.and_eq_true_iff.1 hboth
  obtain ⟨hjob, hfirmware⟩ := Bool.and_eq_true_iff.1 hrest
  rcases h with h | h | h
  · rw [h] at hjob
    exact absurd hjob (by decide)
  · rw [h] at hfirmware
    exact absurd hfirmware (by decide)
  · rw [h] at hdomain
    exact absurd hdomain (by decide)

/-- Settles O37: a half-layer is emptied where it closes and where it opens, which in a session is the end of the next
recess's step 2; the scrub's quanta of the four dies follow each other, and none touches what another reads. -/
theorem halfLayersAndScrub : Obligations.HalfLayersAndScrub := by
  unfold Obligations.HalfLayersAndScrub
  intro s die half d
  refine ⟨fun hgate hopen => ?_, State.execHalfLayerClosed_other, fun hgate hjob => ?_,
    State.execHalfLayerOpened_inSession, fun hgate _ hopened => ?_, fun hgate => ?_, fun hjob hfirmware hdomain => ?_,
    State.execScrubIdleTick_other⟩
  · exact ⟨_, State.execHalfLayerClosed_closing hgate hopen, (s.gateCleared_spec _ _ 2 false).1,
      State.gateCleared_gateOf (by rw [hgate]; decide) 2 false⟩
  · refine ⟨_, State.execHalfLayerOpened_now (.inr hjob), ?_, (State.gateOn_zeroOn hgate).1⟩
    rw [State.gateOn_of_opening hgate]
    exact (s.gateCleared_spec _ _ 0 true).1
  · obtain ⟨⟨hon, hbyte, hue⟩, htile⟩ := State.gateRecess_spec hgate hopened
    exact ⟨hon, hbyte, hue, htile⟩
  · rw [State.execHalfLayerOpened_now (.inl hgate), State.gateOn_of_other hgate]
  · have hsweeps := s.sweeps_scrub
    refine ⟨_, State.execScrubIdleTick_idle hjob hfirmware hdomain, hsweeps.keeps, hsweeps.ue, fun hd => ?_⟩
    have hmem : d ∈ [0, 1, 2, 3] := by
      simp only [List.mem_cons, List.not_mem_nil, or_false]
      omega
    exact ⟨hsweeps.next d hmem, hsweeps.corrected d hmem, hsweeps.asked d hmem⟩

end Sys2Proof.Machine
end

section
/-! PROOFS. The bytes of what the part reports of itself (R402, R411, R416, R458 to R460, Table 19-4). -/

namespace Sys2Proof.Machine

/-! ## Fields of a byte list -/

@[simp] theorem length_natToBytes (n x : Nat) : (natToBytes n x).length = n := by
  induction n generalizing x with
  | zero => rfl
  | succ n ih => exact congrArg Nat.succ (ih _)

theorem natOfBytes_natToBytes (n x : Nat) : natOfBytes (natToBytes n x) = x % 256 ^ n := by
  induction n generalizing x with
  | zero => exact (Nat.mod_one x).symm
  | succ n ih =>
    rw [natToBytes, natOfBytes, ih, Nat.pow_succ', Nat.mod_mul, BitVec.toNat_ofNat]

theorem natOfBytes_toBytes {w : Nat} (n : Nat) (x : BitVec w) : natOfBytes (toBytes n x) = x.toNat % 256 ^ n := by
  induction n generalizing x with
  | zero => exact (Nat.mod_one x.toNat).symm
  | succ n ih =>
    rw [toBytes, natOfBytes, ih, Nat.pow_succ', Nat.mod_mul, BitVec.extractLsb'_toNat, BitVec.toNat_ushiftRight,
      Nat.shiftRight_zero, Nat.shiftRight_eq_div_pow]

theorem toBytes_byte (x : Byte) : toBytes 1 x = [x] := by
  rw [toBytes, toBytes, BitVec.extractLsb'_eq_self]

theorem take_drop_of_append {l p q r : List Byte} {off n : Nat} (h : l = p ++ (q ++ r)) (hp : p.length = off)
    (hq : q.length = n) : (l.drop off).take n = q := by
  subst hp hq h
  rw [List.drop_left, List.take_left]

/-- A field of a list is the number whose bytes stand there. -/
theorem natAt_of_bytes {l : List Byte} {off n x : Nat} (h : (l.drop off).take n = natToBytes n x) :
    natAt l off n = x % 256 ^ n := by
  rw [natAt, h, natOfBytes_natToBytes]

/-- A field of a list is the word whose bytes stand there. -/
theorem fieldAt_of_bytes {w : Nat} {l : List Byte} {off : Nat} {x : BitVec w} (hw : 8 * (w / 8) = w)
    (h : (l.drop off).take (w / 8) = toBytes (w / 8) x) : fieldAt w l off = x := by
  rw [fieldAt, natAt, h, natOfBytes_toBytes, show 256 = 2 ^ 8 from rfl, ← Nat.pow_mul, hw, Nat.mod_eq_of_lt x.isLt,
    BitVec.ofNat_toNat, BitVec.setWidth_eq]

@[simp] theorem length_bytesAt (l : List Byte) (off n : Nat) : (bytesAt l off n).length = n := by
  rw [bytesAt, List.length_append, List.length_replicate, List.length_take]
  omega

/-- The bytes that stand at an offset of a list. -/
theorem bytesAt_of_append {l p q r : List Byte} {off n : Nat} (h : l = p ++ (q ++ r)) (hp : p.length = off)
    (hq : q.length = n) : bytesAt l off n = q := by
  rw [bytesAt, take_drop_of_append h hp hq, hq, Nat.sub_self, List.replicate_zero, List.append_nil]

theorem bytesAt_self (l : List Byte) : bytesAt l 0 l.length = l :=
  bytesAt_of_append (p := []) (r := []) (List.append_nil l).symm rfl rfl

/-! ## IDENTIFY and CAPS -/

theorem State.identifyBody_fields (s : State) : natAt s.identifyBody 0 2 = 0x9400 ∧
    fieldAt 64 s.identifyBody 4 = s.fused.serial ∧ fieldAt 16 s.identifyBody 16 = s.rc.address ∧
    fieldAt 8 s.identifyBody 22 = jobCode s.job.state := by
  have hpart : (s.identifyBody.drop 0).take 2 = natToBytes 2 0x9400 := rfl
  have hserial : (s.identifyBody.drop 4).take 8 = toBytes 8 s.fused.serial := rfl
  have haddress : (s.identifyBody.drop 16).take 2 = toBytes 2 s.rc.address := rfl
  have hjob : (s.identifyBody.drop 22).take 1 = [jobCode s.job.state] := rfl
  exact ⟨natAt_of_bytes hpart, fieldAt_of_bytes rfl hserial, fieldAt_of_bytes rfl haddress,
    fieldAt_of_bytes rfl (hjob.trans (toBytes_byte _).symm)⟩

/-- The head of the capability table, from its length on. -/
theorem State.capsHead_eq (s : State) : ∃ l, s.capsHead = [1, 0] ++ (natToBytes 2 512 ++ l) := by
  unfold State.capsHead
  simp only [List.append_assoc]
  exact ⟨_, rfl⟩

theorem State.length_capsHead (s : State) : s.capsHead.length = 80 := by
  unfold State.capsHead
  simp only [List.length_append, length_natToBytes]
  simp only [List.length_cons, List.length_nil]

theorem State.capsTable_fields (s : State) : s.capsTable.length = 512 ∧ natAt s.capsTable 2 2 = 512 ∧
    bytesAt s.capsTable 128 128 = toBytes 128 s.usableMap := by
  refine ⟨?_, ?_, ?_⟩
  · simp only [State.capsTable, List.length_append, State.length_capsHead, List.length_replicate, length_toBytes]
  · obtain ⟨l, h⟩ := s.capsHead_eq
    have hlength := take_drop_of_append (l := s.capsTable) (p := [1, 0]) (q := natToBytes 2 512)
      (r := l ++ (List.replicate 48 0 ++ (toBytes 128 s.usableMap ++ List.replicate 256 0)))
      (by rw [State.capsTable, h]; simp only [List.append_assoc]) rfl rfl
    exact natAt_of_bytes hlength
  · refine bytesAt_of_append (List.append_assoc _ _ _) ?_ (length_toBytes _ _)
    rw [List.length_append, State.length_capsHead, List.length_replicate]

/-! ## Reports of ATTEST -/

theorem length_reportBody (serial : BitVec 64) (stepping : Byte) (x : Snapshot) (nonce : List Byte) (tenant : BitVec 16)
    (total total' : Nat) : (reportBody serial stepping x nonce tenant total).length =
      (reportBody serial stepping x nonce tenant total').length := by
  simp only [reportBody, List.length_append, length_natToBytes]

/-- What stands in the bytes before the nonce, and the nonce. -/
theorem reportBody_fields (serial : BitVec 64) (stepping : Byte) (x : Snapshot) {nonce : List Byte}
    (hnonce : nonce.length = 64) (tenant : BitVec 16) (total : Nat) :
    ((reportBody serial stepping x nonce tenant total).drop 4).take 4 = natToBytes 4 total ∧
      ((reportBody serial stepping x nonce tenant total).drop 8).take 8 = toBytes 8 serial ∧
      ∃ tail, (reportBody serial stepping x nonce tenant total).drop 64 = nonce ++ tail := by
  have hself : bytesAt nonce 0 64 = nonce := hnonce ▸ bytesAt_self nonce
  unfold reportBody
  rw [hself]
  simp (disch := simp) only [List.append_assoc, List.drop_append, List.drop_of_length_le, List.nil_append,
    List.take_append_of_le_length, List.take_of_length_le, List.length_cons, List.length_nil, List.length_replicate,
    length_natToBytes, length_toBytes, List.drop_zero, Nat.reduceSub, Nat.reduceAdd, true_and]
  exact ⟨_, rfl⟩

/-- A report holds its length, the part's serial number and the nonce. -/
theorem State.attestReport_fields (s : State) {nonce : List Byte} (hnonce : nonce.length = 64) (tenant : BitVec 16) :
    bytesAt (s.attestReport nonce tenant) 64 64 = nonce ∧
      fieldAt 64 (s.attestReport nonce tenant) 8 = s.fused.serial ∧
      natAt (s.attestReport nonce tenant) 4 4 = (s.attestReport nonce tenant).length % 2 ^ 32 := by
  unfold State.attestReport
  dsimp only
  generalize htotal : (reportBody s.fused.serial (steppingByte s.fused.stepping) s.attested nonce tenant 0).length +
    sigBytes + s.certificates.length = total
  have hlength := length_reportBody s.fused.serial (steppingByte s.fused.stepping) s.attested nonce tenant total 0
  obtain ⟨hlen, hserial, tail, htail⟩ := reportBody_fields s.fused.serial (steppingByte s.fused.stepping)
    s.attested hnonce tenant total
  generalize reportBody s.fused.serial (steppingByte s.fused.stepping) s.attested nonce tenant total = body at *
  have hlong : 64 ≤ body.length := by
    have hdrop := congrArg List.length htail
    rw [List.length_drop, List.length_append, hnonce] at hdrop
    omega
  have hhas : ∀ off n, off + n ≤ 64 → ((body ++ bytesAt (Config.mlDsaSign s.aliasSeed (hash body)) 0 sigBytes ++
      s.certificates).drop off).take n = (body.drop off).take n := by
    intro off n hoff
    rw [List.append_assoc, List.drop_append_of_le_length (by omega),
      List.take_append_of_le_length (by rw [List.length_drop]; omega)]
  refine ⟨?_, fieldAt_of_bytes rfl ((hhas 8 8 (by decide)).trans hserial), ?_⟩
  · refine bytesAt_of_append (p := body.take 64) (q := nonce) (r := tail ++ (bytesAt (Config.mlDsaSign s.aliasSeed
      (hash body)) 0 sigBytes ++ s.certificates)) ?_ (List.length_take_of_le hlong) hnonce
    rw [← List.append_assoc nonce, ← htail, ← List.append_assoc (body.take 64), List.take_append_drop, List.append_assoc]
  · rw [natAt_of_bytes ((hhas 4 4 (by decide)).trans hlen), List.length_append, List.length_append, length_bytesAt,
      hlength, htotal]
    rfl

end Sys2Proof.Machine
end

section
/-! PROOFS. The commands that report on the part, and those of power, half-layers, counters and debug (R207, R208, R402,
R411, R414 to R416, R441 to R444, R449, R451, R458 to R460, R480, R484). -/

namespace Sys2Proof.Machine

/-! ## A command that its turn starts -/

/-- Only the transport's mailbox tells the state of a started command from the one before. -/
theorem State.accepts_eq {s s1 : State} {k op : Nat} {b : List Byte} {w : Waiting} (h : s.accepts k op b w s1) :
    ∃ x : Mailbox, s1 = s.setMbox k x ∧ w.transport = BitVec.ofNat 7 k ∧ x.life = w.life ∧
      x.responses = (s.mbox k).responses ∧ x.report = (s.mbox k).report ∧ s.sec.trial = false := by
  obtain ⟨r, t, _, _, _, _, _, _, _, _, _, htrial, rfl, rfl⟩ := h
  exact ⟨_, rfl, rfl, rfl, rfl, rfl, htrial⟩

theorem grants_everyone {k : Nat} (h : k ≤ 64) : everyone.grants k = true := by
  simp only [Issuers.grants, everyone, Bool.and_true, Bool.or_eq_true, decide_eq_true_eq]
  omega

theorem grants_pfOrI3c {k : Nat} (h : k = 0 ∨ k = 64) : pfOrI3c.grants k = true := by
  rcases h with rfl | rfl <;> rfl

section
variable {s s1 : State} {tr : BitVec 7} {b : List Byte} {w : Waiting}

theorem exec_identify_of_accepts (h : s.accepts tr.toNat 0x02 b w s1) (hk : tr.toNat ≤ 64) :
    exec (.identify tr) s = .next (s1.answer w 0 s1.identifyBody) :=
  congrArg Host.Outcome.next (State.command_of_accepts (kind := ⟨0x02, everyone, 0, false⟩) h (by decide)
    (grants_everyone hk) (Nat.zero_le _) rfl _)

theorem exec_caps_of_accepts (h : s.accepts tr.toNat 0x03 b w s1) (hk : tr.toNat ≤ 64) :
    exec (.caps tr) s = .next (s1.answer w 0 s1.capsTable) :=
  congrArg Host.Outcome.next (State.command_of_accepts (kind := ⟨0x03, everyone, 0, false⟩) h (by decide)
    (grants_everyone hk) (Nat.zero_le _) rfl _)

theorem exec_updateStatus_of_accepts (h : s.accepts tr.toNat 0x71 b w s1) (hk : tr.toNat = 0 ∨ tr.toNat = 64) :
    exec (.updateStatus tr) s = .next (s1.updateBody.2.answer w 0 s1.updateBody.1) :=
  congrArg Host.Outcome.next (State.command_of_accepts (kind := ⟨0x71, pfOrI3c, 0, false⟩) h (by decide)
    (grants_pfOrI3c hk) (Nat.zero_le _) rfl _)

theorem exec_attest_of_accepts (h : s.accepts 0 0x70 b w s1) (hlen : 72 ≤ b.length) :
    exec (.attest 0) s = .next (s1.attest 0 w b) :=
  congrArg Host.Outcome.next (State.command_of_accepts (tr := 0) (kind := ⟨0x70, everyone, 72, false⟩) h (by decide)
    rfl hlen rfl _)

theorem exec_powerLimit_of_accepts (h : s.accepts tr.toNat 0x31 b w s1) (hk : tr.toNat = 0 ∨ tr.toNat = 64)
    (hlen : 1 ≤ b.length) : exec (.powerLimit tr) s = .next (s1.powerLimit w b) :=
  congrArg Host.Outcome.next (State.command_of_accepts (kind := ⟨0x31, pfOrI3c, 1, false⟩) h (by decide)
    (grants_pfOrI3c hk) hlen rfl _)

theorem exec_bankPower_of_accepts (h : s.accepts 0 0x32 b w s1) (hlen : 3 ≤ b.length) :
    exec (.bankPower 0) s = .next (s1.bankPower w b) :=
  congrArg Host.Outcome.next (State.command_of_accepts (tr := 0) (kind := ⟨0x32, onlyPf, 3, false⟩) h (by decide)
    rfl hlen rfl _)

theorem exec_countersEnable_of_accepts (h : s.accepts 0 0x50 b w s1) (hlen : 148 ≤ b.length) :
    exec (.countersEnable 0) s = .next (s1.countersEnable w b) :=
  congrArg Host.Outcome.next (State.command_of_accepts (tr := 0) (kind := ⟨0x50, ⟨true, false⟩, 148, false⟩) h
    (by decide) rfl hlen rfl _)

theorem exec_countersRead_of_accepts (h : s.accepts 0 0x51 b w s1) (hlen : 4 ≤ b.length) :
    exec (.countersRead 0) s = .next (s1.countersRead 0 w b) :=
  congrArg Host.Outcome.next (State.command_of_accepts (tr := 0) (kind := ⟨0x51, everyone, 4, false⟩) h (by decide)
    rfl hlen rfl _)

theorem exec_debugProbe_of_accepts (h : s.accepts 0 0x61 b w s1) (hlen : 32 ≤ b.length) :
    exec (.debugProbe 0) s = .next (s1.debugProbe w b) :=
  congrArg Host.Outcome.next (State.command_of_accepts (tr := 0) (kind := ⟨0x61, onlyPf, 32, false⟩) h (by decide)
    rfl hlen rfl _)

theorem exec_debugBreak_of_accepts (h : s.accepts 0 0x62 b w s1) (hlen : 16 ≤ b.length) :
    exec (.debugBreak 0) s = .next (s1.debugBreak w b) :=
  congrArg Host.Outcome.next (State.command_of_accepts (tr := 0) (kind := ⟨0x62, onlyPf, 16, false⟩) h (by decide)
    rfl hlen rfl _)

end

/-! ## UPDATE_STATUS and ATTEST -/

/-- UPDATE_STATUS outside a trial (log 83). -/
theorem State.updateBody_of_settled {s : State} (h : s.sec.trial = false) : s.updateBody =
    ([s.sec.running.setWidth 8, 0, 0, 0] ++ toBytes 4 s.sec.slotA.version ++ toBytes 4 s.sec.slotB.version ++
      [slotCode s.sec.slotA.state, slotCode s.sec.slotB.state] ++ natToBytes 1 (if s.sec.slotA.state = .trial then
        s.sec.slotA.failedTrials else if s.sec.slotB.state = .trial then s.sec.slotB.failedTrials else 0) ++ [0] ++
      toBytes 8 s.sec.antiRollback, { s with free := s.free + 1 }) := by
  unfold State.updateBody State.draw
  simp only [h, toBytes_byte, beq_iff_eq, Bool.false_eq_true, if_false, List.append_assoc, List.cons_append,
    List.nil_append]

section
variable {s : State} {b : List Byte} (w : Waiting)

theorem State.attest_first (h : natAt b 68 4 = 0) (k : Nat) : s.attest k w b =
    (s.setMbox k { s.mbox k with report := some (bytesAt b 0 64, fieldAt 16 b 64,
      s.attestReport (bytesAt b 0 64) (fieldAt 16 b 64)) }).answer w 0
    (natToBytes 4 (s.attestReport (bytesAt b 0 64) (fieldAt 16 b 64)).length ++ natToBytes 4 0 ++
      (s.attestReport (bytesAt b 0 64) (fieldAt 16 b 64)).take 3800) := by
  unfold State.attest
  dsimp only
  rw [if_pos h, h, List.drop_zero]
  rfl

theorem State.attest_next {k : Nat} {r : List Byte} (h : natAt b 68 4 ≠ 0)
    (hreport : (s.mbox k).report = some (bytesAt b 0 64, fieldAt 16 b 64, r)) : s.attest k w b =
    s.answer w 0 (natToBytes 4 r.length ++ natToBytes 4 (natAt b 68 4) ++ (r.drop (natAt b 68 4)).take 3800) := by
  unfold State.attest
  dsimp only
  rw [if_neg h, hreport]
  dsimp only
  rw [beq_self_eq_true, beq_self_eq_true]
  rfl

theorem State.attest_missing {k : Nat} (h : natAt b 68 4 ≠ 0) (hreport : (s.mbox k).report = none) :
    s.attest k w b = s.answer w 8 [] := by
  unfold State.attest
  dsimp only
  rw [if_neg h, hreport]

end

/-! ## POWER_STEP and POWER_LIMIT -/

theorem State.settleStep_of_idle {s : State} (h : s.inSession = false) :
    s.settleStep = { s with pw := { s.pw with step := s.stepWanted none } } :=
  if_neg (by rw [h]; exact Bool.false_ne_true)

theorem State.holdStep_of_one {s : State} {w : Waiting} (h : s.pw.stepWaits = [w]) : s.holdStep =
    State.answer { s with pw := { s.pw with stepWaits := [] } } w 0 [s.pw.step.setWidth 8] := by
  unfold State.holdStep
  dsimp only
  rw [h, toBytes_byte]
  rfl

/-- A limit holds, and no command waits for it. -/
def State.heldLimit (s : State) (l : BitVec 2) : State :=
  { s with pw := { s.pw with limit := l, nextLimit := none, limitWaits := [] } }

theorem State.holdLimit_of_one {s : State} {w : Waiting} {l : BitVec 2} (h : s.pw.nextLimit = some l)
    (hwaits : s.pw.limitWaits = [w]) : s.holdLimit =
    (s.heldLimit l).answer w 0 [l.setWidth 8] := by
  unfold State.holdLimit
  rw [h]
  dsimp only
  rw [hwaits, toBytes_byte]
  rfl

/-- The response joins those of the mailbox that the command came by. -/
theorem State.answer_responses {s : State} {w : Waiting} (h : (s.mbox w.transport.toNat).life = w.life)
    (st : BitVec 16) (body : List Byte) : ∃ r : MailResponse,
      ((s.answer w st body).mbox w.transport.toNat).responses = (s.mbox w.transport.toNat).responses ++ [r] ∧
        r.status = st ∧ r.body = body := by
  unfold State.answer
  dsimp only
  rw [if_pos h, State.setMbox_mbox_same]
  exact ⟨_, rfl, rfl, rfl⟩

/-- A step is asked for, and its command waits. -/
def State.askStep (s : State) (w : Waiting) (n : Nat) : State :=
  { s with pw := { s.pw with requested := BitVec.ofNat 3 n, stepWaits := s.pw.stepWaits ++ [w] } }

/-- A limit is asked for, and its command waits. -/
def State.askLimit (s : State) (w : Waiting) (n : Nat) : State :=
  { s with pw := { s.pw with nextLimit := some (BitVec.ofNat 2 n), limitWaits := s.pw.limitWaits ++ [w] } }

section
variable {s : State} {b : List Byte} {w : Waiting}

theorem State.powerStep_of_inSession (hgrade : natAt b 0 1 ≤ s.gradeStep) (hjob : s.inSession = true)
    (hmember : s.isMember = true) : s.powerStep w b = s.askStep w (natAt b 0 1) :=
  (if_neg (Nat.not_lt.2 hgrade)).trans (if_pos (Bool.and_eq_true_iff.2 ⟨hjob, hmember⟩))

/-- Outside a session the step is settled at once, and answered. -/
theorem State.powerStep_of_idle (hgrade : natAt b 0 1 ≤ s.gradeStep) (hjob : s.inSession = false)
    (hwaits : s.pw.stepWaits = []) : ∃ s2, s.powerStep w b = s2.answer w 0 [s2.pw.step.setWidth 8] ∧
      s2.pw.requested = BitVec.ofNat 3 (natAt b 0 1) ∧ s2.pw.step = s2.stepWanted none ∧ s.keeps s2 := by
  have hrun : s.powerStep w b = (s.askStep w (natAt b 0 1)).settleStep.holdStep :=
    (if_neg (Nat.not_lt.2 hgrade)).trans (if_neg fun h => by
      rw [show s.inSession = true from (Bool.and_eq_true_iff.1 h).1] at hjob
      exact Bool.noConfusion hjob)
  have hsettled := State.settleStep_of_idle (s := s.askStep w (natAt b 0 1)) hjob
  have hone : (s.askStep w (natAt b 0 1)).settleStep.pw.stepWaits = [w] := by
    rw [hsettled, State.askStep, hwaits]
    rfl
  rw [hrun, State.holdStep_of_one hone, hsettled]
  exact ⟨_, rfl, rfl, rfl, State.keeps_of_mem_tiles rfl rfl⟩

theorem State.powerLimit_of_range (h : 3 < natAt b 0 1) : s.powerLimit w b = s.answer w 0x0B [] := if_pos h

theorem State.powerLimit_of_inSession (h : natAt b 0 1 ≤ 3) (hjob : s.inSession = true) (hmember : s.isMember = true)
    (hlower : natAt b 0 1 < s.pw.limit.toNat) : s.powerLimit w b = s.askLimit w (natAt b 0 1) :=
  (if_neg (Nat.not_lt.2 h)).trans (if_pos (Bool.and_eq_true_iff.2
    ⟨Bool.and_eq_true_iff.2 ⟨hjob, hmember⟩, decide_eq_true hlower⟩))

/-- Outside a session the limit holds at once, the step is settled, and the command is answered. -/
theorem State.powerLimit_of_idle (h : natAt b 0 1 ≤ 3) (hjob : s.inSession = false) (hwaits : s.pw.limitWaits = [])
    (hlife : (s.mbox w.transport.toNat).life = w.life) :
    s.keeps (s.powerLimit w b) ∧ (s.powerLimit w b).pw.limit = BitVec.ofNat 2 (natAt b 0 1) ∧
      (s.powerLimit w b).pw.step = (s.powerLimit w b).stepWanted none ∧ (s.powerLimit w b).pw.nextLimit = none ∧
      ∃ r : MailResponse, ((s.powerLimit w b).mbox w.transport.toNat).responses =
        (s.mbox w.transport.toNat).responses ++ [r] ∧ r.status = 0 ∧ r.body = [BitVec.ofNat 8 (natAt b 0 1)] := by
  have hrun : s.powerLimit w b = (s.askLimit w (natAt b 0 1)).holdLimit.settleStep :=
    (if_neg (Nat.not_lt.2 h)).trans (if_neg fun hall => by
      rw [show s.inSession = true from (Bool.and_eq_true_iff.1 (Bool.and_eq_true_iff.1 hall).1).1] at hjob
      exact Bool.noConfusion hjob)
  have hbody : (BitVec.ofNat 2 (natAt b 0 1)).setWidth 8 = BitVec.ofNat 8 (natAt b 0 1) := by
    apply BitVec.eq_of_toNat_eq
    rw [BitVec.toNat_setWidth, BitVec.toNat_ofNat, BitVec.toNat_ofNat, Nat.mod_eq_of_lt (by omega : natAt b 0 1 < 2 ^ 2)]
  have hone : (s.askLimit w (natAt b 0 1)).pw.limitWaits = [w] := by rw [State.askLimit, hwaits]; rfl
  have hheld : (s.askLimit w (natAt b 0 1)).holdLimit =
      (s.heldLimit (BitVec.ofNat 2 (natAt b 0 1))).answer w 0 [BitVec.ofNat 8 (natAt b 0 1)] := by
    rw [State.holdLimit_of_one rfl hone, hbody]
    rfl
  obtain ⟨r, hr, hstatus, hbody⟩ := State.answer_responses (s := s.heldLimit (BitVec.ofNat 2 (natAt b 0 1))) hlife 0
    [BitVec.ofNat 8 (natAt b 0 1)]
  obtain ⟨mb, hanswer⟩ := (s.heldLimit (BitVec.ofNat 2 (natAt b 0 1))).answer_eq w 0 [BitVec.ofNat 8 (natAt b 0 1)]
  rw [hanswer] at hheld hr
  rw [hrun, hheld, State.settleStep_of_idle (s := { s.heldLimit (BitVec.ofNat 2 (natAt b 0 1)) with mb := mb }) hjob]
  exact ⟨State.keeps_of_mem_tiles rfl rfl, rfl, rfl, rfl, r, hr, hstatus, hbody⟩

end

end Sys2Proof.Machine
end

section
/-! PROOFS. BANK_POWER, the counters and the debug commands (R207, R208, R441 to R444, R449, R451). -/

namespace Sys2Proof.Machine

/-! ## BANK_POWER -/

theorem State.gateOf_setGate {s : State} {die half : Nat} (hin : half < 2 * layersOf s.fused.variant) (x : BitVec 2) :
    (s.setGate die half x).gateOf die half = x :=
  (if_neg (Nat.not_le.2 hin)).trans (tabGet_tabSet_same 0 s.mem.gate (8 * die + half) x)

/-- The body names a half-layer of the part, and up or down. -/
def State.NamesHalf (s : State) (b : List Byte) : Prop :=
  natAt b 0 1 ≤ 3 ∧ natAt b 1 1 < 2 * layersOf s.fused.variant ∧ natAt b 2 1 ≤ 1

theorem State.namesHalf_of_not {s : State} {b : List Byte}
    (h : ¬(3 < natAt b 0 1 ∨ 2 * layersOf s.fused.variant ≤ natAt b 1 1 ∨ 1 < natAt b 2 1)) : s.NamesHalf b := by
  unfold State.NamesHalf
  omega

/-- The request of a BANK_POWER body. -/
def gateRequestOf (b : List Byte) : GateRequest :=
  { die := BitVec.ofNat 2 (natAt b 0 1), half := BitVec.ofNat 3 (natAt b 1 1), up := natAt b 2 1 == 1 }

theorem layersOf_le (v : Variant) : layersOf v ≤ 4 := by cases v <;> decide

theorem State.NamesHalf.request {s : State} {b : List Byte} (h : s.NamesHalf b) :
    (gateRequestOf b).die.toNat = natAt b 0 1 ∧ (gateRequestOf b).half.toNat = natAt b 1 1 := by
  obtain ⟨hdie, hhalf, -⟩ := h
  have hlayers := layersOf_le s.fused.variant
  exact ⟨Nat.mod_eq_of_lt (by omega), Nat.mod_eq_of_lt (by omega)⟩

/-- A BANK_POWER command waits for its half-layer. -/
def State.waitGate (s : State) (b : List Byte) (w : Waiting) : State :=
  { s with mem := { s.mem with gateWaits := s.mem.gateWaits ++ [(gateRequestOf b, w)] } }

section
variable {s : State} {b : List Byte} {w : Waiting}

theorem State.bankPower_of_range
    (h : 3 < natAt b 0 1 ∨ 2 * layersOf s.fused.variant ≤ natAt b 1 1 ∨ 1 < natAt b 2 1) :
    s.bankPower w b = s.answer w 0x0B [] :=
  if_pos (by simpa only [Bool.or_eq_true, decide_eq_true_eq, or_assoc] using h)

theorem State.bankPower_of_named (h : s.NamesHalf b) : s.bankPower w b =
    if natAt b 2 1 = 0 && s.halfInUse (natAt b 0 1) (natAt b 1 1) then s.answer w 0x11 []
    else if gateDone (natAt b 2 1 == 1) (s.gateOf (natAt b 0 1) (natAt b 1 1)) then
      s.answer w stOk (toBytes 1 ((s.gateOf (natAt b 0 1) (natAt b 1 1)).setWidth 8))
    else if natAt b 2 1 = 0 && s.inSession then
      { s.waitGate b w with mem := { (s.waitGate b w).mem with
        gateRequests := s.mem.gateRequests ++ [gateRequestOf b] } }
    else (s.waitGate b w).gateNow (gateRequestOf b) := by
  obtain ⟨hdie, hhalf, hop⟩ := h
  refine if_neg ?_
  simp only [Bool.or_eq_true, decide_eq_true_eq]
  omega

theorem State.bankPower_of_inUse (h : s.NamesHalf b) (hop : natAt b 2 1 = 0)
    (huse : s.halfInUse (natAt b 0 1) (natAt b 1 1) = true) : s.bankPower w b = s.answer w 0x11 [] := by
  rw [State.bankPower_of_named h, hop, huse]
  rfl

theorem State.bankPower_of_on (h : s.NamesHalf b) (hop : natAt b 2 1 = 1)
    (hgate : s.gateOf (natAt b 0 1) (natAt b 1 1) = 0) : s.bankPower w b = s.answer w 0 [0] := by
  rw [State.bankPower_of_named h, hop, hgate]
  rfl

/-- A half-layer that is OFF starts to open, and the command waits. -/
theorem State.bankPower_opens (h : s.NamesHalf b) (hop : natAt b 2 1 = 1)
    (hgate : s.gateOf (natAt b 0 1) (natAt b 1 1) = 2) :
    s.bankPower w b = (s.waitGate b w).setGate (natAt b 0 1) (natAt b 1 1) 3 := by
  obtain ⟨hdie, hhalf⟩ := h.request
  have hup : (gateRequestOf b).up = true := beq_iff_eq.2 hop
  have hnow : (s.waitGate b w).gateNow (gateRequestOf b) = (s.waitGate b w).setGate (natAt b 0 1) (natAt b 1 1) 3 := by
    unfold State.gateNow
    rw [hdie, hhalf, hup]
    exact if_pos (beq_iff_eq.2 hgate)
  rw [State.bankPower_of_named h, hnow, hop, hgate]
  rfl

/-- Outside a session a half-layer that is ON starts to close, and the command waits. -/
theorem State.bankPower_closes (h : s.NamesHalf b) (hop : natAt b 2 1 = 0)
    (hgate : s.gateOf (natAt b 0 1) (natAt b 1 1) = 0) (hjob : s.inSession = false) :
    s.bankPower w b = (s.waitGate b w).setGate (natAt b 0 1) (natAt b 1 1) 1 := by
  obtain ⟨hdie, hhalf⟩ := h.request
  have hdown : (gateRequestOf b).up = false := by rw [gateRequestOf, hop]; rfl
  have hfree : s.halfInUse (natAt b 0 1) (natAt b 1 1) = false := by rw [State.halfInUse, hjob]; rfl
  have hnow : (s.waitGate b w).gateNow (gateRequestOf b) = (s.waitGate b w).setGate (natAt b 0 1) (natAt b 1 1) 1 := by
    unfold State.gateNow
    rw [hdie, hhalf, hdown]
    exact if_pos (beq_iff_eq.2 hgate)
  rw [State.bankPower_of_named h, hnow, hop, hgate, hfree, hjob]
  rfl

/-- In a session a power-down waits for the next recess. -/
theorem State.bankPower_requests (h : s.NamesHalf b) (hop : natAt b 2 1 = 0)
    (hgate : s.gateOf (natAt b 0 1) (natAt b 1 1) = 0) (hjob : s.inSession = true)
    (hfree : s.halfInUse (natAt b 0 1) (natAt b 1 1) = false) :
    s.bankPower w b = { s.waitGate b w with mem := { (s.waitGate b w).mem with
      gateRequests := s.mem.gateRequests ++ [gateRequestOf b] } } := by
  rw [State.bankPower_of_named h, hop, hgate, hfree, hjob]
  rfl

end

/-! ## Counters -/

theorem getLsbD_two_pow (k : Nat) {w n : Nat} (hn : n < w) : (BitVec.ofNat w (2 ^ k)).getLsbD n = decide (k = n) := by
  rw [BitVec.getLsbD_ofNat, decide_eq_true hn, Bool.true_and, Nat.testBit_two_pow]

theorem bit_or_two_pow {w n : Nat} (x : BitVec w) (k : Nat) (hn : n < w) :
    bit (x ||| BitVec.ofNat w (2 ^ k)) n = (bit x n || decide (k = n)) := by
  rw [bit, BitVec.getLsbD_or, getLsbD_two_pow k hn]
  rfl

theorem bit_andNot_two_pow {w n : Nat} (x : BitVec w) (k : Nat) (hn : n < w) :
    bit (x &&& ~~~BitVec.ofNat w (2 ^ k)) n = (bit x n && !decide (k = n)) := by
  rw [bit, BitVec.getLsbD_and, BitVec.getLsbD_not, decide_eq_true hn, Bool.true_and, getLsbD_two_pow k hn]
  rfl

/-- Entries from a base on, filled one by one from a function. -/
theorem tabGet_foldl_tabSet_base {α : Type} [DecidableEq α] (d : α) (t : Tab α) (base : Nat) (f : Nat → α) {n i : Nat}
    (hi : i < n) : tabGet d ((List.range n).foldl (fun t i => tabSet d t (base + i) (f i)) t) (base + i) = f i := by
  induction n with
  | zero => exact absurd hi (Nat.not_lt_zero i)
  | succ n ih =>
    rw [List.range_succ, List.foldl_append, List.foldl_cons, List.foldl_nil]
    by_cases hlast : i = n
    · rw [hlast, tabGet_tabSet_same]
    · rw [tabGet_tabSet_other _ _ _ (by omega), ih (by omega)]

section
variable {s : State} {b : List Byte} {w : Waiting}

/-- Switching the counters of a scope on or off changes no register and no memory, and no other scope's switch. -/
theorem State.applyCounters_spec (s : State) (hscope : natAt b 0 1 ≤ 3) :
    s.keeps (s.applyCounters b) ∧ bit (s.applyCounters b).dg.cntOn (natAt b 0 1) = (natAt b 1 1 == 1) ∧
      (∀ n, n < 4 → n ≠ natAt b 0 1 → bit (s.applyCounters b).dg.cntOn n = bit s.dg.cntOn n) ∧
      (natAt b 1 1 = 1 → ∀ i, i < 8 →
        tabGet 0 (s.applyCounters b).dg.cntSel (8 * natAt b 0 1 + i) = fieldAt 16 b (4 + 2 * i)) := by
  have hmod : natAt b 0 1 % 4 = natAt b 0 1 := Nat.mod_eq_of_lt (Nat.lt_succ_of_le hscope)
  have hlt : natAt b 0 1 < 4 := Nat.lt_succ_of_le hscope
  unfold State.applyCounters
  dsimp only
  rw [hmod]
  by_cases hon : natAt b 1 1 = 1
  · rw [if_pos hon]
    refine ⟨?_, ?_, fun n hn hne => ?_, fun _ i hi => tabGet_foldl_tabSet_base 0 _ _ _ hi⟩
    · refine ⟨fun _ => rfl, fun u => ?_⟩
      dsimp only [State.tile]
      split
      · exact tabGet_tabMap_of Tile.reset (fun _ x => { x with totals := [], counters := [] }) Tile.regs (fun _ _ => rfl)
          s.tiles u
      · rfl
    · rw [bit_or_two_pow _ _ hlt, decide_eq_true rfl, Bool.or_true, hon]
      rfl
    · rw [bit_or_two_pow _ _ hn, decide_eq_false (Ne.symm hne), Bool.or_false]
  · rw [if_neg hon]
    refine ⟨State.keeps_of_mem_tiles rfl rfl, ?_, fun n hn hne => ?_, fun h => absurd h hon⟩
    · rw [bit_andNot_two_pow _ _ hlt, decide_eq_true rfl, Bool.not_true, Bool.and_false, beq_eq_false_iff_ne.2 hon]
    · rw [bit_andNot_two_pow _ _ hn, decide_eq_false (Ne.symm hne), Bool.not_false, Bool.and_true]

/-- The scope, the operation and the selectors of a body are those of Table 18-3. -/
def CountersListed (b : List Byte) : Prop :=
  ¬(3 < natAt b 0 1 ∨ 1 < natAt b 1 1 ∨
    (natAt b 1 1 = 1 ∧ ¬∀ i, i < 8 → selectorListed (natAt b 0 1) (natAt b (4 + 2 * i) 2) = true))

theorem countersListed_iff (b : List Byte) : CountersListed b ↔ ¬(3 < natAt b 0 1 || 1 < natAt b 1 1 ||
    (natAt b 1 1 = 1 && !(List.range 8).all fun i => selectorListed (natAt b 0 1) (natAt b (4 + 2 * i) 2))) = true := by
  simp only [CountersListed, Bool.or_eq_true, Bool.and_eq_true, decide_eq_true_eq, Bool.not_eq_true',
    ← Bool.not_eq_true, List.all_eq_true, List.mem_range, or_assoc]

theorem State.countersEnable_of_range (h : ¬CountersListed b) : s.countersEnable w b = s.answer w 0x0B [] :=
  if_pos (not_not.1 (mt (countersListed_iff b).2 h))

theorem State.countersEnable_of_inSession (h : CountersListed b) (hjob : s.inSession = true) :
    s.countersEnable w b = { s with dg := { s.dg with cntWaits := s.dg.cntWaits ++ [(w, b)] } } :=
  (if_neg ((countersListed_iff b).1 h)).trans (if_pos hjob)

theorem State.countersEnable_of_idle (h : CountersListed b) (hjob : s.inSession = false) :
    s.countersEnable w b = (s.applyCounters b).answer w 0 [] :=
  (if_neg ((countersListed_iff b).1 h)).trans (if_neg (by rw [hjob]; exact Bool.false_ne_true))

theorem State.countersRead_flags (k : Nat) (h : natAt b 0 1 = 0) : s.countersRead k w b = s.answer w 0 s.flagBody := by
  unfold State.countersRead
  rw [h]
  rfl

theorem State.countersRead_registrar (k : Nat) (h : natAt b 0 1 = 1) :
    s.countersRead k w b = s.answer w 0 (s.registrarBody k) := by
  unfold State.countersRead
  rw [h]
  rfl

theorem State.countersRead_tile (k : Nat) (h : natAt b 0 1 = 2) (hn : natAt b 2 2 < 1024) : s.countersRead k w b =
    s.answer w 0 (s.countsBody fun i => tabGet 0 (s.tile (natAt b 2 2)).totals i) := by
  unfold State.countersRead
  rw [h]
  exact if_pos hn

theorem State.countersRead_scope (k : Nat) (h : natAt b 0 1 = 3) (hn : natAt b 2 2 < 1024) (hscope : 256 ≤ natAt b 2 2)
    (hinst : natAt b 2 2 % 256 < s.instances (natAt b 2 2 / 256)) : s.countersRead k w b = s.answer w 0
    (s.countsBody fun i => tabGet 0 s.dg.cntCopy (256 * (64 * (natAt b 2 2 / 256) + natAt b 2 2 % 256) + i)) := by
  have hmod : natAt b 2 2 / 256 % 4 = natAt b 2 2 / 256 := Nat.mod_eq_of_lt (by omega)
  have hne : natAt b 2 2 / 256 ≠ 0 := by omega
  have hall : (decide (natAt b 2 2 < 1024) && natAt b 2 2 / 256 != 0 &&
      decide (natAt b 2 2 % 256 < s.instances (natAt b 2 2 / 256))) = true := by
    rw [decide_eq_true hn, bne_iff_ne.2 hne, decide_eq_true hinst]
    rfl
  unfold State.countersRead
  rw [h]
  dsimp only
  rw [hmod]
  exact if_pos hall

theorem State.countersRead_of_range (k : Nat) (h : 4 ≤ natAt b 0 1 ∨ (2 ≤ natAt b 0 1 ∧ 1024 ≤ natAt b 2 2)) :
    s.countersRead k w b = s.answer w 0x0B [] := by
  unfold State.countersRead
  dsimp only
  split
  · omega
  · omega
  · next h2 => exact if_neg (by omega)
  · next h3 =>
    have hbig : ¬natAt b 2 2 < 1024 := by omega
    rw [decide_eq_false hbig, Bool.false_and, Bool.false_and]
    rfl
  · rfl

/-! ## Debug -/

theorem State.debugProbe_closed (h : s.dg.debugMode = false) : s.debugProbe w b = s.answer w 8 [] :=
  if_neg (by rw [h]; exact Bool.false_ne_true)

theorem State.debugProbe_open (h : s.dg.debugMode = true) : s.debugProbe w b =
    State.answer { s with dg := { s.dg with
      probes := (List.range 16).foldl (fun t i => tabSet 0 t i (fieldAt 16 b (2 * i))) [] } } w 0 [] := if_pos h

/-- A DEBUG_BREAK body names an operation, a kind and a tile that exist. -/
def BreakListed (b : List Byte) : Prop :=
  ¬(1 < natAt b 0 1 ∨ 2 < natAt b 1 1 ∨ (natAt b 0 1 = 1 ∧ 1023 < natAt b 2 2 ∧ natAt b 2 2 ≠ 0xFFFF))

theorem breakListed_iff (b : List Byte) : BreakListed b ↔ ¬(1 < natAt b 0 1 || 2 < natAt b 1 1 ||
    (natAt b 0 1 = 1 && 1023 < natAt b 2 2 && natAt b 2 2 != 0xFFFF)) = true := by
  simp only [BreakListed, Bool.or_eq_true, Bool.and_eq_true, decide_eq_true_eq, bne_iff_ne, or_assoc, and_assoc]

theorem State.debugBreak_closed (h : s.dg.debugMode = false) : s.debugBreak w b = s.answer w 8 [] :=
  if_pos (by rw [h]; rfl)

theorem State.debugBreak_of_range (h : s.dg.debugMode = true) (hbad : ¬BreakListed b) :
    s.debugBreak w b = s.answer w 0x0B [] :=
  (if_neg (by rw [h]; exact Bool.false_ne_true)).trans (if_pos (not_not.1 (mt (breakListed_iff b).2 hbad)))

/-- The breakpoints of the kinds other than a body's. -/
def State.otherBreaks (s : State) (b : List Byte) : List Breakpoint :=
  s.dg.breakpoints.filter fun x => x.kind.toNat != natAt b 1 1

theorem State.debugBreak_of_listed (h : s.dg.debugMode = true) (hgood : BreakListed b) : s.debugBreak w b =
    State.answer { s with
      bell := if natAt b 0 1 = 0 && s.brokenBy (natAt b 1 1) then { s.bell with withheld := false } else s.bell
      dg := { s.dg with breakpoints := if natAt b 0 1 = 0 then s.otherBreaks b else s.otherBreaks b ++
        [{ kind := BitVec.ofNat 2 (natAt b 1 1), tile := fieldAt 16 b 2, value := fieldAt 64 b 8 }] } } w 0 [] :=
  (if_neg (by rw [h]; exact Bool.false_ne_true)).trans (if_neg ((breakListed_iff b).1 hgood))

theorem State.debugBreak_sets (h : s.dg.debugMode = true) (hgood : BreakListed b) (hop : natAt b 0 1 = 1) :
    s.debugBreak w b = State.answer { s with dg := { s.dg with breakpoints := s.otherBreaks b ++
      [{ kind := BitVec.ofNat 2 (natAt b 1 1), tile := fieldAt 16 b 2, value := fieldAt 64 b 8 }] } } w 0 [] := by
  rw [State.debugBreak_of_listed h hgood, hop]
  rfl

/-- Taking a breakpoint back lets a ready that it holds go. -/
theorem State.debugBreak_clears (h : s.dg.debugMode = true) (hgood : BreakListed b) (hop : natAt b 0 1 = 0) :
    ∃ s2 : State, s.debugBreak w b = s2.answer w 0 [] ∧ s2.dg.breakpoints = s.otherBreaks b ∧
      (s.brokenBy (natAt b 1 1) = true → s2.bell.withheld = false) ∧
      (s.brokenBy (natAt b 1 1) = false → s2.bell = s.bell) := by
  refine ⟨_, State.debugBreak_of_listed h hgood, if_pos hop, fun hbroken => ?_, fun hwhole => ?_⟩
  · dsimp only
    rw [hop, hbroken]
    rfl
  · dsimp only
    rw [hop, hwhole]
    rfl

end

end Sys2Proof.Machine
end

section
/-! PROOFS. Each command on a request that its turn starts (R402, R411, R416, R441, R458, R484). -/

namespace Sys2Proof.Machine

theorem State.says_of_run {s s1 u : State} {c : Instr} {w : Waiting} {st : BitVec 16} {body : List Byte}
    (hexec : exec c s = .next u) (hrun : u = s1.answer w st body) : s.says c s1 w st body :=
  hexec.trans (congrArg Host.Outcome.next hrun)

theorem State.askStep_of_none {s : State} (h : s.pw.stepWaits = []) (w : Waiting) (n : Nat) : s.askStep w n =
    { s with pw := { s.pw with requested := BitVec.ofNat 3 n, stepWaits := [w] } } := by
  rw [State.askStep, h]
  rfl

theorem State.askLimit_of_none {s : State} (h : s.pw.limitWaits = []) (w : Waiting) (n : Nat) : s.askLimit w n =
    { s with pw := { s.pw with nextLimit := some (BitVec.ofNat 2 n), limitWaits := [w] } } := by
  rw [State.askLimit, h]
  rfl

section
variable {s s1 : State} {tr : BitVec 7} {b : List Byte} {w : Waiting}

theorem State.says_identify (h : s.accepts tr.toNat 0x02 b w s1) (hk : tr.toNat ≤ 64) :
    s.says (.identify tr) s1 w 0 s.identifyBody := by
  obtain ⟨x, rfl, -⟩ := State.accepts_eq h
  exact exec_identify_of_accepts h hk

theorem State.says_caps (h : s.accepts tr.toNat 0x03 b w s1) (hk : tr.toNat ≤ 64) :
    s.says (.caps tr) s1 w 0 s.capsTable := by
  obtain ⟨x, rfl, -⟩ := State.accepts_eq h
  exact exec_caps_of_accepts h hk

theorem State.says_updateStatus (h : s.accepts tr.toNat 0x71 b w s1) (hk : tr.toNat = 0 ∨ tr.toNat = 64) :
    s.says (.updateStatus tr) { s1 with free := s.free + 1 } w 0
      ([s.sec.running.setWidth 8, 0, 0, 0] ++ toBytes 4 s.sec.slotA.version ++ toBytes 4 s.sec.slotB.version ++
        [slotCode s.sec.slotA.state, slotCode s.sec.slotB.state] ++ natToBytes 1 (if s.sec.slotA.state = .trial then
          s.sec.slotA.failedTrials else if s.sec.slotB.state = .trial then s.sec.slotB.failedTrials else 0) ++ [0] ++
        toBytes 8 s.sec.antiRollback) := by
  have hexec := exec_updateStatus_of_accepts h hk
  obtain ⟨x, rfl, -, -, -, -, htrial⟩ := State.accepts_eq h
  rw [State.updateBody_of_settled (s := s.setMbox tr.toNat x) htrial] at hexec
  exact hexec

theorem State.attest_answers (h : s.accepts 0 0x70 b w s1) (hlen : 72 ≤ b.length) :
    (natAt b 68 4 = 0 → ∃ r, bytesAt r 64 64 = bytesAt b 0 64 ∧ fieldAt 64 r 8 = s.fused.serial ∧
      natAt r 4 4 = r.length % 2 ^ 32 ∧
      s.says (.attest 0) (s1.setMbox 0 { s1.mbox 0 with report := some (bytesAt b 0 64, fieldAt 16 b 64, r) }) w 0
        (natToBytes 4 r.length ++ natToBytes 4 0 ++ r.take 3800)) ∧
    (natAt b 68 4 ≠ 0 → (∀ r, (s.mbox 0).report = some (bytesAt b 0 64, fieldAt 16 b 64, r) →
      s.says (.attest 0) s1 w 0
        (natToBytes 4 r.length ++ natToBytes 4 (natAt b 68 4) ++ (r.drop (natAt b 68 4)).take 3800)) ∧
      ((s.mbox 0).report = none → s.says (.attest 0) s1 w 8 [])) := by
  have hexec := exec_attest_of_accepts h hlen
  obtain ⟨x, rfl, -, -, -, hreport, -⟩ := State.accepts_eq h
  have hkept : ((s.setMbox 0 x).mbox 0).report = (s.mbox 0).report := by
    rw [State.setMbox_mbox_same]
    exact hreport
  refine ⟨fun hoff => ?_, fun hoff => ⟨fun r hr => ?_, fun hnone => ?_⟩⟩
  · obtain ⟨hnonce, hserial, hlength⟩ := (s.setMbox 0 x).attestReport_fields (length_bytesAt b 0 64) (fieldAt 16 b 64)
    exact ⟨_, hnonce, hserial, hlength, State.says_of_run hexec (State.attest_first w hoff 0)⟩
  · exact State.says_of_run hexec (State.attest_next w hoff (hkept.trans hr))
  · exact State.says_of_run hexec (State.attest_missing w hoff (hkept.trans hnone))

theorem State.powerStep_answers (h : s.accepts 0 0x30 b w s1) (hlen : 1 ≤ b.length) (hwaits : s.pw.stepWaits = []) :
    (s.gradeStep < natAt b 0 1 → s.says (.powerStep 0) s1 w 0x10 []) ∧
    (natAt b 0 1 ≤ s.gradeStep → s.inSession = true → s.isMember = true → exec (.powerStep 0) s =
      .next { s1 with pw := { s.pw with requested := BitVec.ofNat 3 (natAt b 0 1), stepWaits := [w] } }) ∧
    (natAt b 0 1 ≤ s.gradeStep → s.inSession = false → ∃ s2, s.says (.powerStep 0) s2 w 0 [s2.pw.step.setWidth 8] ∧
      s2.pw.requested = BitVec.ofNat 3 (natAt b 0 1) ∧ s2.pw.step = s2.stepWanted none ∧ s1.keeps s2) := by
  have hexec := exec_powerStep_of_accepts h hlen
  obtain ⟨x, rfl, -⟩ := State.accepts_eq h
  refine ⟨fun habove => ?_, fun hgrade hjob hmember => ?_, fun hgrade hjob => ?_⟩
  · exact State.says_of_run hexec (State.powerStep_of_above_grade (s := s.setMbox 0 x) habove w)
  · rw [hexec, State.powerStep_of_inSession (s := s.setMbox 0 x) hgrade hjob hmember,
      State.askStep_of_none (s := s.setMbox 0 x) hwaits]
    rfl
  · obtain ⟨s2, hrun, hrest⟩ := State.powerStep_of_idle (s := s.setMbox 0 x) (w := w) hgrade hjob hwaits
    exact ⟨s2, State.says_of_run hexec hrun, hrest⟩

theorem State.powerLimit_answers (h : s.accepts tr.toNat 0x31 b w s1) (hk : tr.toNat = 0 ∨ tr.toNat = 64)
    (hlen : 1 ≤ b.length) (hwaits : s.pw.limitWaits = []) :
    (3 < natAt b 0 1 → s.says (.powerLimit tr) s1 w 0xB []) ∧
    (natAt b 0 1 ≤ 3 → s.inSession = true → s.isMember = true → natAt b 0 1 < s.pw.limit.toNat →
      exec (.powerLimit tr) s =
        .next { s1 with pw := { s.pw with nextLimit := some (BitVec.ofNat 2 (natAt b 0 1)), limitWaits := [w] } }) ∧
    (natAt b 0 1 ≤ 3 → s.inSession = false → ∃ s' r, exec (.powerLimit tr) s = .next s' ∧ s1.keeps s' ∧
      s'.pw.limit = BitVec.ofNat 2 (natAt b 0 1) ∧ s'.pw.step = s'.stepWanted none ∧ s'.pw.nextLimit = none ∧
      (s'.mbox tr.toNat).responses = (s.mbox tr.toNat).responses ++ [r] ∧ r.status = 0 ∧
      r.body = [BitVec.ofNat 8 (natAt b 0 1)]) := by
  have hexec := exec_powerLimit_of_accepts h hk hlen
  obtain ⟨x, rfl, htransport, hlife, hresponses, -, -⟩ := State.accepts_eq h
  have hto : w.transport.toNat = tr.toNat := by rw [htransport, BitVec.ofNat_toNat, BitVec.setWidth_eq]
  refine ⟨fun hrange => ?_, fun hle hjob hmember hlower => ?_, fun hle hjob => ?_⟩
  · exact State.says_of_run hexec (State.powerLimit_of_range (s := s.setMbox tr.toNat x) hrange)
  · rw [hexec, State.powerLimit_of_inSession (s := s.setMbox tr.toNat x) hle hjob hmember hlower,
      State.askLimit_of_none (s := s.setMbox tr.toNat x) hwaits]
    rfl
  · obtain ⟨hkeeps, hlimit, hstep, hnext, r, hr, hstatus, hbody⟩ :=
      State.powerLimit_of_idle (s := s.setMbox tr.toNat x) (w := w) hle hjob hwaits
        (by rw [hto, State.setMbox_mbox_same]; exact hlife)
    rw [hto, State.setMbox_mbox_same, hresponses] at hr
    exact ⟨_, r, hexec, hkeeps, hlimit, hstep, hnext, hr, hstatus, hbody⟩

theorem State.bankPower_answers (h : s.accepts 0 0x32 b w s1) (hlen : 3 ≤ b.length) :
    let bad := 3 < natAt b 0 1 ∨ 2 * layersOf s.fused.variant ≤ natAt b 1 1 ∨ 1 < natAt b 2 1
    let g := s.gateOf (natAt b 0 1) (natAt b 1 1)
    (bad → s.says (.bankPower 0) s1 w 0xB []) ∧
    (¬bad → natAt b 2 1 = 0 → s.halfInUse (natAt b 0 1) (natAt b 1 1) = true → s.says (.bankPower 0) s1 w 0x11 []) ∧
    (¬bad → natAt b 2 1 = 1 → g = 0 → s.says (.bankPower 0) s1 w 0 [0]) ∧
    (¬bad → natAt b 2 1 = 1 → g = 2 → ∃ s', exec (.bankPower 0) s = .next s' ∧ s1.keeps s' ∧
      s'.mem.gateWaits = s.mem.gateWaits ++ [(gateRequestOf b, w)] ∧ s'.gateOf (natAt b 0 1) (natAt b 1 1) = 3) ∧
    (¬bad → natAt b 2 1 = 0 → g = 0 → s.inSession = false → ∃ s', exec (.bankPower 0) s = .next s' ∧ s1.keeps s' ∧
      s'.mem.gateWaits = s.mem.gateWaits ++ [(gateRequestOf b, w)] ∧ s'.gateOf (natAt b 0 1) (natAt b 1 1) = 1) ∧
    (¬bad → natAt b 2 1 = 0 → g = 0 → s.inSession = true → s.halfInUse (natAt b 0 1) (natAt b 1 1) = false →
      ∃ s', exec (.bankPower 0) s = .next s' ∧ s1.keeps s' ∧
        s'.mem.gateRequests = s.mem.gateRequests ++ [gateRequestOf b] ∧
        s'.gateOf (natAt b 0 1) (natAt b 1 1) = 0) := by
  intro bad g
  have hexec := exec_bankPower_of_accepts h hlen
  obtain ⟨x, rfl, -⟩ := State.accepts_eq h
  have hnamed : ¬bad → (s.setMbox 0 x).NamesHalf b := State.namesHalf_of_not (s := s.setMbox 0 x)
  refine ⟨fun hbad => ?_, fun hgood hop huse => ?_, fun hgood hop hg => ?_, fun hgood hop hg => ?_,
    fun hgood hop hg hjob => ?_, fun hgood hop hg hjob hfree => ?_⟩
  · exact State.says_of_run hexec (State.bankPower_of_range (s := s.setMbox 0 x) hbad)
  · exact State.says_of_run hexec (State.bankPower_of_inUse (hnamed hgood) hop huse)
  · exact State.says_of_run hexec (State.bankPower_of_on (hnamed hgood) hop hg)
  · rw [State.bankPower_opens (hnamed hgood) hop hg] at hexec
    obtain ⟨-, hhalf, -⟩ := hnamed hgood
    exact ⟨_, hexec, .of_bytes rfl rfl, rfl, State.gateOf_setGate hhalf 3⟩
  · rw [State.bankPower_closes (hnamed hgood) hop hg hjob] at hexec
    obtain ⟨-, hhalf, -⟩ := hnamed hgood
    exact ⟨_, hexec, .of_bytes rfl rfl, rfl, State.gateOf_setGate hhalf 1⟩
  · rw [State.bankPower_requests (hnamed hgood) hop hg hjob hfree] at hexec
    exact ⟨_, hexec, .of_bytes rfl rfl, rfl, hg⟩

theorem State.countersEnable_answers (h : s.accepts 0 0x50 b w s1) (hlen : 148 ≤ b.length) :
    (¬CountersListed b → s.says (.countersEnable 0) s1 w 0xB []) ∧
    (CountersListed b → s.inSession = true → exec (.countersEnable 0) s =
      .next { s1 with dg := { s.dg with cntWaits := s.dg.cntWaits ++ [(w, b)] } }) ∧
    (CountersListed b → s.inSession = false → ∃ s2, s.says (.countersEnable 0) s2 w 0 [] ∧ s1.keeps s2 ∧
      bit s2.dg.cntOn (natAt b 0 1) = (natAt b 1 1 == 1) ∧
      (∀ n, n < 4 → n ≠ natAt b 0 1 → bit s2.dg.cntOn n = bit s.dg.cntOn n) ∧
      (natAt b 1 1 = 1 → ∀ i, i < 8 → tabGet 0 s2.dg.cntSel (8 * natAt b 0 1 + i) = fieldAt 16 b (4 + 2 * i))) := by
  have hexec := exec_countersEnable_of_accepts h hlen
  obtain ⟨x, rfl, -⟩ := State.accepts_eq h
  refine ⟨fun hbad => ?_, fun hgood hjob => ?_, fun hgood hjob => ?_⟩
  · exact State.says_of_run hexec (State.countersEnable_of_range hbad)
  · exact hexec.trans (congrArg Host.Outcome.next (State.countersEnable_of_inSession (s := s.setMbox 0 x) hgood hjob))
  · have hscope : natAt b 0 1 ≤ 3 := Nat.le_of_not_lt (not_or.1 hgood).1
    exact ⟨_, State.says_of_run hexec (State.countersEnable_of_idle (s := s.setMbox 0 x) hgood hjob),
      (s.setMbox 0 x).applyCounters_spec hscope⟩

theorem State.countersRead_answers (h : s.accepts 0 0x51 b w s1) (hlen : 4 ≤ b.length) :
    (natAt b 0 1 = 0 → s.says (.countersRead 0) s1 w 0 s.flagBody) ∧
    (natAt b 0 1 = 1 → s.says (.countersRead 0) s1 w 0 (s.registrarBody 0)) ∧
    (natAt b 0 1 = 2 → natAt b 2 2 < 1024 → s.says (.countersRead 0) s1 w 0
      (s.countsBody fun i => tabGet 0 (s.tile (natAt b 2 2)).totals i)) ∧
    (natAt b 0 1 = 3 → natAt b 2 2 < 1024 → 256 ≤ natAt b 2 2 → natAt b 2 2 % 256 < s.instances (natAt b 2 2 / 256) →
      s.says (.countersRead 0) s1 w 0
        (s.countsBody fun i => tabGet 0 s.dg.cntCopy (256 * (64 * (natAt b 2 2 / 256) + natAt b 2 2 % 256) + i))) ∧
    (4 ≤ natAt b 0 1 ∨ (2 ≤ natAt b 0 1 ∧ 1024 ≤ natAt b 2 2) → s.says (.countersRead 0) s1 w 0xB []) := by
  have hexec := exec_countersRead_of_accepts h hlen
  obtain ⟨x, rfl, -⟩ := State.accepts_eq h
  exact ⟨fun h0 => State.says_of_run hexec (State.countersRead_flags 0 h0),
    fun h1 => State.says_of_run hexec (State.countersRead_registrar 0 h1),
    fun h2 hn => State.says_of_run hexec (State.countersRead_tile 0 h2 hn),
    fun h3 hn hscope hinst => State.says_of_run hexec (State.countersRead_scope (s := s.setMbox 0 x) 0 h3 hn hscope hinst),
    fun hrange => State.says_of_run hexec (State.countersRead_of_range 0 hrange)⟩

theorem State.debugProbe_answers (h : s.accepts 0 0x61 b w s1) (hlen : 32 ≤ b.length) :
    (s.dg.debugMode = false → s.says (.debugProbe 0) s1 w 8 []) ∧
    (s.dg.debugMode = true → ∃ t, s.says (.debugProbe 0) { s1 with dg := { s.dg with probes := t } } w 0 [] ∧
      ∀ i, i < 16 → tabGet 0 t i = fieldAt 16 b (2 * i)) := by
  have hexec := exec_debugProbe_of_accepts h hlen
  obtain ⟨x, rfl, -⟩ := State.accepts_eq h
  refine ⟨fun hclosed => ?_, fun hopen => ⟨_, ?_, fun i hi => (tabGet_foldl_tabSet_range 0 _ 16 i).trans (if_pos hi)⟩⟩
  · exact State.says_of_run hexec (State.debugProbe_closed (s := s.setMbox 0 x) hclosed)
  · exact State.says_of_run hexec (State.debugProbe_open (s := s.setMbox 0 x) hopen)

theorem State.debugBreak_answers (h : s.accepts 0 0x62 b w s1) (hlen : 16 ≤ b.length) :
    (s.dg.debugMode = false → s.says (.debugBreak 0) s1 w 8 []) ∧
    (s.dg.debugMode = true → ¬BreakListed b → s.says (.debugBreak 0) s1 w 0xB []) ∧
    (s.dg.debugMode = true → BreakListed b → natAt b 0 1 = 1 → s.says (.debugBreak 0) { s1 with dg := { s.dg with
      breakpoints := s.otherBreaks b ++
        [{ kind := BitVec.ofNat 2 (natAt b 1 1), tile := fieldAt 16 b 2, value := fieldAt 64 b 8 }] } } w 0 []) ∧
    (s.dg.debugMode = true → BreakListed b → natAt b 0 1 = 0 → ∃ s2, s.says (.debugBreak 0) s2 w 0 [] ∧
      s2.dg.breakpoints = s.otherBreaks b ∧ (s.brokenBy (natAt b 1 1) = true → s2.bell.withheld = false) ∧
      (s.brokenBy (natAt b 1 1) = false → s2.bell = s.bell)) := by
  have hexec := exec_debugBreak_of_accepts h hlen
  obtain ⟨x, rfl, -⟩ := State.accepts_eq h
  refine ⟨fun hclosed => ?_, fun hopen hbad => ?_, fun hopen hgood hop => ?_, fun hopen hgood hop => ?_⟩
  · exact State.says_of_run hexec (State.debugBreak_closed (s := s.setMbox 0 x) hclosed)
  · exact State.says_of_run hexec (State.debugBreak_of_range (s := s.setMbox 0 x) hopen hbad)
  · exact State.says_of_run hexec (State.debugBreak_sets (s := s.setMbox 0 x) hopen hgood hop)
  · obtain ⟨s2, hrun, hrest⟩ := State.debugBreak_clears (s := s.setMbox 0 x) (w := w) hopen hgood hop
    exact ⟨s2, State.says_of_run hexec hrun, hrest⟩

end

/-- Settles O51: the start of a command's turn changes its mailbox alone, so each is answered as its body and the part's
state say. -/
theorem reportCommands : Obligations.ReportCommands := by
  unfold Obligations.ReportCommands
  intro s s1 tr b w
  refine ⟨fun hk h => ⟨State.says_identify h hk, s.identifyBody_fields⟩,
    fun hk h => ⟨State.says_caps h hk, s.capsTable_fields⟩, fun hk h => State.says_updateStatus h hk,
    State.attest_answers, State.powerStep_answers, fun hk h hlen => State.powerLimit_answers h hk hlen,
    State.bankPower_answers, fun h hlen => ?enable, State.countersRead_answers, State.debugProbe_answers,
    fun h hlen => ?breaks⟩
  case enable =>
    obtain ⟨hbad, hwait, happly⟩ := State.countersEnable_answers h hlen
    exact ⟨fun hb => hbad (not_not.2 hb), hwait, happly⟩
  case breaks =>
    obtain ⟨hclosed, hbad, hsets, hclears⟩ := State.debugBreak_answers h hlen
    exact ⟨hclosed, fun hopen hb => hbad hopen (not_not.2 hb), hsets, hclears⟩

end Sys2Proof.Machine
end
